-- ==== Sys2Proof/Word.lean ====
section
/-! DEFINITION. The word types of the ZG4712 (R4, R6): 32-bit registers, 64-bit pairs and values, bytes. -/

namespace Sys2Proof

/-- A 32-bit register (R4). -/
abbrev Word := BitVec 32

/-- A 64-bit value: a LO/HI pair (R6), a flow-engine X register, a channel word. -/
abbrev DWord := BitVec 64

/-- One byte of memory, of a frame or of a structure. -/
abbrev Byte := BitVec 8

end Sys2Proof
end

