-- ==== Sys2Proof/Machine/Tbl.lean ====
section
/-! DEFINITION. Sparse tables as plain data: a list of (key, value) pairs, keys rising, with no entry equal to what an
unlisted key reads as. Registers, memory and every per-object table of the state are such lists. -/

namespace Sys2Proof.Machine

/-- A table keyed by number. -/
abbrev Tbl (α : Type) := List (Nat × α)

/-- The value at `k`, `d` where none is listed. -/
def tget {κ ν : Type} [DecidableEq κ] (d : ν) (t : List (κ × ν)) (k : κ) : ν :=
  match t.find? (fun e => decide (e.1 = k)) with
  | some e => e.2
  | none => d

/-- Put an entry before the first larger key. -/
def tins {κ ν : Type} (lt : κ → κ → Bool) (k : κ) (v : ν) : List (κ × ν) → List (κ × ν)
  | [] => [(k, v)]
  | e :: t => if lt k e.1 then (k, v) :: e :: t else e :: tins lt k v t

/-- The table without `k`. -/
def tdel {κ ν : Type} [DecidableEq κ] (t : List (κ × ν)) (k : κ) : List (κ × ν) :=
  t.filter fun e => !decide (e.1 = k)

/-- The table with `k` reading `v`; `d` is what an unlisted `k` reads as. -/
def tset {κ ν : Type} [DecidableEq κ] [DecidableEq ν] (lt : κ → κ → Bool) (d : ν) (t : List (κ × ν)) (k : κ) (v : ν) :
    List (κ × ν) :=
  if v = d then tdel t k else tins lt k v (tdel t k)

/-- Order of number keys. -/
def natLt (a b : Nat) : Bool := decide (a < b)

/-- `tset` on a table keyed by number. -/
def nset {ν : Type} [DecidableEq ν] (d : ν) (t : Tbl ν) (k : Nat) (v : ν) : Tbl ν := tset natLt d t k v

/-- Change the value at `k`. -/
def nmod {ν : Type} [DecidableEq ν] (d : ν) (t : Tbl ν) (k : Nat) (f : ν → ν) : Tbl ν := nset d t k (f (tget d t k))

/-- Set a flag of a table of flags. -/
def fset (t : Tbl Bool) (k : Nat) (v : Bool) : Tbl Bool := nset false t k v

/-- The canonical form: keys rise strictly and no entry holds what an unlisted key reads as. -/
def canonical {κ ν : Type} [DecidableEq ν] (lt : κ → κ → Bool) (d : κ → ν) (t : List (κ × ν)) : Bool :=
  decide (t.Pairwise fun a b => lt a.1 b.1 = true) && t.all fun e => !decide (e.2 = d e.1)

end Sys2Proof.Machine
end

