-- ==== Sys2Proof/Machine/Types.lean ====
section
/-! DEFINITION. The kinds of things the state is made of: domains, wheel events, latches, rings, requests, links. -/

namespace Sys2Proof.Machine

/-- Who makes a register access (R28, R70): the management function of a host port, or a control core. -/
inductive Accessor where
  | port (p : Fin 2)
  | core (c : Fin 48)
deriving DecidableEq, Repr

/-- A number for each accessor: its own copy of the selector registers (R73) is kept under it. -/
def Accessor.code : Accessor → Nat
  | .port p => p.val
  | .core c => 2 + c.val

/-- The copies of a register (R6, R7, R73, R77). -/
inductive Bank where
  | live | staged | pending | committed | hiLatch | loHold | selector
deriving DecidableEq, Repr

/-- Position of a bank in the order of register keys. -/
def Bank.idx : Bank → Nat
  | .live => 0 | .staged => 1 | .pending => 2 | .committed => 3 | .hiLatch => 4 | .loHold => 5 | .selector => 6

/-- Key of one stored register copy: bank, page index, copy of the windowed page (or object, or accessor), offset. -/
structure RKey where
  bank : Bank
  page : Nat
  inst : Nat
  off : Nat
deriving DecidableEq, Repr

/-- The order of register keys: by bank, page, copy, offset. -/
def RKey.lt (a b : RKey) : Bool :=
  decide (a.bank.idx < b.bank.idx) || (decide (a.bank.idx = b.bank.idx) &&
    (decide (a.page < b.page) || (decide (a.page = b.page) &&
      (decide (a.inst < b.inst) || (decide (a.inst = b.inst) && decide (a.off < b.off))))))

/-! ## Time and wheel (R35 to R69) -/

/-- A slew in progress (R45): its sign, its amount in 2^-40 ns, the part reached and the step, both in 10^-6 of that. It has
no step before its first edge. -/
structure Slew where
  neg : Bool
  total : Nat
  acc : Nat
  step : Option Nat
deriving DecidableEq, Repr

/-- One time domain (R35): seconds, nanoseconds, 40-bit fraction; REFCLK edges since the discipline timer started
(R48), none when it does not run; the slew in progress. Its STATE, HOLDOVER and ARM_COUNT are in TIME.DOMn_STATUS. -/
structure Dom where
  sec : Nat
  ns : Nat
  frac : Nat
  disc : Option Nat
  slew : Option Slew
deriving DecidableEq, Repr

/-- Domain time 0 (R38). -/
def Dom.zero : Dom := ⟨0, 0, 0, none, none⟩

/-- What a domain has been told to do at its next REFCLK edge (R40, R42, R47, R48, R68): arm; step by so many ns; HOLD_SET;
HOLD_CLR; a discipline write; a snapshot. `lim`: the edges after which the discipline timer expires, as DISC_TIMEOUT stood
at the last edge. -/
structure DomActs where
  arm : Bool
  step : Option Int
  holdSet : Bool
  holdClr : Bool
  disc : Bool
  snap : Bool
  lim : Nat
deriving DecidableEq, Repr

/-- Nothing to do at the next edge. -/
def DomActs.none : DomActs := ⟨false, .none, false, false, false, false, 0⟩

/-- What a wheel event is for (R56). -/
inductive Consumer where
  | swEvent (src : Nat)
  | frameLaunch (frame : Nat)
  | louvre (port : Nat)
  | periodOut (m : Nat)
  | shaperRefill (block : Nat)
  | ctrlLimit (pipe : Nat)
  | intBucket (fn : Nat)
  | polBlock (block : Nat)
  | aging (pipe : Nat)
  | telemetry
  | ringPoll (ring : Nat)
  | flushDeadline (vol : Nat)
  | pacing (qp : Nat)
  | retx (qp : Nat)
  | rnr (qp : Nat)
  | threadWait (thread : Nat)
  | hbSend
  | deadPeer
deriving DecidableEq, Repr

/-- The kinds of internal consumers whose refused requests are made again (R56, R57, R357). -/
inductive PeriodicKind where
  | shaper | policer | control | bucket | aging | telemetry | poll | heartbeat | queuePair | flushTimer | deadPeer
deriving DecidableEq, Repr

/-- A pending event of the wheel (R52, R54, R58, R69). `due` is its due tick (R55). -/
structure WEvent where
  idx : Nat
  gen : Nat
  dom : Nat
  target : Nat
  cls : Nat
  seq : Nat
  due : Option Nat
  consumer : Consumer
deriving DecidableEq, Repr

/-- A periodic consumer whose reschedule was refused (R57): its domain and the last point of its grid. -/
structure Retry where
  consumer : Consumer
  dom : Nat
  last : Nat
deriving DecidableEq, Repr

/-- The time unit and the wheel behind their pages: the domains and what each does at the next edge, REFCLK edges since
reset, the present dispatch tick and the events dispatched in it. -/
structure TimeSt where
  dom : Tbl Dom := []
  acts : Tbl DomActs := []
  edges : Nat := 0
  tick : Nat := 0
  fired : Nat := 0
  events : List WEvent := []
  flush : List WEvent := []
  seq : Nat := 0
  retry : List Retry := []
  restart : List (Nat × Consumer) := []
  handle : Nat := 0
  ppsFifo : Tbl (List (Nat × Nat)) := []
  /-- what the last read of CAP_SEC_LO latched of the head capture, until CAP_NS is read (R65) -/
  ppsLatch : Tbl (Option Nat) := []
  ppsOutK : Tbl Nat := []
  ppsOutLevel : Tbl Bool := []
  /-- when an output's inactive edge is due, in 2^-16 ns of its domain (R66) -/
  ppsOffAt : Tbl Nat := []
deriving DecidableEq, Repr

/-! ## Latches and the MAINT arbiter (R86 to R95) -/

/-- Latch states (R88). -/
inductive LState where
  | free | held | broken | heldBroken
deriving DecidableEq, Repr

/-- A latch: its state and its owner code (R86). -/
structure Latch where
  st : LState
  owner : Nat
deriving DecidableEq, Repr

/-- A latch after device reset: FREE, owner none. -/
def Latch.init : Latch := ⟨.free, 0xC000⟩

/-- Where a start of a maintenance activity comes from (R94). -/
inductive Origin where
  | ring | register | periodic
deriving DecidableEq, Repr

/-- Rank of an origin in the arbiter's order (R94). -/
def Origin.rank : Origin → Nat
  | .ring => 0 | .register => 1 | .periodic => 2

/-- A start at the arbiter: activity, scope, origin, a reference the owning block uses (a work item, a command), and the clock of
the arbiter in which it arrived. -/
structure MStart where
  act : Nat
  scope : Nat
  origin : Origin
  ref : Nat
  clock : Nat
deriving DecidableEq, Repr

/-! ## Host ports and functions (R100 to R147) -/

/-- One PCIe link of a host port, index 2 × port + link: AER registers (R120), LTR (R130), power state (R103). -/
structure Link where
  /-- the width it trained at (R103) -/
  trained : Nat
  l1 : Bool
  expectDown : Bool
  ltrEn : Bool
  /-- the latency last sent, in ns, and for how many 10 µs in a row T has stood above twice that (R131) -/
  ltrSent : Nat
  ltrHigh : Nat
  uncStat : Word
  uncMask : Word
  uncSev : Word
  corStat : Word
  corMask : Word
  hdrLog : Option (Nat × List Byte)
deriving DecidableEq, Repr

/-- What the device keeps of a function's configuration space (R139, R143, R145, R108, R106). -/
structure FnCfg where
  bme : Bool
  msixEn : Bool
  fnMask : Bool
  vfEn : Bool
  numVFs : Nat
  atsEn : Bool
  ctoDis : Bool
  bar0 : Nat
  bar2 : Nat
  /-- Device Control: Max Payload Size, Relaxed Ordering, Max Read Request Size -/
  devCtl : Nat
  /-- Device Control 2: Completion Timeout Value, ID-Based Ordering, 10-Bit Tag Requester Enable -/
  devCtl2 : Nat
deriving DecidableEq, Repr

/-- A function's configuration after reset. Device Control holds PCIe's defaults: 512-byte reads, 128-byte payloads, Relaxed Ordering
on (PRESUMED, log entry 152). -/
def FnCfg.init : FnCfg := ⟨false, false, false, false, 0, false, false, 0, 0, 0x2010, 0⟩

/-- A link error (R120, R121): correctable or uncorrectable with its AER bit, the latter with the request it concerns
if any, or an uncorrectable error in the port's own buffers. -/
inductive AerKind where
  | cor (bit : Fin 32)
  | unc (bit : Fin 32) (tag : Option Nat)
  | buffer
deriving DecidableEq, Repr

/-- Who uses a latch from the host side or through the page (R86, R161): an accessor, or a function through its latch window. -/
inductive LatchUser where
  | page (a : Accessor)
  | window (f : Fin 2048)
deriving DecidableEq, Repr

/-- What a configuration request reaches: what the device keeps (R70, R84, R106, R120, R130, R139, R143, R144, R162) and the
capabilities whose values R100 and R134 give. -/
inductive CfgReg where
  | busMaster | msixCtl | vfEnable | ats | ctoDisable | ltr
  | aerUncStat | aerUncMask | aerUncSev | aerCorStat | aerCorMask
  | aerCap | hdrLog (dw : Fin 4) | tlpLog (dw : Fin 4)
  | bar0 (hi : Bool) | bar2 (hi : Bool) | devCtl
  | pcieCap | ariCap | devCap | devCap2 | devCap3 | linkCap | l1Cap | totalVFs | vfOffset | atsCap | pasidCap
  | other
deriving DecidableEq, Repr

/-- A configuration request: a read, a write, a write of one MSI-X table entry (log entry 15). -/
inductive CfgOp where
  | read (r : CfgReg)
  | write (r : CfgReg) (v : Word)
  | msixEntry (i : Fin 2048) (addr : BitVec 64) (data : Word) (masked : Bool)
deriving DecidableEq, Repr

/-- A function's reset progress (R143), interrupt bucket (R142), ring share and DMA share (R141): `dmaDef` its deficit among the
port's functions, `dmaFree` the time from which its cap lets a request go, in 0.2 ns since reset, `half` whether its bucket has
skipped a refill under the cap, `frac` the part of a token that its refills have left over, in 1/500,000. -/
structure FnSt where
  busy : Bool
  step : Nat
  vfGoing : Bool
  tokens : Nat
  deficit : Nat
  dmaDef : Nat
  dmaFree : Nat
  half : Bool
  frac : Nat
deriving DecidableEq, Repr

/-- A function with no reset since device reset. -/
def FnSt.init : FnSt := ⟨false, 0, false, 0, 0, 0, 0, false, 0⟩

/-- One MSI-X vector of the pool (R136, R139): table entry, mask, Pending Bit, and whether a raise waits to be sent. -/
structure Vec where
  addr : Nat
  data : Nat
  masked : Bool
  pend : Bool
  raised : Bool
  throttled : Bool
deriving DecidableEq, Repr

/-- A vector after reset: masked, nothing pending (R143 step 6). -/
def Vec.init : Vec := ⟨0, 0, true, false, false, false⟩

/-- What a host read is for: who takes its data. -/
inductive Purpose where
  | descriptor (ring entry : Nat)
  | sgl (work off : Nat)
  | data (work off : Nat)
  | thread (thread off : Nat)
  | ats (fn pasid page : Nat)
  | qp (q frame off : Nat)
deriving DecidableEq, Repr

/-- What an Invalidate Request names (R111): the translations of a PASID, those without one, or with the Global bit all. -/
structure InvScope where
  pasid : Option (Fin 1048576)
  global : Bool
deriving DecidableEq, Repr

/-- What the scope is in the translation cache's terms: none for all, 0 for no PASID, the PASID plus 1 otherwise. -/
def InvScope.key (x : InvScope) : Option Nat := if x.global then none else some ((x.pasid.map (·.val + 1)).getD 0)

/-- A lane that has its link: the group number and PHY map in the FlexE overhead that it receives, bit k of the map standing for PHY
k, and what comes on the management channels (R189, R192). -/
structure LaneHeard where
  lane : Fin 64
  oh : Option (BitVec 20 × BitVec 256)
  mgmt : List Byte
deriving DecidableEq, Repr

/-- A cut of the frame that a MAC sends: `bytes` of it are in the fragment that ends (R202). -/
structure FrameCut where
  port : Fin 512
  bytes : Nat
deriving DecidableEq, Repr

/-- A calendar request of a FlexE peer, with what its overhead brings on the management channels (R192). -/
structure CalRequest where
  group : Fin 16
  mgmt : List Byte
deriving DecidableEq, Repr

/-- Kinds of completion TLP for a read (R107): success, Unsupported Request, Completer Abort. -/
inductive CplKind where
  | success | unsupported | abort
deriving DecidableEq, Repr

/-- A host read: waiting for a tag, outstanding with one, or ended (R104 to R107). `freed`: its tag no longer counts against its
function's quota (R143 step 5). `pasid` is 0 for no PASID and the PASID plus 1 otherwise. -/
structure HostReq where
  id : Nat
  port : Nat
  fn : Nat
  addr : Nat
  len : Nat
  purpose : Purpose
  tag : Option Nat
  resvTag : Bool
  discard : Bool
  got : List Byte
  bad : Bool
  freed : Bool
  pasid : Nat
deriving DecidableEq, Repr

/-- An ended host read: its purpose and its bytes, or the STATUS it failed with. -/
structure Arrived where
  purpose : Purpose
  status : Nat
  bytes : List Byte
deriving DecidableEq, Repr

/-- A translation-cache entry (R108). `pasid` is 0 for no PASID and the PASID plus 1 otherwise. `unused`: no access has used it
yet. -/
structure Xl where
  port : Nat
  fn : Nat
  pasid : Nat
  page : Nat
  out : Nat
  logSize : Nat
  rd : Bool
  wr : Bool
  used : Nat
  unused : Bool
deriving DecidableEq, Repr

/-- Who waits for a translation in place, beside reads and writes that are queued: a transport frame, or a thread's copy to the
host. -/
inductive Waiter where
  | frame (id : Nat)
  | thread (t : Nat)
deriving DecidableEq, Repr

/-- A wait for a translation, and the STATUS with which it ended where it brought none (R106, R107, R116). -/
structure XlWait where
  who : Waiter
  fn : Nat
  pasid : Nat
  page : Nat
  res : Option Nat
deriving DecidableEq, Repr

/-- An Invalidate Request being served, or an XLAT flush (R111, R114). -/
structure Inval where
  port : Nat
  fn : Nat
  itag : Nat
  flush : Bool
  waits : List Nat
deriving DecidableEq, Repr

/-- One window of a function (R115, R118). -/
structure Window where
  base : Nat
  limit : Nat
  en : Bool
  rd : Bool
  wr : Bool
deriving DecidableEq, Repr

/-- A window after reset. -/
def Window.init : Window := ⟨0, 0xfff, false, false, false⟩

/-! ## Rings (R148 to R176) -/

/-- Ring states (R153). -/
inductive RState where
  | off | active | draining | frozen
deriving DecidableEq, Repr

/-- The STATE code of CTX_STATE. -/
def RState.code : RState → Nat
  | .off => 0 | .active => 1 | .draining => 2 | .frozen => 3

/-- A held entry (R165): the entry index, its read, and its 64 bytes once arrived (`some none`: the read failed). -/
structure Held where
  entry : Nat
  data : Option (Option (List Byte))
deriving DecidableEq, Repr

/-- A ring behind its context: state, private head and pass, held entries, scan flags; for a completion ring the write
index and its pass, SW_HEAD, ARMED, the slots reserved. -/
structure RingSt where
  st : RState
  head : Nat
  pass : Nat
  held : List Held
  scanning : Bool
  rescan : Bool
  stalled : Bool
  widx : Nat
  wpass : Nat
  swHead : Nat
  armed : Bool
  resv : Nat
deriving DecidableEq, Repr

/-- A ring after device reset. -/
def RingSt.init : RingSt := ⟨.off, 0, 0, [], false, false, false, 0, 0, 0, false, 0⟩

/-- A confirmed descriptor on its way (R155, R173): its ring, owner, completion ring and local number, its bytes, its
scatter list, the bytes fetched for it and the number of reads still out. `stage`: 0 dispatched, 1 waiting for its
scatter list, 2 list complete, 3 under way. `aux` and `res` are its consumer's. -/
structure Work where
  ring : Nat
  fn : Nat
  cpl : Nat
  srcNo : Nat
  desc : List Byte
  sgl : List (Nat × Nat) := []
  buf : List Byte := []
  reads : Nat := 0
  status : Nat := 0
  stage : Nat := 0
  aux : Nat := 0
  res : Nat := 0
deriving DecidableEq, Repr

/-- A group of host writes issued together: the data writes of one work item, then its completion (R172); without a
work item, data writes alone. `ts` is a timestamp and, for PTP, its TSX field. -/
structure Post where
  fn : Nat
  writes : List (Nat × List Byte)
  work : Option Nat
  status : Nat
  length : Nat
  ts : Option (Nat × Option Nat) := none
  extra : List (Nat × List Byte) := []
deriving DecidableEq, Repr

/-- The host side behind its pages. Links have index 2 × port + link, functions their function code (R134). -/
structure HostSt where
  links : Tbl Link := []
  cfg : Tbl FnCfg := []
  fns : Tbl FnSt := []
  vecs : Tbl Vec := []
  /-- events of each source since it last raised its target (R138) -/
  modCnt : Tbl Nat := []
  reqs : List HostReq := []
  nextReq : Nat := 0
  arrived : List Arrived := []
  /-- tags in quarantine: port, tag, whether a reserved one -/
  quar : List (Nat × Nat × Bool) := []
  xl : List Xl := []
  xlUse : Nat := 0
  xlWait : List XlWait := []
  /-- the function whose turn the DMA scheduler of a port has (R141) -/
  dmaTurn : Tbl Nat := []
  invals : List Inval := []
  windows : Tbl Window := []
  retryEnded : Bool := false
  /-- ports whose links were formed as 2 × x8 (R101) -/
  formed2 : Tbl Bool := []
  /-- links whose PERST_N pin is high -/
  perst : Tbl Bool := []
deriving DecidableEq, Repr

/-- The ring engine behind its page: rings by ring ID, work items, posts waiting for translations, scheduler (R169). -/
structure RingsSt where
  rings : Tbl RingSt := []
  works : Tbl Work := []
  nextWork : Nat := 0
  posts : List Post := []
  visit : Nat := 0
  visiting : Bool := false
  lastRing : Tbl Nat := []
  turn : Nat := 0
deriving DecidableEq, Repr

/-- The transom: bytes of entries being collected, by address, with the entry last written to, and the entry latched for reads
(R181, R182). -/
structure TransomSt where
  collAddr : Nat := 0
  coll : Tbl (Option Byte) := []
  latched : Option (Nat × List Byte) := none
deriving DecidableEq, Repr

/-- The MAINT arbiter: running activities, starts waiting, oldest first, and the arbiter's clocks so far (R91, R94). -/
structure MaintSt where
  clock : Nat := 0
  running : List MStart := []
  waiting : List MStart := []
deriving DecidableEq, Repr

/-- A recorder intake entry (R483, R484). -/
structure Report where
  seq : Nat
  code : Nat
  page : Nat
  inst : Nat
  wt : Nat
  info : Nat
deriving DecidableEq, Repr

/-- Errors, life log and peephole behind their pages. -/
structure HealthSt where
  intake : List Report := []
  life : Tbl Nat := []
  lifeSnap : Tbl Nat := []
  lifeSince : Nat := 0
  /-- second of the refusal of a life-log commit that is to be tried again (R489) -/
  lifeRetry : Option Nat := none
  gap : Bool := false
  postLeft : Option Nat := none
  /-- seconds of the 25 MHz system clock since device reset -/
  sysSec : Nat := 0
  /-- per memory: the second its window of corrected errors began, plus 1, the errors in it, and whether it has set CE_RATE
  (R25) -/
  ceWin : Tbl (Nat × Nat × Bool) := []
  /-- poisoned stretches of memory: first key and length (R21) -/
  poison : List (Nat × Nat) := []
  /-- segments done of the HBM and DDR5 scrub passes (R24) -/
  hbmSeg : Nat := 0
  ddrSeg : Nat := 0
deriving DecidableEq, Repr

/-! ## Frames, tables and the traffic manager (R187 to R298) -/

/-- The parse record (R215). Slots and offsets read `none` for absent; the L3 and L4 offsets carry IPv6 and UDP. -/
structure ParseRec where
  fv : List Byte
  slots : Tbl Nat
  flags : Nat
  tags : Nat
  tunnels : Nat
  prof : Nat
  l3 : Option (Nat × Bool)
  l4 : Option (Nat × Bool)
  ptp : Option Nat
  payload : Nat
  pstatus : Nat
  /-- it met a poisoned stake (R486) -/
  bad : Bool
deriving DecidableEq, Repr

/-- Where a frame goes (R233, R247): the verdict after classification, lookup, hashing and replication. `poison`: it read a
poisoned table item of a page (R486). -/
inductive Dest where
  | drop
  | noTarget
  | poison (page : Nat)
  | ports (l : List (Nat × Nat))
  | ring (r : Nat)
  | flow (engine : Nat)
  | control
deriving DecidableEq, Repr

/-- What the classifier and the tables decided for a frame, and what its confirmation still has to make visible (R224). -/
structure Decision where
  act : List Byte
  classified : Bool
  miss : Bool
  badAct : Bool
  dest : Dest
  cls : Nat
  hash : Nat
  looked : Bool
  emHit : Option Nat
  l2Hit : Bool
  tblMiss : Bool
  dropRes : Bool
  /-- the LPM search's probes, and whether it hit -/
  lpm : Option (Nat × Bool)
  /-- the next-hop entry that rewrites the frame, as it read it (R268) -/
  nh : Option Nat
  ttlExp : Bool
  repl : Bool
  /-- its mirror session's MIRR_CTL and MIRR_SAMPLE, and CTRL_LIMIT, as they stood when it began parsing (R240) -/
  mirr : Nat × Nat
  ctrlLim : Nat
deriving DecidableEq, Repr

/-- A frame before its confirmation, or on its way. `kind` 0 network, 1 ring, 2 flow engine; `src` the port, function or
global thread (R214, R227); `work` the work item of a ring frame. `bytes` are without FCS. `filt`: 1 dropped by the MAC
filter, 2 a runt. `admitted`: its copies have been through the traffic manager. -/
structure Frame where
  id : Nat
  pipe : Nat
  kind : Nat
  src : Nat
  work : Option Nat
  bytes : List Byte
  filt : Nat
  oversize : Bool
  trunc : Bool
  inCls : Nat
  steer : Nat
  ctrlCopy : Bool
  /-- it was reassembled from fragments (R202) -/
  assembled : Bool
  /-- what the MAC found of its checksums, as CSUM shows it (R201) -/
  csum : Nat
  ts : Dom
  parsed : ParseRec
  key : List Byte
  dec : Decision
  admitted : Bool
  /-- admission failures of its copies, and those for want of PFC headroom and of spill room, not yet counted -/
  drops : Nat
  headDrops : Nat
  spillDrops : Nat
  recirc : Nat
  /-- its copies that met a poisoned context of the traffic manager, not yet counted (R486) -/
  ctxDrops : Nat
  /-- LPROF_CTL and PORT_LEARN as they stood when it began parsing (R71, R268) -/
  learn : Nat × Nat
deriving DecidableEq, Repr

/-- What one-step PTP needs of a frame at its egress (R64): where its PTP header is, its L3 header (version 6 or not) and UDP header,
and for one from the network the time it came in. -/
structure OneStep where
  off : Nat
  l3 : Option (Nat × Bool)
  udp : Option Nat
  rx : Option Dom
deriving DecidableEq, Repr

/-- A copy of a frame in an egress queue (R271, R273). `len` counts the FCS. -/
structure Copy where
  id : Nat
  frame : Nat
  port : Nat
  cls : Nat
  bytes : List Byte
  len : Nat
  work : Option Nat
  inPort : Option (Nat × Nat)
  spill : Bool
  launch : Option Nat
  eligible : Bool
  confirmed : Bool
  confWT : Nat
  cut : Bool
  ptp : Bool
  step1 : Option OneStep
  noCut : Bool
  /-- a transport packet: its queue pair and PSN -/
  rdma : Option (Nat × Nat)
deriving DecidableEq, Repr

/-- A frame waiting in a host-bound allowance (R276). -/
structure HostBound where
  ring : Nat
  frame : Frame
deriving DecidableEq, Repr

/-- How far a ring frame's copies have got (R280): copies not yet gone, and of the lowest-numbered port that sent one, the
port, timestamp, TSX field and length. `many`: it has more than one destination. -/
structure CopySet where
  left : Nat
  many : Bool
  best : Option (Nat × Nat × Option Nat × Nat)
deriving DecidableEq, Repr

/-- A learn event or a software command in a learn queue (R253, R255). -/
inductive LearnItem where
  | event (mac dom res wt : Nat)
  | command (op mac dom res flags : Nat)
deriving DecidableEq, Repr

/-- A notification or control ring of a pipeline or core: write index, pass, head, ARMED (R174 to R176). -/
structure NRing where
  widx : Nat
  wpass : Nat
  head : Nat
  armed : Bool
  seq : Nat
deriving DecidableEq, Repr

/-- A ring with nothing written. -/
def NRing.init : NRing := ⟨0, 0, 0, false, 0⟩

/-- A policer entry (R284, R287): W0 to W4 committed, buckets in 1/256 byte, and its three counts. -/
structure Policer where
  w0 : Nat
  cir : Nat
  cbs : Nat
  pir : Nat
  ebs : Nat
  c : Nat
  e : Nat
  green : Nat
  yellow : Nat
  red : Nat
deriving DecidableEq, Repr

/-- A policer after reset: mode OFF. -/
def Policer.init : Policer := ⟨0, 0, 0, 0, 0, 0, 0, 0, 0, 0⟩

/-- A louvre list of a port (R288, R289): running, stopped by STEPPED, current entry, cycle start and the time of
the next change in ns of domain time, and the new list's start while PENDING. -/
structure Louvre where
  run : Bool
  bank : Nat
  entry : Nat
  cycleAt : Nat
  entryAt : Nat
  pendingAt : Option Nat
  count : Nat
  cycle : Nat
deriving DecidableEq, Repr

/-- A port without a running list. -/
def Louvre.init : Louvre := ⟨false, 0, 0, 0, 0, none, 1, 1000000⟩

/-- A replication group (R280). -/
structure Repl where
  excl : Bool
  mask : Nat
deriving DecidableEq, Repr

/-- What is being sent on a port: the copy, its timestamp and TSX field, whether it has been preempted. -/
structure Sending where
  copy : Copy
  wt : Nat
  tsx : Option Nat
  /-- it has been preempted -/
  cutOff : Bool
  /-- bytes sent in its earlier fragments (R202) -/
  sent : Nat
  /-- its ingress check failed while it was preempted: its last fragment will be stomped (R203) -/
  bad : Bool
  /-- fragments and holds of it that MM_FRAG_TX and MM_HOLD have not counted: it is not confirmed (R30) -/
  frags : Nat
  holds : Nat
deriving DecidableEq, Repr

/-- The network side behind its pages. -/
structure NetSt where
  frames : List Frame := []
  nextFrame : Nat := 0
  queues : Tbl (List Copy) := []
  /-- by port what its MAC sends; by 512 + port a preempted frame -/
  sending : Tbl (Option Sending) := []
  copySets : Tbl CopySet := []
  lpiTx : Tbl Bool := []
  paused : Tbl Bool := []
  pfcSent : Tbl Bool := []
  verify : Tbl Nat := []
  hostBound : List (Nat × HostBound) := []
  indir : Tbl Nat := []
  members : Tbl Nat := []
  nh : Tbl Nat := []
  nhLatch : Tbl Nat := []
  /-- bit w: NH_Ww reads the latched entry, not a word written since (R270) -/
  nhSeen : Tbl Nat := []
  ruleCnt : Tbl (Nat × Nat) := []
  mirrorN : Tbl Nat := []
  ctrlTok : Tbl Nat := []
  learnQ : Tbl (List LearnItem) := []
  holds : Tbl (List (Nat × Nat)) := []
  notify : Tbl NRing := []
  resizing : Tbl Bool := []
  repl : Tbl Repl := []
  credit : Tbl Int := []
  deficit : Tbl Nat := []
  lastQ : Tbl Nat := []
  policers : Tbl Policer := []
  lvEntry : Tbl (Nat × Nat) := []
  louvres : Tbl Louvre := []
  qHwm : Tbl Nat := []
  hist : Tbl Nat := []
  /-- FlexE groups that wait for their peer's CA (R194), and those that have it and wait for another group's lanes -/
  calWait : Tbl Bool := []
  calCa : Tbl Bool := []
  /-- the group number and PHY map that a FlexE group last heard of its peer (R212) -/
  heard : Tbl (Option (Nat × Nat)) := []
deriving DecidableEq, Repr

/-- A flow channel (R311 to R313): its words, the source of a pending event, and the threads waiting, oldest first,
each with the word it waits to put or none for a get. -/
structure Chan where
  words : List Nat
  evt : Option Nat
  waiters : List (Nat × Option Nat)
deriving DecidableEq, Repr

/-- A channel after device reset. -/
def Chan.init : Chan := ⟨[], none, []⟩

/-- What a thread waits for (R301): a channel, with the word it puts or none for a get; its wheel time; an external load; a
host copy; a flow-cache operation (0 look, 1 put, 2 delete) with LMEM addresses of key and value; the instruction at FPC; a latch
operation; a frame operation (0 read, 1 write, 2 length, 3 out, 4 new) with A, B, its byte count and FN; the writing of its item's
completion. -/
inductive ThreadWait where
  | none
  | chan (ch : Nat) (put : Option Nat)
  | time
  | load (space addr size : Nat) (signed : Bool)
  | host (toLmem : Bool) (host lmem len : Nat)
  | cache (op key val : Nat)
  | fetch
  | latch (n fn : Nat)
  | frame (op a b n fn : Nat)
  | cpl (work : Nat)
deriving DecidableEq, Repr

/-- The shadow set of a trap (R326): micro-PC, T0 to T7, flags Z LT LTU W, micro-return stack. -/
structure Shadow where
  upc : Nat
  ts : Tbl Nat
  z : Bool
  lt : Bool
  ltu : Bool
  w : Bool
  stack : List Nat
deriving DecidableEq, Repr

/-- An empty shadow set. -/
def Shadow.init : Shadow := ⟨0, [], false, false, false, false, []⟩

/-- Where a thread works, and with what flags: FPC and the FPC that its routine has written, micro-PC, instruction, micro-return stack. -/
structure FlowCtx where
  fpc : Nat
  fpcNext : Option Nat
  upc : Option Nat
  instr : Nat
  stack : List Nat
  z : Bool
  lt : Bool
  ltu : Bool
  w : Bool
deriving DecidableEq, Repr

/-- The predicted path of a thread whose branch is unresolved, or resolved and not yet at its end (R323, R324): what was predicted and
where the path starts, whether it proved right, the microwords issued on it. `on`: the path works in the thread's own fields, and
`ctx`, `xs`, `ts` hold what the branch left there; otherwise `ctx` holds the path's. What it has written is held apart: flow registers
and temporaries (a value v as v + 1), flags, local memory; and so is what its confirmation will show: dispatches, flow-cache fills and
hits, and a micro-trap with its address and SUPC. -/
structure Spec where
  taken : Bool
  start : Nat
  resolved : Bool := false
  on : Bool := false
  n : Nat := 0
  ctx : FlowCtx
  xs : Tbl Nat := []
  ts : Tbl Nat := []
  dx : Tbl Nat := []
  dt : Tbl Nat := []
  fset : Bool := false
  stores : List (Nat × List Byte) := []
  disp : Nat := 0
  fills : Nat := 0
  hits : List Nat := []
  trap : Option (Nat × Option Nat × Nat) := none
deriving DecidableEq, Repr

/-- A flow-engine thread (R299, R301): state code, what it waits for, X and T registers, program counters (`upc` is none at
a flow-instruction boundary), the instruction dispatched, micro-return stack, flags, an unresolved branch and its
prediction, the trap frame, a STOP that waits (`stopMem`: for a memory operation), its current frame and ring item. -/
structure Thread where
  st : Nat
  wait : ThreadWait
  xs : Tbl Nat
  ts : Tbl Nat
  fpc : Nat
  /-- the FPC that the routine at work has written, for its end (R319, R321) -/
  fpcNext : Option Nat
  upc : Option Nat
  instr : Nat
  stack : List Nat
  z : Bool
  lt : Bool
  ltu : Bool
  w : Bool
  spec : Option Spec
  inTrap : Bool
  cause : Nat
  faultAddr : Nat
  shadow : Shadow
  stopPending : Bool
  stopMem : Bool
  recUpc : Nat
  frame : Option Frame
  item : Option Nat
  /-- the owner function of its ring item's ring (R309) -/
  itemFn : Nat
  cplDone : Bool
deriving DecidableEq, Repr

/-- A thread after device reset: OFF. -/
def Thread.init : Thread :=
  ⟨0, .none, [], [], 0, none, none, 0, [], false, false, false, false, none, false, 0, 0, Shadow.init, false, false, 0, none, none, 0, false⟩

/-- An item of an engine's work queue (R305). -/
inductive FlowItem where
  | frame (f : Frame)
  | ring (work : Nat)
deriving DecidableEq, Repr

/-- The control-receive ring pair of a core (R334): descriptor head and pass, whether a doorbell's scan runs, confirmed
buffers (tag, address, length), completion write index and pass, head and ARMED. -/
structure CtrlRing where
  head : Nat
  pass : Nat
  scanning : Bool
  bufs : List (Nat × Nat × Nat)
  widx : Nat
  wpass : Nat
  swHead : Nat
  armed : Bool
deriving DecidableEq, Repr

/-- A control-receive ring with nothing posted. -/
def CtrlRing.init : CtrlRing := ⟨0, 0, false, [], 0, 0, 0, false⟩

/-- A near copy of a flow-cache entry (R329): engine, key, value, the sweep count when it was filled. -/
structure NearCopy where
  engine : Nat
  key : List Byte
  value : List Byte
  sweep : Nat
deriving DecidableEq, Repr

/-- Flow engines and control cores behind their pages. Threads by global number, channels by channel number. -/
structure FlowSt where
  chans : Tbl Chan := []
  coreIrq : Tbl Bool := []
  threads : Tbl Thread := []
  queues : Tbl (List FlowItem) := []
  ctrlRings : Tbl CtrlRing := []
  /-- instruction cache: engine × 2^32 + offset, the word plus 1 -/
  icache : Tbl Nat := []
  near : List NearCopy := []
  sweeps : Nat := 0
  /-- engines that drain for a self-test (1) or run one (2) -/
  testing : Tbl Nat := []
deriving DecidableEq, Repr

/-! ## The remote memory transport (R338 to R360) -/

/-- A packet of a requester from its making to its acknowledgement (R351): the PSN, the PSNs it takes, its work item, opcode,
extension headers, payload; whether it ends its work item, asks for an acknowledgement, has been sent, has its payload in the
retransmit store; when it was last sent; responses received. -/
structure TxPkt where
  psn : Nat
  n : Nat
  wr : Nat
  op : Nat
  ext : List Byte
  payload : List Byte
  last : Bool
  ackReq : Bool
  sent : Bool
  stored : Bool
  wt : Option Nat
  got : Nat
deriving DecidableEq, Repr

/-- A started work request of a queue pair, and its end when it has one that earlier ones hold back (R348): STATUS, bytes
moved, timestamp. -/
structure WrSt where
  wr : Nat
  fin : Option (Nat × Nat × Option Nat)
deriving DecidableEq, Repr

/-- A message being received: the RECV it fills if any, whether it is a WRITE, where its next byte goes and its key's function
code, bytes so far, bytes still to come for a WRITE, the first packet's WT, the STATUS of a refused buffer write, a WRITE's rkey, and
the edge at which the entry of that rkey was written anew, if it was (R341). -/
structure Inbound where
  recv : Option Nat
  isWrite : Bool
  va : Nat
  fn : Nat
  pasid : Nat
  got : Nat
  left : Nat
  wt : Nat
  status : Nat
  rkey : Nat
  stale : Option Nat
deriving DecidableEq, Repr

/-- The use of a region-table entry by an access whose checks have begun (R341): its rkey, the function and PASID code that the entry
granted, and the edge at which the entry was written anew since. -/
structure MrUse where
  rkey : Nat
  fn : Nat
  pas : Nat
  stale : Option Nat
deriving DecidableEq, Repr

/-- A response or acknowledgement that its queue pair has still to send (R359), and the STATUS of the error that its queue pair enters
when it sends it (R356). -/
structure RespPkt where
  op : Nat
  psn : Nat
  ext : List Byte
  payload : List Byte
  err : Option Nat
deriving DecidableEq, Repr

/-- The response cache of a responder (R355): a READ's request, or an ATOMIC's original value. -/
inductive CacheEntry where
  | read (psn : Nat) (va rkey len : Nat)
  | atomic (psn : Nat) (orig : Nat)
deriving DecidableEq, Repr

/-- A queue pair behind its context (R344 to R359): its state, the STATUS of its error, PSNs, what it has out and which packet
goes next, started work requests, message being received, response cache, retries, rate and pacing, waits. `flush` is the PSN
of a FLUSH being answered. `again`: refused wheel requests (1 timer, 2 RNR with its time, 3 pacing with its time). `resp`: responses and acknowledgements not yet sent. -/
structure Qp where
  st : Nat
  errSt : Nat
  spsn : Nat
  rpsn : Nat
  msn : Nat
  out : List TxPkt
  next : Nat
  wrs : List WrSt
  inb : Option Inbound
  cache : List CacheEntry
  naked : Bool
  retries : Nat
  rnrs : Nat
  rate : Nat
  rtt : Nat
  lastDec : Nat
  pace : Option Nat
  rtxWait : Bool
  armedWait : Bool
  flush : Option (Nat × Nat)
  sinceAck : Nat
  again : List (Nat × Nat)
  resp : List RespPkt
deriving DecidableEq, Repr

/-- A queue pair in RESET. -/
def Qp.init : Qp := ⟨0, 0, 0, 0, 0, [], 0, [], none, [], false, 0, 0, 0, 0, 0, none, false, false, none, 0, [], []⟩

/-- A local-address entry (R340, R360). -/
structure Lip where
  v6 : Bool
  addr : List Byte
deriving DecidableEq, Repr

/-- The transport behind its page. `rx`: transport frames not yet served; `left`: packets that have just left a MAC;
`uses`: by frame, the region-table entry under which its access began. -/
structure RdmaSt where
  qps : Tbl Qp := []
  rx : List Frame := []
  trig : Tbl Nat := []
  lips : Tbl (Option Lip) := []
  left : List (Nat × Nat × Nat) := []
  uses : Tbl (Option MrUse) := []
deriving DecidableEq, Repr

/-! ## Block storage, hold-up and pair (R361 to R418, R462 to R478) -/

/-- How an NVMe command ends (R361, R388, R394): done, failed, or reading a deallocated block. -/
inductive NvStatus where
  | ok | failed | deallocated
deriving DecidableEq, Repr

/-- What an NVMe command is for: a chunk of an extent read; a chunk of an extent a placement writes; a journal record's
copy; a checkpoint page's copy; a repaired chunk; an activity's own command; its label or check; identification; a
deallocation; a dump batch's data or record block; the closing block; the rate measurement. -/
inductive NvFor where
  | ext (rd chunk : Nat)
  | place (pl ext chunk : Nat)
  | journal (seq : Nat)
  | ckpt (seq : Nat)
  | repair (ssd : Nat)
  | activity
  | follow
  | identify
  | dealloc
  | dump (batch : Nat) (record : Bool)
  | closing
  | measure
deriving DecidableEq, Repr

/-- An NVMe command outstanding on an SSD. Operations: 0 Identify, 1 Read, 2 Write, 3 Deallocate, 4 Format NVM (`lba` its SES, `n` the
bytes of its LBA format), 5 Sanitize (`lba` its action), 6 Get Log Page, 7 Abort, 8 the controller's reset, 9 Set Features, 10 Get
Features. `aborting`: its Abort has been sent; `again`: reissued after a controller reset. -/
structure NCmd where
  id : Nat
  ssd : Nat
  op : Nat
  lba : Nat
  n : Nat
  bytes : List Byte
  job : NvFor
  aborting : Bool
  again : Bool
deriving DecidableEq, Repr

/-- Who takes an extent read's data: a READ, a placement that merges, a verify, a repair, the pair's resynchronisation. -/
inductive RdFor where
  | work (w ext : Nat)
  | merge (pl ext : Nat)
  | verify (ssd : Nat)
  | repair (ssd chunk : Nat)
  | resync (ext : Nat)
deriving DecidableEq, Repr

/-- A read of a physical extent (R364, R388): the chunks asked for, got, and found bad; `err`: a member reported an error. -/
structure ExtRd where
  id : Nat
  set : Nat
  pext : Nat
  asked : List Nat
  got : List (Nat × List Byte)
  bad : List Nat
  err : Bool
  job : RdFor
deriving DecidableEq, Repr

/-- A recorded write or ZERO (R17, R381): staging sequence, volume, tag and work item of its command, first block and bytes,
the number of its acknowledgement (0 before it), whether it is PLACED, whether the peer has still to confirm it, and for a
mirrored write the peer's own sequence. -/
structure Staged where
  seq : Nat
  vol : Nat
  tag : Nat
  work : Option Nat
  lba : Nat
  len : Nat
  zero : Bool
  ack : Nat
  placed : Bool
  waitPeer : Bool
  peer : Option Nat
deriving DecidableEq, Repr

/-- The part of a recorded write in one atomic unit (R378, R384): its place in the volume in bytes, its data or zeros, and
the placement that has taken a copy of it, the 4 KiB units of write staging in HBM that hold it (R380), and whether it may be placed: a
mirrored write's waits for the owner's JOURNAL message (R473). -/
structure Piece where
  seq : Nat
  vol : Nat
  unit : Nat
  off : Nat
  len : Nat
  data : Option (List Byte)
  taken : Option Nat
  room : List Nat
  named : Bool
deriving DecidableEq, Repr

/-- An extent of a READ under way (R377): its global number, whether it needs the SSDs, what is staged over it, its data, and
whether it could not be read. -/
structure RdExt where
  ext : Nat
  need : Bool
  lays : List (Nat × List Byte)
  base : List Byte
  bad : Bool
deriving DecidableEq, Repr

/-- A READ under way; `key`: the slot and the key that it holds, of an encrypted volume (R437). -/
structure RdJob where
  work : Nat
  vol : Nat
  lba : Nat
  exts : List RdExt
  key : Option (Nat × Nat)
deriving DecidableEq, Repr

/-- An extent of a placement (R369): its global number, the merge still to arrive, what is staged over it, its data, whether
it is unmapped or stays poisoned, its new physical extent, the chunk writes outstanding and the tries made, and whether its write
waits for the back-end to write again (R409, R477). -/
structure PlExt where
  ext : Nat
  merge : Bool
  lays : List (Nat × List Byte)
  data : List Byte
  unmap : Bool
  poison : Bool
  new : Nat
  left : Nat
  tries : Nat
  held : Bool
deriving DecidableEq, Repr

/-- A placement of one atomic unit (R384). `stage`: 0 merging, 1 writing, 2 held by a full journal, 3 journaling, 4 durable. `key`: the
slot whose key it holds (R437). -/
structure Placing where
  id : Nat
  vol : Nat
  unit : Nat
  exts : List PlExt
  stage : Nat
  full : Bool
  key : Option Nat
deriving DecidableEq, Repr

/-- A journal record not yet freed (R396): its changes, its placement, copies outstanding, whether one was written, whether
it is durable, checkpoint writes outstanding, whether these wait for the back-end to write again (R477), and whether a copy was
lost with its SSD. -/
structure JRec where
  seq : Nat
  changes : List (Nat × Nat)
  pl : Option Nat
  left : Nat
  good : Bool
  durable : Bool
  ckLeft : Nat
  ckWaits : Bool
  lost : Bool
deriving DecidableEq, Repr

/-- What the device keeps of a volume beside its context (R382, R385). -/
structure VolSt where
  pend : Bool
  multi : Bool
  count : Nat
  tag : Nat
  status : Nat
  lba : Nat
  solo : Bool
  mode : Option Nat
deriving DecidableEq, Repr

/-- A volume without a deferred error. -/
def VolSt.init : VolSt := ⟨false, false, 0, 0, 0, 0, false, none⟩

/-- A sanitise, format or scrub of an SSD (R392 to R395). `stage`: 0 its record waits, 1 its command runs, 2 verify or label,
3 done, 4 failed. A scrub's physical extents still to do, and how many there were. -/
structure SsdAct where
  act : Nat
  arg : Nat
  stage : Nat
  pct : Nat
  todo : List (Nat × Nat)
  total : Nat
deriving DecidableEq, Repr

/-- A non-volatile progress record (R393): activity, action, phase (1 STARTED, 2 DONE, 3 FAILED), sequence number, percent. -/
structure Progress where
  act : Nat
  action : Nat
  phase : Nat
  seq : Nat
  pct : Nat
deriving DecidableEq, Repr

/-- What an SSD says of its Sanitize (R393, R395). -/
inductive SanReport where
  | running (pct : Nat)
  | completed
  | none
deriving DecidableEq, Repr

/-- A staging record with its data, as the dump holds it and as STAGE carries it (R411, R472). -/
structure StageMsg where
  seq : Nat
  vol : Nat
  tag : Nat
  lba : Nat
  len : Nat
  zero : Bool
  data : List Byte
deriving DecidableEq, Repr

/-- A TIME message as it arrives (R463, R474): the sender's epoch, and the offset that the exchange gives, signed, in 2^-8 ns. -/
structure TimeMsg where
  epoch : Word
  off : DWord
deriving DecidableEq, Repr

/-- What REBUILD finds on the SSDs (R397, R415): whether they could be read, whether DDR5 took the map, the checkpoint's
entries, the journal's records in sequence order, the dump's ID and the marker's, and the batches with whether each is good. -/
structure RebuildData where
  readable : Bool
  ddrOk : Bool
  ckpt : List (Nat × Nat)
  journal : List (Nat × List (Nat × Nat))
  dumpId : Nat
  marker : Nat
  batches : List (Bool × List StageMsg)
deriving DecidableEq, Repr, Inhabited

/-- A dump under way (R409, R410): its ID, SSDs that write, batches of staging sequences, the records and the data that it writes, as they
stand when its first write begins, the batch being written, and the copies of its record block written. -/
structure DumpSt where
  id : Nat
  started : List Nat
  batches : List (List Nat)
  recs : List Staged
  data : List Byte
  next : Nat
  records : Nat
  closing : Bool
deriving DecidableEq, Repr

/-- The block storage service behind its pages. -/
structure BlkSt where
  vols : Tbl VolSt := []
  recs : List Staged := []
  pieces : List Piece := []
  seq : Nat := 0
  acks : Nat := 0
  jobs : List RdJob := []
  reads : List ExtRd := []
  placings : List Placing := []
  wanted : List (Nat × Nat) := []
  rewrite : List (Nat × Nat) := []
  jrecs : List JRec := []
  /-- map changes that wait for a journal record of their own (R378, R385) -/
  jwait : List (List (Nat × Nat)) := []
  /-- physical extents, with their sets, to be deallocated once no READ reads them (R377) -/
  deallocs : List (Nat × Nat) := []
  cmds : List NCmd := []
  ids : Nat := 0
  caps : Tbl Nat := []
  /-- SSDs whose content is not yet that of their position -/
  stale : Tbl Bool := []
  resets : Tbl (List Nat) := []
  acts : Tbl (Option SsdAct) := []
  rebuilt : Bool := false
  rebuild : Option RebuildData := none
  /-- sequences restored and not yet placed, batches restored -/
  restored : List Nat := []
  tasks : Tbl Nat := []
  dump : Option DumpSt := none
  lastDump : Nat := 0
  /-- measurement writes outstanding, and whether the dump areas hold a dump not yet restored -/
  measuring : Nat := 0
  unrestored : Bool := false
deriving DecidableEq, Repr

/-- A non-volatile write that the guard holds (R402): a progress record; an octal-SPI command; a fuse bit; a life-log
commit; a slot record of the boot ROM. -/
inductive NvWrite where
  | progress (ssd phase : Nat)
  | ospi (unit : Nat)
  | fuse
  | life
  | trial (slot : Nat)
deriving DecidableEq, Repr

/-- What the boot ROM meets at the rise of SYS_RST_N: BOOT_SRC and BIFURC straps, HBM stacks that train, DDR5 channels
populated and trained, DDR5 installed in GiB. -/
structure BootPins where
  src : Fin 8
  bifurc : Fin 4
  hbm : Fin 3
  channels : BitVec 8
  trained : BitVec 8
  ddrGiB : BitVec 16
deriving DecidableEq, Repr

/-- How an image attempt ends (R449, R452): the bytes were read from the flash or from BOOT_IMAGE, or came from the peer; the
read failed; the time ran out. -/
inductive Attempt where
  | read
  | peer (bytes : List Byte)
  | failed
  | timeout
deriving DecidableEq, Repr

/-- The boot ROM, its pins and the power states. Sources: 0 SPI0, 1 SPI1, 2 HOST, 3 PEER. `order`: attempts still to make,
source and slot; slot 2 where a flash's slots are not chosen yet. -/
structure BootSt where
  pwrok : Bool := true
  sysRst : Bool := true
  /-- SYS_RST_N has fallen during a dump, and perhaps risen again (R508) -/
  rstWaits : Bool := false
  rose : Option BootPins := none
  order : List (Nat × Nat) := [(0, 0), (0, 1), (1, 2), (2, 0)]
  verifying : Bool := false
  /-- HOST_LEN as it stood at HOST_GO (R450) -/
  hostLen : Nat := 0
  /-- the image accepted or running: its source, slot and bytes -/
  image : Option (Nat × Nat × List Byte) := none
  /-- a wake from a low-power state is under way (R146) -/
  exiting : Bool := false
  /-- the limits of R145 at the last entry: the smallest LAT_TOL and the earliest pending event's number -/
  limits : Nat × Option Nat := (0xFFFF, none)
  /-- bit i: clock input i has been lost and not yet restored (R96) -/
  clkLost : Nat := 0
  /-- the fuse operation under way: bits to burn, kind and number -/
  burning : List (Nat × Nat) := []
  /-- THERMTRIP_N and THERMWARN_N are low; PFAIL_N is low -/
  tripped : Bool := false
  warm : Bool := false
  pfailLow : Bool := false
deriving DecidableEq, Repr

/-- An octal-SPI command as GO takes it (R521): OSPIs_CMD, ADDR, data bytes, and the data that goes out. -/
structure OspiOp where
  cmd : Nat
  addr : Nat
  len : Nat
  data : List Byte
deriving DecidableEq, Repr

/-- No command. -/
def OspiOp.none : OspiOp := ⟨0, 0, 0, []⟩

/-- The pads and low-speed controllers behind their pages (R515 to R525): FIFOs, transfers waiting for a recovery, who issued
the octal-SPI command under way, the GPIO sample before, pads between two functions, levels at the balls. -/
structure LsioSt where
  i2cTx : Tbl (List Byte) := []
  i2cRx : Tbl (List Byte) := []
  i2cGo : Tbl Bool := []
  uartTx : Tbl (List Byte) := []
  uartRx : Tbl (List Byte) := []
  ospiHost : Tbl Bool := []
  /-- the octal-SPI command under way, as it was at its GO -/
  ospiOp : Tbl OspiOp := []
  /-- the OP of the MDIO frame under way, as it was at its GO (R522) -/
  mdioOp : Tbl Nat := []
  /-- an octal-SPI command's STATUS, once decided -/
  ospiSt : Tbl (Option Nat) := []
  switching : List Nat := []
  levels : Nat := 0
  /-- non-volatile writes that the guard holds, oldest first (R402) -/
  nvWait : List NvWrite := []
  progress : Tbl (Option Progress) := []
deriving DecidableEq, Repr

/-- What a message of the Xindaord link carries (R463). -/
inductive PMsg where
  | hello (unit state : Nat) (survivor : Bool)
  | fence
  | admission (what : Nat)
  | heartbeat
  | stage (m : StageMsg)
  | journal (seqs : List (Nat × Nat))
  | resync (ext : Nat) (data : Option (List Byte))
  | notify (pipe : Nat) (bytes : List Byte)
  | imageAsk
  | image (bytes : List Byte)
  | stamp (dom : Nat)
deriving DecidableEq, Repr

/-- A reliable stream (R464): the next sequence, messages kept until acknowledged, messages beyond the window, resends in a
row, and on the receiving side the sequence expected and the value a NAK was sent for. -/
structure PStream where
  next : Nat
  kept : List (Nat × PMsg)
  queue : List PMsg
  tries : Nat
  expect : Nat
  naked : Option Nat
deriving DecidableEq, Repr

/-- A stream with nothing sent. -/
def PStream.init : PStream := ⟨0, [], [], 0, 0, none⟩

/-- The pair unit behind its page. `asked`: 0 no admission, 1 asked as leader, 2 as joiner; `mine` and `theirs`: the
arbiter of this unit and of the peer has accepted. `held`: STAGE messages that wait at the dirty limit, with their sequence and the
work that was next to be confirmed when they came. `outq`: messages that the link has yet to serve, in the order of R463.
`orders`: JOURNAL messages not yet obeyed, oldest first. `admEpoch`: the peer's epoch when JOINING began. -/
structure PairSt where
  streams : Tbl PStream := []
  asked : Nat := 0
  /-- this unit wrote FORM -/
  formed : Bool := false
  mine : Bool := false
  theirs : Bool := false
  wasFenced : Bool := false
  /-- the last HELLO had this unit's own UNIT_ID (R468) -/
  clash : Bool := false
  resync : List Nat := []
  resyncTotal : Nat := 0
  resyncing : Bool := false
  fenceAt : Option Nat := none
  held : List (Nat × Nat × StageMsg) := []
  outq : List (Nat × Nat × PMsg) := []
  orders : List (List (Nat × Nat)) := []
  admEpoch : Option Nat := none
deriving DecidableEq, Repr

/-! ## What leaves the block -/

/-- A key slot (R431 to R434). Kinds: 0 EMPTY, 1 AES128, 2 AES256, 3 XTS256, 4 KEK256, 5 ECDSA_P384, 6 MLDSA87. -/
structure KeySlot where
  kind : Nat
  attr : Nat
  use : Nat
  warn : Nat
  limit : Nat
  material : Nat
  warned : Bool
  spent : Bool
deriving DecidableEq, Repr

/-- An EMPTY slot. -/
def KeySlot.empty : KeySlot := ⟨0, 0, 0, 0, 0, 0, false, false⟩

/-- What waits for the DRBG (R440, R441): a RANDOM job, or the vault's command. -/
inductive RngReq where
  | job (work : Nat)
  | vault
deriving DecidableEq, Repr

/-- The vault's command (R436): its operation, slot, argument, input; the STATUS it will show once it is decided. -/
structure VaultCmd where
  op : Nat
  slot : Nat
  arg : Nat
  input : List Byte
  status : Option Nat
  out : List Byte
deriving DecidableEq, Repr

/-- Cipher, vault and entropy source behind their pages. `keysBusy`: slots whose keys placements hold, one entry each. -/
structure CiphSt where
  slots : Tbl KeySlot := []
  saSeen : Tbl (List Nat) := []
  saLatch : List Byte := []
  /-- bit w: SA_Ww reads the latched entry, not a word written since (R443) -/
  saWords : Nat := 0
  vault : Option VaultCmd := none
  held : List RngReq := []
  keysBusy : List Nat := []
  /-- bytes of a pipeline that the cipher had still to pass, and the REFCLK edge when that was so (R424) -/
  queued : Tbl (Nat × Nat) := []
  /-- generate calls of the DRBG since it was last seeded, and how often it was (R439) -/
  generates : Nat := 0
  seeded : Nat := 0
deriving DecidableEq, Repr

/-- What a parity fault of a cipher datapath meets (R430): a frame, a job with the bytes it had written, the storage
datapath. -/
inductive CipherFault where
  | frame (id : Nat)
  | job (work written : Nat)
  | store
deriving DecidableEq, Repr

/-- What a health test finds (R439): a run of equal samples, or how often a window of 1,024 repeats its first sample. -/
inductive HealthSeen where
  | rct (run : Nat)
  | apt (count : Nat)
deriving DecidableEq, Repr

/-- What a start-up test finds in 4,096 samples (R441): the longest run, and the most repetitions of a window's first sample. -/
structure StartUp where
  run : Nat
  count : Nat
deriving DecidableEq, Repr

/-- What a memory read finds (R20, R21): nothing, a corrected error, or an uncorrectable one at an address. -/
inductive MemErr where
  | none
  | ce (mem : Fin 12)
  | ue (mem : Fin 12) (addr : Nat)
deriving DecidableEq, Repr

/-- An output of the block, in the order made. -/
inductive Out where
  | hostWrite (fn addr : Nat) (bytes : List Byte)
  | hostRead (port tag fn addr len : Nat)
  | atsRequest (port tag fn pasid page : Nat)
  | invCompletion (port fn itag : Nat)
  | hostReply (port fn status : Nat) (bytes : List Byte)
  | msix (fn vec addr data : Nat)
  | ltr (link value : Nat)
  | linkAsk (link what value : Nat)
  | frame (port : Nat) (bytes : List Byte) (good : Bool)
  | fragment (port frame : Nat) (bytes : List Byte)
  | pause (port prio quanta : Nat) (pfc : Bool) (source : Nat)
  | lpi (port : Nat) (enter : Bool)
  | flexe (group : Nat) (what : Nat)
  | pin (what inst : Nat) (level : Bool)
  | nvme (ssd op nsid addr len : Nat) (fua : Bool) (bytes : List Byte)
  | ssdRefused (ssd addr : Nat)
  | pair (cls seq epoch : Nat) (m : PMsg)
  | pairAck (cls upto epoch : Nat)
  | pairNak (cls expected epoch : Nat)
  | ctrlBus (what inst : Nat) (bytes : List Byte)
deriving DecidableEq, Repr

end Sys2Proof.Machine
end

