-- ==== Sys2Proof/Syntax.lean ====
section
/-! DEFINITION. The commands of the ZG4712, one constructor for each row of the opcode table, in its order. What comes from
outside (a register access, a frame, a completion) stands in the operands. -/

namespace Sys2Proof

open Machine

/-- A command. -/
inductive Instr where
  /-- REGISTER_WRITE (R7): A register write to a register that has no row of its own updates its fields according to their access types. -/
  | registerWrite (a : Accessor) (page : Fin 41) (off : Fin 65536) (v : Word)
  /-- CLEAR_ON_READ (R7): A read of an RC field returns its value and clears it. -/
  | clearOnRead (a : Accessor) (page : Fin 41) (off : Fin 65536)
  /-- MISALIGNED_ACCESS (R4): A register access that is not 32 bits wide or not naturally aligned completes without effect, reads 0 and is recorded. -/
  | misalignedAccess (a : Accessor) (page : Fin 41) (off : Fin 65536) (rd : Bool)
  /-- PAIR_LO_READ (R6): A read of the LO half of a 64-bit pair returns the low half and loads the HI latch. -/
  | pairLoRead (a : Accessor) (page : Fin 41) (off : Fin 65536)
  /-- PAIR_LO_WRITE (R6): A write of the LO half loads the pair's holding register only. -/
  | pairLoWrite (a : Accessor) (page : Fin 41) (off : Fin 65536) (v : Word)
  /-- PAIR_HI_WRITE (R6): A write of the HI half makes the pair take the HI value with the holding register. -/
  | pairHiWrite (a : Accessor) (page : Fin 41) (off : Fin 65536) (v : Word)
  /-- UNMAPPED_PAGE_ACCESS (R70): An access to page index 41 to 63 reads 0 or has no effect and is recorded in CHIP.ERR_FIRST. -/
  | unmappedPageAccess (a : Accessor) (k : Fin 23) (off : Fin 65536) (rd : Bool)
  /-- NOT_OWNER_WRITE (R74): A write by the non-owning management port has no effect and is recorded. -/
  | notOwnerWrite (p : Fin 2) (page : Fin 41) (off : Fin 65536)
  /-- MGMT_OWNER_WRITE (R74): A write of CHIP.MGMT_OWNER by the owning port or a core moves management ownership. -/
  | mgmtOwnerWrite (a : Accessor) (v : Word)
  /-- INST_SEL_WRITE (R73): A write of a windowed page's INST_SEL selects the accessor's instance, or is refused beyond the instance count. -/
  | instSelWrite (a : Accessor) (page : Fin 41) (v : Word)
  /-- COMMIT (R77): A write of PAGE_COMMIT.COMMIT copies the staged set to the pending set or is refused. -/
  | commit (a : Accessor) (page : Fin 41)
  /-- COMMIT_ALL (R80): COMMIT with ALL requests a commit of every instance of a windowed page. -/
  | commitAll (a : Accessor) (page : Fin 41)
  /-- DISCARD (R82): A write of PAGE_COMMIT.DISCARD overwrites the staged set with the committed set. -/
  | discard (a : Accessor) (page : Fin 41) (both : Bool)
  /-- COMMIT_BOUNDARY (R77): At the block's commit boundary the pending set replaces the committed set and COMMIT_SEQ steps. -/
  | commitBoundary (page : Fin 41) (inst : Fin 512)
  /-- INT_SET (R76): A write of INT_SET sets INT_STAT bits and may produce notice or error events. -/
  | intSet (a : Accessor) (page : Fin 41) (v : Word)
  /-- INT_MASK_WRITE (R76): An INT_MASK write that unmasks a set bit produces an event of its severity source. -/
  | intMaskWrite (a : Accessor) (page : Fin 41) (v : Word)
  /-- INT_SEV_WRITE (R76): An INT_SEV write that moves a set unmasked bit to another severity produces an event of that source. -/
  | intSevWrite (a : Accessor) (page : Fin 41) (v : Word)
  /-- BOOT_LOCK (R84): A write of CHIP.BOOT_LOCK.LOCK from a control core sets the boot lock and makes LK fields read-only. -/
  | bootLock (a : Accessor) (v : Word)
  /-- LATCH_ACQUIRE (R88): A read of LATCHn_ACQ or of a latch window attempts an acquire and returns its STATUS and owner. -/
  | latchAcquire (u : LatchUser) (n : Fin 1024)
  /-- LATCH_RELEASE (R88): A RELEASE write by the owner frees a HELD latch or returns a HELD_BROKEN latch to BROKEN. -/
  | latchRelease (u : LatchUser) (n : Fin 1024)
  /-- CLR_BROKEN (R88): A CLR_BROKEN write by the owner turns a HELD_BROKEN latch into HELD. -/
  | clrBroken (u : LatchUser) (n : Fin 1024)
  /-- CLR_BROKEN_AND_RELEASE (R88): A LATCHn_CTL write with both bits is handled as CLR_BROKEN followed by RELEASE. -/
  | clrBrokenAndRelease (u : LatchUser) (n : Fin 1024)
  /-- MAINT_ARBITRATE (R94): The MAINT arbiter decides one waiting start per clock, accepting it or refusing it with CONFLICT. -/
  | maintArbitrate (fw : Option Bool)
  /-- CLOCK_LOST (R96): A clock input without edges for 1 µs is lost and the device takes the backup actions for that clock. -/
  | clockLost (i : Fin 7)
  /-- CLOCK_RESTORED (R96): A clock input that has run 100 µs without a gap is restored and its users return to it. -/
  | clockRestored (i : Fin 7)
  /-- REFCLK_MEASURE (R97): Each system-clock second REFCLK0 is measured against SYSCLK_25M into REFCLK_MEAS. -/
  | refclkMeasure (off : Word)
  /-- PSTATE_SELECT (R145): Every 1 µs the device selects the deepest low-power state allowed by LAT_TOL and the next wheel event. -/
  | pstateSelect (us : Nat)
  /-- PSTATE_ENTER (R98): When the idle condition of an enabled selected state holds, the device enters it and gates its blocks. -/
  | pstateEnter (us : Nat)
  /-- PSTATE_WAKE (R146): Activity or the approach of the earliest wheel event starts the exit from a low-power state. -/
  | pstateWake (cause : Fin 5)
  /-- PSTATE_EXIT_DONE (R98): After the state's exit latency the gated blocks are running again. -/
  | pstateExitDone
  /-- SCRUB_SEGMENT_START (R24): At each segment instant the HBM or DDR5 patrol scrub passes the arbiter and starts a 1 GiB segment. -/
  | scrubSegmentStart (ddr : Bool)
  /-- SCRUB_SEGMENT_END (R24): A scrub segment ends, and at the last segment the pass count steps. -/
  | scrubSegmentEnd (ddr : Bool) (ces ues : List (Fin 12 × Nat))
  /-- DOM_INCR_WRITE (R39): A write of DOMn_INCR_HI sets the domain's rate from the next REFCLK edge, or is refused outside ±1,000 ppm. -/
  | domIncrWrite (a : Accessor) (n : Fin 8) (hi : Word)
  /-- ARM (R42): DOMn_CTL.ARM moves a FREE or LOCKED domain to FLUSHING and removes its pending events for dispatch with STEPPED. -/
  | arm (a : Accessor) (n : Fin 8) (v : Word)
  /-- DOMAIN_FLUSH_DONE (R42): When the last flushed event is dispatched the domain becomes ARMED and REARM is set. -/
  | domainFlushDone (n : Fin 8)
  /-- STEP (R43): DOMn_CTL.STEP in ARMED adds the signed offset to the domain time and makes it LOCKED. -/
  | step (a : Accessor) (n : Fin 8) (v : Word)
  /-- SLEW (R45): A DOMn_SLEW write starts a slew of the signed amount, or is refused. -/
  | slew (a : Accessor) (n : Fin 8) (v : Word)
  /-- SLEW_DONE (R45): When the slew remainder reaches zero the slew ends and SLEW_DONE is set. -/
  | slewDone (n : Fin 8)
  /-- HOLD_SET (R48): DOMn_CTL.HOLD_SET puts a LOCKED domain into holdover at the next REFCLK edge. -/
  | holdSet (a : Accessor) (n : Fin 8) (v : Word)
  /-- HOLD_CLR (R50): DOMn_CTL.HOLD_CLR clears HOLDOVER at the next REFCLK edge. -/
  | holdClr (a : Accessor) (n : Fin 8) (v : Word)
  /-- KEEPALIVE (R48): DOMn_CTL.KEEPALIVE counts as a discipline write and restarts the discipline timer. -/
  | keepalive (a : Accessor) (n : Fin 8) (v : Word)
  /-- DISCIPLINE_TIMEOUT (R48): Expiry of the discipline timer of a LOCKED domain puts it into holdover. -/
  | disciplineTimeout (n : Fin 8)
  /-- SNAP (R68): DOMn_CTL.SNAP latches the domain's snapshot registers at the next REFCLK edge. -/
  | snap (a : Accessor) (n : Fin 8) (v : Word)
  /-- SNAP_ALL (R68): TIME.SNAP_ALL latches the snapshots of all eight domains at one REFCLK edge. -/
  | snapAll (a : Accessor)
  /-- PORT_DOM_WRITE (R62): A TIME.PORT_DOM write moves a port to another domain and withdraws its queued launch-time frames with STEPPED. -/
  | portDomWrite (a : Accessor) (k : Fin 64) (v : Word)
  /-- GO (R53): WHEEL.SCHED_CTL.GO submits a software event request that is scheduled or refused. -/
  | go (a : Accessor) (v : Word)
  /-- CANCEL (R58): A write of WHEEL.CANCEL removes the pending event matching the handle and reports REMOVED. -/
  | cancel (a : Accessor) (h : Word)
  /-- SOFTWARE_EVENT_FIRE (R56): A due software wheel event raises its event source. -/
  | softwareEventFire
  /-- RESCHEDULE_RETRY (R57): Every 1 µs a periodic consumer whose reschedule was refused retries at the next grid point. -/
  | rescheduleRetry (k : PeriodicKind) (i : Nat)
  /-- PPS_IN_EDGE (R65): A rising edge on an enabled PPS_IN is captured into its FIFO or dropped at a full FIFO. -/
  | ppsInEdge (m : Fin 4)
  /-- PPS_CAP_NS_READ (R65): A read of PPS_INn_CAP_NS removes the head capture from the FIFO. -/
  | ppsCapNsRead (a : Accessor) (m : Fin 4)
  /-- PPS_OUT_ENABLE (R66): A write of OUT_CTL.EN = 1 schedules the output's edges from START. -/
  | ppsOutEnable (a : Accessor) (m : Fin 4) (v : Word)
  /-- PERIOD_OUTPUT_EDGE (R66): A due period-output event drives the active edge, or on STEPPED returns the output to idle. -/
  | periodOutputEdge
  /-- PPS_OUT_INACTIVE_EDGE (R66): WIDTH after an active edge the output drives its inactive edge. -/
  | ppsOutInactiveEdge (m : Fin 4)
  /-- REF10M_MEASURE (R67): After 10,000,000 cycles of REF10M_IN the offset against REFCLK is stored. -/
  | ref10mMeasure (meas : Word)
  /-- REF10M_LOST (R67): REF10M_IN without edges for 1 µs is marked lost. -/
  | ref10mLost
  /-- HOST_LINK_UP (R122): A host link finishes training and reaches L0. -/
  | hostLinkUp (l : Fin 4) (speed : Fin 8) (width : Fin 17) (flit : Bool)
  /-- HOST_LINK_DOWN (R122): A host link goes down, as a surprise closing the shutter, otherwise with a port-level reset. -/
  | hostLinkDown (l : Fin 4)
  /-- HOT_RESET (R143): A Hot Reset from the host performs a port-level reset of the link's functions. -/
  | hotReset (l : Fin 4)
  /-- LINK_DISABLE (R143): A Link Disable from the host takes the link down and resets its functions. -/
  | linkDisable (l : Fin 4)
  /-- LINK_OFF (R122): HOSTn.CTL.LINK_OFF takes both links down without a shutter while set, and its clearing retrains them. -/
  | linkOff (a : Accessor) (h : Fin 2) (v : Word)
  /-- L0P_WIDTH_CHANGE (R103): After 100 µs of low utilisation, or at once at high utilisation, the port requests a narrower or full width. -/
  | l0pWidthChange (l : Fin 4) (tx rx : Fin 101)
  /-- ASPM_L1_ENTRY (R103): With no outstanding or queued DMA and a large LTR the port enters ASPM L1. -/
  | aspmL1Entry (l : Fin 4)
  /-- TAG_ALLOCATE (R105): A waiting non-posted request obtains a read tag and is issued to the link. -/
  | tagAllocate (h : Fin 2)
  /-- HOST_COMPLETION (R107): A completion TLP arrives for an outstanding read, or is discarded as unexpected. -/
  | hostCompletion (h : Fin 2) (tag : Nat) (kind : CplKind) (last : Bool) (data : List Byte)
  /-- COMPLETION_TIMEOUT (R106): A request's Completion Timeout expires, ending it with HOST_ABORT and quarantining its tag. -/
  | completionTimeout (h : Fin 2) (tag : Nat)
  /-- TAG_QUARANTINE_END (R106): After MULT times the timeout a quarantined tag returns to the pool. -/
  | tagQuarantineEnd (h : Fin 2) (tag : Nat)
  /-- TRANSLATION_COMPLETION (R112): An ATS Translation Completion fills the translation cache unless marked for discard. -/
  | translationCompletion (h : Fin 2) (tag out : Nat) (logSize : Fin 64) (rd wrt : Bool)
  /-- INVALIDATE_REQUEST (R111): An ATS Invalidate Request removes matching translation entries and starts waiting for users. -/
  | invalidateRequest (f : Fin 2048) (scope : InvScope) (addr size itag : Nat)
  /-- INVALIDATE_COMPLETION (R111): When every access using a removed entry is done the port sends the Invalidate Completion. -/
  | invalidateCompletion (h : Fin 2)
  /-- XLAT_FLUSH (R114): XLAT.FLUSH.GO removes every translation entry of a function, for all PASIDs or one. -/
  | xlatFlush (a : Accessor) (v : Word)
  /-- XLAT_FLUSH_DONE (R114): When the flush's waiting steps end, BUSY clears and FLUSH_DONE is set. -/
  | xlatFlushDone
  /-- WINDOW_COMMIT (R118): A write of XLAT.WIN_CTL commits the selected window's base, limit and control. -/
  | windowCommit (a : Accessor) (v : Word)
  /-- INBOUND_MEMORY_REQUEST (R119): A memory request from the host to a BAR is served, or refused whole when it crosses a boundary or the shutter is closed. -/
  | inboundMemoryRequest (f : Fin 2048) (bar2 : Bool) (off : Fin 4194304) (len : Fin 4097) (data : Option (List Byte))
  /-- CONFIG_REQUEST (R144): A configuration request is answered, or answered with retry status during boot or a function reset. -/
  | configRequest (f : Fin 2048) (op : CfgOp)
  /-- AER_ERROR (R120): A link error is logged in AER and counted, and a fatal one closes the shutter. -/
  | aerError (l : Fin 4) (k : AerKind) (hdr : List Byte)
  /-- SHUTTER_READY (R124): When the shut link is in L0 (and unfenced) the shutter becomes READY, and may release at once. -/
  | shutterReady (l : Fin 4)
  /-- SHUTTER_RELEASE (R127): A write of REL in READY starts the port-level reset of release, or is refused. -/
  | shutterRelease (a : Accessor) (h : Fin 2) (v : Word)
  /-- SHUTTER_OPEN (R127): When the release's port-level reset ends the shutter becomes OPEN. -/
  | shutterOpen (l : Fin 4)
  /-- LTR_UPDATE (R131): Every 10 µs the link computes T and sends a new LTR message when the thresholds require. -/
  | ltrUpdate (l : Fin 4) (bytes : Nat) (frames : List (Fin 65536 × Nat))
  /-- VECTOR_RANGE_WRITE (R136): A write of VEC_BASE or VEC_COUNT assigns a function's vector range, or is ignored and recorded. -/
  | vectorRangeWrite (a : Accessor) (count : Bool) (v : Word)
  /-- ERT_COMMIT (R137): A write of word 1 of an event routing entry commits both words. -/
  | ertCommit (a : Accessor) (src : Fin 4096) (v : Word)
  /-- MODERATION_TIMEOUT (R138): MOD_US after the first moderated event the entry raises its target. -/
  | moderationTimeout (src : Fin 4096)
  /-- MSIX_SEND (R139): A raised vector sends its MSI-X write once enabled, unmasked and a token is available. -/
  | msixSend (f i : Fin 2048)
  /-- INT_BUCKET_REFILL (R142): A shaper-refill event adds tokens to a function's interrupt bucket. -/
  | intBucketRefill
  /-- FUNCTION_LEVEL_RESET (R143): A function-level reset starts the ordered release of one function's state. -/
  | functionLevelReset (f : Fin 2048)
  /-- VF_DISABLE (R143): Clearing VF Enable runs the reset steps for each virtual function of the physical function. -/
  | vfDisable (h : Fin 2) (k : Fin 8)
  /-- FUNCTION_RESET_DRAINED (R143): When the confirmed work of a resetting function has completed, the remaining reset steps run to step 8. -/
  | functionResetDrained (f : Fin 2048)
  /-- DOORBELL (R163): A write to a doorbell slot starts a scan of the ring or sets its rescan flag. -/
  | doorbell (f : Fin 2048) (w : Fin 4096)
  /-- RING_POLL (R168): A ring poll event acts as a doorbell and schedules the next poll. -/
  | ringPoll
  /-- DESCRIPTOR_ARRIVAL (R165): A descriptor read returns and its OWN bytes are checked, dropping held entries on a mismatch. -/
  | descriptorArrival (r : Fin 65536)
  /-- DESCRIPTOR_CONFIRM (R165): With a completion slot reserved and room at the consumer, the head entry is confirmed and dispatched. -/
  | descriptorConfirm
  /-- RING_NOP (R158): A descriptor of TYPE 0x00 completes with OK and has no other effect. -/
  | ringNop (w : Nat)
  /-- SGL_ARRIVAL (R160): A scatter list read returns and is checked before any data moves. -/
  | sglArrival (id : Nat)
  /-- RING_DRAINED (R154): A DRAINING ring becomes OFF after the completion of its last confirmed work. -/
  | ringDrained (r : Fin 65536)
  /-- HEAD_WRITE (R175): A completion-ring head slot write moves SW_HEAD and may arm the ring, or is ignored. -/
  | headWrite (f : Fin 2048) (c : Fin 2048) (v : Word)
  /-- TRANSOM_DATA_WRITE (R179): A port-mode write of DATA writes the word at ADDR and adds INCR. -/
  | transomDataWrite (a : Accessor) (len : Fin 9) (v : Word)
  /-- TRANSOM_DATA_READ (R179): A port-mode read of DATA reads the word at ADDR and adds INCR. -/
  | transomDataRead (a : Accessor) (len : Fin 9)
  /-- APERTURE_WRITE (R180): A burst-mode aperture write stores bytes at ADDR plus offset and advances FILL. -/
  | apertureWrite (a : Accessor) (x : Fin 65536) (b : List Byte)
  /-- APERTURE_READ (R180): A burst-mode aperture read returns bytes at ADDR plus offset. -/
  | apertureRead (a : Accessor) (x : Fin 65536) (len : Fin 513)
  /-- ADVANCE (R180): A write of TRANSOM.ADVANCE moves ADDR on by 32,768 and clears FILL. -/
  | advance (a : Accessor) (v : Word)
  /-- TGT_WRITE (R181): A write of TRANSOM.TGT selects space and mode and discards a partly written entry. -/
  | tgtWrite (a : Accessor) (v : Word)
  /-- LANE_RECONFIGURE (R189): A LANEl_CTL write drops the lane's link and retrains it in its new mode. -/
  | laneReconfigure (a : Accessor) (l : Fin 64) (v : Word)
  /-- LANE_LINK_UP (R189): A lane completes training and its ports come up. -/
  | laneLinkUp (l : LaneHeard)
  /-- LANE_LINK_DOWN (R189): A lane loses its link and takes down every port that uses it. -/
  | laneLinkDown (l : Fin 64)
  /-- CA_RECEIVED (R194): The peer's CA lets the FlexE shim switch calendars at the next overhead multiframe boundary. -/
  | caReceived (g : Fin 16)
  /-- CA_TIMEOUT (R195): A group without CA within SW_TIMEOUT sets CA_WAIT and keeps waiting. -/
  | caTimeout (g : Fin 16)
  /-- ABANDON (R195): CAL_CTL.ABANDON withdraws CR and drops the pending calendar set. -/
  | abandon (a : Accessor)
  /-- RX_FRAME (R196): A received frame is filtered, truncated or dropped by the MAC and passed to its pipeline. -/
  | rxFrame (p : Fin 512) (bytes : List Byte) (cut : Bool) (mm : Fin 4)
  /-- FRAME_CONFIRM (R30): The frame's FCS check ends: on success its held effects take place, on failure it is discarded. -/
  | frameConfirm (id : Nat) (ok : Bool)
  /-- CUT_THROUGH_START (R206): Once CT_START bytes have arrived and the action is known the egress MAC starts a cut-through frame. -/
  | cutThroughStart (id : Nat)
  /-- FRAME_FETCH_DONE (R15): The last byte of a host frame read arrives and the bound pipeline processes the frame. -/
  | frameFetchDone (w : Nat)
  /-- SCHEDULER_SELECT (R278): When a MAC can start a frame the scheduler chooses an eligible queue and transmission starts. -/
  | schedulerSelect (p : Fin 512)
  /-- FRAME_TX_END (R16): The last byte of a frame leaves the MAC and its send completion is written. -/
  | frameTxEnd (p : Fin 512) (e : MemErr)
  /-- RX_DELIVER (R209): A frame is written into confirmed NET_RX buffers with one completion per buffer. -/
  | rxDeliver (r : Fin 65536) (e : MemErr)
  /-- HOST_BOUND_RELEASE (R276): A frame waiting in a host-bound allowance is delivered when its ring has confirmed buffers. -/
  | hostBoundRelease (r : Fin 65536)
  /-- PAUSE_RECEIVED (R199): A received PFC or PAUSE frame stops the paused classes from starting frames. -/
  | pauseReceived (p : Fin 512) (pfc : Bool) (quanta : List (Fin 8 × BitVec 16))
  /-- PAUSE_EXPIRED (R199): A received pause time runs out and the paused classes may start again. -/
  | pauseExpired (p : Fin 512) (g : Fin 9)
  /-- PFC_REPEAT (R277): Every 32,768 quanta while usage stays at or above PFC_XON the MAC repeats the pause frame. -/
  | pfcRepeat (p : Fin 512) (g : Fin 9)
  /-- PREEMPT_VERIFY (R202): A verify attempt of the MAC Merge sublayer succeeds, is retried after verifyTime, or fails. -/
  | preemptVerify (p : Fin 512) (ok : Bool)
  /-- MAC_PREEMPT (R292): Before a gate closes or a HOLD applies the MAC preempts a preemptable frame at a fragment boundary. -/
  | macPreempt (x : FrameCut)
  /-- LPI_ENTER (R204): After LPI_IDLE µs of empty queues with nothing due the transmitter enters LPI. -/
  | lpiEnter (p : Fin 512)
  /-- LPI_WAKE (R204): A queued frame or an approaching launch or gate change wakes the transmitter from LPI. -/
  | lpiWake (p : Fin 512)
  /-- INDIR_DATA_WRITE (R240): A write of CLASS.INDIR_DATA commits the selected indirection entry. -/
  | indirDataWrite (a : Accessor) (v : Word)
  /-- RULE_COUNTER_READ (R241): A read of CNT_PKT_LO returns the frame count, latches the other halves and clears both counts. -/
  | ruleCounterRead (a : Accessor)
  /-- CTRL_LIMIT_REFILL (R236): Every 100 µs the pipeline's control-copy bucket is filled to CTRL_LIMIT. -/
  | ctrlLimitRefill
  /-- LEARN_EVENT (R256): The learn engine takes one queued event, inserts, moves or flags the entry and notifies. -/
  | learnEvent (p : Fin 4)
  /-- INSERT (R253): A software INSERT command inserts or replaces a basket or hamper entry by key. -/
  | insert (a : Accessor) (v : Word)
  /-- DELETE (R253): A software DELETE command removes an entry by key. -/
  | delete (a : Accessor) (v : Word)
  /-- FIND (R253): A software FIND command returns an entry's result and flags. -/
  | find (a : Accessor) (v : Word)
  /-- HOLD_EXPIRY (R257): A key leaves the hold list when MOVE_HOLD plus 64,000 ns have passed. -/
  | holdExpiry (p : Fin 4)
  /-- AGING_SWEEP (R261): An aging sweep event starts a sweep that ages and removes idle dynamic entries. -/
  | agingSweep
  /-- AGING_SWEEP_END (R261): A sweep ends and SWEEP_DONE is set. -/
  | agingSweepEnd (p : Fin 4)
  /-- RESIZE (R262): RESIZE.GO starts TABLE_RESIZE with a new basket count and seed. -/
  | resize (a : Accessor) (v : Word)
  /-- RESIZE_DONE (R262): At the end of a resize HASH_CFG and HASH_SEED take the new values. -/
  | resizeDone (p : Fin 4)
  /-- NOTIFY_HEAD_WRITE (R259): A NOTIFY_HEAD write moves the notification ring head and may arm it. -/
  | notifyHeadWrite (a : Accessor) (v : Word)
  /-- MEMB_DATA_WRITE (R268): A write of FWD.MEMB_DATA commits the selected path-group member. -/
  | membDataWrite (a : Accessor) (v : Word)
  /-- LPM_INSERT (R264): An LPM INSERT command places or replaces a prefix in one of its two buckets. -/
  | lpmInsert (a : Accessor)
  /-- LPM_DELETE (R264): An LPM DELETE command removes a prefix. -/
  | lpmDelete (a : Accessor)
  /-- LPM_FIND (R270): An LPM FIND command loads a prefix's result and next hop. -/
  | lpmFind (a : Accessor)
  /-- NH_W3_WRITE (R270): A write of NH_W3 commits W0 to W3 as one next-hop entry. -/
  | nhW3Write (a : Accessor) (v : Word)
  /-- NH_W0_READ (R270): A read of NH_W0 latches the committed next-hop entry. -/
  | nhW0Read (a : Accessor)
  /-- REPL_CTL_WRITE (R280): A write of TM.REPL_CTL commits the control and mask words of a replication group. -/
  | replCtlWrite (a : Accessor) (v : Word)
  /-- SHAPER_REFILL (R282): A shaper-refill event credits one block of 64 shapers. -/
  | shaperRefill
  /-- POLICER_REFILL (R284): A refill event adds tokens to one block of 256 policers. -/
  | policerRefill
  /-- POL_W4_WRITE (R287): A write of POL_W4 commits a policer entry and fills or empties its buckets. -/
  | polW4Write (a : Accessor) (v : Word)
  /-- LV_W1_WRITE (R288): A write of LV_W1 commits a louvre entry into the bank the port is not running. -/
  | lvW1Write (a : Accessor) (v : Word)
  /-- LOUVRE_CYCLE_START (R289): A cycle of a port's louvre list starts and entry 0 applies. -/
  | louvreCycleStart
  /-- LOUVRE_LIST_CHANGE (R289): A louvre list change event applies the next entry, or on STEPPED stops the list. -/
  | louvreListChange
  /-- LAUNCH_DUE (R293): A frame's launch event fires, making it launch-eligible or withdrawing it with STEPPED. -/
  | launchDue
  /-- TELEMETRY_SAMPLE (R296): A telemetry sampling event records every queue's depth in its histogram. -/
  | telemetrySample
  /-- WORK_ITEM_TAKE (R305): An IDLE POOL thread takes the next work item, its work record is written and it becomes READY. -/
  | workItemTake (e : Fin 64)
  /-- THREAD_STOP (R303): THRt_CTL.STOP stops the thread at its next flow-instruction boundary. -/
  | threadStop (a : Accessor) (k : Fin 16)
  /-- THREAD_RUN (R302): THRt_CTL.RUN makes a STOPPED thread READY. -/
  | threadRun (a : Accessor) (k : Fin 16)
  /-- THREAD_ABORT (R304): THRt_CTL.ABORT raises micro-trap FORCED and aborts the thread. -/
  | threadAbort (a : Accessor) (k : Fin 16)
  /-- THREAD_RESTART (R302): THRt_CTL.RESTART returns a FAULTED thread to IDLE or to its start. -/
  | threadRestart (a : Accessor) (k : Fin 16)
  /-- CHANNEL_WAIT_DONE (R312): A thread waiting on a channel completes its put or get and becomes READY. -/
  | channelWaitDone (t : Fin 1024)
  /-- MEMORY_OP_DONE (R302): A thread's external, host, latch, flow-cache, frame or fetch operation completes and the thread becomes READY. -/
  | memoryOpDone (t : Fin 1024) (e : MemErr)
  /-- THREAD_WAIT_DONE (R314): A thread's wheel wait fires and the thread becomes READY with its wait status. -/
  | threadWaitDone
  /-- NOP (R316): Flow instruction NOP has no effect. -/
  | nop (t : Fin 1024)
  /-- ALU (R316): Flow instruction ALU computes X[D] from X[A] and X[B] or IMM. -/
  | alu (t : Fin 1024)
  /-- LI (R316): Flow instruction LI loads an immediate into X[D]. -/
  | li (t : Fin 1024)
  /-- BR (R316): Flow instruction BR branches on a compare, predicted. -/
  | br (t : Fin 1024)
  /-- JAL (R316): Flow instruction JAL links and jumps relative. -/
  | jal (t : Fin 1024)
  /-- JR (R316): Flow instruction JR links and jumps to a register offset. -/
  | jr (t : Fin 1024)
  /-- LD (R316): Flow instruction LD loads from LMEM. -/
  | ld (t : Fin 1024)
  /-- ST (R316): Flow instruction ST stores to LMEM. -/
  | st (t : Fin 1024)
  /-- XLD (R316): Flow instruction XLD loads from HBM or DDR5. -/
  | xld (t : Fin 1024)
  /-- XST (R316): Flow instruction XST stores to HBM or DDR5. -/
  | xst (t : Fin 1024)
  /-- HCOPY (R316): Flow instruction HCOPY copies between host memory and LMEM. -/
  | hcopy (t : Fin 1024)
  /-- CHPUT (R316): Flow instruction CHPUT puts a word into a channel. -/
  | chput (t : Fin 1024)
  /-- CHGET (R316): Flow instruction CHGET gets a word from a channel. -/
  | chget (t : Fin 1024)
  /-- WAIT (R314): Flow instruction WAIT schedules a wheel event and waits for it. -/
  | wait (t : Fin 1024)
  /-- LATCH (R316): Flow instruction LATCH acquires, releases or clears a latch. -/
  | latch (t : Fin 1024)
  /-- FCLOOK (R316): Flow instruction FCLOOK looks a key up in the flow cache. -/
  | fclook (t : Fin 1024)
  /-- FCPUT (R316): Flow instruction FCPUT inserts or replaces a flow-cache entry. -/
  | fcput (t : Fin 1024)
  /-- FCDEL (R316): Flow instruction FCDEL removes a flow-cache entry. -/
  | fcdel (t : Fin 1024)
  /-- HASH (R316): Flow instruction HASH computes a CRC-32C over LMEM bytes. -/
  | hash (t : Fin 1024)
  /-- FRD (R316): Flow instruction FRD copies current-frame bytes to LMEM. -/
  | frd (t : Fin 1024)
  /-- FWR (R316): Flow instruction FWR writes LMEM bytes into the current frame. -/
  | fwr (t : Fin 1024)
  /-- FLEN (R316): Flow instruction FLEN reads or sets the frame length. -/
  | flen (t : Fin 1024)
  /-- FOUT (R316): Flow instruction FOUT disposes of the current frame. -/
  | fout (t : Fin 1024)
  /-- FNEW (R316): Flow instruction FNEW makes a new empty frame current. -/
  | fnew (t : Fin 1024)
  /-- CPL (R309): Flow instruction CPL completes the thread's ring item. -/
  | cpl (t : Fin 1024)
  /-- EVT (R316): Flow instruction EVT raises an event source. -/
  | evt (t : Fin 1024)
  /-- DONE (R302): Flow instruction DONE ends the thread's work. -/
  | done (t : Fin 1024)
  /-- HALT (R302): Flow instruction HALT stops the thread. -/
  | halt (t : Fin 1024)
  /-- TIME (R316): Flow instruction TIME reads the WT of the thread's domain. -/
  | time (t : Fin 1024)
  /-- FENCE (R316): Flow instruction FENCE waits until earlier external and host writes are performed. -/
  | fence (t : Fin 1024)
  /-- UNOP (R320): Microword UNOP does nothing. -/
  | unop (t : Fin 1024)
  /-- UADD (R320): Microword UADD adds two operands. -/
  | uadd (t : Fin 1024)
  /-- USUB (R320): Microword USUB subtracts two operands. -/
  | usub (t : Fin 1024)
  /-- UAND (R320): Microword UAND ANDs two operands. -/
  | uand (t : Fin 1024)
  /-- UOR (R320): Microword UOR ORs two operands. -/
  | uor (t : Fin 1024)
  /-- UXOR (R320): Microword UXOR XORs two operands. -/
  | uxor (t : Fin 1024)
  /-- USHL (R320): Microword USHL shifts left. -/
  | ushl (t : Fin 1024)
  /-- USHR (R320): Microword USHR shifts right logically. -/
  | ushr (t : Fin 1024)
  /-- USAR (R320): Microword USAR shifts right arithmetically. -/
  | usar (t : Fin 1024)
  /-- UMUL (R320): Microword UMUL multiplies. -/
  | umul (t : Fin 1024)
  /-- UCMP (R320): Microword UCMP compares and sets Z, LT and LTU. -/
  | ucmp (t : Fin 1024)
  /-- UINS (R320): Microword UINS inserts a 16-bit immediate into a lane. -/
  | uins (t : Fin 1024)
  /-- ULD (R320): Microword ULD loads from LMEM. -/
  | uld (t : Fin 1024)
  /-- UST (R320): Microword UST stores to LMEM. -/
  | ust (t : Fin 1024)
  /-- UXLD (R320): Microword UXLD loads from external memory. -/
  | uxld (t : Fin 1024)
  /-- UXST (R320): Microword UXST stores to external memory. -/
  | uxst (t : Fin 1024)
  /-- UHDMA (R320): Microword UHDMA performs a host copy. -/
  | uhdma (t : Fin 1024)
  /-- UCHPUT (R320): Microword UCHPUT puts into a channel. -/
  | uchput (t : Fin 1024)
  /-- UCHGET (R320): Microword UCHGET gets from a channel. -/
  | uchget (t : Fin 1024)
  /-- UWAIT (R320): Microword UWAIT schedules a wheel wait. -/
  | uwait (t : Fin 1024)
  /-- ULATCH (R320): Microword ULATCH performs a latch operation. -/
  | ulatch (t : Fin 1024)
  /-- UFC (R320): Microword UFC performs a flow-cache operation. -/
  | ufc (t : Fin 1024)
  /-- UHASH (R320): Microword UHASH computes a CRC-32C. -/
  | uhash (t : Fin 1024)
  /-- UFRAME (R320): Microword UFRAME performs a frame operation. -/
  | uframe (t : Fin 1024)
  /-- UCPL (R320): Microword UCPL completes the ring item. -/
  | ucpl (t : Fin 1024)
  /-- UEVT (R320): Microword UEVT raises an event source. -/
  | uevt (t : Fin 1024)
  /-- UDONE (R320): Microword UDONE performs DONE or HALT. -/
  | udone (t : Fin 1024)
  /-- UJMP (R321): Microword UJMP jumps to TARGET. -/
  | ujmp (t : Fin 1024)
  /-- UBR (R321): Microword UBR branches on COND. -/
  | ubr (t : Fin 1024)
  /-- UCALL (R321): Microword UCALL pushes the return address and jumps. -/
  | ucall (t : Fin 1024)
  /-- URET (R321): Microword URET pops the micro-return stack. -/
  | uret (t : Fin 1024)
  /-- UEND (R321): Microword UEND ends the flow instruction and dispatches the next one. -/
  | uend (t : Fin 1024)
  /-- UFBR (R324): Microword UFBR resolves a predicted branch, committing or discarding the predicted path. -/
  | ufbr (t : Fin 1024)
  /-- URTT (R327): Microword URTT returns from a trap and re-executes the faulting microword. -/
  | urtt (t : Fin 1024)
  /-- UABORT (R321): Microword UABORT aborts the thread. -/
  | uabort (t : Fin 1024)
  /-- UTRAP (R321): Microword UTRAP raises micro-trap SOFT. -/
  | utrap (t : Fin 1024)
  /-- RELOAD (R330): CS_CTL.RELOAD from a control core starts CS_RELOAD and drains the engine. -/
  | reload (a : Accessor)
  /-- CS_DRAIN_DONE (R330): When threads are idle or DRAIN_US passes, running threads abort and the control store opens for loading. -/
  | csDrainDone (e : Fin 64) (timeout : Bool)
  /-- LOAD_DONE (R330): CS_CTL.LOAD_DONE starts the CRC check of the control store. -/
  | loadDone (a : Accessor)
  /-- CS_CHECK_DONE (R330): The control-store CRC check ends, resuming the engine or returning to LOAD. -/
  | csCheckDone (e : Fin 64)
  /-- SELFTEST (R331): CS_CTL.SELFTEST starts ENGINE_SELFTEST and drains the engine. -/
  | selftest (a : Accessor)
  /-- SELFTEST_DONE (R331): The engine self-test ends with OK or puts the engine in its error state. -/
  | selftestDone (e : Fin 64) (ok : Bool)
  /-- ENGINE_RESET (R335): ENG_CTL.RESET aborts every thread, empties queue and channels and zeroes the X registers. -/
  | engineReset (a : Accessor)
  /-- ICACHE_INV (R335): ICACHE_INV makes later fetches read instructions from memory again. -/
  | icacheInv (a : Accessor)
  /-- PUT_WRITE (R336): A write of PUTc_HI puts a word into the channel or sets PUT_REJ. -/
  | putWrite (a : Accessor) (c : Fin 32) (hi : Word)
  /-- GET_READ (R336): A read of GETc_LO takes the head word of the channel or sets GET_EMPTY. -/
  | getRead (a : Accessor) (c : Fin 32)
  /-- FLOW_CACHE_SWEEP (R329): A flow-cache sweep invalidates old near copies and optionally ages entries. -/
  | flowCacheSweep
  /-- CORE_RESET (R337): CORE_CTL.RESET resets a control core and breaks its latches. -/
  | coreReset (a : Accessor)
  /-- CORE_RUN (R333): CORE_CTL.RUN starts a core at BOOT_ADDR. -/
  | coreRun (a : Accessor)
  /-- NMI (R337): CORE_CTL.NMI sends a non-maskable interrupt to a core. -/
  | nmi (a : Accessor)
  /-- CORE_FATAL (R333): A core meeting a fatal cache error or trap-vector fault halts in FATAL and its latches break. -/
  | coreFatal (c : Fin 48) (cause : Word) (epc : DWord)
  /-- CTRLQ_DB (R334): A write of CTRLQ_DB starts a scan of a core's control-receive descriptor ring. -/
  | ctrlqDb (a : Accessor)
  /-- CTRLQ_HEAD_WRITE (R334): A write of CTRLQ_HEAD moves the control completion ring head and may arm it. -/
  | ctrlqHeadWrite (a : Accessor) (v : Word)
  /-- RDMA_PACKET_RX (R340): A confirmed transport packet is checked and executed, replayed or NAKed by the responder. -/
  | rdmaPacketRx (id : Nat)
  /-- ACK_RX (R356): An ACK frees acknowledged packets, restarts the timer and may give an RTT sample. -/
  | ackRx (id : Nat)
  /-- NAK_RX (R356): A sequence-error or error NAK makes the requester resend or move the QP to ERROR. -/
  | nakRx (id : Nat)
  /-- RNR_NAK_RX (R357): An RNR NAK makes the requester wait the coded time before resending. -/
  | rnrNakRx (id : Nat)
  /-- RNR_WAIT_EXPIRY (R357): The RNR wait ends and the requester resends from the NAK's PSN. -/
  | rnrWaitExpiry
  /-- RETRANSMIT_TIMEOUT (R356): The retransmit timer expires and the requester resends from the oldest unacknowledged PSN. -/
  | retransmitTimeout
  /-- PACING_RELEASE (R359): A pacing event fires and the QP may start its next packet. -/
  | pacingRelease
  /-- SEND (R347): An RDMA SEND work request is transmitted. -/
  | send (w : Nat)
  /-- WRITE (R347): An RDMA WRITE work request is transmitted. -/
  | write (w : Nat)
  /-- READ (R347): An RDMA READ work request is sent. -/
  | read (w : Nat)
  /-- CAS (R347): An ATOMIC Compare and Swap work request is sent. -/
  | cas (w : Nat)
  /-- FAA (R347): An ATOMIC Fetch and Add work request is sent. -/
  | faa (w : Nat)
  /-- FLUSH (R352): An RDMA FLUSH work request is sent after every earlier WR of the QP. -/
  | flush (w : Nat)
  /-- RECV (R349): An RDMA_RQ RECV descriptor supplies a receive buffer. -/
  | recv (w : Nat)
  /-- ARMED_WR_TRIGGER (R353): An armed WR starts when its trigger counter reaches the threshold. -/
  | armedWrTrigger (q : Fin 262144)
  /-- RTX_RESUME (R351): A QP waiting for retransmit-store space resumes as acknowledgements free space. -/
  | rtxResume (q : Fin 262144)
  /-- RESPONDER_FLUSH_ACK (R352): After the flush-range read completes the responder acknowledges a FLUSH. -/
  | responderFlushAck (q : Fin 262144)
  /-- MR_W7_WRITE (R341): A write of MR_W7 commits a memory-region entry. -/
  | mrW7Write (a : Accessor) (v : Word)
  /-- TRIG_VAL_WRITE (R353): A write of TRIG_VAL sets the selected trigger counter. -/
  | trigValWrite (a : Accessor) (v : Word)
  /-- LIP_CTL_WRITE (R360): A write of LIP_CTL commits a local-address entry. -/
  | lipCtlWrite (a : Accessor) (v : Word)
  /-- BLOCK_READ (R371): A block READ command returns the newest data of its range. -/
  | blockRead (id : Nat) (e : MemErr)
  /-- BLOCK_WRITE (R371): A block WRITE command stages its data for acknowledgement. -/
  | blockWrite (id : Nat)
  /-- BLOCK_FLUSH (R371): A block FLUSH completes when earlier acknowledged writes are placed and journaled. -/
  | blockFlush (id : Nat)
  /-- ZERO (R371): A ZERO command makes a block range read as zeros. -/
  | zero (id : Nat)
  /-- VOL_INFO (R390): TASK VOL_INFO returns the volume's information. -/
  | volInfo (id : Nat)
  /-- ERR_READ (R390): TASK ERR_READ returns the deferred-error record without clearing it. -/
  | errRead (id : Nat)
  /-- VOL_MODE (R390): TASK VOL_MODE applies a MODE at the volume's next commit boundary. -/
  | volMode (id : Nat)
  /-- SSD_ACT (R390): TASK SSD_ACT starts an SSD activity as SSDs_CMD does. -/
  | ssdAct (id : Nat)
  /-- TASK_ABORT (R391): BLKF.TW_CTL.ABORT completes the task window's command with ABORTED. -/
  | taskAbort (a : Accessor) (v : Word)
  /-- BLOCK_COMMAND_START (R376): A command held by ordering rules starts when the commands it waits for complete. -/
  | blockCommandStart (id : Nat)
  /-- DIRTY_WAIT_RELEASE (R380): A write held at the dirty limit proceeds once staging space is released. -/
  | dirtyWaitRelease
  /-- STAGING_RECORD (R381): When all data of a write is in staging the front-end writes its staging record. -/
  | stagingRecord (id : Nat)
  /-- FLUSH_DEADLINE (R383): A volume's flush deadline fires and the back-end places its recorded writes. -/
  | flushDeadline
  /-- PLACEMENT_DONE (R369): When the SSD writes and the journal record are durable the back-end releases the staging space. -/
  | placementDone (id : Nat)
  /-- JOURNAL_DURABLE (R396): A journal record completes on the journal SSDs and becomes durable. -/
  | journalDurable
  /-- NVME_COMPLETION (R361): An NVMe command completes on an SSD. -/
  | nvmeCompletion (id : Nat) (st : NvStatus) (data : List Byte) (dma : List Nat)
  /-- NVME_TIMEOUT (R387): An NVMe command outstanding past NVME_TIMEOUT_MS is aborted. -/
  | nvmeTimeout (id : Nat)
  /-- CONTROLLER_RESET (R387): A command still outstanding 1 s after its Abort resets and re-initialises the SSD controller. -/
  | controllerReset (i : Fin 16) (ok : Bool)
  /-- SSD_LINK_DOWN (R387): An SSD root-port link going down declares the SSD FAILED. -/
  | ssdLinkDown (i : Fin 16)
  /-- SSD_CRITICAL_WARNING (R387): A critical warning of read-only media or backup failure declares the SSD FAILED. -/
  | ssdCriticalWarning (i : Fin 16)
  /-- SSD_IDENTIFY (R363): Identification of a newly enabled SSD completes, leaving it usable or FAILED. -/
  | ssdIdentify (i : Fin 16) (ok : Bool) (lbas : Nat)
  /-- SANITISE (R392): SSDs_CMD SANITISE starts a Sanitize of a FREE SSD through the arbiter. -/
  | sanitise (a : Accessor) (i : Fin 16) (v : Word)
  /-- FORMAT (R392): SSDs_CMD FORMAT starts a Format NVM of a FREE SSD. -/
  | format (a : Accessor) (i : Fin 16) (v : Word)
  /-- SSD_SCRUB (R392): SSDs_CMD SSD_SCRUB starts a verify or repair of a MEMBER SSD. -/
  | ssdScrub (a : Accessor) (i : Fin 16) (v : Word)
  /-- SANITIZE_POLL (R393): Every 1 s the back-end reads Sanitize progress and writes progress records. -/
  | sanitizePoll (i : Fin 16) (r : SanReport)
  /-- SSD_ACTIVITY_END (R394): A sanitise, format or scrub ends with its STATUS and a final progress record. -/
  | ssdActivityEnd (i : Fin 16) (failed : Bool) (reads : List (Option (List Byte)))
  /-- REBUILD (R397): REBUILD.GO starts MAP_REBUILD: checkpoint load, journal replay and dump restore. -/
  | rebuild (a : Accessor) (v : Word) (d : RebuildData)
  /-- REBUILD_DONE (R415): When the restored writes are placed the marker is written and REBUILD ends with OK. -/
  | rebuildDone
  /-- MONITOR_TRIP (R401): Three low samples trip a rail monitor and set the guard. -/
  | monitorTrip (m : Fin 8) (mv : Fin 4096)
  /-- MONITOR_CLEAR (R401): A monitor clears after CLEAR_MS above threshold, and the guard may clear releasing blocked writes. -/
  | monitorClear (m : Fin 8) (mv : Fin 4096)
  /-- PFAIL_N_FALL (R409): PFAIL_N low for the filter time starts the hold-up dump. -/
  | pfailNFall
  /-- DUMP_WRITE_START (R409): When an SSD's outstanding commands complete or 1 ms passes, dump writes begin on it. -/
  | dumpWriteStart (i : Fin 16)
  /-- DUMP_BATCH_DURABLE (R410): A dump batch becomes durable and the next batch or the closing block follows. -/
  | dumpBatchDurable
  /-- DUMPED (R409): The closing block is written and PF_STATE becomes DUMPED. -/
  | dumped
  /-- MEASURE (R406): DUMP_CTL.MEASURE starts a 512 MiB dump-rate measurement. -/
  | measure (a : Accessor) (v : Word)
  /-- MEASURE_DONE (R406): The measurement ends, DUMP_RATE becomes valid and MEASURE_DONE is set. -/
  | measureDone (us : Nat)
  /-- DUMP_EN_WRITE (R408): A write of DUMP_CTL.EN enables dumping or is refused and recorded. -/
  | dumpEnWrite (a : Accessor) (v : Word)
  /-- SA_W15_WRITE (R425): A write of SA_W15 commits an SA entry and resets its PN and replay state. -/
  | saW15Write (a : Accessor) (v : Word)
  /-- GCM_ENC (R426): Cipher job GCM_ENC encrypts and tags. -/
  | gcmEnc (id : Nat)
  /-- GCM_DEC (R427): Cipher job GCM_DEC decrypts and checks the tag. -/
  | gcmDec (id : Nat)
  /-- GMAC_GEN (R426): Cipher job GMAC_GEN makes a tag. -/
  | gmacGen (id : Nat)
  /-- GMAC_VER (R427): Cipher job GMAC_VER verifies a tag. -/
  | gmacVer (id : Nat)
  /-- XTS_ENC (R426): Cipher job XTS_ENC encrypts data units. -/
  | xtsEnc (id : Nat)
  /-- XTS_DEC (R426): Cipher job XTS_DEC decrypts data units. -/
  | xtsDec (id : Nat)
  /-- RANDOM (R426): Cipher job RANDOM writes DRBG output to host memory. -/
  | random (id : Nat)
  /-- CIPHER_PARITY_FAULT (R430): A datapath state parity mismatch aborts the work concerned. -/
  | cipherParityFault (c : CipherFault)
  /-- MASK_RESEED (R442): Every RESEED_MS the mask generator reseeds from the DRBG or falls back to its reserve. -/
  | maskReseed
  /-- MASK_STOP (R442): After 1 s of fallback or an empty reserve the mask generator stops. -/
  | maskStop
  /-- GENERATE (R436): Vault command GENERATE creates a new key in a slot. -/
  | generate (a : Accessor) (v : Word)
  /-- UNWRAP (R436): Vault command UNWRAP loads a key from a blob. -/
  | unwrap (a : Accessor) (v : Word)
  /-- WRAP (R436): Vault command WRAP exports a key as a blob. -/
  | wrap (a : Accessor) (v : Word)
  /-- ERASE (R437): Vault command ERASE empties a slot for new uses. -/
  | erase (a : Accessor) (v : Word)
  /-- ERASE_DONE (R437): ERASE completes when the last use in flight has ended. -/
  | eraseDone
  /-- SET_LIMIT (R436): Vault command SET_LIMIT lowers WARN and LIMIT. -/
  | setLimit (a : Accessor) (v : Word)
  /-- PUBKEY (R436): Vault command PUBKEY returns a public key. -/
  | pubkey (a : Accessor) (v : Word)
  /-- SIGN (R436): Vault command SIGN signs a digest. -/
  | sign (a : Accessor) (v : Word)
  /-- VERIFY (R436): Vault command VERIFY checks a signature. -/
  | verify (a : Accessor) (v : Word)
  /-- VAULT_HASH (R436): Vault command HASH returns a digest of IN. -/
  | vaultHash (a : Accessor) (v : Word)
  /-- VAULT_ZEROISE (R438): A vault storage integrity error empties every slot except slot 0. -/
  | vaultZeroise
  /-- HEALTH_TEST_FAIL (R441): A failed health test stops entropy output and restarts or fails the source. -/
  | healthTestFail (h : HealthSeen) (blocks : Nat)
  /-- RNG_RESTART_DONE (R441): The restart test ends, returning the source to OK or retrying or failing. -/
  | rngRestartDone (t : StartUp)
  /-- RESTART (R441): RNG.CTL.RESTART from a control core leaves FAILED for RESTARTING. -/
  | restart (a : Accessor)
  /-- RESEED (R439): RNG.CTL.RESEED reseeds the DRBG from fresh blocks. -/
  | reseed (a : Accessor)
  /-- ENTROPY_HOLD_TIMEOUT (R441): A request held for 10 ms completes with ENTROPY_FAILED. -/
  | entropyHoldTimeout
  /-- PWROK_RISE (R507): The rise of PWROK is power-on reset and releases the clock generators. -/
  | pwrokRise
  /-- PWROK_FALL (R508): The fall of PWROK returns the device to reset within 1 µs. -/
  | pwrokFall
  /-- SYS_RST_N_FALL (R508): SYS_RST_N falling resets the device, deferred while a dump runs. -/
  | sysRstNFall
  /-- SYS_RST_N_RISE (R507): SYS_RST_N rising samples the straps and starts the boot ROM. -/
  | sysRstNRise (p : BootPins)
  /-- PERST_N_RISE (R507): HOSTn_PERST_N rising starts link training of that link. -/
  | perstNRise (l : Fin 4)
  /-- IMAGE_ATTEMPT_END (R452): An image attempt from a source ends, accepting the image or trying the next slot or source. -/
  | imageAttemptEnd (e : Attempt)
  /-- IMAGE_LOAD_DONE (R446): After loading the accepted image core 0 jumps to ENTRY and STATE becomes RUNNING. -/
  | imageLoadDone (us : Word)
  /-- HOST_GO (R450): BOOT.CTL.HOST_GO starts verification of the host image. -/
  | hostGo (a : Accessor) (v : Word)
  /-- CFG_READY (R447): BOOT.CTL.CFG_READY from a control core ends configuration retry and sets the boot lock. -/
  | cfgReady (a : Accessor) (v : Word)
  /-- VERSION_COMMIT (R458): Fuse operation VERSION_COMMIT burns the counter up to MIN_VER. -/
  | versionCommit (a : Accessor) (v : Word)
  /-- PROG_KEY (R459): Fuse operation PROG_KEY burns a key hash. -/
  | progKey (a : Accessor) (v : Word)
  /-- REVOKE (R459): Fuse operation REVOKE burns a key's revoke bit. -/
  | revoke (a : Accessor) (v : Word)
  /-- LOCK_ORDER (R459): Fuse operation LOCK_ORDER burns ORDER_LOCK and ORDER. -/
  | lockOrder (a : Accessor) (v : Word)
  /-- FUSE_BIT_BURNED (R458): A fuse bit burn completes and the next bit or the end of the operation follows. -/
  | fuseBitBurned
  /-- OSPI_READ (R521): An octal-SPI read command transfers flash data into the buffer. -/
  | ospiRead (a : Accessor) (i : Fin 2) (v : Word)
  /-- OSPI_REGISTER_WRITE (R521): An octal-SPI register write command is sent to the flash. -/
  | ospiRegisterWrite (a : Accessor) (i : Fin 2) (v : Word)
  /-- PROGRAM_OR_ERASE (R521): An octal-SPI program or erase waits under the guard or is refused for protected areas. -/
  | programOrErase (a : Accessor) (i : Fin 2) (v : Word)
  /-- OSPI_DONE (R521): An octal-SPI command completes with its STATUS. -/
  | ospiDone (i : Fin 2) (data : List Byte)
  /-- XINDAORD_LINK_DOWN (R462): The Xindaord link goes down or narrows after a lane failure. -/
  | xindaordLinkDown
  /-- XINDAORD_LINK_UP (R462): The Xindaord link finishes retraining. -/
  | xindaordLinkUp (bad : Fin 256)
  /-- HELLO_SEND (R476): Every 100 µs with the link up a HELLO is sent. -/
  | helloSend
  /-- HELLO_RX (R467): A received HELLO is epoch-checked and may fence or tie-break. -/
  | helloRx (seq epoch : Word) (unit : Fin 2) (_state : Fin 6) (surv : Bool) (adm : Option Bool)
  /-- FENCE_ORDER_RX (R467): A FENCE order with a newer epoch puts the unit in FENCED. -/
  | fenceOrderRx (seq epoch : Word)
  /-- HEARTBEAT_SEND (R469): A heartbeat send event sends a heartbeat. -/
  | heartbeatSend
  /-- HEARTBEAT_RX (R469): An accepted heartbeat restarts the dead-peer timer. -/
  | heartbeatRx (epoch : Word)
  /-- DEAD_PEER_TIMEOUT (R469): The dead-peer timer expires and the unit declares the peer dead or suspends. -/
  | deadPeerTimeout
  /-- STAGE_MESSAGE_RX (R472): A STAGE message is recorded in the peer's staging and acknowledged. -/
  | stageMessageRx (seq epoch : Word) (m : StageMsg)
  /-- STAGE_ACK_RX (R472): The peer's acknowledgement of a STAGE message confirms a paired write. -/
  | stageAckRx (epoch upto : Word)
  /-- JOURNAL_MESSAGE_RX (R473): A JOURNAL message makes the peer place the matching mirrored writes. -/
  | journalMessageRx (seq epoch : Word) (l : List (Nat × Nat))
  /-- TIME_EXCHANGE (R474): Every 1 ms timestamps of masked domains are exchanged and TOFFn updated. -/
  | timeExchange (n : Fin 8) (m : TimeMsg)
  /-- RESYNC_MESSAGE_RX (R476): A RESYNC extent copy is received during admission. -/
  | resyncMessageRx (seq epoch : Word) (g : Nat) (data : Option (List Byte))
  /-- NOTIFICATION_MIRROR_RX (R475): A mirrored table notification is written into the local notification ring. -/
  | notificationMirrorRx (seq epoch : Word) (pipe : Fin 4) (b : List Byte)
  /-- PAIR_NAK_RX (R464): A NAK on a reliable stream makes the sender resend from its sequence. -/
  | pairNakRx (c : Fin 6) (epoch expected : Word)
  /-- PAIR_RTO (R464): RTO_US without progress resends from the oldest unacknowledged message or retrains. -/
  | pairRto (c : Fin 6)
  /-- FORM (R465): PAIR.CTL.FORM in ALONE with epoch 0 sets the epoch to 1. -/
  | form (a : Accessor)
  /-- JOIN (R476): PAIR.CTL.JOIN starts admission on the joiner. -/
  | join (a : Accessor)
  /-- ADMIT (R476): PAIR.CTL.ADMIT starts admission on the leader. -/
  | admitJoin (a : Accessor)
  /-- DECLARE (R469): PAIR.CTL.DECLARE from a control core in SUSPENDED declares the peer dead. -/
  | declare (a : Accessor)
  /-- ADMISSION_COMPLETE (R476): When the last extent and STAGE message are acknowledged both units become PAIRED. -/
  | admissionComplete (epoch : Word)
  /-- ERROR_RECORD_WRITE (R483): The recorder writes the next intake report to the ring or drops it to LAST. -/
  | errorRecordWrite
  /-- REC_HEAD_WRITE (R485): A write of ERR.REC_HEAD frees consumed records or is ignored. -/
  | recHeadWrite (a : Accessor) (v : Word)
  /-- LIFE_SAMPLE (R487): Once per system-clock second Tj and power are sampled into the life-log counters. -/
  | lifeSample (tj : BitVec 16) (watts : Nat)
  /-- THERMTRIP (R512): Tj at 115 °C or more for 1 ms drives THERMTRIP_N low until power-on reset. -/
  | thermtrip
  /-- LIFE_COMMIT_PERIOD (R489): Every 86,400 powered seconds, or 60 s after a refusal, a life-log commit starts. -/
  | lifeCommitPeriod
  /-- LIFE_COMMIT_REQUEST (R489): LIFE.CTL.COMMIT from a control core starts a life-log commit. -/
  | lifeCommitRequest (a : Accessor) (v : Word)
  /-- LIFE_COMMIT_DONE (R489): A life-log commit ends with OK, CONFLICT or ABORTED. -/
  | lifeCommitDone
  /-- CNT_CLR (R496): A write of PEEP.CNT_CLR clears every peephole counter. -/
  | cntClr (a : Accessor) (v : Word)
  /-- JTAG_INSTRUCTION (R497): A JTAG instruction executes as IDCODE, BYPASS or boundary scan by lifecycle. -/
  | jtagInstruction (i : Fin 4)
  /-- PAD_SWITCH_CONNECT (R516): At the pad tick after disconnection the new pad function is connected and the PAD commit applies. -/
  | padSwitchConnect (levels : DWord)
  /-- GPIO_EDGE (R517): A GPIO edge between two GPIO samples sets GPIO_EDGE. -/
  | gpioEdge (p : Fin 64)
  /-- GPIO_SET (R523): A write of GPIO_SET sets output bits. -/
  | gpioSet (a : Accessor) (h : Fin 2) (v : Word)
  /-- GPIO_CLR (R523): A write of GPIO_CLR clears output bits. -/
  | gpioClr (a : Accessor) (h : Fin 2) (v : Word)
  /-- I2C_GO (R518): I2Cn_CMD.GO starts an I2C transfer, or completes at once with STUCK. -/
  | i2cGo (a : Accessor) (n : Fin 4) (v : Word)
  /-- I2C_TRANSFER_DONE (R518): An I2C transfer ends with its RESULT. -/
  | i2cTransferDone (n : Fin 4) (result : Fin 6) (data : List Byte)
  /-- I2C_SCL_TIMEOUT (R518): With SMBUS, SCL low for 25 ms ends the transfer with TIMEOUT. -/
  | i2cSclTimeout (n : Fin 4)
  /-- RECOVER (R519): I2Cn_CMD.RECOVER starts bus recovery. -/
  | recover (a : Accessor) (n : Fin 4) (v : Word)
  /-- SDA_STUCK_LOW (R519): SDA low for 100 µs while IDLE starts bus recovery. -/
  | sdaStuckLow (n : Fin 4)
  /-- RECOVERY_END (R519): Recovery ends with a STOP and IDLE, or with STUCK. -/
  | recoveryEnd (n : Fin 4) (pulses : Fin 10) (good : Bool)
  /-- UART_RX_CHAR (R520): A received character enters the receive FIFO or is dropped when full. -/
  | uartRxChar (u : Fin 2) (b : Byte) (frame parity brk : Bool)
  /-- UART_DATA_WRITE (R520): A write of UARTu_DATA queues a character for transmission. -/
  | uartDataWrite (a : Accessor) (u : Fin 2) (v : Word)
  /-- UART_DATA_READ (R520): A read of UARTu_DATA takes a character from the receive FIFO. -/
  | uartDataRead (a : Accessor) (u : Fin 2)
  /-- I2C_DATA_READ (R525): A read of I2Cn_DATA takes a byte from the receive FIFO. -/
  | i2cDataRead (a : Accessor) (n : Fin 4)
  /-- C22_WRITE (R522): MDIO operation C22 write. -/
  | c22Write (a : Accessor) (m : Fin 2) (v : Word)
  /-- C22_READ (R522): MDIO operation C22 read, NO_RESP when the turnaround is not driven. -/
  | c22Read (a : Accessor) (m : Fin 2) (v : Word)
  /-- C45_ADDRESS (R522): MDIO operation C45 address. -/
  | c45Address (a : Accessor) (m : Fin 2) (v : Word)
  /-- C45_WRITE (R522): MDIO operation C45 write. -/
  | c45Write (a : Accessor) (m : Fin 2) (v : Word)
  /-- C45_READ (R522): MDIO operation C45 read. -/
  | c45Read (a : Accessor) (m : Fin 2) (v : Word)
  /-- C45_READ_INCREMENT (R522): MDIO operation C45 read with increment. -/
  | c45ReadIncrement (a : Accessor) (m : Fin 2) (v : Word)
  /-- MDIO_DONE (R522): An MDIO frame completes and MDIO_DONE is set. -/
  | mdioDone (m : Fin 2) (data : BitVec 16) (driven : Bool)
  /-- VAULT_COMMAND_DONE (R436): A vault command ends after its bound, clearing BUSY, writing its STATUS and OUT and setting INT_STAT.DONE. -/
  | vaultCommandDone (exhausted : Bool)
  /-- READ_ATOMIC_RESPONSE_RX (R350): A READ or ATOMIC response packet reaches the requester, its data or original value is written locally and the WR completes. -/
  | readAtomicResponseRx (id : Nat)
  /-- PAIR_ACK_RX (R464): A cumulative acknowledgement on a MGMT, JOURNAL or RESYNC stream releases the messages that the sender has been keeping. -/
  | pairAckRx (c : Fin 6) (epoch upto : Word)
  /-- PEER_IMAGE_REQUEST_RX (R449): A peer's boot ROM asks for the running image over the Xindaord link, and this unit sends its image. -/
  | peerImageRequestRx
  /-- ASPM_L1_EXIT (R103): A host link in ASPM L1 returns to L0 when DMA is needed or the partner exits. -/
  | aspmL1Exit (l : Fin 4)
  /-- PARTNER_LPI_ENTRY (R98): The link partner enters LPI, setting MAC_STATUS.LPI_RX and stepping LPI_RX_ENTRIES, which feeds the P3 lane condition. -/
  | partnerLpiEntry (p : Fin 512)
  /-- PARTNER_LPI_EXIT (R99): The link partner leaves LPI, clearing LPI_RX and waking the device with WAKE_CAUSE 5. -/
  | partnerLpiExit (p : Fin 512)
  /-- CR_RECEIVED (R192): The FlexE peer requests a calendar switch with CR, and the shim answers CA and switches calendars. -/
  | crReceived (x : CalRequest)
  /-- PFAIL_GLITCH (R404): PFAIL_N returns high before the filter time and steps PFAIL_GLITCH_CNT with no other effect. -/
  | pfailGlitch
  /-- PERST_N_FALL (R143): HOSTn_PERST_N asserts and the link goes down without a shutter, with a port-level reset of its functions. -/
  | perstNFall (l : Fin 4)
  /-- SSD_LINK_UP (R363): The root-port link of an enabled ABSENT SSD comes up and the back-end identifies the SSD. -/
  | ssdLinkUp (i : Fin 16)
  /-- CONSEC_CLEAR (R440): After 4,096 conditioned blocks in OK without a failure, CONSEC returns to 0. -/
  | consecClear
  /-- PAD_SWITCH_DISCONNECT (R516): At the first pad tick after a FUNC-changing PAD commit, the old function is disconnected and the pad holds or floats. -/
  | padSwitchDisconnect
  /-- UART_TX_CHAR (R520): A UART finishes sending a character from its transmit FIFO and TX_FILL decreases. -/
  | uartTxChar (u : Fin 2)
deriving DecidableEq, Repr

end Sys2Proof
end

