-- ==== Sys2Proof/Decode.lean ====
section
/-! DEFINITION. Commands spelled by words. The ZG4712 is driven by accesses, frames and events, and its opcode table gives no row
any bits; so no word spells a command. -/

namespace Sys2Proof

/-- The command that a word of the table spells: none, for every word. -/
def decodeTableWord (_nbits _w : Nat) : Option Instr := none

end Sys2Proof
end

