-- ==== Sys2Proof/Config.lean ====
section
/-! DEFINITION. What the spec leaves open (free values, opaque: no proof can see one) and what one chip or board fixes. -/

namespace Sys2Proof.Config

/-- Fresh free bits: the `n`-th value the spec does not state. `n` is the counter `Ctl.free`. -/
opaque freeValue : Nat → Nat

/-- Whether the membership filter of a length lets a probe of an absent prefix through (R265): it never excludes a
present prefix, and the spec says no more. -/
opaque filterAdmits : Nat → Bool

/-- The set of a translation cache that a function, PASID and page fall into (R108 names sets of 8 and no index). -/
opaque xlSet : Nat → Nat → Nat → Nat

/-- Block cipher and authentication outputs (R419 to R427): a function of operation, key material, nonce or tweak,
additional data and input, whose definition lies in the standards the spec names. -/
opaque cipherText : Nat → Nat → List Byte → List Byte → List Byte → List Byte

/-- The authentication tag of the same (R426). -/
opaque cipherTag : Nat → Nat → List Byte → List Byte → List Byte → List Byte

/-- Key material of slot 0, derived from the fuses (R434, R446). -/
opaque deviceRoot : Nat

/-- SHA-2 and SHA-3 digests (R436, R446): function code and input. -/
opaque digest : Nat → List Byte → List Byte

/-- Signatures (R436): algorithm, key material, digest. -/
opaque signature : Nat → Nat → List Byte → List Byte

/-- Whether a signature is good for a public key and a digest (R436, R446). -/
opaque verifies : Nat → List Byte → List Byte → List Byte → Bool

/-- The public key of a private one (R436). -/
opaque publicKey : Nat → Nat → List Byte

/-- Key wrap (R435): wrapping key, material, header. -/
opaque wrapBlob : Nat → Nat → List Byte → List Byte

/-- Key unwrap (R435): wrapping key and blob; `none` when its integrity check fails. -/
opaque unwrapBlob : Nat → List Byte → Option Nat

/-- The invariant CRC of a RoCEv2 packet from its IP header on (R339), in transmission order. -/
opaque icrc : List Byte → List Byte

/-- Bytes of a structure whose fields the spec names without laying them out (R390, R393, R396, R410): kind and fields. -/
opaque layout : Nat → List Nat → List Byte

/-- The four bytes of the NVMe overwrite pattern in use (R394). -/
opaque overwrite : List Byte

end Sys2Proof.Config
end

