-- ==== Sys2Proof/Machine/Bits.lean ====
section
/-! DEFINITION. Bit fields, signed readings and byte orders, as the spec writes them: `[hi:lo]` with bit 0 the least
significant, little-endian multi-byte fields (R526), network order for frame bytes. -/

namespace Sys2Proof.Machine

/-- Bits `[hi:lo]` of a number. -/
def field (v hi lo : Nat) : Nat := v / 2 ^ lo % 2 ^ (hi + 1 - lo)

/-- Bit `i` of a number. -/
def tbit (v i : Nat) : Bool := v / 2 ^ i % 2 == 1

/-- `v` with bits `[hi:lo]` replaced by `x`. -/
def setField (v hi lo x : Nat) : Nat :=
  v - field v hi lo * 2 ^ lo + (x % 2 ^ (hi + 1 - lo)) * 2 ^ lo

/-- A Bool as a bit. -/
def b2n (b : Bool) : Nat := if b then 1 else 0

/-- A number of `n` bits read as two's complement. -/
def toSigned (n v : Nat) : Int :=
  if 2 * (v % 2 ^ n) < 2 ^ n then (v % 2 ^ n : Nat) else (v % 2 ^ n : Nat) - (2 ^ n : Nat)

/-- An integer as `n` bits of two's complement. -/
def ofSigned (n : Nat) (v : Int) : Nat := (v % (2 ^ n : Nat)).toNat

/-- `a + b` held at the largest value of `n` bits: the saturating counters of the spec. -/
def satAdd (n a b : Nat) : Nat := min (a + b) (2 ^ n - 1)

/-- The `n` bytes of a number, lowest first (R526). -/
def leBytes : Nat → Nat → List Byte
  | 0, _ => []
  | n + 1, v => BitVec.ofNat 8 v :: leBytes n (v / 256)

/-- The number whose bytes, lowest first, are `l` (R526). -/
def leVal : List Byte → Nat
  | [] => 0
  | b :: t => b.toNat + 256 * leVal t

/-- The number whose bytes, highest first, are `l`: network order (R526). -/
def beVal (l : List Byte) : Nat := l.foldl (fun a b => a * 256 + b.toNat) 0

/-- The `n` bytes of a number, highest first: network order. -/
def beBytes (n v : Nat) : List Byte := (leBytes n v).reverse

/-- Byte `i` of a list, 0 past its end. -/
def byteAt (l : List Byte) (i : Nat) : Byte := l.getD i 0

/-- `n` bytes of a list from `i` on, zero past its end. -/
def slice (l : List Byte) (i n : Nat) : List Byte := (List.range n).map fun k => byteAt l (i + k)

/-- `l` with the bytes `w` written at `i`. -/
def splice (l : List Byte) (i : Nat) (w : List Byte) : List Byte :=
  (l ++ List.replicate (i + w.length - l.length) 0).take i ++ w ++ l.drop (i + w.length)

/-- The little-endian number in bytes `i` to `i + n - 1`. -/
def leAt (l : List Byte) (i n : Nat) : Nat := leVal (slice l i n)

/-- The network-order number in bytes `i` to `i + n - 1`. -/
def beAt (l : List Byte) (i n : Nat) : Nat := beVal (slice l i n)

/-- The low `n` bits of a number complemented. -/
def notN (n v : Nat) : Nat := 2 ^ n - 1 - v % 2 ^ n

/-- Smallest multiple of `a` at or above `v`. -/
def alignUp (a v : Nat) : Nat := (v + a - 1) / a * a

/-- Quotient rounded up. -/
def ceilDiv (a b : Nat) : Nat := (a + b - 1) / b

/-- CRC step by one bit for a reflected polynomial. -/
def crcBit (poly c : Nat) : Nat := if c % 2 = 1 then (c / 2) ^^^ poly else c / 2

/-- CRC step by one byte, least significant bit first. -/
def crcByte (poly c : Nat) (b : Byte) : Nat :=
  let x := c ^^^ b.toNat
  crcBit poly (crcBit poly (crcBit poly (crcBit poly (crcBit poly (crcBit poly (crcBit poly (crcBit poly x)))))))

/-- CRC-32C (Castagnoli), reflected, with the given start value and final inversion. -/
def crc32cFrom (start : Nat) (l : List Byte) : Nat :=
  (l.foldl (crcByte 0x82F63B78) start) ^^^ 0xFFFFFFFF

/-- CRC-32C of a byte list from the all-ones start value. -/
def crc32c (l : List Byte) : Nat := crc32cFrom 0xFFFFFFFF l

/-- The IEEE 802.3 frame check sequence over the bytes before it. -/
def crc32Eth (l : List Byte) : Nat :=
  (l.foldl (crcByte 0xEDB88320) 0xFFFFFFFF) ^^^ 0xFFFFFFFF

end Sys2Proof.Machine
end

