-- ==== Sys2Proof/Machine/RegMap.lean ====
section
/-! DEFINITION. The register map: every register table of the spec as data, one row per register, with the bits
of each access type (R7), the reset value, and how registers repeat. -/

namespace Sys2Proof.Machine

/-- One row of a page's register table (R7, R75). Masks are 64 bits wide for a LO/HI pair (R6).
An array of registers repeats `n1` times with stride `s1`, and inside that `n2` times with stride `s2`. -/
structure RegRow where
  name : String
  off : Nat
  n1 : Nat
  s1 : Nat
  n2 : Nat
  s2 : Nat
  wide : Bool
  rw : Nat
  ro : Nat
  rc : Nat
  w1c : Nat
  w1s : Nat
  wo : Nat
  st : Nat
  lk : Nat
  reset : Nat
deriving DecidableEq, Repr

def rowsChip : List RegRow := [
  ⟨"DEVICE_ID", 0x40, 1, 0x0, 1, 0x0, false, 0x0, 0xffffffff, 0x0, 0x0, 0x0, 0x0, 0x0, 0x0, 0x47125a15⟩,
  ⟨"SILICON_REV", 0x44, 1, 0x0, 1, 0x0, false, 0x0, 0xffff, 0x0, 0x0, 0x0, 0x0, 0x0, 0x0, 0x0⟩,
  ⟨"MGMT_OWNER", 0x48, 1, 0x0, 1, 0x0, false, 0x1, 0x0, 0x0, 0x0, 0x0, 0x0, 0x0, 0x0, 0x0⟩,
  ⟨"BOOT_LOCK", 0x4c, 1, 0x0, 1, 0x0, false, 0x0, 0x0, 0x0, 0x0, 0x1, 0x0, 0x0, 0x0, 0x0⟩]

def rowsClk : List RegRow := [
  ⟨"CLK_STATUS", 0x40, 1, 0x0, 1, 0x0, false, 0x0, 0x37f, 0x0, 0x0, 0x0, 0x0, 0x0, 0x0, 0x0⟩,
  ⟨"REFCLK_MEAS", 0x44, 1, 0x0, 1, 0x0, false, 0x0, 0xffffffff, 0x0, 0x0, 0x0, 0x0, 0x0, 0x0, 0x0⟩,
  ⟨"BE_REFCLK_EN", 0x48, 1, 0x0, 1, 0x0, false, 0x0, 0x0, 0x0, 0x0, 0x0, 0x0, 0xff, 0x0, 0xff⟩,
  ⟨"LOSS_CNT", 0x4c, 1, 0x0, 1, 0x0, false, 0x0, 0x0, 0xffffffff, 0x0, 0x0, 0x0, 0x0, 0x0, 0x0⟩]

def rowsPwr : List RegRow := [
  ⟨"PSTATE_CFG", 0x40, 1, 0x0, 1, 0x0, false, 0x0, 0x0, 0x0, 0x0, 0x0, 0x0, 0x107, 0x0, 0x7⟩,
  ⟨"P1_IDLE_US", 0x44, 1, 0x0, 1, 0x0, false, 0x0, 0x0, 0x0, 0x0, 0x0, 0x0, 0xffff, 0x0, 0xa⟩,
  ⟨"P2_IDLE_US", 0x48, 1, 0x0, 1, 0x0, false, 0x0, 0x0, 0x0, 0x0, 0x0, 0x0, 0xffff, 0x0, 0xc8⟩,
  ⟨"P3_IDLE_MS", 0x4c, 1, 0x0, 1, 0x0, false, 0x0, 0x0, 0x0, 0x0, 0x0, 0x0, 0xffff, 0x0, 0x64⟩,
  ⟨"PSTATE_STATUS", 0x50, 1, 0x0, 1, 0x0, false, 0x0, 0x1ff, 0x0, 0x0, 0x0, 0x0, 0x0, 0x0, 0x0⟩,
  ⟨"WAKE_CAUSE", 0x54, 1, 0x0, 1, 0x0, false, 0x0, 0xf, 0x0, 0x0, 0x0, 0x0, 0x0, 0x0, 0x0⟩,
  ⟨"ENTRY_CNT", 0x64, 3, 0x4, 1, 0x0, false, 0x0, 0x0, 0xffffffff, 0x0, 0x0, 0x0, 0x0, 0x0, 0x0⟩]

def rowsPad : List RegRow := [
  ⟨"PAD_STATUS", 0x40, 1, 0x0, 1, 0x0, false, 0x0, 0xffff0001, 0x0, 0x0, 0x0, 0x0, 0x0, 0x0, 0x0⟩,
  ⟨"PAD_CFG", 0x100, 64, 0x4, 1, 0x0, false, 0x0, 0x0, 0x0, 0x0, 0x0, 0x0, 0x7f, 0x0, 0x14⟩]

def rowsLsioA : List RegRow := [
  ⟨"I2C_CTL", 0x100, 4, 0x20, 1, 0x0, false, 0x0, 0x0, 0x0, 0x0, 0x0, 0x0, 0xf, 0x0, 0x0⟩,
  ⟨"I2C_CMD", 0x104, 4, 0x20, 1, 0x0, false, 0x33fff, 0x0, 0x0, 0x0, 0xc0000000, 0x0, 0x0, 0x0, 0x0⟩,
  ⟨"I2C_STATUS", 0x108, 4, 0x20, 1, 0x0, false, 0x0, 0x3ff07, 0x0, 0x0, 0x0, 0x0, 0x0, 0x0, 0x4⟩,
  ⟨"I2C_DATA", 0x10c, 4, 0x20, 1, 0x0, false, 0xff, 0x0, 0x0, 0x0, 0x0, 0x0, 0x0, 0x0, 0x0⟩,
  ⟨"I2C_RECOV_CNT", 0x110, 4, 0x20, 1, 0x0, false, 0x0, 0x0, 0xffffffff, 0x0, 0x0, 0x0, 0x0, 0x0, 0x0⟩,
  ⟨"UART_CTL", 0x200, 2, 0x20, 1, 0x0, false, 0x0, 0x0, 0x0, 0x0, 0x0, 0x0, 0xfffff01f, 0x0, 0xd9000⟩,
  ⟨"UART_STATUS", 0x204, 2, 0x20, 1, 0x0, false, 0x0, 0x17f7f, 0x0, 0x60000, 0x0, 0x0, 0x0, 0x0, 0x0⟩,
  ⟨"UART_DATA", 0x208, 2, 0x20, 1, 0x0, false, 0xff, 0x0, 0x0, 0x0, 0x0, 0x0, 0x0, 0x0, 0x0⟩,
  ⟨"UART_RX_OVR_CNT", 0x20c, 2, 0x20, 1, 0x0, false, 0x0, 0x0, 0xffffffff, 0x0, 0x0, 0x0, 0x0, 0x0, 0x0⟩,
  ⟨"OSPI_CTL", 0x300, 2, 0x40, 1, 0x0, false, 0x0, 0x0, 0x0, 0x0, 0x0, 0x0, 0xff07, 0x0, 0x3200⟩,
  ⟨"OSPI_CMD", 0x304, 2, 0x40, 1, 0x0, false, 0xffffff, 0x0, 0x0, 0x0, 0x80000000, 0x0, 0x0, 0x0, 0x0⟩,
  ⟨"OSPI_ADDR", 0x308, 2, 0x40, 1, 0x0, false, 0xffffffff, 0x0, 0x0, 0x0, 0x0, 0x0, 0x0, 0x0, 0x0⟩,
  ⟨"OSPI_LEN", 0x30c, 2, 0x40, 1, 0x0, false, 0x1fff, 0x0, 0x0, 0x0, 0x0, 0x0, 0x0, 0x0, 0x0⟩,
  ⟨"OSPI_STATUS", 0x310, 2, 0x40, 1, 0x0, false, 0x0, 0xffff0003, 0x0, 0x0, 0x0, 0x0, 0x0, 0x0, 0x0⟩,
  ⟨"MDIO_CTL", 0x400, 2, 0x10, 1, 0x0, false, 0x0, 0x0, 0x0, 0x0, 0x0, 0x0, 0xff01, 0x0, 0x401⟩,
  ⟨"MDIO_CMD", 0x404, 2, 0x10, 1, 0x0, false, 0x1fff, 0x0, 0x0, 0x0, 0x80000000, 0x0, 0x0, 0x0, 0x0⟩,
  ⟨"MDIO_DATA", 0x408, 2, 0x10, 1, 0x0, false, 0xffff, 0x0, 0x0, 0x0, 0x0, 0x0, 0x0, 0x0, 0x0⟩,
  ⟨"MDIO_STATUS", 0x40c, 2, 0x10, 1, 0x0, false, 0x0, 0x3, 0x0, 0x0, 0x0, 0x0, 0x0, 0x0, 0x0⟩,
  ⟨"GPIO_OUT", 0x500, 1, 0x0, 1, 0x0, true, 0xffffffffffffffff, 0x0, 0x0, 0x0, 0x0, 0x0, 0x0, 0x0, 0x0⟩,
  ⟨"GPIO_SET", 0x508, 1, 0x0, 1, 0x0, true, 0x0, 0x0, 0x0, 0x0, 0xffffffffffffffff, 0x0, 0x0, 0x0, 0x0⟩,
  ⟨"GPIO_CLR", 0x510, 1, 0x0, 1, 0x0, true, 0x0, 0x0, 0x0, 0x0, 0xffffffffffffffff, 0x0, 0x0, 0x0, 0x0⟩,
  ⟨"GPIO_OE", 0x518, 1, 0x0, 1, 0x0, true, 0xffffffffffffffff, 0x0, 0x0, 0x0, 0x0, 0x0, 0x0, 0x0, 0x0⟩,
  ⟨"GPIO_IN", 0x520, 1, 0x0, 1, 0x0, true, 0x0, 0xffffffffffffffff, 0x0, 0x0, 0x0, 0x0, 0x0, 0x0, 0x0⟩,
  ⟨"GPIO_RISE_EN", 0x528, 1, 0x0, 1, 0x0, true, 0xffffffffffffffff, 0x0, 0x0, 0x0, 0x0, 0x0, 0x0, 0x0, 0x0⟩]

def rowsLsioB : List RegRow := [
  ⟨"GPIO_FALL_EN", 0x530, 1, 0x0, 1, 0x0, true, 0xffffffffffffffff, 0x0, 0x0, 0x0, 0x0, 0x0, 0x0, 0x0, 0x0⟩,
  ⟨"GPIO_EDGE", 0x538, 1, 0x0, 1, 0x0, true, 0x0, 0x0, 0x0, 0xffffffffffffffff, 0x0, 0x0, 0x0, 0x0, 0x0⟩,
  ⟨"OSPI0_BUF", 0x1000, 1024, 0x4, 1, 0x0, false, 0xffffffff, 0x0, 0x0, 0x0, 0x0, 0x0, 0x0, 0x0, 0x0⟩,
  ⟨"OSPI1_BUF", 0x2000, 1024, 0x4, 1, 0x0, false, 0xffffffff, 0x0, 0x0, 0x0, 0x0, 0x0, 0x0, 0x0, 0x0⟩]

def rowsLsio : List RegRow := rowsLsioA ++ rowsLsioB

def rowsBoot : List RegRow := [
  ⟨"STATE", 0x40, 1, 0x0, 1, 0x0, false, 0x0, 0x1ff7, 0x0, 0x0, 0x0, 0x0, 0x0, 0x0, 0x0⟩,
  ⟨"CTL", 0x44, 1, 0x0, 1, 0x0, false, 0x0, 0x0, 0x0, 0x0, 0x3, 0x0, 0x0, 0x0, 0x0⟩,
  ⟨"HOST_LEN", 0x48, 1, 0x0, 1, 0x0, false, 0x7ffffff, 0x0, 0x0, 0x0, 0x0, 0x0, 0x0, 0x0, 0x0⟩,
  ⟨"IMG_SECVER", 0x4c, 1, 0x0, 1, 0x0, false, 0x0, 0xffffffff, 0x0, 0x0, 0x0, 0x0, 0x0, 0x0, 0x0⟩,
  ⟨"IMG_BUILD", 0x50, 1, 0x0, 1, 0x0, false, 0x0, 0xffffffff, 0x0, 0x0, 0x0, 0x0, 0x0, 0x0, 0x0⟩,
  ⟨"IMG_KEY", 0x54, 1, 0x0, 1, 0x0, false, 0x0, 0x3, 0x0, 0x0, 0x0, 0x0, 0x0, 0x0, 0x0⟩,
  ⟨"MIN_VER", 0x58, 1, 0x0, 1, 0x0, false, 0x0, 0xff, 0x0, 0x0, 0x0, 0x0, 0x0, 0x0, 0x0⟩,
  ⟨"ATTEMPT", 0x60, 8, 0x4, 1, 0x0, false, 0x0, 0xf0f, 0x0, 0x0, 0x0, 0x0, 0x0, 0x0, 0x0⟩,
  ⟨"BOOT_TIME", 0x80, 1, 0x0, 1, 0x0, false, 0x0, 0xffffffff, 0x0, 0x0, 0x0, 0x0, 0x0, 0x0, 0x0⟩]

def rowsFuse : List RegRow := [
  ⟨"FUSE_VER", 0x40, 1, 0x0, 1, 0x0, false, 0x0, 0xff, 0x0, 0x0, 0x0, 0x0, 0x0, 0x0, 0x0⟩,
  ⟨"KEY_STATE", 0x44, 1, 0x0, 1, 0x0, false, 0x0, 0xff, 0x0, 0x0, 0x0, 0x0, 0x0, 0x0, 0x0⟩,
  ⟨"BOOT_CFG", 0x48, 1, 0x0, 1, 0x0, false, 0x0, 0x37f, 0x0, 0x0, 0x0, 0x0, 0x0, 0x0, 0x0⟩,
  ⟨"KEYHASH_W", 0x80, 4, 0x30, 12, 0x4, false, 0x0, 0xffffffff, 0x0, 0x0, 0x0, 0x0, 0x0, 0x0, 0x0⟩,
  ⟨"KH_IN", 0x140, 12, 0x4, 1, 0x0, false, 0x0, 0x0, 0x0, 0x0, 0x0, 0xffffffff, 0x0, 0x0, 0x0⟩,
  ⟨"BURN_CTL", 0x170, 1, 0x0, 1, 0x0, false, 0x737, 0x0, 0x0, 0x0, 0x80000000, 0x0, 0x0, 0x0, 0x0⟩,
  ⟨"BURN_STATUS", 0x174, 1, 0x0, 1, 0x0, false, 0x0, 0xffffff01, 0x0, 0x0, 0x0, 0x0, 0x0, 0x0, 0x0⟩]

def rowsLatch : List RegRow := [
  ⟨"BROKEN_CNT", 0x40, 1, 0x0, 1, 0x0, false, 0x0, 0x0, 0xffffffff, 0x0, 0x0, 0x0, 0x0, 0x0, 0x0⟩,
  ⟨"REL_REJ_CNT", 0x44, 1, 0x0, 1, 0x0, false, 0x0, 0x0, 0xffffffff, 0x0, 0x0, 0x0, 0x0, 0x0, 0x0⟩,
  ⟨"LATCH_ACQ", 0x1000, 1024, 0x10, 1, 0x0, false, 0x0, 0x0, 0x0, 0x0, 0x0, 0x0, 0x0, 0x0, 0x0⟩,
  ⟨"LATCH_STATE", 0x1004, 1024, 0x10, 1, 0x0, false, 0x0, 0xffffffff, 0x0, 0x0, 0x0, 0x0, 0x0, 0x0, 0x0⟩,
  ⟨"LATCH_CTL", 0x1008, 1024, 0x10, 1, 0x0, false, 0x0, 0x0, 0x0, 0x0, 0x0, 0x3, 0x0, 0x0, 0x0⟩,
  ⟨"LATCH_ACCESS", 0x100c, 1024, 0x10, 1, 0x0, false, 0x8000ffff, 0x0, 0x0, 0x0, 0x0, 0x0, 0x0, 0x0, 0x0⟩]

def rowsMaint : List RegRow := [
  ⟨"RUNNING", 0x40, 1, 0x0, 1, 0x0, false, 0x0, 0xffffffff, 0x0, 0x0, 0x0, 0x0, 0x0, 0x0, 0x0⟩,
  ⟨"REFUSE_CNT", 0x44, 1, 0x0, 1, 0x0, false, 0x0, 0x0, 0xffffffff, 0x0, 0x0, 0x0, 0x0, 0x0, 0x0⟩,
  ⟨"LAST_REFUSED", 0x48, 1, 0x0, 1, 0x0, false, 0x0, 0xffffffff, 0x0, 0x0, 0x0, 0x0, 0x0, 0x0, 0x0⟩]

def rowsTimeA : List RegRow := [
  ⟨"SNAP_ALL", 0x40, 1, 0x0, 1, 0x0, false, 0x0, 0x0, 0x0, 0x0, 0x1, 0x0, 0x0, 0x0, 0x0⟩,
  ⟨"REF10M_CTL", 0x48, 1, 0x0, 1, 0x0, false, 0x1, 0x0, 0x0, 0x0, 0x0, 0x0, 0x0, 0x0, 0x0⟩,
  ⟨"REF10M_STATUS", 0x4c, 1, 0x0, 1, 0x0, false, 0x0, 0x3, 0x0, 0x0, 0x0, 0x0, 0x0, 0x0, 0x0⟩,
  ⟨"REF10M_MEAS", 0x50, 1, 0x0, 1, 0x0, false, 0x0, 0xffffffff, 0x0, 0x0, 0x0, 0x0, 0x0, 0x0, 0x0⟩,
  ⟨"DOM_CTL", 0x100, 8, 0x40, 1, 0x0, false, 0xff00, 0x0, 0x0, 0x0, 0x3f, 0x0, 0x0, 0x0, 0x1400⟩,
  ⟨"DOM_STATUS", 0x104, 8, 0x40, 1, 0x0, false, 0x0, 0xffff000f, 0x0, 0x70, 0x0, 0x0, 0x0, 0x0, 0x0⟩,
  ⟨"DOM_INCR", 0x108, 8, 0x40, 1, 0x0, true, 0xffffffffffff, 0x0, 0x0, 0x0, 0x0, 0x0, 0x0, 0x0, 0x66666666666⟩,
  ⟨"DOM_STEP_SEC", 0x110, 8, 0x40, 1, 0x0, true, 0xffffffffffff, 0x0, 0x0, 0x0, 0x0, 0x0, 0x0, 0x0, 0x0⟩,
  ⟨"DOM_STEP_NS", 0x118, 8, 0x40, 1, 0x0, false, 0xffffffff, 0x0, 0x0, 0x0, 0x0, 0x0, 0x0, 0x0, 0x0⟩,
  ⟨"DOM_SLEW", 0x11c, 8, 0x40, 1, 0x0, false, 0x0, 0x0, 0x0, 0x0, 0x0, 0xffffffff, 0x0, 0x0, 0x0⟩,
  ⟨"DOM_SLEW_CFG", 0x120, 8, 0x40, 1, 0x0, false, 0x3ff, 0x0, 0x0, 0x0, 0x0, 0x0, 0x0, 0x0, 0x64⟩,
  ⟨"DOM_SLEW_LEFT", 0x124, 8, 0x40, 1, 0x0, false, 0x0, 0xffffffff, 0x0, 0x0, 0x0, 0x0, 0x0, 0x0, 0x0⟩,
  ⟨"DOM_SNAP_SEC", 0x128, 8, 0x40, 1, 0x0, true, 0x0, 0xffffffffffff, 0x0, 0x0, 0x0, 0x0, 0x0, 0x0, 0x0⟩,
  ⟨"DOM_SNAP_NS", 0x130, 8, 0x40, 1, 0x0, false, 0x0, 0x3fffffff, 0x0, 0x0, 0x0, 0x0, 0x0, 0x0, 0x0⟩,
  ⟨"DOM_SNAP_FRAC", 0x134, 8, 0x40, 1, 0x0, false, 0x0, 0x3ffff, 0x0, 0x0, 0x0, 0x0, 0x0, 0x0, 0x0⟩,
  ⟨"DOM_SNAP_WT", 0x138, 8, 0x40, 1, 0x0, true, 0x0, 0xffffffffffff, 0x0, 0x0, 0x0, 0x0, 0x0, 0x0, 0x0⟩,
  ⟨"PORT_DOM", 0x300, 64, 0x4, 1, 0x0, false, 0x77777777, 0x0, 0x0, 0x0, 0x0, 0x0, 0x0, 0x0, 0x0⟩,
  ⟨"PPS_IN_CTL", 0x400, 4, 0x10, 1, 0x0, false, 0x71, 0x70000, 0xff000000, 0x0, 0x0, 0x0, 0x0, 0x0, 0x0⟩,
  ⟨"PPS_IN_CAP_SEC", 0x404, 4, 0x10, 1, 0x0, true, 0x0, 0xffffffffffff, 0x0, 0x0, 0x0, 0x0, 0x0, 0x0, 0x0⟩,
  ⟨"PPS_IN_CAP_NS", 0x40c, 4, 0x10, 1, 0x0, false, 0x0, 0xbfffffff, 0x0, 0x0, 0x0, 0x0, 0x0, 0x0, 0x0⟩,
  ⟨"PPS_OUT_CTL", 0x500, 4, 0x20, 1, 0x0, false, 0x171, 0x200, 0x0, 0x0, 0x0, 0x0, 0x0, 0x0, 0x0⟩,
  ⟨"PPS_OUT_START_SEC", 0x504, 4, 0x20, 1, 0x0, true, 0xffffffffffff, 0x0, 0x0, 0x0, 0x0, 0x0, 0x0, 0x0, 0x0⟩,
  ⟨"PPS_OUT_START_NS", 0x50c, 4, 0x20, 1, 0x0, false, 0x3fffffff, 0x0, 0x0, 0x0, 0x0, 0x0, 0x0, 0x0, 0x0⟩,
  ⟨"PPS_OUT_PERIOD_NS", 0x510, 4, 0x20, 1, 0x0, false, 0xffffffff, 0x0, 0x0, 0x0, 0x0, 0x0, 0x0, 0x0, 0x3b9aca00⟩]

def rowsTimeB : List RegRow := [
  ⟨"PPS_OUT_PERIOD_FRAC", 0x514, 4, 0x20, 1, 0x0, false, 0xffff, 0x0, 0x0, 0x0, 0x0, 0x0, 0x0, 0x0, 0x0⟩,
  ⟨"PPS_OUT_WIDTH", 0x518, 4, 0x20, 1, 0x0, false, 0xffffffff, 0x0, 0x0, 0x0, 0x0, 0x0, 0x0, 0x0, 0x5f5e100⟩]

def rowsTime : List RegRow := rowsTimeA ++ rowsTimeB

def rowsWheel : List RegRow := [
  ⟨"WHEEL_CFG", 0x40, 1, 0x0, 1, 0x0, false, 0xff003f, 0x0, 0x0, 0x0, 0x0, 0x0, 0x0, 0x0, 0x400018⟩,
  ⟨"WHEEL_STATUS", 0x44, 1, 0x0, 1, 0x0, false, 0x0, 0x11fffff, 0x0, 0x0, 0x0, 0x0, 0x0, 0x0, 0x0⟩,
  ⟨"PENDING_HWM", 0x48, 1, 0x0, 1, 0x0, false, 0x0, 0x0, 0x1fffff, 0x0, 0x0, 0x0, 0x0, 0x0, 0x0⟩,
  ⟨"LATE_CNT", 0x4c, 1, 0x0, 1, 0x0, false, 0x0, 0x0, 0xffffffff, 0x0, 0x0, 0x0, 0x0, 0x0, 0x0⟩,
  ⟨"HORIZON_CNT", 0x50, 1, 0x0, 1, 0x0, false, 0x0, 0x0, 0xffffffff, 0x0, 0x0, 0x0, 0x0, 0x0, 0x0⟩,
  ⟨"FULL_CNT", 0x54, 1, 0x0, 1, 0x0, false, 0x0, 0x0, 0xffffffff, 0x0, 0x0, 0x0, 0x0, 0x0, 0x0⟩,
  ⟨"STEPPED_CNT", 0x58, 1, 0x0, 1, 0x0, false, 0x0, 0x0, 0xffffffff, 0x0, 0x0, 0x0, 0x0, 0x0, 0x0⟩,
  ⟨"SCHED_TARGET", 0x60, 1, 0x0, 1, 0x0, true, 0xffffffffffff, 0x0, 0x0, 0x0, 0x0, 0x0, 0x0, 0x0, 0x0⟩,
  ⟨"SCHED_CTL", 0x68, 1, 0x0, 1, 0x0, false, 0xfff0117, 0x0, 0x0, 0x0, 0x0, 0x80000000, 0x0, 0x0, 0x100⟩,
  ⟨"SCHED_STATUS", 0x6c, 1, 0x0, 1, 0x0, false, 0x0, 0xffff, 0x0, 0x0, 0x0, 0x0, 0x0, 0x0, 0x0⟩,
  ⟨"SCHED_HANDLE", 0x70, 1, 0x0, 1, 0x0, false, 0x0, 0xffffffff, 0x0, 0x0, 0x0, 0x0, 0x0, 0x0, 0x0⟩,
  ⟨"CANCEL", 0x74, 1, 0x0, 1, 0x0, false, 0x0, 0x0, 0x0, 0x0, 0x0, 0xffffffff, 0x0, 0x0, 0x0⟩,
  ⟨"CANCEL_RESULT", 0x78, 1, 0x0, 1, 0x0, false, 0x0, 0x1, 0x0, 0x0, 0x0, 0x0, 0x0, 0x0, 0x0⟩]

def rowsHost : List RegRow := [
  ⟨"LINK_CFG", 0x40, 1, 0x0, 1, 0x0, false, 0x0, 0x0, 0x0, 0x0, 0x0, 0x0, 0x0, 0x1f, 0xc⟩,
  ⟨"LINK_STATUS", 0x44, 1, 0x0, 1, 0x0, false, 0x0, 0x1fffff, 0x0, 0x0, 0x0, 0x0, 0x0, 0x0, 0x0⟩,
  ⟨"SHUT0_STATUS", 0x48, 1, 0x0, 1, 0x0, false, 0x0, 0xffff00f3, 0x0, 0x4, 0x0, 0x0, 0x0, 0x0, 0x0⟩,
  ⟨"SHUT1_STATUS", 0x4c, 1, 0x0, 1, 0x0, false, 0x0, 0xffff00f3, 0x0, 0x4, 0x0, 0x0, 0x0, 0x0, 0x0⟩,
  ⟨"SHUTTER_RELEASE", 0x50, 1, 0x0, 1, 0x0, false, 0x0, 0x0, 0x0, 0x0, 0x0, 0x3, 0x0, 0x0, 0x0⟩,
  ⟨"CTL", 0x54, 1, 0x0, 1, 0x0, false, 0x3, 0x0, 0x0, 0x0, 0x0, 0x0, 0x0, 0x0, 0x0⟩,
  ⟨"TAG_RESV", 0x58, 1, 0x0, 1, 0x0, false, 0x3fff, 0x0, 0x0, 0x0, 0x0, 0x0, 0x0, 0x0, 0x100⟩,
  ⟨"TAG_USE", 0x5c, 1, 0x0, 1, 0x0, false, 0x0, 0x3fff3fff, 0x0, 0x0, 0x0, 0x0, 0x0, 0x0, 0x0⟩,
  ⟨"TAG_HWM", 0x60, 1, 0x0, 1, 0x0, false, 0x0, 0x0, 0x3fff, 0x0, 0x0, 0x0, 0x0, 0x0, 0x0⟩,
  ⟨"TAG_QUAR", 0x64, 1, 0x0, 1, 0x0, false, 0xf, 0x0, 0x0, 0x0, 0x0, 0x0, 0x0, 0x0, 0x2⟩,
  ⟨"VF_ALLOC", 0x80, 8, 0x4, 1, 0x0, false, 0x0, 0x0, 0x0, 0x0, 0x0, 0x0, 0x0, 0x7ff, 0x7f⟩,
  ⟨"LTR_CFG", 0xa0, 1, 0x0, 1, 0x0, false, 0xffffffff, 0x0, 0x0, 0x0, 0x0, 0x0, 0x0, 0x0, 0x3e80001⟩,
  ⟨"LTR_HOLD", 0xa4, 1, 0x0, 1, 0x0, false, 0xffff, 0x0, 0x0, 0x0, 0x0, 0x0, 0x0, 0x0, 0x3e8⟩,
  ⟨"LTR_LAST", 0xa8, 1, 0x0, 1, 0x0, false, 0x0, 0xffffffff, 0x0, 0x0, 0x0, 0x0, 0x0, 0x0, 0x0⟩,
  ⟨"L0P_CFG", 0xac, 1, 0x0, 1, 0x0, false, 0x80ff00ff, 0x0, 0x0, 0x0, 0x0, 0x0, 0x0, 0x0, 0x500014⟩,
  ⟨"AER_EXTRA", 0xb0, 1, 0x0, 1, 0x0, false, 0x0, 0x0, 0xffff0000, 0x1, 0x0, 0x0, 0x0, 0x0, 0x0⟩,
  ⟨"SHUT_DISCARD_CNT", 0xc0, 1, 0x0, 1, 0x0, false, 0x0, 0x0, 0xffffffff, 0x0, 0x0, 0x0, 0x0, 0x0, 0x0⟩,
  ⟨"CPL_TIMEOUT_CNT", 0xc4, 1, 0x0, 1, 0x0, false, 0x0, 0x0, 0xffffffff, 0x0, 0x0, 0x0, 0x0, 0x0, 0x0⟩,
  ⟨"UNEXP_CPL_CNT", 0xc8, 1, 0x0, 1, 0x0, false, 0x0, 0x0, 0xffffffff, 0x0, 0x0, 0x0, 0x0, 0x0, 0x0⟩,
  ⟨"INBOUND_DENY_CNT", 0xcc, 1, 0x0, 1, 0x0, false, 0x0, 0x0, 0xffffffff, 0x0, 0x0, 0x0, 0x0, 0x0, 0x0⟩,
  ⟨"CORR_CNT", 0xd0, 1, 0x0, 1, 0x0, false, 0x0, 0x0, 0xffffffff, 0x0, 0x0, 0x0, 0x0, 0x0, 0x0⟩]

def rowsFunc : List RegRow := [
  ⟨"FN_SEL", 0x40, 1, 0x0, 1, 0x0, false, 0x7ff, 0x0, 0x0, 0x0, 0x0, 0x0, 0x0, 0x0, 0x0⟩,
  ⟨"FN_STATUS", 0x44, 1, 0x0, 1, 0x0, false, 0x0, 0x7f, 0x0, 0x0, 0x0, 0x0, 0x0, 0x0, 0x0⟩,
  ⟨"VEC_BASE", 0x48, 1, 0x0, 1, 0x0, false, 0x3fff, 0x0, 0x0, 0x0, 0x0, 0x0, 0x0, 0x0, 0x0⟩,
  ⟨"VEC_COUNT", 0x4c, 1, 0x0, 1, 0x0, false, 0xfff, 0x0, 0x0, 0x0, 0x0, 0x0, 0x0, 0x0, 0x0⟩,
  ⟨"DMA_SHARE", 0x50, 1, 0x0, 1, 0x0, false, 0x0, 0x0, 0x0, 0x0, 0x0, 0x0, 0xffff00ff, 0x0, 0x10⟩,
  ⟨"TAG_QUOTA", 0x54, 1, 0x0, 1, 0x0, false, 0x0, 0x0, 0x0, 0x0, 0x0, 0x0, 0x3fff, 0x0, 0x400⟩,
  ⟨"RING_WEIGHT", 0x58, 1, 0x0, 1, 0x0, false, 0x0, 0x0, 0x0, 0x0, 0x0, 0x0, 0xff, 0x0, 0x10⟩,
  ⟨"INT_SHARE", 0x5c, 1, 0x0, 1, 0x0, false, 0x0, 0x0, 0x0, 0x0, 0x0, 0x0, 0xffffff, 0x0, 0x400000⟩,
  ⟨"LAT_TOL", 0x60, 1, 0x0, 1, 0x0, false, 0xffff, 0x0, 0x0, 0x0, 0x0, 0x0, 0x0, 0x0, 0xffff⟩,
  ⟨"RESET_CNT", 0x64, 1, 0x0, 1, 0x0, false, 0x0, 0x0, 0xffffffff, 0x0, 0x0, 0x0, 0x0, 0x0, 0x0⟩,
  ⟨"EVT_DROP_CNT", 0x68, 1, 0x0, 1, 0x0, false, 0x0, 0x0, 0xffffffff, 0x0, 0x0, 0x0, 0x0, 0x0, 0x0⟩,
  ⟨"INT_THROTTLE_CNT", 0x6c, 1, 0x0, 1, 0x0, false, 0x0, 0x0, 0xffffffff, 0x0, 0x0, 0x0, 0x0, 0x0, 0x0⟩,
  ⟨"PSTATE", 0x70, 1, 0x0, 1, 0x0, false, 0x0, 0x3ffff, 0x0, 0x0, 0x0, 0x0, 0x0, 0x0, 0x0⟩,
  ⟨"ERT_W0", 0x1000, 4096, 0x8, 1, 0x0, false, 0x7ff0007, 0x0, 0x0, 0x0, 0x0, 0x0, 0x0, 0x0, 0x0⟩,
  ⟨"ERT_W1", 0x1004, 4096, 0x8, 1, 0x0, false, 0xffff07ff, 0x0, 0x0, 0x0, 0x0, 0x0, 0x0, 0x0, 0x0⟩]

def rowsXlat : List RegRow := [
  ⟨"FLUSH", 0x40, 1, 0x0, 1, 0x0, false, 0xfff, 0x0, 0x0, 0x0, 0x80000000, 0x0, 0x0, 0x0, 0x0⟩,
  ⟨"FLUSH_PASID", 0x44, 1, 0x0, 1, 0x0, false, 0xfffff, 0x0, 0x0, 0x0, 0x0, 0x0, 0x0, 0x0, 0x0⟩,
  ⟨"FLUSH_STATUS", 0x48, 1, 0x0, 1, 0x0, false, 0x0, 0x1, 0x0, 0x0, 0x0, 0x0, 0x0, 0x0, 0x0⟩,
  ⟨"WIN_SEL", 0x50, 1, 0x0, 1, 0x0, false, 0x77ff, 0x0, 0x0, 0x0, 0x0, 0x0, 0x0, 0x0, 0x0⟩,
  ⟨"WIN_BASE", 0x54, 1, 0x0, 1, 0x0, true, 0xfffffffffffff000, 0x0, 0x0, 0x0, 0x0, 0x0, 0x0, 0x0, 0x0⟩,
  ⟨"WIN_LIMIT", 0x5c, 1, 0x0, 1, 0x0, true, 0xfffffffffffff000, 0xfff, 0x0, 0x0, 0x0, 0x0, 0x0, 0x0, 0xfff⟩,
  ⟨"WIN_CTL", 0x64, 1, 0x0, 1, 0x0, false, 0x7, 0x0, 0x0, 0x0, 0x0, 0x0, 0x0, 0x0, 0x0⟩,
  ⟨"DENY_ADDR", 0x68, 1, 0x0, 1, 0x0, true, 0x0, 0xffffffffffffffff, 0x0, 0x0, 0x0, 0x0, 0x0, 0x0, 0x0⟩,
  ⟨"DENY_LEN", 0x70, 1, 0x0, 1, 0x0, false, 0x0, 0xffffffff, 0x0, 0x0, 0x0, 0x0, 0x0, 0x0, 0x0⟩,
  ⟨"DENY_INFO", 0x74, 1, 0x0, 1, 0x0, false, 0x0, 0x37ff, 0x0, 0x80000000, 0x0, 0x0, 0x0, 0x0, 0x0⟩,
  ⟨"DENY_CNT", 0x78, 1, 0x0, 1, 0x0, false, 0x0, 0x0, 0xffffffff, 0x0, 0x0, 0x0, 0x0, 0x0, 0x0⟩,
  ⟨"HIT_CNT", 0x80, 2, 0x20, 1, 0x0, false, 0x0, 0x0, 0xffffffff, 0x0, 0x0, 0x0, 0x0, 0x0, 0x0⟩,
  ⟨"MISS_CNT", 0x84, 2, 0x20, 1, 0x0, false, 0x0, 0x0, 0xffffffff, 0x0, 0x0, 0x0, 0x0, 0x0, 0x0⟩,
  ⟨"INV_REQ_CNT", 0x88, 2, 0x20, 1, 0x0, false, 0x0, 0x0, 0xffffffff, 0x0, 0x0, 0x0, 0x0, 0x0, 0x0⟩,
  ⟨"INV_CPL_CNT", 0x8c, 2, 0x20, 1, 0x0, false, 0x0, 0x0, 0xffffffff, 0x0, 0x0, 0x0, 0x0, 0x0, 0x0⟩,
  ⟨"ATS_OUT", 0x90, 2, 0x20, 1, 0x0, false, 0x0, 0xff01ff, 0x0, 0x0, 0x0, 0x0, 0x0, 0x0, 0x0⟩]

def rowsRing : List RegRow := [
  ⟨"RING_SEL", 0x40, 1, 0x0, 1, 0x0, false, 0x1ffff, 0x0, 0x0, 0x0, 0x0, 0x0, 0x0, 0x0, 0x0⟩,
  ⟨"CTX_CTL", 0x44, 1, 0x0, 1, 0x0, false, 0x0, 0x0, 0x0, 0x0, 0x0, 0x0, 0x7ff1ffd, 0x0, 0x600⟩,
  ⟨"CTX_LOCAL", 0x48, 1, 0x0, 1, 0x0, false, 0x0, 0x0, 0x0, 0x0, 0x0, 0x0, 0xfff, 0x0, 0x0⟩,
  ⟨"CTX_LINK", 0x4c, 1, 0x0, 1, 0x0, false, 0x0, 0x0, 0x0, 0x0, 0x0, 0x0, 0x8000ffff, 0x0, 0x0⟩,
  ⟨"CTX_BASE", 0x50, 1, 0x0, 1, 0x0, true, 0x0, 0x0, 0x0, 0x0, 0x0, 0x0, 0xfffffffffffff000, 0x0, 0x0⟩,
  ⟨"CTX_POLL", 0x58, 1, 0x0, 1, 0x0, false, 0x0, 0x0, 0x0, 0x0, 0x0, 0x0, 0xffff, 0x0, 0x0⟩,
  ⟨"PREFETCH_DEPTH", 0x5c, 1, 0x0, 1, 0x0, false, 0x0, 0x0, 0x0, 0x0, 0x0, 0x0, 0x1f, 0x0, 0x8⟩,
  ⟨"CTX_STATE", 0x60, 1, 0x0, 1, 0x0, false, 0x0, 0xffff00ff, 0x0, 0x0, 0x0, 0x0, 0x0, 0x0, 0x0⟩,
  ⟨"CTX_CPL", 0x64, 1, 0x0, 1, 0x0, false, 0x0, 0x1ffff, 0x0, 0x0, 0x0, 0x0, 0x0, 0x0, 0x0⟩,
  ⟨"DB_DROP_CNT", 0x80, 1, 0x0, 1, 0x0, false, 0x0, 0x0, 0xffffffff, 0x0, 0x0, 0x0, 0x0, 0x0, 0x0⟩,
  ⟨"PREFETCH_DROP_CNT", 0x84, 1, 0x0, 1, 0x0, false, 0x0, 0x0, 0xffffffff, 0x0, 0x0, 0x0, 0x0, 0x0, 0x0⟩,
  ⟨"CPL_STALL_CNT", 0x88, 1, 0x0, 1, 0x0, false, 0x0, 0x0, 0xffffffff, 0x0, 0x0, 0x0, 0x0, 0x0, 0x0⟩,
  ⟨"BAD_DESC_CNT", 0x8c, 1, 0x0, 1, 0x0, false, 0x0, 0x0, 0xffffffff, 0x0, 0x0, 0x0, 0x0, 0x0, 0x0⟩,
  ⟨"HEAD_REJ_CNT", 0x90, 1, 0x0, 1, 0x0, false, 0x0, 0x0, 0xffffffff, 0x0, 0x0, 0x0, 0x0, 0x0, 0x0⟩]

def rowsTransom : List RegRow := [
  ⟨"TGT", 0x40, 1, 0x0, 1, 0x0, false, 0x803f00ff, 0x0, 0x0, 0x0, 0x0, 0x0, 0x0, 0x0, 0x0⟩,
  ⟨"ADDR", 0x44, 1, 0x0, 1, 0x0, true, 0xfffffffffffc, 0x0, 0x0, 0x0, 0x0, 0x0, 0x0, 0x0, 0x0⟩,
  ⟨"INCR", 0x4c, 1, 0x0, 1, 0x0, false, 0xfffc, 0x0, 0x0, 0x0, 0x0, 0x0, 0x0, 0x0, 0x4⟩,
  ⟨"DATA", 0x50, 1, 0x0, 1, 0x0, false, 0xffffffff, 0x0, 0x0, 0x0, 0x0, 0x0, 0x0, 0x0, 0x0⟩,
  ⟨"ADVANCE", 0x54, 1, 0x0, 1, 0x0, false, 0x0, 0x0, 0x0, 0x0, 0x0, 0x1, 0x0, 0x0, 0x0⟩,
  ⟨"FILL", 0x58, 1, 0x0, 1, 0x0, false, 0x0, 0xffff, 0x0, 0x0, 0x0, 0x0, 0x0, 0x0, 0x0⟩,
  ⟨"STATUS", 0x5c, 1, 0x0, 1, 0x0, false, 0x0, 0xf1, 0x0, 0x6, 0x0, 0x0, 0x0, 0x0, 0x0⟩,
  ⟨"SPACE_INFO", 0x60, 1, 0x0, 1, 0x0, false, 0x0, 0x3ffff, 0x0, 0x0, 0x0, 0x0, 0x0, 0x0, 0x0⟩]

def rowsLane : List RegRow := [
  ⟨"LANE_CTL", 0x100, 64, 0x20, 1, 0x0, false, 0xff, 0x0, 0x0, 0x0, 0x0, 0x0, 0x0, 0x0, 0x0⟩,
  ⟨"LANE_STATUS", 0x104, 64, 0x20, 1, 0x0, false, 0x0, 0xffffff1f, 0x0, 0x0, 0x0, 0x0, 0x0, 0x0, 0x0⟩,
  ⟨"FEC_SYM", 0x108, 64, 0x20, 1, 0x0, true, 0x0, 0x0, 0xffffffffffffffff, 0x0, 0x0, 0x0, 0x0, 0x0, 0x0⟩,
  ⟨"FEC_HIST", 0x110, 64, 0x20, 1, 0x0, false, 0x0, 0x0, 0xffff, 0x0, 0x0, 0x0, 0x0, 0x0, 0x0⟩]

def rowsCal : List RegRow := [
  ⟨"CAL_CTL", 0x40, 1, 0x0, 1, 0x0, false, 0x0, 0x0, 0x0, 0x0, 0x1, 0x0, 0x0, 0x0, 0x0⟩,
  ⟨"SW_TIMEOUT", 0x44, 1, 0x0, 1, 0x0, false, 0xffff, 0x0, 0x0, 0x0, 0x0, 0x0, 0x0, 0x0, 0x64⟩,
  ⟨"GRP_CFG", 0x80, 16, 0x10, 1, 0x0, false, 0x0, 0x0, 0x0, 0x0, 0x0, 0x0, 0x3fff, 0x0, 0x0⟩,
  ⟨"GRP_NUM", 0x84, 16, 0x10, 1, 0x0, false, 0x0, 0x0, 0x0, 0x0, 0x0, 0x0, 0xfffff, 0x0, 0x0⟩,
  ⟨"GRP_STATUS", 0x88, 16, 0x10, 1, 0x0, false, 0x0, 0x1f, 0x0, 0x0, 0x0, 0x0, 0x0, 0x0, 0x0⟩,
  ⟨"PORT", 0x400, 512, 0x4, 1, 0x0, false, 0x0, 0x0, 0x0, 0x0, 0x0, 0x0, 0xffff1fff, 0x0, 0x0⟩,
  ⟨"SLOT", 0x1000, 512, 0x4, 1, 0x0, false, 0x0, 0x0, 0x0, 0x0, 0x0, 0x0, 0x81ff, 0x0, 0x0⟩]

def rowsMacA : List RegRow := [
  ⟨"MAC_CTL", 0x100, 1, 0x0, 1, 0x0, false, 0x0, 0x0, 0x0, 0x0, 0x0, 0x0, 0x7ff, 0x0, 0x0⟩,
  ⟨"MAX_FRAME", 0x104, 1, 0x0, 1, 0x0, false, 0x0, 0x0, 0x0, 0x0, 0x0, 0x0, 0x3fff, 0x0, 0x2400⟩,
  ⟨"FILT_DEFAULT", 0x108, 1, 0x0, 1, 0x0, false, 0x0, 0x0, 0x0, 0x0, 0x0, 0x0, 0xff01f3, 0x0, 0x0⟩,
  ⟨"TX_LAT_COMP", 0x10c, 1, 0x0, 1, 0x0, false, 0x0, 0x0, 0x0, 0x0, 0x0, 0x0, 0xffffffff, 0x0, 0x0⟩,
  ⟨"RX_LAT_COMP", 0x110, 1, 0x0, 1, 0x0, false, 0x0, 0x0, 0x0, 0x0, 0x0, 0x0, 0xffffffff, 0x0, 0x0⟩,
  ⟨"LPI_TW", 0x114, 1, 0x0, 1, 0x0, false, 0x0, 0x0, 0x0, 0x0, 0x0, 0x0, 0xffffffff, 0x0, 0x0⟩,
  ⟨"LPI_IDLE", 0x118, 1, 0x0, 1, 0x0, false, 0x0, 0x0, 0x0, 0x0, 0x0, 0x0, 0xffff, 0x0, 0x64⟩,
  ⟨"PREEMPT_MAP", 0x11c, 1, 0x0, 1, 0x0, false, 0x0, 0x0, 0x0, 0x0, 0x0, 0x0, 0xffff, 0x0, 0x0⟩,
  ⟨"CT_START", 0x120, 1, 0x0, 1, 0x0, false, 0x0, 0x0, 0x0, 0x0, 0x0, 0x0, 0x3ff, 0x0, 0x100⟩,
  ⟨"STATION", 0x124, 1, 0x0, 1, 0x0, true, 0x0, 0x0, 0x0, 0x0, 0x0, 0x0, 0xffffffffffff, 0x0, 0x0⟩,
  ⟨"MAC_STATUS", 0x12c, 1, 0x0, 1, 0x0, false, 0x0, 0x3f, 0x0, 0x0, 0x0, 0x0, 0x0, 0x0, 0x0⟩,
  ⟨"FILT_W0", 0x400, 64, 0x10, 1, 0x0, false, 0x0, 0x0, 0x0, 0x0, 0x0, 0x0, 0xffffffff, 0x0, 0x0⟩,
  ⟨"FILT_W1", 0x404, 64, 0x10, 1, 0x0, false, 0x0, 0x0, 0x0, 0x0, 0x0, 0x0, 0xffffffff, 0x0, 0x0⟩,
  ⟨"FILT_W2", 0x408, 64, 0x10, 1, 0x0, false, 0x0, 0x0, 0x0, 0x0, 0x0, 0x0, 0x1ff7fff, 0x0, 0x0⟩,
  ⟨"FILT_W3", 0x40c, 64, 0x10, 1, 0x0, false, 0x0, 0x0, 0x0, 0x0, 0x0, 0x0, 0xffff, 0x0, 0x0⟩,
  ⟨"RX_OK", 0x800, 1, 0x0, 1, 0x0, true, 0x0, 0x0, 0xffffffffffffffff, 0x0, 0x0, 0x0, 0x0, 0x0, 0x0⟩,
  ⟨"RX_OCTETS", 0x808, 1, 0x0, 1, 0x0, true, 0x0, 0x0, 0xffffffffffffffff, 0x0, 0x0, 0x0, 0x0, 0x0, 0x0⟩,
  ⟨"RX_FCS_ERR", 0x810, 1, 0x0, 1, 0x0, true, 0x0, 0x0, 0xffffffffffffffff, 0x0, 0x0, 0x0, 0x0, 0x0, 0x0⟩,
  ⟨"RX_RUNT", 0x818, 1, 0x0, 1, 0x0, true, 0x0, 0x0, 0xffffffffffffffff, 0x0, 0x0, 0x0, 0x0, 0x0, 0x0⟩,
  ⟨"RX_OVERSIZE", 0x820, 1, 0x0, 1, 0x0, true, 0x0, 0x0, 0xffffffffffffffff, 0x0, 0x0, 0x0, 0x0, 0x0, 0x0⟩,
  ⟨"RX_TRUNC", 0x828, 1, 0x0, 1, 0x0, true, 0x0, 0x0, 0xffffffffffffffff, 0x0, 0x0, 0x0, 0x0, 0x0, 0x0⟩,
  ⟨"RX_FILT_DROP", 0x830, 1, 0x0, 1, 0x0, true, 0x0, 0x0, 0xffffffffffffffff, 0x0, 0x0, 0x0, 0x0, 0x0, 0x0⟩,
  ⟨"RX_NOBUF", 0x838, 1, 0x0, 1, 0x0, true, 0x0, 0x0, 0xffffffffffffffff, 0x0, 0x0, 0x0, 0x0, 0x0, 0x0⟩,
  ⟨"FEC_CORR_CW", 0x840, 1, 0x0, 1, 0x0, true, 0x0, 0x0, 0xffffffffffffffff, 0x0, 0x0, 0x0, 0x0, 0x0, 0x0⟩]

def rowsMacB : List RegRow := [
  ⟨"FEC_UNCORR_CW", 0x848, 1, 0x0, 1, 0x0, true, 0x0, 0x0, 0xffffffffffffffff, 0x0, 0x0, 0x0, 0x0, 0x0, 0x0⟩,
  ⟨"RX_PFC", 0x880, 8, 0x8, 1, 0x0, true, 0x0, 0x0, 0xffffffffffffffff, 0x0, 0x0, 0x0, 0x0, 0x0, 0x0⟩,
  ⟨"TX_PFC", 0x8c0, 8, 0x8, 1, 0x0, true, 0x0, 0x0, 0xffffffffffffffff, 0x0, 0x0, 0x0, 0x0, 0x0, 0x0⟩,
  ⟨"TX_OK", 0x900, 1, 0x0, 1, 0x0, true, 0x0, 0x0, 0xffffffffffffffff, 0x0, 0x0, 0x0, 0x0, 0x0, 0x0⟩,
  ⟨"TX_OCTETS", 0x908, 1, 0x0, 1, 0x0, true, 0x0, 0x0, 0xffffffffffffffff, 0x0, 0x0, 0x0, 0x0, 0x0, 0x0⟩,
  ⟨"TX_STOMPED", 0x910, 1, 0x0, 1, 0x0, true, 0x0, 0x0, 0xffffffffffffffff, 0x0, 0x0, 0x0, 0x0, 0x0, 0x0⟩,
  ⟨"RX_PAUSE", 0x918, 1, 0x0, 1, 0x0, true, 0x0, 0x0, 0xffffffffffffffff, 0x0, 0x0, 0x0, 0x0, 0x0, 0x0⟩,
  ⟨"TX_PAUSE", 0x920, 1, 0x0, 1, 0x0, true, 0x0, 0x0, 0xffffffffffffffff, 0x0, 0x0, 0x0, 0x0, 0x0, 0x0⟩,
  ⟨"LPI_TX_ENTRIES", 0x928, 1, 0x0, 1, 0x0, true, 0x0, 0x0, 0xffffffffffffffff, 0x0, 0x0, 0x0, 0x0, 0x0, 0x0⟩,
  ⟨"LPI_RX_ENTRIES", 0x930, 1, 0x0, 1, 0x0, true, 0x0, 0x0, 0xffffffffffffffff, 0x0, 0x0, 0x0, 0x0, 0x0, 0x0⟩,
  ⟨"MM_ASSY_OK", 0x938, 1, 0x0, 1, 0x0, true, 0x0, 0x0, 0xffffffffffffffff, 0x0, 0x0, 0x0, 0x0, 0x0, 0x0⟩,
  ⟨"MM_ASSY_ERR", 0x940, 1, 0x0, 1, 0x0, true, 0x0, 0x0, 0xffffffffffffffff, 0x0, 0x0, 0x0, 0x0, 0x0, 0x0⟩,
  ⟨"MM_SMD_ERR", 0x948, 1, 0x0, 1, 0x0, true, 0x0, 0x0, 0xffffffffffffffff, 0x0, 0x0, 0x0, 0x0, 0x0, 0x0⟩,
  ⟨"MM_FRAG_TX", 0x950, 1, 0x0, 1, 0x0, true, 0x0, 0x0, 0xffffffffffffffff, 0x0, 0x0, 0x0, 0x0, 0x0, 0x0⟩,
  ⟨"MM_HOLD", 0x958, 1, 0x0, 1, 0x0, true, 0x0, 0x0, 0xffffffffffffffff, 0x0, 0x0, 0x0, 0x0, 0x0, 0x0⟩,
  ⟨"RX_BIN", 0xa00, 10, 0x8, 1, 0x0, true, 0x0, 0x0, 0xffffffffffffffff, 0x0, 0x0, 0x0, 0x0, 0x0, 0x0⟩,
  ⟨"TX_BIN", 0xa80, 10, 0x8, 1, 0x0, true, 0x0, 0x0, 0xffffffffffffffff, 0x0, 0x0, 0x0, 0x0, 0x0, 0x0⟩]

def rowsMac : List RegRow := rowsMacA ++ rowsMacB

def rowsParse : List RegRow := [
  ⟨"START", 0x100, 1, 0x0, 1, 0x0, false, 0x0, 0x0, 0x0, 0x0, 0x0, 0x0, 0x3ff03ff, 0x0, 0x0⟩,
  ⟨"START_RECIRC", 0x104, 1, 0x0, 1, 0x0, false, 0x0, 0x0, 0x0, 0x0, 0x0, 0x0, 0xf03ff, 0x0, 0x0⟩,
  ⟨"LIMITS", 0x108, 1, 0x0, 1, 0x0, false, 0x0, 0x0, 0x0, 0x0, 0x0, 0x0, 0x3f7f, 0x0, 0x2024⟩,
  ⟨"COMMIT_INFO", 0x10c, 1, 0x0, 1, 0x0, false, 0x0, 0x3ff0003, 0x0, 0x0, 0x0, 0x0, 0x0, 0x0, 0x0⟩,
  ⟨"FRAMES_CNT", 0x120, 1, 0x0, 1, 0x0, false, 0x0, 0x0, 0xffffffff, 0x0, 0x0, 0x0, 0x0, 0x0, 0x0⟩,
  ⟨"DEPTH_CNT", 0x124, 1, 0x0, 1, 0x0, false, 0x0, 0x0, 0xffffffff, 0x0, 0x0, 0x0, 0x0, 0x0, 0x0⟩,
  ⟨"SHORT_CNT", 0x128, 1, 0x0, 1, 0x0, false, 0x0, 0x0, 0xffffffff, 0x0, 0x0, 0x0, 0x0, 0x0, 0x0⟩,
  ⟨"VISIT_CNT", 0x12c, 1, 0x0, 1, 0x0, false, 0x0, 0x0, 0xffffffff, 0x0, 0x0, 0x0, 0x0, 0x0, 0x0⟩,
  ⟨"TAG_CNT", 0x130, 1, 0x0, 1, 0x0, false, 0x0, 0x0, 0xffffffff, 0x0, 0x0, 0x0, 0x0, 0x0, 0x0⟩,
  ⟨"TUNNEL_CNT", 0x134, 1, 0x0, 1, 0x0, false, 0x0, 0x0, 0xffffffff, 0x0, 0x0, 0x0, 0x0, 0x0, 0x0⟩,
  ⟨"UNKNOWN_CNT", 0x138, 1, 0x0, 1, 0x0, false, 0x0, 0x0, 0xffffffff, 0x0, 0x0, 0x0, 0x0, 0x0, 0x0⟩,
  ⟨"LEN_CNT", 0x13c, 1, 0x0, 1, 0x0, false, 0x0, 0x0, 0xffffffff, 0x0, 0x0, 0x0, 0x0, 0x0, 0x0⟩]

def rowsClass : List RegRow := [
  ⟨"CLASS_CTL", 0x100, 1, 0x0, 1, 0x0, false, 0x0, 0x0, 0x0, 0x0, 0x0, 0x0, 0x1, 0x0, 0x0⟩,
  ⟨"CTRL_LIMIT", 0x104, 1, 0x0, 1, 0x0, false, 0x0, 0x0, 0x0, 0x0, 0x0, 0x0, 0xffff, 0x0, 0x0⟩,
  ⟨"DEFAULT_ACT_W0", 0x140, 3, 0x20, 1, 0x0, false, 0x0, 0x0, 0x0, 0x0, 0x0, 0x0, 0x0f0fff07, 0x0, 0x0⟩,
  ⟨"DEFAULT_ACT_W1", 0x144, 3, 0x20, 1, 0x0, false, 0x0, 0x0, 0x0, 0x0, 0x0, 0x0, 0xffffffff, 0x0, 0x0⟩,
  ⟨"DEFAULT_ACT_W2", 0x148, 3, 0x20, 1, 0x0, false, 0x0, 0x0, 0x0, 0x0, 0x0, 0x0, 0xff0f7fff, 0x0, 0x0⟩,
  ⟨"DEFAULT_ACT_W3", 0x14c, 3, 0x20, 2, 0x4, false, 0x0, 0x0, 0x0, 0x0, 0x0, 0x0, 0xffffffff, 0x0, 0x0⟩,
  ⟨"DEFAULT_ACT_W5", 0x154, 3, 0x20, 1, 0x0, false, 0x0, 0x0, 0x0, 0x0, 0x0, 0x0, 0x0, 0x0, 0x0⟩,
  ⟨"KPROF_SEL", 0x200, 16, 0x20, 8, 0x4, false, 0x0, 0x0, 0x0, 0x0, 0x0, 0x0, 0xffffffff, 0x0, 0x0⟩,
  ⟨"HPROF_CTL", 0x400, 16, 0x40, 1, 0x0, false, 0x0, 0x0, 0x0, 0x0, 0x0, 0x0, 0x1, 0x0, 0x0⟩,
  ⟨"HPROF_MASK", 0x404, 16, 0x40, 1, 0x0, true, 0x0, 0x0, 0x0, 0x0, 0x0, 0x0, 0xffffffffffff, 0x0, 0x0⟩,
  ⟨"HPROF_KEY", 0x40c, 16, 0x40, 13, 0x4, false, 0x0, 0x0, 0x0, 0x0, 0x0, 0x0, 0xffffffff, 0x0, 0x0⟩,
  ⟨"MIRR_CTL", 0x800, 16, 0x10, 1, 0x0, false, 0x0, 0x0, 0x0, 0x0, 0x0, 0x0, 0x3fff3fff, 0x0, 0x0⟩,
  ⟨"MIRR_SAMPLE", 0x804, 16, 0x10, 1, 0x0, false, 0x0, 0x0, 0x0, 0x0, 0x0, 0x0, 0xffff, 0x0, 0x0⟩,
  ⟨"INDIR_SEL", 0x900, 1, 0x0, 1, 0x0, false, 0xff007f, 0x0, 0x0, 0x0, 0x0, 0x0, 0x0, 0x0, 0x0⟩,
  ⟨"INDIR_DATA", 0x904, 1, 0x0, 1, 0x0, false, 0xc00fffff, 0x0, 0x0, 0x0, 0x0, 0x0, 0x0, 0x0, 0x0⟩,
  ⟨"CNT_SEL", 0x940, 1, 0x0, 1, 0x0, false, 0xffff, 0x0, 0x0, 0x0, 0x0, 0x0, 0x0, 0x0, 0x0⟩,
  ⟨"CNT_PKT", 0x948, 1, 0x0, 1, 0x0, true, 0x0, 0x0, 0xffffffffffffffff, 0x0, 0x0, 0x0, 0x0, 0x0, 0x0⟩,
  ⟨"CNT_BYTE", 0x950, 1, 0x0, 1, 0x0, true, 0x0, 0x0, 0xffffffffffffffff, 0x0, 0x0, 0x0, 0x0, 0x0, 0x0⟩,
  ⟨"MISS_CNT", 0x980, 1, 0x0, 1, 0x0, false, 0x0, 0x0, 0xffffffff, 0x0, 0x0, 0x0, 0x0, 0x0, 0x0⟩,
  ⟨"DROP_CNT", 0x984, 1, 0x0, 1, 0x0, false, 0x0, 0x0, 0xffffffff, 0x0, 0x0, 0x0, 0x0, 0x0, 0x0⟩,
  ⟨"BAD_ACTION_CNT", 0x988, 1, 0x0, 1, 0x0, false, 0x0, 0x0, 0xffffffff, 0x0, 0x0, 0x0, 0x0, 0x0, 0x0⟩,
  ⟨"NO_TARGET_CNT", 0x98c, 1, 0x0, 1, 0x0, false, 0x0, 0x0, 0xffffffff, 0x0, 0x0, 0x0, 0x0, 0x0, 0x0⟩,
  ⟨"CTRL_LIMIT_DROP_CNT", 0x990, 1, 0x0, 1, 0x0, false, 0x0, 0x0, 0xffffffff, 0x0, 0x0, 0x0, 0x0, 0x0, 0x0⟩,
  ⟨"MIRROR_CNT", 0x994, 1, 0x0, 1, 0x0, false, 0x0, 0x0, 0xffffffff, 0x0, 0x0, 0x0, 0x0, 0x0, 0x0⟩,
  ⟨"INDIR_CFG", 0xa00, 128, 0x4, 1, 0x0, false, 0x0, 0x0, 0x0, 0x0, 0x0, 0x0, 0xf, 0x0, 0x0⟩]

def rowsFwdA : List RegRow := [
  ⟨"LPROF_CTL", 0x100, 16, 0x10, 1, 0x0, false, 0x0, 0x0, 0x0, 0x0, 0x0, 0x0, 0xffffff1f, 0x0, 0x0⟩,
  ⟨"LPROF_L3", 0x104, 16, 0x10, 1, 0x0, false, 0x0, 0x0, 0x0, 0x0, 0x0, 0x0, 0xfff01ff, 0x0, 0x0⟩,
  ⟨"LPROF_EM_MASK", 0x108, 16, 0x10, 1, 0x0, false, 0x0, 0x0, 0x0, 0x0, 0x0, 0x0, 0xffffffff, 0x0, 0x0⟩,
  ⟨"LPROF_MISS", 0x10c, 16, 0x10, 1, 0x0, false, 0x0, 0x0, 0x0, 0x0, 0x0, 0x0, 0xffffff, 0x0, 0x0⟩,
  ⟨"HASH_CFG", 0x200, 1, 0x0, 1, 0x0, false, 0x0, 0x1f, 0x0, 0x0, 0x0, 0x0, 0x0, 0x0, 0x14⟩,
  ⟨"HASH_SEED", 0x204, 1, 0x0, 1, 0x0, false, 0x0, 0xffffffff, 0x0, 0x0, 0x0, 0x0, 0x0, 0x0, 0xffffffff⟩,
  ⟨"RESIZE", 0x208, 1, 0x0, 1, 0x0, false, 0x1f, 0x0, 0x0, 0x0, 0x80000000, 0x0, 0x0, 0x0, 0x0⟩,
  ⟨"RESIZE_SEED", 0x20c, 1, 0x0, 1, 0x0, false, 0xffffffff, 0x0, 0x0, 0x0, 0x0, 0x0, 0x0, 0x0, 0xffffffff⟩,
  ⟨"RESIZE_STATUS", 0x210, 1, 0x0, 1, 0x0, false, 0x0, 0x1ffff, 0x0, 0x0, 0x0, 0x0, 0x0, 0x0, 0x0⟩,
  ⟨"MOVE_HOLD", 0x220, 1, 0x0, 1, 0x0, false, 0xfffff, 0x0, 0x0, 0x0, 0x0, 0x0, 0x0, 0x0, 0x3e8⟩,
  ⟨"TIME_CFG", 0x224, 1, 0x0, 1, 0x0, false, 0x0, 0x0, 0x0, 0x0, 0x0, 0x0, 0x7, 0x0, 0x0⟩,
  ⟨"AGE_CFG", 0x228, 1, 0x0, 1, 0x0, false, 0x0, 0x0, 0x0, 0x0, 0x0, 0x0, 0xffff01, 0x0, 0x12c01⟩,
  ⟨"LEARN_Q", 0x22c, 1, 0x0, 1, 0x0, false, 0x0, 0x1fff, 0x0, 0x0, 0x0, 0x0, 0x0, 0x0, 0x0⟩,
  ⟨"LEARN_Q_HWM", 0x230, 1, 0x0, 1, 0x0, false, 0x0, 0x0, 0x1fff, 0x0, 0x0, 0x0, 0x0, 0x0, 0x0⟩,
  ⟨"ENTRIES", 0x234, 1, 0x0, 1, 0x0, false, 0x0, 0x7fffff, 0x0, 0x0, 0x0, 0x0, 0x0, 0x0, 0x0⟩,
  ⟨"HAMPER_USE", 0x238, 1, 0x0, 1, 0x0, false, 0x0, 0x1ffff, 0x0, 0x0, 0x0, 0x0, 0x0, 0x0, 0x0⟩,
  ⟨"SW_MAC", 0x240, 1, 0x0, 1, 0x0, true, 0xffffffffffff, 0x0, 0x0, 0x0, 0x0, 0x0, 0x0, 0x0, 0x0⟩,
  ⟨"SW_DOM", 0x248, 1, 0x0, 1, 0x0, false, 0xfff, 0x0, 0x0, 0x0, 0x0, 0x0, 0x0, 0x0, 0x0⟩,
  ⟨"SW_RESULT", 0x24c, 1, 0x0, 1, 0x0, false, 0xffffff, 0x0, 0x0, 0x0, 0x0, 0x0, 0x0, 0x0, 0x0⟩,
  ⟨"SW_CTL", 0x250, 1, 0x0, 1, 0x0, false, 0xf, 0x0, 0x0, 0x0, 0x80000000, 0x0, 0x0, 0x0, 0x0⟩,
  ⟨"SW_STATUS", 0x254, 1, 0x0, 1, 0x0, false, 0x0, 0x10003, 0x0, 0x0, 0x0, 0x0, 0x0, 0x0, 0x0⟩,
  ⟨"SW_WHERE", 0x258, 1, 0x0, 1, 0x0, false, 0x0, 0x7fffff, 0x0, 0x0, 0x0, 0x0, 0x0, 0x0, 0x0⟩,
  ⟨"NOTIFY_BASE", 0x280, 1, 0x0, 1, 0x0, true, 0xfffffffffffff000, 0x0, 0x0, 0x0, 0x0, 0x0, 0x0, 0x0, 0x0⟩,
  ⟨"NOTIFY_CTL", 0x288, 1, 0x0, 1, 0x0, false, 0xfff3fbf, 0x0, 0x0, 0x0, 0x0, 0x0, 0x0, 0x0, 0x0⟩]

def rowsFwdB : List RegRow := [
  ⟨"NOTIFY_HEAD", 0x28c, 1, 0x0, 1, 0x0, false, 0xffffffff, 0x0, 0x0, 0x0, 0x0, 0x0, 0x0, 0x0, 0x0⟩,
  ⟨"PORT_LEARN", 0x300, 128, 0x4, 1, 0x0, false, 0x0, 0x0, 0x0, 0x0, 0x0, 0x0, 0xfff0003, 0x0, 0x1⟩,
  ⟨"MEMB_SEL", 0x600, 1, 0x0, 1, 0x0, false, 0xffff, 0x0, 0x0, 0x0, 0x0, 0x0, 0x0, 0x0, 0x0⟩,
  ⟨"MEMB_DATA", 0x604, 1, 0x0, 1, 0x0, false, 0xffffff, 0x0, 0x0, 0x0, 0x0, 0x0, 0x0, 0x0, 0x0⟩,
  ⟨"EM_HIT_CNT", 0x700, 1, 0x0, 1, 0x0, false, 0x0, 0x0, 0xffffffff, 0x0, 0x0, 0x0, 0x0, 0x0, 0x0⟩,
  ⟨"L2_HIT_CNT", 0x704, 1, 0x0, 1, 0x0, false, 0x0, 0x0, 0xffffffff, 0x0, 0x0, 0x0, 0x0, 0x0, 0x0⟩,
  ⟨"L2_MISS_CNT", 0x708, 1, 0x0, 1, 0x0, false, 0x0, 0x0, 0xffffffff, 0x0, 0x0, 0x0, 0x0, 0x0, 0x0⟩,
  ⟨"DROP_CNT", 0x70c, 1, 0x0, 1, 0x0, false, 0x0, 0x0, 0xffffffff, 0x0, 0x0, 0x0, 0x0, 0x0, 0x0⟩,
  ⟨"LEARN_CNT", 0x710, 1, 0x0, 1, 0x0, false, 0x0, 0x0, 0xffffffff, 0x0, 0x0, 0x0, 0x0, 0x0, 0x0⟩,
  ⟨"MOVE_CNT", 0x714, 1, 0x0, 1, 0x0, false, 0x0, 0x0, 0xffffffff, 0x0, 0x0, 0x0, 0x0, 0x0, 0x0⟩,
  ⟨"FLAP_CNT", 0x718, 1, 0x0, 1, 0x0, false, 0x0, 0x0, 0xffffffff, 0x0, 0x0, 0x0, 0x0, 0x0, 0x0⟩,
  ⟨"FULL_CNT", 0x71c, 1, 0x0, 1, 0x0, false, 0x0, 0x0, 0xffffffff, 0x0, 0x0, 0x0, 0x0, 0x0, 0x0⟩,
  ⟨"LOCKED_CNT", 0x720, 1, 0x0, 1, 0x0, false, 0x0, 0x0, 0xffffffff, 0x0, 0x0, 0x0, 0x0, 0x0, 0x0⟩,
  ⟨"LEARN_DROP_CNT", 0x724, 1, 0x0, 1, 0x0, false, 0x0, 0x0, 0xffffffff, 0x0, 0x0, 0x0, 0x0, 0x0, 0x0⟩,
  ⟨"AGED_CNT", 0x728, 1, 0x0, 1, 0x0, false, 0x0, 0x0, 0xffffffff, 0x0, 0x0, 0x0, 0x0, 0x0, 0x0⟩,
  ⟨"HOLD_EVICT_CNT", 0x72c, 1, 0x0, 1, 0x0, false, 0x0, 0x0, 0xffffffff, 0x0, 0x0, 0x0, 0x0, 0x0, 0x0⟩,
  ⟨"NOTIFY_DROP_CNT", 0x730, 1, 0x0, 1, 0x0, false, 0x0, 0x0, 0xffffffff, 0x0, 0x0, 0x0, 0x0, 0x0, 0x0⟩,
  ⟨"RESIZE_LOST_CNT", 0x734, 1, 0x0, 1, 0x0, false, 0x0, 0x0, 0xffffffff, 0x0, 0x0, 0x0, 0x0, 0x0, 0x0⟩,
  ⟨"PGRP", 0x4000, 4096, 0x4, 1, 0x0, false, 0x0, 0x0, 0x0, 0x0, 0x0, 0x0, 0xfffff, 0x0, 0x0⟩]

def rowsFwd : List RegRow := rowsFwdA ++ rowsFwdB

def rowsLpm : List RegRow := [
  ⟨"CMD_PFX", 0x100, 4, 0x4, 1, 0x0, false, 0xffffffff, 0x0, 0x0, 0x0, 0x0, 0x0, 0x0, 0x0, 0x0⟩,
  ⟨"CMD_KEY", 0x110, 1, 0x0, 1, 0x0, false, 0xfff01ff, 0x0, 0x0, 0x0, 0x0, 0x0, 0x0, 0x0, 0x0⟩,
  ⟨"CMD_RESULT", 0x114, 1, 0x0, 1, 0x0, false, 0xffffff, 0x0, 0x0, 0x0, 0x0, 0x0, 0x0, 0x0, 0x0⟩,
  ⟨"CMD_NH", 0x118, 1, 0x0, 1, 0x0, false, 0xffff, 0x0, 0x0, 0x0, 0x0, 0x0, 0x0, 0x0, 0x0⟩,
  ⟨"CMD_CTL", 0x11c, 1, 0x0, 1, 0x0, false, 0x3, 0x0, 0x0, 0x0, 0x80000000, 0x0, 0x0, 0x0, 0x0⟩,
  ⟨"CMD_STATUS", 0x120, 1, 0x0, 1, 0x0, false, 0x0, 0x10003, 0x0, 0x0, 0x0, 0x0, 0x0, 0x0, 0x0⟩,
  ⟨"ENTRIES", 0x140, 1, 0x0, 1, 0x0, false, 0x0, 0x3fffff, 0x0, 0x0, 0x0, 0x0, 0x0, 0x0, 0x0⟩,
  ⟨"LENMAP_V4", 0x144, 1, 0x0, 1, 0x0, true, 0x0, 0x1ffffffff, 0x0, 0x0, 0x0, 0x0, 0x0, 0x0, 0x0⟩,
  ⟨"LENMAP_V6", 0x150, 5, 0x4, 1, 0x0, false, 0x0, 0xffffffff, 0x0, 0x0, 0x0, 0x0, 0x0, 0x0, 0x0⟩,
  ⟨"NH_SEL", 0x180, 1, 0x0, 1, 0x0, false, 0x7fff, 0x0, 0x0, 0x0, 0x0, 0x0, 0x0, 0x0, 0x0⟩,
  ⟨"NH_W0", 0x184, 1, 0x0, 1, 0x0, false, 0xffffffff, 0x0, 0x0, 0x0, 0x0, 0x0, 0x0, 0x0, 0x0⟩,
  ⟨"NH_W1", 0x188, 1, 0x0, 1, 0x0, false, 0xffffffff, 0x0, 0x0, 0x0, 0x0, 0x0, 0x0, 0x0, 0x0⟩,
  ⟨"NH_W2", 0x18c, 1, 0x0, 1, 0x0, false, 0xffffffff, 0x0, 0x0, 0x0, 0x0, 0x0, 0x0, 0x0, 0x0⟩,
  ⟨"NH_W3", 0x190, 1, 0x0, 1, 0x0, false, 0x80003fff, 0x0, 0x0, 0x0, 0x0, 0x0, 0x0, 0x0, 0x0⟩,
  ⟨"LOOKUP_CNT", 0x200, 1, 0x0, 1, 0x0, false, 0x0, 0x0, 0xffffffff, 0x0, 0x0, 0x0, 0x0, 0x0, 0x0⟩,
  ⟨"HIT_CNT", 0x204, 1, 0x0, 1, 0x0, false, 0x0, 0x0, 0xffffffff, 0x0, 0x0, 0x0, 0x0, 0x0, 0x0⟩,
  ⟨"PROBE_CNT", 0x208, 1, 0x0, 1, 0x0, false, 0x0, 0x0, 0xffffffff, 0x0, 0x0, 0x0, 0x0, 0x0, 0x0⟩,
  ⟨"PROBE_LIMIT_CNT", 0x20c, 1, 0x0, 1, 0x0, false, 0x0, 0x0, 0xffffffff, 0x0, 0x0, 0x0, 0x0, 0x0, 0x0⟩,
  ⟨"TTL_EXP_CNT", 0x210, 1, 0x0, 1, 0x0, false, 0x0, 0x0, 0xffffffff, 0x0, 0x0, 0x0, 0x0, 0x0, 0x0⟩]

def rowsTmA : List RegRow := [
  ⟨"OBJ_SEL", 0x40, 1, 0x0, 1, 0x0, false, 0x7fff, 0x0, 0x0, 0x0, 0x0, 0x0, 0x0, 0x0, 0x0⟩,
  ⟨"SCHED", 0x44, 1, 0x0, 1, 0x0, false, 0x0, 0x0, 0x0, 0x0, 0x0, 0x0, 0x3ff1f, 0x0, 0x100⟩,
  ⟨"SHAPE_RATE", 0x48, 1, 0x0, 1, 0x0, false, 0x0, 0x0, 0x0, 0x0, 0x0, 0x0, 0xffffffff, 0x0, 0x0⟩,
  ⟨"SHAPE_BURST", 0x4c, 1, 0x0, 1, 0x0, false, 0x0, 0x0, 0x0, 0x0, 0x0, 0x0, 0x80ffffff, 0x0, 0x2800⟩,
  ⟨"ADMIT", 0x50, 1, 0x0, 1, 0x0, false, 0x0, 0x0, 0x0, 0x0, 0x0, 0x0, 0xffff7fff, 0x0, 0x4000040⟩,
  ⟨"LATE_LIMIT", 0x54, 1, 0x0, 1, 0x0, false, 0x0, 0x0, 0x0, 0x0, 0x0, 0x0, 0xffffffff, 0x0, 0x0⟩,
  ⟨"PORT_CTL", 0x58, 1, 0x0, 1, 0x0, false, 0x0, 0x0, 0x0, 0x0, 0x0, 0x0, 0x3, 0x0, 0x0⟩,
  ⟨"LV_COUNT", 0x5c, 1, 0x0, 1, 0x0, false, 0x0, 0x0, 0x0, 0x0, 0x0, 0x0, 0x1ff, 0x0, 0x1⟩,
  ⟨"LV_CYCLE_NS", 0x60, 1, 0x0, 1, 0x0, false, 0x0, 0x0, 0x0, 0x0, 0x0, 0x0, 0xffffffff, 0x0, 0xf4240⟩,
  ⟨"LV_BASE_SEC", 0x64, 1, 0x0, 1, 0x0, true, 0x0, 0x0, 0x0, 0x0, 0x0, 0x0, 0xffffffffffff, 0x0, 0x0⟩,
  ⟨"LV_BASE_NS", 0x6c, 1, 0x0, 1, 0x0, false, 0x0, 0x0, 0x0, 0x0, 0x0, 0x0, 0x3fffffff, 0x0, 0x0⟩,
  ⟨"LV_FALLBACK", 0x70, 1, 0x0, 1, 0x0, false, 0x0, 0x0, 0x0, 0x0, 0x0, 0x0, 0xffff, 0x0, 0xffff⟩,
  ⟨"GUARD_NS", 0x74, 1, 0x0, 1, 0x0, false, 0x0, 0x0, 0x0, 0x0, 0x0, 0x0, 0xffff, 0x0, 0x0⟩,
  ⟨"PFC_THRESH", 0x78, 1, 0x0, 1, 0x0, false, 0x0, 0x0, 0x0, 0x0, 0x0, 0x0, 0xffffffff, 0x0, 0x1000200⟩,
  ⟨"PFC_CFG", 0x7c, 1, 0x0, 1, 0x0, false, 0x0, 0x0, 0x0, 0x0, 0x0, 0x0, 0xffffff, 0x0, 0x100⟩,
  ⟨"LV_STATUS", 0xc0, 1, 0x0, 1, 0x0, false, 0x0, 0xff07, 0x0, 0x0, 0x0, 0x0, 0x0, 0x0, 0x0⟩,
  ⟨"SHAPE_TICK", 0x100, 1, 0x0, 1, 0x0, false, 0xffff, 0x0, 0x0, 0x0, 0x0, 0x0, 0x0, 0x0, 0x3e8⟩,
  ⟨"POL_TICK", 0x104, 1, 0x0, 1, 0x0, false, 0xfffff, 0x0, 0x0, 0x0, 0x0, 0x0, 0x0, 0x0, 0x2710⟩,
  ⟨"TEL_CFG", 0x108, 1, 0x0, 1, 0x0, false, 0xffff01, 0x0, 0x0, 0x0, 0x0, 0x0, 0x0, 0x0, 0x6400⟩,
  ⟨"TM_DOM", 0x10c, 1, 0x0, 1, 0x0, false, 0x7, 0x0, 0x0, 0x0, 0x0, 0x0, 0x0, 0x0, 0x0⟩,
  ⟨"SPILL_BASE", 0x110, 1, 0x0, 1, 0x0, true, 0xfffffff00000, 0x0, 0x0, 0x0, 0x0, 0x0, 0x0, 0x0, 0x0⟩,
  ⟨"SPILL_SIZE", 0x118, 1, 0x0, 1, 0x0, false, 0xffff, 0x0, 0x0, 0x0, 0x0, 0x0, 0x0, 0x0, 0x0⟩,
  ⟨"BUF_RESV", 0x11c, 1, 0x0, 1, 0x0, false, 0xfffff, 0x0, 0x0, 0x0, 0x0, 0x0, 0x0, 0x0, 0x2000⟩,
  ⟨"HOSTBUF", 0x120, 5, 0x4, 1, 0x0, false, 0xfffff, 0x0, 0x0, 0x0, 0x0, 0x0, 0x0, 0x0, 0x2000⟩]

def rowsTmB : List RegRow := [
  ⟨"BUF_FREE", 0x134, 1, 0x0, 1, 0x0, false, 0x0, 0xfffff, 0x0, 0x0, 0x0, 0x0, 0x0, 0x0, 0xc0000⟩,
  ⟨"SPILL_USE", 0x138, 1, 0x0, 1, 0x0, false, 0x0, 0xffff, 0x0, 0x0, 0x0, 0x0, 0x0, 0x0, 0x0⟩,
  ⟨"HIST_SEL", 0x140, 1, 0x0, 1, 0x0, false, 0x11fff, 0x0, 0x0, 0x0, 0x0, 0x0, 0x0, 0x0, 0x0⟩,
  ⟨"Q_DEPTH", 0x144, 1, 0x0, 1, 0x0, false, 0x0, 0xffffffff, 0x0, 0x0, 0x0, 0x0, 0x0, 0x0, 0x0⟩,
  ⟨"Q_HWM", 0x148, 1, 0x0, 1, 0x0, false, 0x0, 0x0, 0x7fffffff, 0x0, 0x0, 0x0, 0x0, 0x0, 0x0⟩,
  ⟨"HIST_BIN", 0x180, 16, 0x4, 1, 0x0, false, 0x0, 0x0, 0xffffffff, 0x0, 0x0, 0x0, 0x0, 0x0, 0x0⟩,
  ⟨"POL_SEL", 0x200, 1, 0x0, 1, 0x0, false, 0x3ffff, 0x0, 0x0, 0x0, 0x0, 0x0, 0x0, 0x0, 0x0⟩,
  ⟨"POL_W0", 0x204, 1, 0x0, 1, 0x0, false, 0xff0f0f, 0x0, 0x0, 0x0, 0x0, 0x0, 0x0, 0x0, 0x0⟩,
  ⟨"POL_W1", 0x208, 1, 0x0, 1, 0x0, false, 0xffffffff, 0x0, 0x0, 0x0, 0x0, 0x0, 0x0, 0x0, 0x0⟩,
  ⟨"POL_W2", 0x20c, 1, 0x0, 1, 0x0, false, 0xffffff, 0x0, 0x0, 0x0, 0x0, 0x0, 0x0, 0x0, 0x0⟩,
  ⟨"POL_W3", 0x210, 1, 0x0, 1, 0x0, false, 0xffffffff, 0x0, 0x0, 0x0, 0x0, 0x0, 0x0, 0x0, 0x0⟩,
  ⟨"POL_W4", 0x214, 1, 0x0, 1, 0x0, false, 0xffffff, 0x0, 0x0, 0x0, 0x0, 0x0, 0x0, 0x0, 0x0⟩,
  ⟨"POL_GREEN", 0x218, 1, 0x0, 1, 0x0, false, 0x0, 0x0, 0xffffffff, 0x0, 0x0, 0x0, 0x0, 0x0, 0x0⟩,
  ⟨"POL_YELLOW", 0x21c, 1, 0x0, 1, 0x0, false, 0x0, 0x0, 0xffffffff, 0x0, 0x0, 0x0, 0x0, 0x0, 0x0⟩,
  ⟨"POL_RED", 0x220, 1, 0x0, 1, 0x0, false, 0x0, 0x0, 0xffffffff, 0x0, 0x0, 0x0, 0x0, 0x0, 0x0⟩,
  ⟨"PCOLOUR", 0x230, 4, 0x4, 1, 0x0, false, 0xffffffff, 0x0, 0x0, 0x0, 0x0, 0x0, 0x0, 0x0, 0x0⟩,
  ⟨"LV_SEL", 0x280, 1, 0x0, 1, 0x0, false, 0x1ff01ff, 0x0, 0x0, 0x0, 0x0, 0x0, 0x0, 0x0, 0x0⟩,
  ⟨"LV_W0", 0x284, 1, 0x0, 1, 0x0, false, 0x1ffff, 0x0, 0x0, 0x0, 0x0, 0x0, 0x0, 0x0, 0x0⟩,
  ⟨"LV_W1", 0x288, 1, 0x0, 1, 0x0, false, 0xffffffff, 0x0, 0x0, 0x0, 0x0, 0x0, 0x0, 0x0, 0x0⟩,
  ⟨"REPL_SEL", 0x300, 1, 0x0, 1, 0x0, false, 0xfff, 0x0, 0x0, 0x0, 0x0, 0x0, 0x0, 0x0, 0x0⟩,
  ⟨"REPL_CTL", 0x304, 1, 0x0, 1, 0x0, false, 0x1, 0x0, 0x0, 0x0, 0x0, 0x0, 0x0, 0x0, 0x0⟩,
  ⟨"REPL_MASK", 0x380, 16, 0x4, 1, 0x0, false, 0xffffffff, 0x0, 0x0, 0x0, 0x0, 0x0, 0x0, 0x0, 0x0⟩,
  ⟨"TM_DROP_CNT", 0x400, 1, 0x0, 1, 0x0, false, 0x0, 0x0, 0xffffffff, 0x0, 0x0, 0x0, 0x0, 0x0, 0x0⟩,
  ⟨"LATE_DROP_CNT", 0x404, 1, 0x0, 1, 0x0, false, 0x0, 0x0, 0xffffffff, 0x0, 0x0, 0x0, 0x0, 0x0, 0x0⟩]

def rowsTmC : List RegRow := [
  ⟨"GATE_OVERSIZE_CNT", 0x408, 1, 0x0, 1, 0x0, false, 0x0, 0x0, 0xffffffff, 0x0, 0x0, 0x0, 0x0, 0x0, 0x0⟩,
  ⟨"HEADROOM_DROP_CNT", 0x40c, 1, 0x0, 1, 0x0, false, 0x0, 0x0, 0xffffffff, 0x0, 0x0, 0x0, 0x0, 0x0, 0x0⟩,
  ⟨"PORT_DOWN_CNT", 0x410, 1, 0x0, 1, 0x0, false, 0x0, 0x0, 0xffffffff, 0x0, 0x0, 0x0, 0x0, 0x0, 0x0⟩]

def rowsTm : List RegRow := rowsTmA ++ rowsTmB ++ rowsTmC

def rowsFlowA : List RegRow := [
  ⟨"ENG_CTL", 0x100, 1, 0x0, 1, 0x0, false, 0x1, 0x0, 0x0, 0x0, 0x4, 0x0, 0x0, 0x2, 0x0⟩,
  ⟨"ENG_STATUS", 0x104, 1, 0x0, 1, 0x0, false, 0x0, 0x1f1f000f, 0x0, 0x0, 0x0, 0x0, 0x0, 0x0, 0x0⟩,
  ⟨"PROG_BASE", 0x108, 1, 0x0, 1, 0x0, true, 0x0, 0x0, 0x0, 0x0, 0x0, 0x0, 0xfffffffff000, 0x0, 0x0⟩,
  ⟨"PROG_SIZE", 0x110, 1, 0x0, 1, 0x0, false, 0x0, 0x0, 0x0, 0x0, 0x0, 0x0, 0xfffff, 0x0, 0x0⟩,
  ⟨"ICACHE_INV", 0x114, 1, 0x0, 1, 0x0, false, 0x0, 0x0, 0x0, 0x0, 0x1, 0x0, 0x0, 0x0, 0x0⟩,
  ⟨"WQ_STATUS", 0x118, 1, 0x0, 1, 0x0, false, 0x0, 0x1ff, 0x0, 0x0, 0x0, 0x0, 0x0, 0x0, 0x0⟩,
  ⟨"WQ_HWM", 0x11c, 1, 0x0, 1, 0x0, false, 0x0, 0x0, 0x1ff, 0x0, 0x0, 0x0, 0x0, 0x0, 0x0⟩,
  ⟨"ENTRY", 0x140, 16, 0x4, 1, 0x0, false, 0x0, 0x0, 0x0, 0x0, 0x0, 0x0, 0xfffffff8, 0x0, 0x0⟩,
  ⟨"THR_CFG", 0x200, 16, 0x20, 1, 0x0, false, 0x0, 0x0, 0x0, 0x0, 0x0, 0x0, 0x7fff3, 0x0, 0x0⟩,
  ⟨"THR_START", 0x204, 16, 0x20, 1, 0x0, false, 0x0, 0x0, 0x0, 0x0, 0x0, 0x0, 0xfffffff8, 0x0, 0x0⟩,
  ⟨"THR_CTL", 0x208, 16, 0x20, 1, 0x0, false, 0x0, 0x0, 0x0, 0x0, 0xf, 0x0, 0x0, 0x0, 0x0⟩,
  ⟨"THR_STATUS", 0x20c, 16, 0x20, 1, 0x0, false, 0x0, 0x3ff, 0x0, 0x0, 0x0, 0x0, 0x0, 0x0, 0x0⟩,
  ⟨"THR_FPC", 0x210, 16, 0x20, 1, 0x0, false, 0x0, 0xffffffff, 0x0, 0x0, 0x0, 0x0, 0x0, 0x0, 0x0⟩,
  ⟨"THR_UPC", 0x214, 16, 0x20, 1, 0x0, false, 0x0, 0x3fff, 0x0, 0x0, 0x0, 0x0, 0x0, 0x0, 0x0⟩,
  ⟨"REG_SEL", 0x400, 1, 0x0, 1, 0x0, false, 0x1ff, 0x0, 0x0, 0x0, 0x0, 0x0, 0x0, 0x0, 0x0⟩,
  ⟨"REG_DATA", 0x408, 1, 0x0, 1, 0x0, true, 0xffffffffffffffff, 0x0, 0x0, 0x0, 0x0, 0x0, 0x0, 0x0, 0x0⟩,
  ⟨"CS_CTL", 0x440, 1, 0x0, 1, 0x0, false, 0xffff0000, 0x0, 0x0, 0x0, 0x7, 0x0, 0x0, 0x0, 0x640000⟩,
  ⟨"CS_STATUS", 0x444, 1, 0x0, 1, 0x0, false, 0x0, 0xffff0003, 0x0, 0x0, 0x0, 0x0, 0x0, 0x0, 0x0⟩,
  ⟨"CS_CRC", 0x448, 1, 0x0, 1, 0x0, false, 0xffffffff, 0x0, 0x0, 0x0, 0x0, 0x0, 0x0, 0x0, 0x0⟩,
  ⟨"CS_INFO", 0x44c, 1, 0x0, 1, 0x0, false, 0x0, 0xffffffff, 0x0, 0x0, 0x0, 0x0, 0x0, 0x0, 0x0⟩,
  ⟨"WORK_DROP_CNT", 0x480, 1, 0x0, 1, 0x0, false, 0x0, 0x0, 0xffffffff, 0x0, 0x0, 0x0, 0x0, 0x0, 0x0⟩,
  ⟨"FRAME_LEAK_CNT", 0x484, 1, 0x0, 1, 0x0, false, 0x0, 0x0, 0xffffffff, 0x0, 0x0, 0x0, 0x0, 0x0, 0x0⟩,
  ⟨"REINJ_DROP_CNT", 0x488, 1, 0x0, 1, 0x0, false, 0x0, 0x0, 0xffffffff, 0x0, 0x0, 0x0, 0x0, 0x0, 0x0⟩,
  ⟨"TRAP_CNT", 0x48c, 1, 0x0, 1, 0x0, false, 0x0, 0x0, 0xffffffff, 0x0, 0x0, 0x0, 0x0, 0x0, 0x0⟩]

def rowsFlowB : List RegRow := [
  ⟨"ABORT_CNT", 0x490, 1, 0x0, 1, 0x0, false, 0x0, 0x0, 0xffffffff, 0x0, 0x0, 0x0, 0x0, 0x0, 0x0⟩,
  ⟨"MISPREDICT_CNT", 0x494, 1, 0x0, 1, 0x0, false, 0x0, 0x0, 0xffffffff, 0x0, 0x0, 0x0, 0x0, 0x0, 0x0⟩,
  ⟨"CPL_DUP_CNT", 0x498, 1, 0x0, 1, 0x0, false, 0x0, 0x0, 0xffffffff, 0x0, 0x0, 0x0, 0x0, 0x0, 0x0⟩,
  ⟨"FC_BASE", 0x500, 1, 0x0, 1, 0x0, true, 0xfffffff00000, 0x0, 0x0, 0x0, 0x0, 0x0, 0x0, 0x0, 0x0⟩,
  ⟨"FC_CFG", 0x508, 1, 0x0, 1, 0x0, false, 0x8007011f, 0x0, 0x0, 0x0, 0x0, 0x0, 0x0, 0x0, 0x0⟩,
  ⟨"FC_SWEEP_MS", 0x50c, 1, 0x0, 1, 0x0, false, 0xffff, 0x0, 0x0, 0x0, 0x0, 0x0, 0x0, 0x0, 0x3e8⟩,
  ⟨"FC_ENTRIES", 0x510, 1, 0x0, 1, 0x0, false, 0x0, 0xfffffff, 0x0, 0x0, 0x0, 0x0, 0x0, 0x0, 0x0⟩,
  ⟨"FC_FULL_CNT", 0x514, 1, 0x0, 1, 0x0, false, 0x0, 0x0, 0xffffffff, 0x0, 0x0, 0x0, 0x0, 0x0, 0x0⟩,
  ⟨"FC_AGED_CNT", 0x518, 1, 0x0, 1, 0x0, false, 0x0, 0x0, 0xffffffff, 0x0, 0x0, 0x0, 0x0, 0x0, 0x0⟩]

def rowsFlow : List RegRow := rowsFlowA ++ rowsFlowB

def rowsChan : List RegRow := [
  ⟨"CH_CTL", 0x100, 32, 0x20, 1, 0x0, false, 0x0, 0x0, 0x0, 0x0, 0x0, 0x0, 0x3, 0x0, 0x0⟩,
  ⟨"CH_STATUS", 0x104, 32, 0x20, 1, 0x0, false, 0x0, 0x7ff003f, 0x0, 0xc0, 0x0, 0x0, 0x0, 0x0, 0x0⟩,
  ⟨"PUT", 0x108, 32, 0x20, 1, 0x0, true, 0x0, 0x0, 0x0, 0x0, 0x0, 0xffffffffffffffff, 0x0, 0x0, 0x0⟩,
  ⟨"GET", 0x110, 32, 0x20, 1, 0x0, true, 0x0, 0xffffffffffffffff, 0x0, 0x0, 0x0, 0x0, 0x0, 0x0, 0x0⟩,
  ⟨"EVT_DROP_CNT", 0x500, 1, 0x0, 1, 0x0, false, 0x0, 0x0, 0xffffffff, 0x0, 0x0, 0x0, 0x0, 0x0, 0x0⟩]

def rowsCore : List RegRow := [
  ⟨"CORE_CTL", 0x100, 1, 0x0, 1, 0x0, false, 0x0, 0x0, 0x0, 0x0, 0x7, 0x0, 0x0, 0x0, 0x0⟩,
  ⟨"CORE_STATUS", 0x104, 1, 0x0, 1, 0x0, false, 0x0, 0xffff0003, 0x0, 0x0, 0x0, 0x0, 0x0, 0x0, 0x0⟩,
  ⟨"BOOT_ADDR", 0x108, 1, 0x0, 1, 0x0, true, 0xffffffffffffffff, 0x0, 0x0, 0x0, 0x0, 0x0, 0x0, 0x0, 0x0⟩,
  ⟨"FATAL_CAUSE", 0x110, 1, 0x0, 1, 0x0, false, 0x0, 0xffffffff, 0x0, 0x0, 0x0, 0x0, 0x0, 0x0, 0x0⟩,
  ⟨"FATAL_EPC", 0x114, 1, 0x0, 1, 0x0, true, 0x0, 0xffffffffffffffff, 0x0, 0x0, 0x0, 0x0, 0x0, 0x0, 0x0⟩,
  ⟨"CTRLQ_CTL", 0x120, 1, 0x0, 1, 0x0, false, 0xfff003f, 0x0, 0x0, 0x0, 0x0, 0x0, 0x0, 0x0, 0x0⟩,
  ⟨"CTRLQ_WBASE", 0x124, 1, 0x0, 1, 0x0, true, 0xfffffffffffff000, 0x0, 0x0, 0x0, 0x0, 0x0, 0x0, 0x0, 0x0⟩,
  ⟨"CTRLQ_CBASE", 0x12c, 1, 0x0, 1, 0x0, true, 0xfffffffffffff000, 0x0, 0x0, 0x0, 0x0, 0x0, 0x0, 0x0, 0x0⟩,
  ⟨"CTRLQ_DB", 0x134, 1, 0x0, 1, 0x0, false, 0x0, 0x0, 0x0, 0x0, 0x0, 0xffffffff, 0x0, 0x0, 0x0⟩,
  ⟨"CTRLQ_HEAD", 0x138, 1, 0x0, 1, 0x0, false, 0xffffffff, 0x0, 0x0, 0x0, 0x0, 0x0, 0x0, 0x0, 0x0⟩,
  ⟨"CTRLQ_DROP_CNT", 0x13c, 1, 0x0, 1, 0x0, false, 0x0, 0x0, 0xffffffff, 0x0, 0x0, 0x0, 0x0, 0x0, 0x0⟩]

def rowsRdmaA : List RegRow := [
  ⟨"QP_SEL", 0x40, 1, 0x0, 1, 0x0, false, 0x3ffff, 0x0, 0x0, 0x0, 0x0, 0x0, 0x0, 0x0, 0x0⟩,
  ⟨"QP_CTL", 0x44, 1, 0x0, 1, 0x0, false, 0x0, 0x0, 0x0, 0x0, 0x0, 0x0, 0x7ff7fff, 0x0, 0x0⟩,
  ⟨"QP_DEST", 0x48, 1, 0x0, 1, 0x0, false, 0x0, 0x0, 0x0, 0x0, 0x0, 0x0, 0xffffff, 0x0, 0x0⟩,
  ⟨"QP_PORT", 0x4c, 1, 0x0, 1, 0x0, false, 0x0, 0x0, 0x0, 0x0, 0x0, 0x0, 0xffff7fff, 0x0, 0x0⟩,
  ⟨"QP_DIP", 0x50, 4, 0x4, 1, 0x0, false, 0x0, 0x0, 0x0, 0x0, 0x0, 0x0, 0xffffffff, 0x0, 0x0⟩,
  ⟨"QP_SIP", 0x60, 4, 0x4, 1, 0x0, false, 0x0, 0x0, 0x0, 0x0, 0x0, 0x0, 0xffffffff, 0x0, 0x0⟩,
  ⟨"QP_DMAC", 0x70, 1, 0x0, 1, 0x0, true, 0x0, 0x0, 0x0, 0x0, 0x0, 0x0, 0xffffffffffff, 0x0, 0x0⟩,
  ⟨"QP_SPSN", 0x78, 1, 0x0, 1, 0x0, false, 0x0, 0x0, 0x0, 0x0, 0x0, 0x0, 0xffffff, 0x0, 0x0⟩,
  ⟨"QP_RPSN", 0x7c, 1, 0x0, 1, 0x0, false, 0x0, 0x0, 0x0, 0x0, 0x0, 0x0, 0xffffff, 0x0, 0x0⟩,
  ⟨"QP_TIMERS", 0x80, 1, 0x0, 1, 0x0, false, 0x0, 0x0, 0x0, 0x0, 0x0, 0x0, 0xffffff, 0x0, 0x8867ee⟩,
  ⟨"QP_RINGS", 0x84, 1, 0x0, 1, 0x0, false, 0x0, 0x0, 0x0, 0x0, 0x0, 0x0, 0xffffffff, 0x0, 0x0⟩,
  ⟨"QP_ACCESS", 0x88, 1, 0x0, 1, 0x0, false, 0x0, 0x0, 0x0, 0x0, 0x0, 0x0, 0xffff000f, 0x0, 0x0⟩,
  ⟨"QP_CC", 0x8c, 1, 0x0, 1, 0x0, false, 0x0, 0x0, 0x0, 0x0, 0x0, 0x0, 0xf, 0x0, 0x0⟩,
  ⟨"QP_STATUS", 0x90, 1, 0x0, 1, 0x0, false, 0x0, 0xffff001f, 0x0, 0x0, 0x0, 0x0, 0x0, 0x0, 0x0⟩,
  ⟨"QP_RATE", 0x94, 1, 0x0, 1, 0x0, false, 0x0, 0xffffffff, 0x0, 0x0, 0x0, 0x0, 0x0, 0x0, 0x0⟩,
  ⟨"QP_RTT", 0x98, 1, 0x0, 1, 0x0, false, 0x0, 0xffffffff, 0x0, 0x0, 0x0, 0x0, 0x0, 0x0, 0x0⟩,
  ⟨"QP_INFLIGHT", 0x9c, 1, 0x0, 1, 0x0, false, 0x0, 0xffffff, 0x0, 0x0, 0x0, 0x0, 0x0, 0x0, 0x0⟩,
  ⟨"MR_BASE", 0x100, 1, 0x0, 1, 0x0, true, 0xfffffffffffff000, 0x0, 0x0, 0x0, 0x0, 0x0, 0x0, 0x0, 0x0⟩,
  ⟨"MR_CFG", 0x108, 1, 0x0, 1, 0x0, false, 0x1f, 0x0, 0x0, 0x0, 0x0, 0x0, 0x0, 0x0, 0xa⟩,
  ⟨"MR_SEL", 0x10c, 1, 0x0, 1, 0x0, false, 0xfffff, 0x0, 0x0, 0x0, 0x0, 0x0, 0x0, 0x0, 0x0⟩,
  ⟨"MR_W", 0x110, 4, 0x4, 1, 0x0, false, 0xffffffff, 0x0, 0x0, 0x0, 0x0, 0x0, 0x0, 0x0, 0x0⟩,
  ⟨"MR_W", 0x120, 1, 0x4, 1, 0x0, false, 0xffff07ff, 0x0, 0x0, 0x0, 0x0, 0x0, 0x0, 0x0, 0x0⟩,
  ⟨"MR_W", 0x124, 1, 0x4, 1, 0x0, false, 0x1fff8f, 0x0, 0x0, 0x0, 0x0, 0x0, 0x0, 0x0, 0x0⟩,
  ⟨"MR_W", 0x128, 2, 0x4, 1, 0x0, false, 0x0, 0x0, 0x0, 0x0, 0x0, 0x0, 0x0, 0x0, 0x0⟩,
  ⟨"RTX_BASE", 0x140, 1, 0x0, 1, 0x0, true, 0xfffffff00000, 0x0, 0x0, 0x0, 0x0, 0x0, 0x0, 0x0, 0x0⟩,
  ⟨"RTX_SIZE", 0x148, 1, 0x0, 1, 0x0, false, 0xffff, 0x0, 0x0, 0x0, 0x0, 0x0, 0x0, 0x0, 0x0⟩,
  ⟨"RTX_USE", 0x14c, 1, 0x0, 1, 0x0, false, 0x0, 0xffff, 0x0, 0x0, 0x0, 0x0, 0x0, 0x0, 0x0⟩]

def rowsRdmaB : List RegRow := [
  ⟨"RX_CTL", 0x150, 1, 0x0, 1, 0x0, false, 0xffff0001, 0x0, 0x0, 0x0, 0x0, 0x0, 0x0, 0x0, 0x12b70000⟩,
  ⟨"ACK_EVERY", 0x154, 1, 0x0, 1, 0x0, false, 0x3f, 0x0, 0x0, 0x0, 0x0, 0x0, 0x0, 0x0, 0x10⟩,
  ⟨"LIP_SEL", 0x160, 1, 0x0, 1, 0x0, false, 0xf, 0x0, 0x0, 0x0, 0x0, 0x0, 0x0, 0x0, 0x0⟩,
  ⟨"LIP_W", 0x164, 4, 0x4, 1, 0x0, false, 0xffffffff, 0x0, 0x0, 0x0, 0x0, 0x0, 0x0, 0x0, 0x0⟩,
  ⟨"LIP_CTL", 0x174, 1, 0x0, 1, 0x0, false, 0x3, 0x0, 0x0, 0x0, 0x0, 0x0, 0x0, 0x0, 0x0⟩,
  ⟨"CC_TLOW", 0x200, 8, 0x20, 1, 0x0, false, 0xffffffff, 0x0, 0x0, 0x0, 0x0, 0x0, 0x0, 0x0, 0x1388⟩,
  ⟨"CC_THIGH", 0x204, 8, 0x20, 1, 0x0, false, 0xffffffff, 0x0, 0x0, 0x0, 0x0, 0x0, 0x0, 0x0, 0x4e20⟩,
  ⟨"CC_STEP", 0x208, 8, 0x20, 1, 0x0, false, 0xffffff, 0x0, 0x0, 0x0, 0x0, 0x0, 0x0, 0x0, 0x400064⟩,
  ⟨"CC_MIN", 0x20c, 8, 0x20, 1, 0x0, false, 0xffffffff, 0x0, 0x0, 0x0, 0x0, 0x0, 0x0, 0x0, 0x64⟩,
  ⟨"CC_INIT", 0x210, 8, 0x20, 1, 0x0, false, 0xffffffff, 0x0, 0x0, 0x0, 0x0, 0x0, 0x0, 0x0, 0x61a8⟩,
  ⟨"TRIG_SEL", 0x300, 1, 0x0, 1, 0x0, false, 0xffff, 0x0, 0x0, 0x0, 0x0, 0x0, 0x0, 0x0, 0x0⟩,
  ⟨"TRIG_VAL", 0x304, 1, 0x0, 1, 0x0, false, 0xffffffff, 0x0, 0x0, 0x0, 0x0, 0x0, 0x0, 0x0, 0x0⟩,
  ⟨"TX_PKT_CNT", 0x400, 1, 0x0, 1, 0x0, false, 0x0, 0x0, 0xffffffff, 0x0, 0x0, 0x0, 0x0, 0x0, 0x0⟩,
  ⟨"RX_PKT_CNT", 0x404, 1, 0x0, 1, 0x0, false, 0x0, 0x0, 0xffffffff, 0x0, 0x0, 0x0, 0x0, 0x0, 0x0⟩,
  ⟨"RETX_PKT_CNT", 0x408, 1, 0x0, 1, 0x0, false, 0x0, 0x0, 0xffffffff, 0x0, 0x0, 0x0, 0x0, 0x0, 0x0⟩,
  ⟨"SEQ_NAK_TX_CNT", 0x40c, 1, 0x0, 1, 0x0, false, 0x0, 0x0, 0xffffffff, 0x0, 0x0, 0x0, 0x0, 0x0, 0x0⟩,
  ⟨"SEQ_NAK_RX_CNT", 0x410, 1, 0x0, 1, 0x0, false, 0x0, 0x0, 0xffffffff, 0x0, 0x0, 0x0, 0x0, 0x0, 0x0⟩,
  ⟨"TIMEOUT_CNT", 0x414, 1, 0x0, 1, 0x0, false, 0x0, 0x0, 0xffffffff, 0x0, 0x0, 0x0, 0x0, 0x0, 0x0⟩,
  ⟨"RNR_NAK_TX_CNT", 0x418, 1, 0x0, 1, 0x0, false, 0x0, 0x0, 0xffffffff, 0x0, 0x0, 0x0, 0x0, 0x0, 0x0⟩,
  ⟨"RNR_NAK_RX_CNT", 0x41c, 1, 0x0, 1, 0x0, false, 0x0, 0x0, 0xffffffff, 0x0, 0x0, 0x0, 0x0, 0x0, 0x0⟩,
  ⟨"DUP_CNT", 0x420, 1, 0x0, 1, 0x0, false, 0x0, 0x0, 0xffffffff, 0x0, 0x0, 0x0, 0x0, 0x0, 0x0⟩,
  ⟨"REPLAY_CNT", 0x424, 1, 0x0, 1, 0x0, false, 0x0, 0x0, 0xffffffff, 0x0, 0x0, 0x0, 0x0, 0x0, 0x0⟩,
  ⟨"CACHE_NAK_CNT", 0x428, 1, 0x0, 1, 0x0, false, 0x0, 0x0, 0xffffffff, 0x0, 0x0, 0x0, 0x0, 0x0, 0x0⟩,
  ⟨"ACCESS_NAK_CNT", 0x42c, 1, 0x0, 1, 0x0, false, 0x0, 0x0, 0xffffffff, 0x0, 0x0, 0x0, 0x0, 0x0, 0x0⟩]

def rowsRdmaC : List RegRow := [
  ⟨"ICRC_ERR_CNT", 0x430, 1, 0x0, 1, 0x0, false, 0x0, 0x0, 0xffffffff, 0x0, 0x0, 0x0, 0x0, 0x0, 0x0⟩,
  ⟨"BAD_HDR_CNT", 0x434, 1, 0x0, 1, 0x0, false, 0x0, 0x0, 0xffffffff, 0x0, 0x0, 0x0, 0x0, 0x0, 0x0⟩,
  ⟨"CNP_RX_CNT", 0x438, 1, 0x0, 1, 0x0, false, 0x0, 0x0, 0xffffffff, 0x0, 0x0, 0x0, 0x0, 0x0, 0x0⟩,
  ⟨"QP_ERR_CNT", 0x43c, 1, 0x0, 1, 0x0, false, 0x0, 0x0, 0xffffffff, 0x0, 0x0, 0x0, 0x0, 0x0, 0x0⟩]

def rowsRdma : List RegRow := rowsRdmaA ++ rowsRdmaB ++ rowsRdmaC

def rowsBlkfA : List RegRow := [
  ⟨"VOL_SEL", 0x40, 1, 0x0, 1, 0x0, false, 0x3fff, 0x0, 0x0, 0x0, 0x0, 0x0, 0x0, 0x0, 0x0⟩,
  ⟨"VOL_CTL", 0x44, 1, 0x0, 1, 0x0, false, 0x0, 0x0, 0x0, 0x0, 0x0, 0x0, 0xf3f, 0x0, 0x0⟩,
  ⟨"VOL_OWNER", 0x48, 1, 0x0, 1, 0x0, false, 0x0, 0x0, 0x0, 0x0, 0x0, 0x0, 0x7ff, 0x0, 0x0⟩,
  ⟨"VOL_FIRST_EXT", 0x4c, 1, 0x0, 1, 0x0, true, 0x0, 0x0, 0x0, 0x0, 0x0, 0x0, 0x3ffffffff, 0x0, 0x0⟩,
  ⟨"VOL_NUM_EXT", 0x54, 1, 0x0, 1, 0x0, true, 0x0, 0x0, 0x0, 0x0, 0x0, 0x0, 0x3ffffffff, 0x0, 0x0⟩,
  ⟨"VOL_FLUSH_US", 0x5c, 1, 0x0, 1, 0x0, false, 0x0, 0x0, 0x0, 0x0, 0x0, 0x0, 0xffffff, 0x0, 0x7d0⟩,
  ⟨"VOL_KEY", 0x60, 1, 0x0, 1, 0x0, false, 0x0, 0x0, 0x0, 0x0, 0x0, 0x0, 0xffff, 0x0, 0x0⟩,
  ⟨"VOL_STATUS", 0x64, 1, 0x0, 1, 0x0, false, 0x0, 0xffff000f, 0x0, 0x0, 0x0, 0x0, 0x0, 0x0, 0x0⟩,
  ⟨"DEFER_TAG", 0x68, 1, 0x0, 1, 0x0, false, 0x0, 0xffffffff, 0x0, 0x0, 0x0, 0x0, 0x0, 0x0, 0x0⟩,
  ⟨"DEFER_INFO", 0x6c, 1, 0x0, 1, 0x0, false, 0x0, 0xffff, 0x0, 0x0, 0x0, 0x0, 0x0, 0x0, 0x0⟩,
  ⟨"DEFER_LBA", 0x70, 1, 0x0, 1, 0x0, true, 0x0, 0xffffffffffffffff, 0x0, 0x0, 0x0, 0x0, 0x0, 0x0, 0x0⟩,
  ⟨"STAGE_BASE", 0x100, 1, 0x0, 1, 0x0, true, 0xfffffff00000, 0x0, 0x0, 0x0, 0x0, 0x0, 0x0, 0x0, 0x0⟩,
  ⟨"STAGE_CFG", 0x108, 1, 0x0, 1, 0x0, false, 0xff3fff, 0x0, 0x0, 0x0, 0x0, 0x0, 0x0, 0x0, 0x4b0800⟩,
  ⟨"STAGE_USED", 0x10c, 1, 0x0, 1, 0x0, false, 0x0, 0x3fffff, 0x0, 0x0, 0x0, 0x0, 0x0, 0x0, 0x0⟩,
  ⟨"STAGE_HWM", 0x110, 1, 0x0, 1, 0x0, false, 0x0, 0x0, 0x3fffff, 0x0, 0x0, 0x0, 0x0, 0x0, 0x0⟩,
  ⟨"TW_SEL", 0x140, 1, 0x0, 1, 0x0, false, 0x7ff, 0x0, 0x0, 0x0, 0x0, 0x0, 0x0, 0x0, 0x0⟩,
  ⟨"TW_STATE", 0x144, 1, 0x0, 1, 0x0, false, 0x0, 0xf1, 0x0, 0x0, 0x0, 0x0, 0x0, 0x0, 0x0⟩,
  ⟨"TW_TAG", 0x148, 1, 0x0, 1, 0x0, false, 0x0, 0xffffffff, 0x0, 0x0, 0x0, 0x0, 0x0, 0x0, 0x0⟩,
  ⟨"TW_CTL", 0x14c, 1, 0x0, 1, 0x0, false, 0x0, 0x0, 0x0, 0x0, 0x1, 0x0, 0x0, 0x0, 0x0⟩,
  ⟨"READ_CNT", 0x180, 1, 0x0, 1, 0x0, false, 0x0, 0x0, 0xffffffff, 0x0, 0x0, 0x0, 0x0, 0x0, 0x0⟩,
  ⟨"WRITE_CNT", 0x184, 1, 0x0, 1, 0x0, false, 0x0, 0x0, 0xffffffff, 0x0, 0x0, 0x0, 0x0, 0x0, 0x0⟩,
  ⟨"HAZARD_WAIT_CNT", 0x188, 1, 0x0, 1, 0x0, false, 0x0, 0x0, 0xffffffff, 0x0, 0x0, 0x0, 0x0, 0x0, 0x0⟩,
  ⟨"DIRTY_WAIT_CNT", 0x18c, 1, 0x0, 1, 0x0, false, 0x0, 0x0, 0xffffffff, 0x0, 0x0, 0x0, 0x0, 0x0, 0x0⟩,
  ⟨"ATOMIC_REJ_CNT", 0x190, 1, 0x0, 1, 0x0, false, 0x0, 0x0, 0xffffffff, 0x0, 0x0, 0x0, 0x0, 0x0, 0x0⟩]

def rowsBlkfB : List RegRow := [
  ⟨"SOLO_ACK_CNT", 0x194, 1, 0x0, 1, 0x0, false, 0x0, 0x0, 0xffffffff, 0x0, 0x0, 0x0, 0x0, 0x0, 0x0⟩,
  ⟨"DEFER_CNT", 0x198, 1, 0x0, 1, 0x0, false, 0x0, 0x0, 0xffffffff, 0x0, 0x0, 0x0, 0x0, 0x0, 0x0⟩,
  ⟨"TASK_BUSY_CNT", 0x19c, 1, 0x0, 1, 0x0, false, 0x0, 0x0, 0xffffffff, 0x0, 0x0, 0x0, 0x0, 0x0, 0x0⟩,
  ⟨"SPACE_REJ_CNT", 0x1a0, 1, 0x0, 1, 0x0, false, 0x0, 0x0, 0xffffffff, 0x0, 0x0, 0x0, 0x0, 0x0, 0x0⟩]

def rowsBlkf : List RegRow := rowsBlkfA ++ rowsBlkfB

def rowsBlkb : List RegRow := [
  ⟨"DOM", 0x40, 1, 0x0, 1, 0x0, false, 0x7, 0x0, 0x0, 0x0, 0x0, 0x0, 0x0, 0x0, 0x0⟩,
  ⟨"NVME_TIMEOUT_MS", 0x44, 1, 0x0, 1, 0x0, false, 0xffff, 0x0, 0x0, 0x0, 0x0, 0x0, 0x0, 0x0, 0x1f40⟩,
  ⟨"BE_CFG", 0x48, 1, 0x0, 1, 0x0, false, 0x3, 0x0, 0x0, 0x0, 0x0, 0x0, 0x0, 0x0, 0x0⟩,
  ⟨"INBOUND_DENY_CNT", 0x4c, 1, 0x0, 1, 0x0, false, 0x0, 0x0, 0xffffffff, 0x0, 0x0, 0x0, 0x0, 0x0, 0x0⟩,
  ⟨"SSD_CFG", 0x100, 16, 0x20, 1, 0x0, false, 0x0, 0x0, 0x0, 0x0, 0x0, 0x0, 0x7ff, 0x0, 0x0⟩,
  ⟨"SSD_NSID", 0x104, 16, 0x20, 1, 0x0, false, 0x0, 0x0, 0x0, 0x0, 0x0, 0x0, 0xffffffff, 0x0, 0x1⟩,
  ⟨"SSD_STATUS", 0x108, 16, 0x20, 1, 0x0, false, 0x0, 0xffffff3f, 0x0, 0x0, 0x0, 0x0, 0x0, 0x0, 0x0⟩,
  ⟨"SSD_CMD", 0x10c, 16, 0x20, 1, 0x0, false, 0x703, 0x0, 0x0, 0x0, 0x80000000, 0x0, 0x0, 0x0, 0x0⟩,
  ⟨"SSD_MEDIA_ERR_CNT", 0x110, 16, 0x20, 1, 0x0, false, 0x0, 0x0, 0xffffffff, 0x0, 0x0, 0x0, 0x0, 0x0, 0x0⟩,
  ⟨"SSD_TIMEOUT_CNT", 0x114, 16, 0x20, 1, 0x0, false, 0x0, 0x0, 0xffffffff, 0x0, 0x0, 0x0, 0x0, 0x0, 0x0⟩,
  ⟨"SSD_RECON_CNT", 0x118, 16, 0x20, 1, 0x0, false, 0x0, 0x0, 0xffffffff, 0x0, 0x0, 0x0, 0x0, 0x0, 0x0⟩,
  ⟨"SET_CFG", 0x400, 16, 0x10, 1, 0x0, false, 0x0, 0x0, 0x0, 0x0, 0x0, 0x0, 0x7, 0x0, 0x0⟩,
  ⟨"SET_LBA0", 0x404, 16, 0x10, 1, 0x0, true, 0x0, 0x0, 0x0, 0x0, 0x0, 0x0, 0xffffffffffff, 0x0, 0x0⟩,
  ⟨"SET_STATE", 0x40c, 16, 0x10, 1, 0x0, false, 0x0, 0x3f, 0x0, 0x0, 0x0, 0x0, 0x0, 0x0, 0x0⟩,
  ⟨"SET_FREE", 0x600, 16, 0x8, 1, 0x0, true, 0x0, 0x3ffffffff, 0x0, 0x0, 0x0, 0x0, 0x0, 0x0, 0x0⟩,
  ⟨"SET_RESV", 0x680, 16, 0x8, 1, 0x0, true, 0x3ffffffff, 0x0, 0x0, 0x0, 0x0, 0x0, 0x0, 0x0, 0x8000⟩]

def rowsMap : List RegRow := [
  ⟨"MAP_BASE", 0x40, 1, 0x0, 1, 0x0, true, 0xfffffffffffff000, 0x0, 0x0, 0x0, 0x0, 0x0, 0x0, 0x0, 0x0⟩,
  ⟨"MAP_CFG", 0x48, 1, 0x0, 1, 0x0, false, 0x3f01, 0x0, 0x0, 0x0, 0x0, 0x0, 0x0, 0x0, 0x0⟩,
  ⟨"JRNL_CFG", 0x4c, 1, 0x0, 1, 0x0, false, 0xff, 0x0, 0x0, 0x0, 0x0, 0x0, 0x0, 0x0, 0x0⟩,
  ⟨"JRNL_LBA", 0x50, 1, 0x0, 1, 0x0, true, 0xffffffffffff, 0x0, 0x0, 0x0, 0x0, 0x0, 0x0, 0x0, 0x0⟩,
  ⟨"JRNL_SIZE", 0x58, 1, 0x0, 1, 0x0, false, 0xffffff, 0x0, 0x0, 0x0, 0x0, 0x0, 0x0, 0x0, 0x10000⟩,
  ⟨"CKPT_LBA", 0x5c, 1, 0x0, 1, 0x0, true, 0xffffffffffff, 0x0, 0x0, 0x0, 0x0, 0x0, 0x0, 0x0, 0x0⟩,
  ⟨"JRNL_USE", 0x64, 1, 0x0, 1, 0x0, false, 0x0, 0xffffff, 0x0, 0x0, 0x0, 0x0, 0x0, 0x0, 0x0⟩,
  ⟨"JRNL_SEQ", 0x68, 1, 0x0, 1, 0x0, true, 0x0, 0xffffffffffffffff, 0x0, 0x0, 0x0, 0x0, 0x0, 0x0, 0x0⟩,
  ⟨"REBUILD", 0x70, 1, 0x0, 1, 0x0, false, 0x0, 0x0, 0x0, 0x0, 0x1, 0x0, 0x0, 0x0, 0x0⟩,
  ⟨"REBUILD_STATUS", 0x74, 1, 0x0, 1, 0x0, false, 0x0, 0xffff01ff, 0x0, 0x0, 0x0, 0x0, 0x0, 0x0, 0x0⟩,
  ⟨"JRNL_REC_CNT", 0x100, 1, 0x0, 1, 0x0, false, 0x0, 0x0, 0xffffffff, 0x0, 0x0, 0x0, 0x0, 0x0, 0x0⟩,
  ⟨"JRNL_FULL_CNT", 0x104, 1, 0x0, 1, 0x0, false, 0x0, 0x0, 0xffffffff, 0x0, 0x0, 0x0, 0x0, 0x0, 0x0⟩,
  ⟨"CKPT_PAGE_CNT", 0x108, 1, 0x0, 1, 0x0, false, 0x0, 0x0, 0xffffffff, 0x0, 0x0, 0x0, 0x0, 0x0, 0x0⟩,
  ⟨"MAP_UE_CNT", 0x10c, 1, 0x0, 1, 0x0, false, 0x0, 0x0, 0xffffffff, 0x0, 0x0, 0x0, 0x0, 0x0, 0x0⟩]

def rowsCiph : List RegRow := [
  ⟨"SA_SEL", 0x40, 1, 0x0, 1, 0x0, false, 0x7fff, 0x0, 0x0, 0x0, 0x0, 0x0, 0x0, 0x0, 0x0⟩,
  ⟨"SA_W", 0x44, 1, 0x4, 1, 0x0, false, 0x3fff07ff, 0x0, 0x0, 0x0, 0x0, 0x0, 0x0, 0x0, 0x0⟩,
  ⟨"SA_W", 0x48, 6, 0x4, 1, 0x0, false, 0xffffffff, 0x0, 0x0, 0x0, 0x0, 0x0, 0x0, 0x0, 0x0⟩,
  ⟨"SA_W", 0x60, 1, 0x4, 1, 0x0, false, 0xffff0003, 0x0, 0x0, 0x0, 0x0, 0x0, 0x0, 0x0, 0x0⟩,
  ⟨"SA_W", 0x64, 2, 0x4, 1, 0x0, false, 0xffffffff, 0x0, 0x0, 0x0, 0x0, 0x0, 0x0, 0x0, 0x0⟩,
  ⟨"SA_W", 0x6c, 2, 0x4, 1, 0x0, false, 0x0, 0xffffffff, 0x0, 0x0, 0x0, 0x0, 0x0, 0x0, 0x0⟩,
  ⟨"SA_W", 0x74, 4, 0x4, 1, 0x0, false, 0x0, 0x0, 0x0, 0x0, 0x0, 0x0, 0x0, 0x0, 0x0⟩,
  ⟨"MASK_CFG", 0xc0, 1, 0x0, 1, 0x0, false, 0x0, 0x0, 0x0, 0x0, 0x0, 0x0, 0x7f, 0x0, 0xa⟩,
  ⟨"MASK_STATUS", 0xc4, 1, 0x0, 1, 0x0, false, 0x0, 0x3ff, 0x0, 0x0, 0x0, 0x0, 0x0, 0x0, 0x80⟩,
  ⟨"JOB_SHARE", 0xc8, 1, 0x0, 1, 0x0, false, 0x0, 0x0, 0x0, 0x0, 0x0, 0x0, 0x7f, 0x0, 0x19⟩,
  ⟨"LAST_KEY", 0xcc, 1, 0x0, 1, 0x0, false, 0x0, 0x13fff, 0x0, 0x0, 0x0, 0x0, 0x0, 0x0, 0x0⟩,
  ⟨"STORE_STATUS", 0xd0, 1, 0x0, 1, 0x0, false, 0x0, 0x1f, 0x0, 0x0, 0x0, 0x0, 0x0, 0x0, 0x0⟩,
  ⟨"AUTH_FAIL_CNT", 0x100, 1, 0x0, 1, 0x0, false, 0x0, 0x0, 0xffffffff, 0x0, 0x0, 0x0, 0x0, 0x0, 0x0⟩,
  ⟨"REPLAY_DROP_CNT", 0x104, 1, 0x0, 1, 0x0, false, 0x0, 0x0, 0xffffffff, 0x0, 0x0, 0x0, 0x0, 0x0, 0x0⟩,
  ⟨"SA_BAD_CNT", 0x108, 1, 0x0, 1, 0x0, false, 0x0, 0x0, 0xffffffff, 0x0, 0x0, 0x0, 0x0, 0x0, 0x0⟩,
  ⟨"PN_EXHAUST_CNT", 0x10c, 1, 0x0, 1, 0x0, false, 0x0, 0x0, 0xffffffff, 0x0, 0x0, 0x0, 0x0, 0x0, 0x0⟩,
  ⟨"SPENT_DROP_CNT", 0x110, 1, 0x0, 1, 0x0, false, 0x0, 0x0, 0xffffffff, 0x0, 0x0, 0x0, 0x0, 0x0, 0x0⟩,
  ⟨"OVERRUN_CNT", 0x114, 1, 0x0, 1, 0x0, false, 0x0, 0x0, 0xffffffff, 0x0, 0x0, 0x0, 0x0, 0x0, 0x0⟩,
  ⟨"MASK_STOP_CNT", 0x118, 1, 0x0, 1, 0x0, false, 0x0, 0x0, 0xffffffff, 0x0, 0x0, 0x0, 0x0, 0x0, 0x0⟩,
  ⟨"FAULT_CNT", 0x11c, 1, 0x0, 1, 0x0, false, 0x0, 0x0, 0xffffffff, 0x0, 0x0, 0x0, 0x0, 0x0, 0x0⟩]

def rowsVault : List RegRow := [
  ⟨"CMD", 0x40, 1, 0x0, 1, 0x0, false, 0xff, 0x0, 0x0, 0x0, 0x80000000, 0x0, 0x0, 0x0, 0x0⟩,
  ⟨"SLOT", 0x44, 1, 0x0, 1, 0x0, false, 0x3fff, 0x0, 0x0, 0x0, 0x0, 0x0, 0x0, 0x0, 0x0⟩,
  ⟨"ARG", 0x48, 1, 0x0, 1, 0x0, false, 0x3f0f3fff, 0x0, 0x0, 0x0, 0x0, 0x0, 0x0, 0x0, 0x0⟩,
  ⟨"LEN", 0x4c, 1, 0x0, 1, 0x0, false, 0x3fff, 0x0, 0x0, 0x0, 0x0, 0x0, 0x0, 0x0, 0x0⟩,
  ⟨"STATUS", 0x50, 1, 0x0, 1, 0x0, false, 0x0, 0xffff0001, 0x0, 0x2, 0x0, 0x0, 0x0, 0x0, 0x0⟩,
  ⟨"OUT_LEN", 0x54, 1, 0x0, 1, 0x0, false, 0x0, 0x3fff, 0x0, 0x0, 0x0, 0x0, 0x0, 0x0, 0x0⟩,
  ⟨"SLOT_INFO", 0x58, 1, 0x0, 1, 0x0, false, 0x0, 0x33f0f, 0x0, 0x0, 0x0, 0x0, 0x0, 0x0, 0x0⟩,
  ⟨"USE", 0x60, 1, 0x0, 1, 0x0, true, 0x0, 0xffffffffffffffff, 0x0, 0x0, 0x0, 0x0, 0x0, 0x0, 0x0⟩,
  ⟨"WARN", 0x68, 1, 0x0, 1, 0x0, true, 0x0, 0xffffffffffffffff, 0x0, 0x0, 0x0, 0x0, 0x0, 0x0, 0x0⟩,
  ⟨"LIMIT", 0x70, 1, 0x0, 1, 0x0, true, 0x0, 0xffffffffffffffff, 0x0, 0x0, 0x0, 0x0, 0x0, 0x0, 0x0⟩,
  ⟨"SLOTS_USED", 0x78, 1, 0x0, 1, 0x0, false, 0x0, 0x7fff, 0x0, 0x0, 0x0, 0x0, 0x0, 0x0, 0x1⟩,
  ⟨"IN", 0x2000, 2048, 0x4, 1, 0x0, false, 0x0, 0x0, 0x0, 0x0, 0x0, 0xffffffff, 0x0, 0x0, 0x0⟩,
  ⟨"OUT", 0x4000, 2048, 0x4, 1, 0x0, false, 0x0, 0xffffffff, 0x0, 0x0, 0x0, 0x0, 0x0, 0x0, 0x0⟩]

def rowsRng : List RegRow := [
  ⟨"CTL", 0x40, 1, 0x0, 1, 0x0, false, 0x0, 0x0, 0x0, 0x0, 0x3, 0x0, 0x0, 0x0, 0x0⟩,
  ⟨"STATUS", 0x44, 1, 0x0, 1, 0x0, false, 0x0, 0xffff000f, 0x0, 0x0, 0x0, 0x0, 0x0, 0x0, 0x0⟩,
  ⟨"HT_CFG", 0x48, 1, 0x0, 1, 0x0, false, 0x0, 0x0, 0x0, 0x0, 0x0, 0x0, 0x0, 0x3ff00ff, 0x3200029⟩,
  ⟨"RESEED_LOG2", 0x4c, 1, 0x0, 1, 0x0, false, 0x3f, 0x0, 0x0, 0x0, 0x0, 0x0, 0x0, 0x0, 0x10⟩,
  ⟨"HELD", 0x50, 1, 0x0, 1, 0x0, false, 0x0, 0xffff, 0x0, 0x0, 0x0, 0x0, 0x0, 0x0, 0x0⟩,
  ⟨"RCT_FAIL_CNT", 0x80, 1, 0x0, 1, 0x0, false, 0x0, 0x0, 0xffffffff, 0x0, 0x0, 0x0, 0x0, 0x0, 0x0⟩,
  ⟨"APT_FAIL_CNT", 0x84, 1, 0x0, 1, 0x0, false, 0x0, 0x0, 0xffffffff, 0x0, 0x0, 0x0, 0x0, 0x0, 0x0⟩,
  ⟨"DISCARD_CNT", 0x88, 1, 0x0, 1, 0x0, false, 0x0, 0x0, 0xffffffff, 0x0, 0x0, 0x0, 0x0, 0x0, 0x0⟩,
  ⟨"HELD_FAIL_CNT", 0x8c, 1, 0x0, 1, 0x0, false, 0x0, 0x0, 0xffffffff, 0x0, 0x0, 0x0, 0x0, 0x0, 0x0⟩]

def rowsPair : List RegRow := [
  ⟨"CFG", 0x40, 1, 0x0, 1, 0x0, false, 0x0, 0x0, 0x0, 0x0, 0x0, 0x0, 0x7f, 0x0, 0x0⟩,
  ⟨"HB_US", 0x44, 1, 0x0, 1, 0x0, false, 0x0, 0x0, 0x0, 0x0, 0x0, 0x0, 0xffff, 0x0, 0x64⟩,
  ⟨"DEAD_US", 0x48, 1, 0x0, 1, 0x0, false, 0x0, 0x0, 0x0, 0x0, 0x0, 0x0, 0xfffff, 0x0, 0x3e8⟩,
  ⟨"LINK_CFG", 0x4c, 1, 0x0, 1, 0x0, false, 0x0, 0x0, 0x0, 0x0, 0x0, 0x0, 0xffff, 0x0, 0x814⟩,
  ⟨"MIRROR_CFG", 0x50, 1, 0x0, 1, 0x0, false, 0x0, 0x0, 0x0, 0x0, 0x0, 0x0, 0x1ff, 0x0, 0x0⟩,
  ⟨"TIME_ALARM_NS", 0x54, 1, 0x0, 1, 0x0, false, 0xfffff, 0x0, 0x0, 0x0, 0x0, 0x0, 0x0, 0x0, 0x3e8⟩,
  ⟨"CTL", 0x58, 1, 0x0, 1, 0x0, false, 0x0, 0x0, 0x0, 0x0, 0xf, 0x0, 0x0, 0x0, 0x0⟩,
  ⟨"STATUS", 0x5c, 1, 0x0, 1, 0x0, false, 0x0, 0x7f, 0x0, 0x0, 0x0, 0x0, 0x0, 0x0, 0x0⟩,
  ⟨"EPOCH", 0x60, 1, 0x0, 1, 0x0, false, 0x0, 0xffffffff, 0x0, 0x0, 0x0, 0x0, 0x0, 0x0, 0x0⟩,
  ⟨"PEER_EPOCH", 0x64, 1, 0x0, 1, 0x0, false, 0x0, 0xffffffff, 0x0, 0x0, 0x0, 0x0, 0x0, 0x0, 0x0⟩,
  ⟨"FENCE_INFO", 0x68, 1, 0x0, 1, 0x0, false, 0x0, 0x3, 0x0, 0x0, 0x0, 0x0, 0x0, 0x0, 0x0⟩,
  ⟨"RESYNC_STATUS", 0x6c, 1, 0x0, 1, 0x0, false, 0x0, 0xffff01ff, 0x0, 0x0, 0x0, 0x0, 0x0, 0x0, 0x0⟩,
  ⟨"VOL_OWN", 0x80, 512, 0x4, 1, 0x0, false, 0x0, 0x0, 0x0, 0x0, 0x0, 0x0, 0xffffffff, 0x0, 0x0⟩,
  ⟨"TOFF", 0x900, 8, 0x8, 1, 0x0, true, 0x0, 0xffffffffffffffff, 0x0, 0x0, 0x0, 0x0, 0x0, 0x0, 0x0⟩,
  ⟨"HB_TX_CNT", 0xa00, 1, 0x0, 1, 0x0, false, 0x0, 0x0, 0xffffffff, 0x0, 0x0, 0x0, 0x0, 0x0, 0x0⟩,
  ⟨"HB_RX_CNT", 0xa04, 1, 0x0, 1, 0x0, false, 0x0, 0x0, 0xffffffff, 0x0, 0x0, 0x0, 0x0, 0x0, 0x0⟩,
  ⟨"STALE_DROP_CNT", 0xa08, 1, 0x0, 1, 0x0, false, 0x0, 0x0, 0xffffffff, 0x0, 0x0, 0x0, 0x0, 0x0, 0x0⟩,
  ⟨"FENCE_TX_CNT", 0xa0c, 1, 0x0, 1, 0x0, false, 0x0, 0x0, 0xffffffff, 0x0, 0x0, 0x0, 0x0, 0x0, 0x0⟩,
  ⟨"RETX_CNT", 0xa10, 1, 0x0, 1, 0x0, false, 0x0, 0x0, 0xffffffff, 0x0, 0x0, 0x0, 0x0, 0x0, 0x0⟩,
  ⟨"DUP_CNT", 0xa14, 1, 0x0, 1, 0x0, false, 0x0, 0x0, 0xffffffff, 0x0, 0x0, 0x0, 0x0, 0x0, 0x0⟩,
  ⟨"LINK_DOWN_CNT", 0xa18, 1, 0x0, 1, 0x0, false, 0x0, 0x0, 0xffffffff, 0x0, 0x0, 0x0, 0x0, 0x0, 0x0⟩,
  ⟨"DECLARE_CNT", 0xa1c, 1, 0x0, 1, 0x0, false, 0x0, 0x0, 0xffffffff, 0x0, 0x0, 0x0, 0x0, 0x0, 0x0⟩]

def rowsMem : List RegRow := [
  ⟨"HBM_SCRUB", 0x40, 1, 0x0, 1, 0x0, false, 0x0, 0x0, 0x0, 0x0, 0x0, 0x0, 0xff01, 0x0, 0x1801⟩,
  ⟨"DDR_SCRUB", 0x44, 1, 0x0, 1, 0x0, false, 0x0, 0x0, 0x0, 0x0, 0x0, 0x0, 0xff01, 0x0, 0x1801⟩,
  ⟨"SCRUB_STATUS", 0x48, 1, 0x0, 1, 0x0, false, 0x0, 0xffff03, 0x0, 0x0, 0x0, 0x0, 0x0, 0x0, 0x0⟩,
  ⟨"HBM_PASS_CNT", 0x4c, 1, 0x0, 1, 0x0, false, 0x0, 0x0, 0xffffffff, 0x0, 0x0, 0x0, 0x0, 0x0, 0x0⟩,
  ⟨"DDR_PASS_CNT", 0x50, 1, 0x0, 1, 0x0, false, 0x0, 0x0, 0xffffffff, 0x0, 0x0, 0x0, 0x0, 0x0, 0x0⟩,
  ⟨"SCRUB_SKIP_CNT", 0x54, 1, 0x0, 1, 0x0, false, 0x0, 0x0, 0xffffffff, 0x0, 0x0, 0x0, 0x0, 0x0, 0x0⟩,
  ⟨"CE_CFG", 0x58, 1, 0x0, 1, 0x0, false, 0xffffffff, 0x0, 0x0, 0x0, 0x0, 0x0, 0x0, 0x0, 0xe100064⟩,
  ⟨"CE_RATE_SRC", 0x5c, 1, 0x0, 1, 0x0, false, 0x0, 0xf, 0x0, 0x0, 0x0, 0x0, 0x0, 0x0, 0x0⟩,
  ⟨"UE_INFO", 0x60, 1, 0x0, 1, 0x0, false, 0x0, 0x10f, 0x0, 0x80000000, 0x0, 0x0, 0x0, 0x0, 0x0⟩,
  ⟨"UE_ADDR", 0x64, 1, 0x0, 1, 0x0, true, 0x0, 0xffffffffff, 0x0, 0x0, 0x0, 0x0, 0x0, 0x0, 0x0⟩,
  ⟨"DDR_STATUS", 0x6c, 1, 0x0, 1, 0x0, false, 0x0, 0xffffffff, 0x0, 0x0, 0x0, 0x0, 0x0, 0x0, 0x0⟩,
  ⟨"HBM_STATUS", 0x70, 1, 0x0, 1, 0x0, false, 0x0, 0xffff0003, 0x0, 0x0, 0x0, 0x0, 0x0, 0x0, 0x0⟩,
  ⟨"CE_CNT", 0x100, 12, 0x8, 1, 0x0, false, 0x0, 0x0, 0xffffffff, 0x0, 0x0, 0x0, 0x0, 0x0, 0x0⟩,
  ⟨"UE_CNT", 0x104, 12, 0x8, 1, 0x0, false, 0x0, 0x0, 0xffffffff, 0x0, 0x0, 0x0, 0x0, 0x0, 0x0⟩]

def rowsErr : List RegRow := [
  ⟨"REC_HEAD", 0x40, 1, 0x0, 1, 0x0, false, 0xff, 0x0, 0x0, 0x0, 0x0, 0x0, 0x0, 0x0, 0x0⟩,
  ⟨"REC_TAIL", 0x44, 1, 0x0, 1, 0x0, false, 0x0, 0x1ff, 0x0, 0x0, 0x0, 0x0, 0x0, 0x0, 0x0⟩,
  ⟨"SEQ", 0x48, 1, 0x0, 1, 0x0, false, 0x0, 0xffffffff, 0x0, 0x0, 0x0, 0x0, 0x0, 0x0, 0x0⟩,
  ⟨"LAST", 0xc0, 8, 0x4, 1, 0x0, false, 0x0, 0xffffffff, 0x0, 0x0, 0x0, 0x0, 0x0, 0x0, 0x0⟩,
  ⟨"CLASS_CTL", 0x100, 16, 0x10, 1, 0x0, false, 0x7, 0x0, 0x0, 0x0, 0x0, 0x0, 0x0, 0x0, 0x0⟩,
  ⟨"CLASS_CNT", 0x104, 16, 0x10, 1, 0x0, false, 0x0, 0x0, 0xffffffff, 0x0, 0x0, 0x0, 0x0, 0x0, 0x0⟩,
  ⟨"CLASS_OVF_CNT", 0x108, 16, 0x10, 1, 0x0, false, 0x0, 0x0, 0xffffffff, 0x0, 0x0, 0x0, 0x0, 0x0, 0x0⟩,
  ⟨"REC", 0x1000, 2048, 0x4, 1, 0x0, false, 0x0, 0xffffffff, 0x0, 0x0, 0x0, 0x0, 0x0, 0x0, 0x0⟩]

def rowsLife : List RegRow := [
  ⟨"CTL", 0x40, 1, 0x0, 1, 0x0, false, 0x0, 0x0, 0x0, 0x0, 0x1, 0x0, 0x0, 0x0, 0x0⟩,
  ⟨"STATUS", 0x44, 1, 0x0, 1, 0x0, false, 0x0, 0xffff0003, 0x0, 0x0, 0x0, 0x0, 0x0, 0x0, 0x0⟩,
  ⟨"LAST_SEQ", 0x48, 1, 0x0, 1, 0x0, false, 0x0, 0xffffffff, 0x0, 0x0, 0x0, 0x0, 0x0, 0x0, 0x0⟩,
  ⟨"SINCE_S", 0x4c, 1, 0x0, 1, 0x0, false, 0x0, 0xffffffff, 0x0, 0x0, 0x0, 0x0, 0x0, 0x0, 0x0⟩,
  ⟨"RECORDS", 0x50, 1, 0x0, 1, 0x0, false, 0x0, 0xff, 0x0, 0x0, 0x0, 0x0, 0x0, 0x0, 0x0⟩,
  ⟨"TJ_NOW", 0x54, 1, 0x0, 1, 0x0, false, 0x0, 0xffff, 0x0, 0x0, 0x0, 0x0, 0x0, 0x0, 0x0⟩,
  ⟨"TJ_AVG", 0x58, 1, 0x0, 1, 0x0, false, 0x0, 0xffff, 0x0, 0x0, 0x0, 0x0, 0x0, 0x0, 0x0⟩,
  ⟨"CNT_SEL", 0x60, 1, 0x0, 1, 0x0, false, 0xff, 0x0, 0x0, 0x0, 0x0, 0x0, 0x0, 0x0, 0x0⟩,
  ⟨"CNT", 0x64, 1, 0x0, 1, 0x0, true, 0x0, 0xffffffffffffffff, 0x0, 0x0, 0x0, 0x0, 0x0, 0x0, 0x0⟩]

def rowsPeep : List RegRow := [
  ⟨"CTL", 0x40, 1, 0x0, 1, 0x0, false, 0x3, 0x0, 0x0, 0x0, 0x0, 0x0, 0x0, 0x0, 0x0⟩,
  ⟨"STREAM_EN", 0x44, 1, 0x0, 1, 0x0, false, 0x0, 0x0, 0x0, 0x0, 0x0, 0x0, 0xffff, 0x0, 0x0⟩,
  ⟨"STATUS", 0x48, 1, 0x0, 1, 0x0, false, 0x0, 0x7, 0x0, 0x0, 0x0, 0x0, 0x0, 0x0, 0x0⟩,
  ⟨"WR_PTR", 0x4c, 1, 0x0, 1, 0x0, false, 0x0, 0x3ffffff, 0x0, 0x0, 0x0, 0x0, 0x0, 0x0, 0x0⟩,
  ⟨"WRAPS", 0x50, 1, 0x0, 1, 0x0, false, 0x0, 0xffffffff, 0x0, 0x0, 0x0, 0x0, 0x0, 0x0, 0x0⟩,
  ⟨"TRACE_DROP_CNT", 0x54, 1, 0x0, 1, 0x0, false, 0x0, 0x0, 0xffffffff, 0x0, 0x0, 0x0, 0x0, 0x0, 0x0⟩,
  ⟨"TRIG", 0x58, 1, 0x0, 1, 0x0, false, 0x800003ff, 0x0, 0x0, 0x0, 0x0, 0x0, 0x0, 0x0, 0x0⟩,
  ⟨"TRIG_THRESH", 0x5c, 1, 0x0, 1, 0x0, true, 0xffffffffffffffff, 0x0, 0x0, 0x0, 0x0, 0x0, 0x0, 0x0, 0x0⟩,
  ⟨"POST", 0x64, 1, 0x0, 1, 0x0, false, 0x1fffff, 0x0, 0x0, 0x0, 0x0, 0x0, 0x0, 0x0, 0x0⟩,
  ⟨"FILT", 0x80, 16, 0x4, 1, 0x0, false, 0xffffffff, 0x0, 0x0, 0x0, 0x0, 0x0, 0x0, 0x0, 0x0⟩,
  ⟨"CNT_CLR", 0x100, 1, 0x0, 1, 0x0, false, 0x0, 0x0, 0x0, 0x0, 0x0, 0x1, 0x0, 0x0, 0x0⟩,
  ⟨"CNT", 0x1000, 1024, 0x8, 1, 0x0, true, 0x0, 0xffffffffffffffff, 0x0, 0x0, 0x0, 0x0, 0x0, 0x0, 0x0⟩,
  ⟨"CNT_CFG", 0x3000, 1024, 0x4, 1, 0x0, false, 0xffff1fff, 0x0, 0x0, 0x0, 0x0, 0x0, 0x0, 0x0, 0x0⟩]

def rowsSupply : List RegRow := [
  ⟨"GUARD_CFG", 0x40, 1, 0x0, 1, 0x0, false, 0x0, 0x0, 0x0, 0x0, 0x0, 0x0, 0xff00ff, 0x0, 0x14000a⟩,
  ⟨"GUARD_STATUS", 0x44, 1, 0x0, 1, 0x0, false, 0x0, 0x1ff01, 0x0, 0x0, 0x0, 0x0, 0x0, 0x0, 0x0⟩,
  ⟨"PF_STATE", 0x48, 1, 0x0, 1, 0x0, false, 0x0, 0x3, 0x0, 0x0, 0x0, 0x0, 0x0, 0x0, 0x0⟩,
  ⟨"DUMP_CTL", 0x4c, 1, 0x0, 1, 0x0, false, 0x3, 0x8, 0x0, 0x0, 0x4, 0x0, 0x0, 0x0, 0x0⟩,
  ⟨"DUMP_MASK", 0x50, 1, 0x0, 1, 0x0, false, 0xffff, 0x0, 0x0, 0x0, 0x0, 0x0, 0x0, 0x0, 0x0⟩,
  ⟨"DUMP_LBA", 0x54, 1, 0x0, 1, 0x0, true, 0xffffffffffff, 0x0, 0x0, 0x0, 0x0, 0x0, 0x0, 0x0, 0x0⟩,
  ⟨"DUMP_AREA_MIB", 0x5c, 1, 0x0, 1, 0x0, false, 0xffff, 0x0, 0x0, 0x0, 0x0, 0x0, 0x0, 0x0, 0x0⟩,
  ⟨"DUMP_RATE", 0x60, 1, 0x0, 1, 0x0, false, 0x0, 0x8003ffff, 0x0, 0x0, 0x0, 0x0, 0x0, 0x0, 0x0⟩,
  ⟨"HOLDUP_US", 0x64, 1, 0x0, 1, 0x0, false, 0xffff, 0x0, 0x0, 0x0, 0x0, 0x0, 0x0, 0x0, 0x0⟩,
  ⟨"HOLDUP_STATUS", 0x68, 1, 0x0, 1, 0x0, false, 0x0, 0x3fff0001, 0x0, 0x0, 0x0, 0x0, 0x0, 0x0, 0x0⟩,
  ⟨"LAST_DUMP_STATUS", 0x6c, 1, 0x0, 1, 0x0, false, 0x0, 0xffffff03, 0x0, 0x0, 0x0, 0x0, 0x0, 0x0, 0x0⟩,
  ⟨"GUARD_TRIP_CNT", 0x80, 1, 0x0, 1, 0x0, false, 0x0, 0x0, 0xffffffff, 0x0, 0x0, 0x0, 0x0, 0x0, 0x0⟩,
  ⟨"PFAIL_GLITCH_CNT", 0x84, 1, 0x0, 1, 0x0, false, 0x0, 0x0, 0xffffffff, 0x0, 0x0, 0x0, 0x0, 0x0, 0x0⟩,
  ⟨"NV_BLOCK_CNT", 0x88, 1, 0x0, 1, 0x0, false, 0x0, 0x0, 0xffffffff, 0x0, 0x0, 0x0, 0x0, 0x0, 0x0⟩,
  ⟨"DUMP_ORPHAN_CNT", 0x8c, 1, 0x0, 1, 0x0, false, 0x0, 0x0, 0xffffffff, 0x0, 0x0, 0x0, 0x0, 0x0, 0x0⟩,
  ⟨"MON_CFG", 0x100, 8, 0x10, 1, 0x0, false, 0x0, 0x0, 0x0, 0x0, 0x0, 0x0, 0xff0fff, 0x0, 0x0⟩,
  ⟨"MON_STATUS", 0x104, 8, 0x10, 1, 0x0, false, 0x0, 0x30fff, 0x0, 0x0, 0x0, 0x0, 0x0, 0x0, 0x0⟩,
  ⟨"MON_MIN", 0x108, 8, 0x10, 1, 0x0, false, 0x0, 0x0, 0xfff, 0x0, 0x0, 0x0, 0x0, 0x0, 0xfff⟩]

/-- The common page header (R75); PAGE_ID is answered by the page itself. PAGE_COMMIT has no stored bit. -/
def rowsHeader : List RegRow := [
  ⟨"PAGE_ID", 0x00, 1, 0, 1, 0, false, 0, 0xffffffff, 0, 0, 0, 0, 0, 0, 0⟩,
  ⟨"PAGE_REV", 0x04, 1, 0, 1, 0, false, 0, 0xff, 0, 0, 0, 0, 0, 0, 1⟩,
  ⟨"PAGE_COMMIT", 0x08, 1, 0, 1, 0, false, 0, 0, 0, 0, 0x7, 0, 0, 0, 0⟩,
  ⟨"PAGE_STATUS", 0x0c, 1, 0, 1, 0, false, 0, 0xffff000d, 0, 0x2, 0, 0, 0, 0, 0⟩,
  ⟨"INT_STAT", 0x10, 1, 0, 1, 0, false, 0, 0, 0, 0xffffffff, 0, 0, 0, 0, 0⟩,
  ⟨"INT_MASK", 0x14, 1, 0, 1, 0, false, 0xffffffff, 0, 0, 0, 0, 0, 0, 0, 0xffffffff⟩,
  ⟨"INT_SET", 0x18, 1, 0, 1, 0, false, 0, 0, 0, 0, 0xffffffff, 0, 0, 0, 0⟩,
  ⟨"INT_SEV", 0x1c, 1, 0, 1, 0, false, 0xffffffff, 0, 0, 0, 0, 0, 0, 0, 0⟩,
  ⟨"ERR_FIRST", 0x20, 1, 0, 1, 0, false, 0, 0xffff, 0, 0x80000000, 0, 0, 0, 0, 0⟩,
  ⟨"ERR_FIRST_INFO", 0x24, 1, 0, 1, 0, false, 0, 0xffffffff, 0, 0, 0, 0, 0, 0, 0⟩,
  ⟨"ERR_COUNT", 0x28, 1, 0, 1, 0, false, 0, 0, 0xffffffff, 0, 0, 0, 0, 0, 0⟩,
  ⟨"ERR_OVF", 0x2c, 1, 0, 1, 0, false, 0, 0, 0, 0x1, 0, 0, 0, 0, 0⟩]

/-- INST_SEL of a windowed page (R72). Its width is not stated; all 32 bits are taken (DEDUCED, log entry 19). -/
def rowInstSel : RegRow := ⟨"INST_SEL", 0x40, 1, 0, 1, 0, false, 0xffffffff, 0, 0, 0, 0, 0, 0, 0, 0⟩

/-- The register table of a page by its index (R71); HOST0 and HOST1 share one layout. -/
def pageRows : Nat → List RegRow
  | 0 => rowsChip
  | 1 => rowsClk
  | 2 => rowsPwr
  | 3 => rowsPad
  | 4 => rowsLsio
  | 5 => rowsBoot
  | 6 => rowsFuse
  | 7 => rowsLatch
  | 8 => rowsMaint
  | 9 => rowsTime
  | 10 => rowsWheel
  | 11 => rowsHost
  | 12 => rowsHost
  | 13 => rowsFunc
  | 14 => rowsXlat
  | 15 => rowsRing
  | 16 => rowsTransom
  | 17 => rowsLane
  | 18 => rowsCal
  | 19 => rowInstSel :: rowsMac
  | 20 => rowInstSel :: rowsParse
  | 21 => rowInstSel :: rowsClass
  | 22 => rowInstSel :: rowsFwd
  | 23 => rowInstSel :: rowsLpm
  | 24 => rowsTm
  | 25 => rowInstSel :: rowsFlow
  | 26 => rowInstSel :: rowsChan
  | 27 => rowInstSel :: rowsCore
  | 28 => rowsRdma
  | 29 => rowsBlkf
  | 30 => rowsBlkb
  | 31 => rowsMap
  | 32 => rowsCiph
  | 33 => rowsVault
  | 34 => rowsRng
  | 35 => rowsPair
  | 36 => rowsMem
  | 37 => rowsErr
  | 38 => rowsLife
  | 39 => rowsPeep
  | 40 => rowsSupply
  | _ => []

end Sys2Proof.Machine
end

