-- ==== Sys2Proof/Machine/RegNames.lean ====
section
/-! DEFINITION. The names of the registers: PAGE.REGISTER of the spec as a page index and an offset. A register
that repeats takes its index; a register of a windowed page is given its number by `Reg.of`. -/

namespace Sys2Proof.Machine

/-- A register: page index (R71), offset in the page, and the number of the windowed page's copy it belongs to. -/
structure Reg where
  page : Nat
  off : Nat
  inst : Nat := 0
deriving DecidableEq, Repr

/-- The register in copy `i` of its windowed page, or of object `i` of an object page. -/
@[simp] def Reg.of (r : Reg) (i : Nat) : Reg := ⟨r.page, r.off, i⟩

/-- The HI half of a pair named by its LO half (R6). -/
@[simp] def Reg.hi (r : Reg) : Reg := ⟨r.page, r.off + 4, r.inst⟩

/-! Page indexes (R71). -/
@[simp] def Pg.chip : Nat := 0
@[simp] def Pg.clk : Nat := 1
@[simp] def Pg.pwr : Nat := 2
@[simp] def Pg.pad : Nat := 3
@[simp] def Pg.lsio : Nat := 4
@[simp] def Pg.boot : Nat := 5
@[simp] def Pg.fuse : Nat := 6
@[simp] def Pg.latch : Nat := 7
@[simp] def Pg.maint : Nat := 8
@[simp] def Pg.time : Nat := 9
@[simp] def Pg.wheel : Nat := 10
@[simp] def Pg.host0 : Nat := 11
@[simp] def Pg.host1 : Nat := 12
@[simp] def Pg.func : Nat := 13
@[simp] def Pg.xlat : Nat := 14
@[simp] def Pg.ring : Nat := 15
@[simp] def Pg.transom : Nat := 16
@[simp] def Pg.lane : Nat := 17
@[simp] def Pg.cal : Nat := 18
@[simp] def Pg.mac : Nat := 19
@[simp] def Pg.parse : Nat := 20
@[simp] def Pg.cls : Nat := 21
@[simp] def Pg.fwd : Nat := 22
@[simp] def Pg.lpm : Nat := 23
@[simp] def Pg.tm : Nat := 24
@[simp] def Pg.flow : Nat := 25
@[simp] def Pg.chan : Nat := 26
@[simp] def Pg.core : Nat := 27
@[simp] def Pg.rdma : Nat := 28
@[simp] def Pg.blkf : Nat := 29
@[simp] def Pg.blkb : Nat := 30
@[simp] def Pg.map : Nat := 31
@[simp] def Pg.ciph : Nat := 32
@[simp] def Pg.vault : Nat := 33
@[simp] def Pg.rng : Nat := 34
@[simp] def Pg.pair : Nat := 35
@[simp] def Pg.mem : Nat := 36
@[simp] def Pg.err : Nat := 37
@[simp] def Pg.life : Nat := 38
@[simp] def Pg.peep : Nat := 39
@[simp] def Pg.supply : Nat := 40
/-! Header registers of page `p` (R75). -/
@[simp] def HDR.PAGE_STATUS (p : Nat) : Reg := ⟨p, 0xc, 0⟩
@[simp] def HDR.INT_STAT (p : Nat) : Reg := ⟨p, 0x10, 0⟩
@[simp] def HDR.INT_MASK (p : Nat) : Reg := ⟨p, 0x14, 0⟩
@[simp] def HDR.INT_SEV (p : Nat) : Reg := ⟨p, 0x1c, 0⟩
@[simp] def HDR.ERR_FIRST (p : Nat) : Reg := ⟨p, 0x20, 0⟩
@[simp] def HDR.ERR_FIRST_INFO (p : Nat) : Reg := ⟨p, 0x24, 0⟩
@[simp] def HDR.ERR_COUNT (p : Nat) : Reg := ⟨p, 0x28, 0⟩
@[simp] def HDR.ERR_OVF (p : Nat) : Reg := ⟨p, 0x2c, 0⟩
@[simp] def HDR.INST_SEL (p : Nat) : Reg := ⟨p, 0x40, 0⟩
@[simp] def CHIP.DEVICE_ID : Reg := ⟨0, 0x40, 0⟩
@[simp] def CHIP.SILICON_REV : Reg := ⟨0, 0x44, 0⟩
@[simp] def CHIP.MGMT_OWNER : Reg := ⟨0, 0x48, 0⟩
@[simp] def CHIP.BOOT_LOCK : Reg := ⟨0, 0x4c, 0⟩
@[simp] def CLK.CLK_STATUS : Reg := ⟨1, 0x40, 0⟩
@[simp] def CLK.REFCLK_MEAS : Reg := ⟨1, 0x44, 0⟩
@[simp] def CLK.BE_REFCLK_EN : Reg := ⟨1, 0x48, 0⟩
@[simp] def CLK.LOSS_CNT : Reg := ⟨1, 0x4c, 0⟩
@[simp] def PWR.PSTATE_CFG : Reg := ⟨2, 0x40, 0⟩
@[simp] def PWR.P1_IDLE_US : Reg := ⟨2, 0x44, 0⟩
@[simp] def PWR.P2_IDLE_US : Reg := ⟨2, 0x48, 0⟩
@[simp] def PWR.P3_IDLE_MS : Reg := ⟨2, 0x4c, 0⟩
@[simp] def PWR.PSTATE_STATUS : Reg := ⟨2, 0x50, 0⟩
@[simp] def PWR.WAKE_CAUSE : Reg := ⟨2, 0x54, 0⟩
@[simp] def PWR.ENTRY_CNT (i : Nat) : Reg := ⟨2, 0x64 + 4 * i, 0⟩
@[simp] def PAD.PAD_STATUS : Reg := ⟨3, 0x40, 0⟩
@[simp] def PAD.PAD_CFG (i : Nat) : Reg := ⟨3, 0x100 + 4 * i, 0⟩
@[simp] def LSIO.I2C_CTL (i : Nat) : Reg := ⟨4, 0x100 + 32 * i, 0⟩
@[simp] def LSIO.I2C_CMD (i : Nat) : Reg := ⟨4, 0x104 + 32 * i, 0⟩
@[simp] def LSIO.I2C_STATUS (i : Nat) : Reg := ⟨4, 0x108 + 32 * i, 0⟩
@[simp] def LSIO.I2C_DATA (i : Nat) : Reg := ⟨4, 0x10c + 32 * i, 0⟩
@[simp] def LSIO.I2C_RECOV_CNT (i : Nat) : Reg := ⟨4, 0x110 + 32 * i, 0⟩
@[simp] def LSIO.UART_CTL (i : Nat) : Reg := ⟨4, 0x200 + 32 * i, 0⟩
@[simp] def LSIO.UART_STATUS (i : Nat) : Reg := ⟨4, 0x204 + 32 * i, 0⟩
@[simp] def LSIO.UART_DATA (i : Nat) : Reg := ⟨4, 0x208 + 32 * i, 0⟩
@[simp] def LSIO.UART_RX_OVR_CNT (i : Nat) : Reg := ⟨4, 0x20c + 32 * i, 0⟩
@[simp] def LSIO.OSPI_CTL (i : Nat) : Reg := ⟨4, 0x300 + 64 * i, 0⟩
@[simp] def LSIO.OSPI_CMD (i : Nat) : Reg := ⟨4, 0x304 + 64 * i, 0⟩
@[simp] def LSIO.OSPI_ADDR (i : Nat) : Reg := ⟨4, 0x308 + 64 * i, 0⟩
@[simp] def LSIO.OSPI_LEN (i : Nat) : Reg := ⟨4, 0x30c + 64 * i, 0⟩
@[simp] def LSIO.OSPI_STATUS (i : Nat) : Reg := ⟨4, 0x310 + 64 * i, 0⟩
@[simp] def LSIO.MDIO_CTL (i : Nat) : Reg := ⟨4, 0x400 + 16 * i, 0⟩
@[simp] def LSIO.MDIO_CMD (i : Nat) : Reg := ⟨4, 0x404 + 16 * i, 0⟩
@[simp] def LSIO.MDIO_DATA (i : Nat) : Reg := ⟨4, 0x408 + 16 * i, 0⟩
@[simp] def LSIO.MDIO_STATUS (i : Nat) : Reg := ⟨4, 0x40c + 16 * i, 0⟩
@[simp] def LSIO.GPIO_OUT : Reg := ⟨4, 0x500, 0⟩
@[simp] def LSIO.GPIO_SET : Reg := ⟨4, 0x508, 0⟩
@[simp] def LSIO.GPIO_CLR : Reg := ⟨4, 0x510, 0⟩
@[simp] def LSIO.GPIO_OE : Reg := ⟨4, 0x518, 0⟩
@[simp] def LSIO.GPIO_IN : Reg := ⟨4, 0x520, 0⟩
@[simp] def LSIO.GPIO_RISE_EN : Reg := ⟨4, 0x528, 0⟩
@[simp] def LSIO.GPIO_FALL_EN : Reg := ⟨4, 0x530, 0⟩
@[simp] def LSIO.GPIO_EDGE : Reg := ⟨4, 0x538, 0⟩
@[simp] def LSIO.OSPI0_BUF (i : Nat) : Reg := ⟨4, 0x1000 + 4 * i, 0⟩
@[simp] def LSIO.OSPI1_BUF (i : Nat) : Reg := ⟨4, 0x2000 + 4 * i, 0⟩
@[simp] def BOOT.STATE : Reg := ⟨5, 0x40, 0⟩
@[simp] def BOOT.CTL : Reg := ⟨5, 0x44, 0⟩
@[simp] def BOOT.HOST_LEN : Reg := ⟨5, 0x48, 0⟩
@[simp] def BOOT.IMG_SECVER : Reg := ⟨5, 0x4c, 0⟩
@[simp] def BOOT.IMG_BUILD : Reg := ⟨5, 0x50, 0⟩
@[simp] def BOOT.IMG_KEY : Reg := ⟨5, 0x54, 0⟩
@[simp] def BOOT.MIN_VER : Reg := ⟨5, 0x58, 0⟩
@[simp] def BOOT.ATTEMPT (i : Nat) : Reg := ⟨5, 0x60 + 4 * i, 0⟩
@[simp] def BOOT.BOOT_TIME : Reg := ⟨5, 0x80, 0⟩
@[simp] def FUSE.FUSE_VER : Reg := ⟨6, 0x40, 0⟩
@[simp] def FUSE.KEY_STATE : Reg := ⟨6, 0x44, 0⟩
@[simp] def FUSE.BOOT_CFG : Reg := ⟨6, 0x48, 0⟩
@[simp] def FUSE.KEYHASH_W (i j : Nat) : Reg := ⟨6, 0x80 + 48 * i + 4 * j, 0⟩
@[simp] def FUSE.KH_IN (i : Nat) : Reg := ⟨6, 0x140 + 4 * i, 0⟩
@[simp] def FUSE.BURN_CTL : Reg := ⟨6, 0x170, 0⟩
@[simp] def FUSE.BURN_STATUS : Reg := ⟨6, 0x174, 0⟩
@[simp] def LATCH.BROKEN_CNT : Reg := ⟨7, 0x40, 0⟩
@[simp] def LATCH.REL_REJ_CNT : Reg := ⟨7, 0x44, 0⟩
@[simp] def LATCH.LATCH_ACQ (i : Nat) : Reg := ⟨7, 0x1000 + 16 * i, 0⟩
@[simp] def LATCH.LATCH_STATE (i : Nat) : Reg := ⟨7, 0x1004 + 16 * i, 0⟩
@[simp] def LATCH.LATCH_CTL (i : Nat) : Reg := ⟨7, 0x1008 + 16 * i, 0⟩
@[simp] def LATCH.LATCH_ACCESS (i : Nat) : Reg := ⟨7, 0x100c + 16 * i, 0⟩
@[simp] def MAINT.RUNNING : Reg := ⟨8, 0x40, 0⟩
@[simp] def MAINT.REFUSE_CNT : Reg := ⟨8, 0x44, 0⟩
@[simp] def MAINT.LAST_REFUSED : Reg := ⟨8, 0x48, 0⟩
@[simp] def TIME.SNAP_ALL : Reg := ⟨9, 0x40, 0⟩
@[simp] def TIME.REF10M_CTL : Reg := ⟨9, 0x48, 0⟩
@[simp] def TIME.REF10M_STATUS : Reg := ⟨9, 0x4c, 0⟩
@[simp] def TIME.REF10M_MEAS : Reg := ⟨9, 0x50, 0⟩
@[simp] def TIME.DOM_CTL (i : Nat) : Reg := ⟨9, 0x100 + 64 * i, 0⟩
@[simp] def TIME.DOM_STATUS (i : Nat) : Reg := ⟨9, 0x104 + 64 * i, 0⟩
@[simp] def TIME.DOM_INCR (i : Nat) : Reg := ⟨9, 0x108 + 64 * i, 0⟩
@[simp] def TIME.DOM_STEP_SEC (i : Nat) : Reg := ⟨9, 0x110 + 64 * i, 0⟩
@[simp] def TIME.DOM_STEP_NS (i : Nat) : Reg := ⟨9, 0x118 + 64 * i, 0⟩
@[simp] def TIME.DOM_SLEW (i : Nat) : Reg := ⟨9, 0x11c + 64 * i, 0⟩
@[simp] def TIME.DOM_SLEW_CFG (i : Nat) : Reg := ⟨9, 0x120 + 64 * i, 0⟩
@[simp] def TIME.DOM_SLEW_LEFT (i : Nat) : Reg := ⟨9, 0x124 + 64 * i, 0⟩
@[simp] def TIME.DOM_SNAP_SEC (i : Nat) : Reg := ⟨9, 0x128 + 64 * i, 0⟩
@[simp] def TIME.DOM_SNAP_NS (i : Nat) : Reg := ⟨9, 0x130 + 64 * i, 0⟩
@[simp] def TIME.DOM_SNAP_FRAC (i : Nat) : Reg := ⟨9, 0x134 + 64 * i, 0⟩
@[simp] def TIME.DOM_SNAP_WT (i : Nat) : Reg := ⟨9, 0x138 + 64 * i, 0⟩
@[simp] def TIME.PORT_DOM (i : Nat) : Reg := ⟨9, 0x300 + 4 * i, 0⟩
@[simp] def TIME.PPS_IN_CTL (i : Nat) : Reg := ⟨9, 0x400 + 16 * i, 0⟩
@[simp] def TIME.PPS_IN_CAP_SEC (i : Nat) : Reg := ⟨9, 0x404 + 16 * i, 0⟩
@[simp] def TIME.PPS_IN_CAP_NS (i : Nat) : Reg := ⟨9, 0x40c + 16 * i, 0⟩
@[simp] def TIME.PPS_OUT_CTL (i : Nat) : Reg := ⟨9, 0x500 + 32 * i, 0⟩
@[simp] def TIME.PPS_OUT_START_SEC (i : Nat) : Reg := ⟨9, 0x504 + 32 * i, 0⟩
@[simp] def TIME.PPS_OUT_START_NS (i : Nat) : Reg := ⟨9, 0x50c + 32 * i, 0⟩
@[simp] def TIME.PPS_OUT_PERIOD_NS (i : Nat) : Reg := ⟨9, 0x510 + 32 * i, 0⟩
@[simp] def TIME.PPS_OUT_PERIOD_FRAC (i : Nat) : Reg := ⟨9, 0x514 + 32 * i, 0⟩
@[simp] def TIME.PPS_OUT_WIDTH (i : Nat) : Reg := ⟨9, 0x518 + 32 * i, 0⟩
@[simp] def WHEEL.WHEEL_CFG : Reg := ⟨10, 0x40, 0⟩
@[simp] def WHEEL.WHEEL_STATUS : Reg := ⟨10, 0x44, 0⟩
@[simp] def WHEEL.PENDING_HWM : Reg := ⟨10, 0x48, 0⟩
@[simp] def WHEEL.LATE_CNT : Reg := ⟨10, 0x4c, 0⟩
@[simp] def WHEEL.HORIZON_CNT : Reg := ⟨10, 0x50, 0⟩
@[simp] def WHEEL.FULL_CNT : Reg := ⟨10, 0x54, 0⟩
@[simp] def WHEEL.STEPPED_CNT : Reg := ⟨10, 0x58, 0⟩
@[simp] def WHEEL.SCHED_TARGET : Reg := ⟨10, 0x60, 0⟩
@[simp] def WHEEL.SCHED_CTL : Reg := ⟨10, 0x68, 0⟩
@[simp] def WHEEL.SCHED_STATUS : Reg := ⟨10, 0x6c, 0⟩
@[simp] def WHEEL.SCHED_HANDLE : Reg := ⟨10, 0x70, 0⟩
@[simp] def WHEEL.CANCEL : Reg := ⟨10, 0x74, 0⟩
@[simp] def WHEEL.CANCEL_RESULT : Reg := ⟨10, 0x78, 0⟩
@[simp] def HOST.LINK_CFG (h : Nat) : Reg := ⟨11 + h, 0x40, 0⟩
@[simp] def HOST.LINK_STATUS (h : Nat) : Reg := ⟨11 + h, 0x44, 0⟩
@[simp] def HOST.SHUT0_STATUS (h : Nat) : Reg := ⟨11 + h, 0x48, 0⟩
@[simp] def HOST.SHUT1_STATUS (h : Nat) : Reg := ⟨11 + h, 0x4c, 0⟩
@[simp] def HOST.SHUTTER_RELEASE (h : Nat) : Reg := ⟨11 + h, 0x50, 0⟩
@[simp] def HOST.CTL (h : Nat) : Reg := ⟨11 + h, 0x54, 0⟩
@[simp] def HOST.TAG_RESV (h : Nat) : Reg := ⟨11 + h, 0x58, 0⟩
@[simp] def HOST.TAG_USE (h : Nat) : Reg := ⟨11 + h, 0x5c, 0⟩
@[simp] def HOST.TAG_HWM (h : Nat) : Reg := ⟨11 + h, 0x60, 0⟩
@[simp] def HOST.TAG_QUAR (h : Nat) : Reg := ⟨11 + h, 0x64, 0⟩
@[simp] def HOST.VF_ALLOC (h i : Nat) : Reg := ⟨11 + h, 0x80 + 4 * i, 0⟩
@[simp] def HOST.LTR_CFG (h : Nat) : Reg := ⟨11 + h, 0xa0, 0⟩
@[simp] def HOST.LTR_HOLD (h : Nat) : Reg := ⟨11 + h, 0xa4, 0⟩
@[simp] def HOST.LTR_LAST (h : Nat) : Reg := ⟨11 + h, 0xa8, 0⟩
@[simp] def HOST.L0P_CFG (h : Nat) : Reg := ⟨11 + h, 0xac, 0⟩
@[simp] def HOST.AER_EXTRA (h : Nat) : Reg := ⟨11 + h, 0xb0, 0⟩
@[simp] def HOST.SHUT_DISCARD_CNT (h : Nat) : Reg := ⟨11 + h, 0xc0, 0⟩
@[simp] def HOST.CPL_TIMEOUT_CNT (h : Nat) : Reg := ⟨11 + h, 0xc4, 0⟩
@[simp] def HOST.UNEXP_CPL_CNT (h : Nat) : Reg := ⟨11 + h, 0xc8, 0⟩
@[simp] def HOST.INBOUND_DENY_CNT (h : Nat) : Reg := ⟨11 + h, 0xcc, 0⟩
@[simp] def HOST.CORR_CNT (h : Nat) : Reg := ⟨11 + h, 0xd0, 0⟩
@[simp] def FUNC.FN_SEL : Reg := ⟨13, 0x40, 0⟩
@[simp] def FUNC.FN_STATUS : Reg := ⟨13, 0x44, 0⟩
@[simp] def FUNC.VEC_BASE : Reg := ⟨13, 0x48, 0⟩
@[simp] def FUNC.VEC_COUNT : Reg := ⟨13, 0x4c, 0⟩
@[simp] def FUNC.DMA_SHARE : Reg := ⟨13, 0x50, 0⟩
@[simp] def FUNC.TAG_QUOTA : Reg := ⟨13, 0x54, 0⟩
@[simp] def FUNC.RING_WEIGHT : Reg := ⟨13, 0x58, 0⟩
@[simp] def FUNC.INT_SHARE : Reg := ⟨13, 0x5c, 0⟩
@[simp] def FUNC.LAT_TOL : Reg := ⟨13, 0x60, 0⟩
@[simp] def FUNC.RESET_CNT : Reg := ⟨13, 0x64, 0⟩
@[simp] def FUNC.EVT_DROP_CNT : Reg := ⟨13, 0x68, 0⟩
@[simp] def FUNC.INT_THROTTLE_CNT : Reg := ⟨13, 0x6c, 0⟩
@[simp] def FUNC.PSTATE : Reg := ⟨13, 0x70, 0⟩
@[simp] def FUNC.ERT_W0 (i : Nat) : Reg := ⟨13, 0x1000 + 8 * i, 0⟩
@[simp] def FUNC.ERT_W1 (i : Nat) : Reg := ⟨13, 0x1004 + 8 * i, 0⟩
@[simp] def XLAT.FLUSH : Reg := ⟨14, 0x40, 0⟩
@[simp] def XLAT.FLUSH_PASID : Reg := ⟨14, 0x44, 0⟩
@[simp] def XLAT.FLUSH_STATUS : Reg := ⟨14, 0x48, 0⟩
@[simp] def XLAT.WIN_SEL : Reg := ⟨14, 0x50, 0⟩
@[simp] def XLAT.WIN_BASE : Reg := ⟨14, 0x54, 0⟩
@[simp] def XLAT.WIN_LIMIT : Reg := ⟨14, 0x5c, 0⟩
@[simp] def XLAT.WIN_CTL : Reg := ⟨14, 0x64, 0⟩
@[simp] def XLAT.DENY_ADDR : Reg := ⟨14, 0x68, 0⟩
@[simp] def XLAT.DENY_LEN : Reg := ⟨14, 0x70, 0⟩
@[simp] def XLAT.DENY_INFO : Reg := ⟨14, 0x74, 0⟩
@[simp] def XLAT.DENY_CNT : Reg := ⟨14, 0x78, 0⟩
@[simp] def XLAT.HIT_CNT (i : Nat) : Reg := ⟨14, 0x80 + 32 * i, 0⟩
@[simp] def XLAT.MISS_CNT (i : Nat) : Reg := ⟨14, 0x84 + 32 * i, 0⟩
@[simp] def XLAT.INV_REQ_CNT (i : Nat) : Reg := ⟨14, 0x88 + 32 * i, 0⟩
@[simp] def XLAT.INV_CPL_CNT (i : Nat) : Reg := ⟨14, 0x8c + 32 * i, 0⟩
@[simp] def XLAT.ATS_OUT (i : Nat) : Reg := ⟨14, 0x90 + 32 * i, 0⟩
@[simp] def RING.RING_SEL : Reg := ⟨15, 0x40, 0⟩
@[simp] def RING.CTX_CTL : Reg := ⟨15, 0x44, 0⟩
@[simp] def RING.CTX_LOCAL : Reg := ⟨15, 0x48, 0⟩
@[simp] def RING.CTX_LINK : Reg := ⟨15, 0x4c, 0⟩
@[simp] def RING.CTX_BASE : Reg := ⟨15, 0x50, 0⟩
@[simp] def RING.CTX_POLL : Reg := ⟨15, 0x58, 0⟩
@[simp] def RING.PREFETCH_DEPTH : Reg := ⟨15, 0x5c, 0⟩
@[simp] def RING.CTX_STATE : Reg := ⟨15, 0x60, 0⟩
@[simp] def RING.CTX_CPL : Reg := ⟨15, 0x64, 0⟩
@[simp] def RING.DB_DROP_CNT : Reg := ⟨15, 0x80, 0⟩
@[simp] def RING.PREFETCH_DROP_CNT : Reg := ⟨15, 0x84, 0⟩
@[simp] def RING.CPL_STALL_CNT : Reg := ⟨15, 0x88, 0⟩
@[simp] def RING.BAD_DESC_CNT : Reg := ⟨15, 0x8c, 0⟩
@[simp] def RING.HEAD_REJ_CNT : Reg := ⟨15, 0x90, 0⟩
@[simp] def TRANSOM.TGT : Reg := ⟨16, 0x40, 0⟩
@[simp] def TRANSOM.ADDR : Reg := ⟨16, 0x44, 0⟩
@[simp] def TRANSOM.INCR : Reg := ⟨16, 0x4c, 0⟩
@[simp] def TRANSOM.DATA : Reg := ⟨16, 0x50, 0⟩
@[simp] def TRANSOM.ADVANCE : Reg := ⟨16, 0x54, 0⟩
@[simp] def TRANSOM.FILL : Reg := ⟨16, 0x58, 0⟩
@[simp] def TRANSOM.STATUS : Reg := ⟨16, 0x5c, 0⟩
@[simp] def TRANSOM.SPACE_INFO : Reg := ⟨16, 0x60, 0⟩
@[simp] def LANE.LANE_CTL (i : Nat) : Reg := ⟨17, 0x100 + 32 * i, 0⟩
@[simp] def LANE.LANE_STATUS (i : Nat) : Reg := ⟨17, 0x104 + 32 * i, 0⟩
@[simp] def LANE.FEC_SYM (i : Nat) : Reg := ⟨17, 0x108 + 32 * i, 0⟩
@[simp] def LANE.FEC_HIST (i : Nat) : Reg := ⟨17, 0x110 + 32 * i, 0⟩
@[simp] def CAL.CAL_CTL : Reg := ⟨18, 0x40, 0⟩
@[simp] def CAL.SW_TIMEOUT : Reg := ⟨18, 0x44, 0⟩
@[simp] def CAL.GRP_CFG (i : Nat) : Reg := ⟨18, 0x80 + 16 * i, 0⟩
@[simp] def CAL.GRP_NUM (i : Nat) : Reg := ⟨18, 0x84 + 16 * i, 0⟩
@[simp] def CAL.GRP_STATUS (i : Nat) : Reg := ⟨18, 0x88 + 16 * i, 0⟩
@[simp] def CAL.PORT (i : Nat) : Reg := ⟨18, 0x400 + 4 * i, 0⟩
@[simp] def CAL.SLOT (i : Nat) : Reg := ⟨18, 0x1000 + 4 * i, 0⟩
@[simp] def MAC.MAC_CTL : Reg := ⟨19, 0x100, 0⟩
@[simp] def MAC.MAX_FRAME : Reg := ⟨19, 0x104, 0⟩
@[simp] def MAC.FILT_DEFAULT : Reg := ⟨19, 0x108, 0⟩
@[simp] def MAC.TX_LAT_COMP : Reg := ⟨19, 0x10c, 0⟩
@[simp] def MAC.RX_LAT_COMP : Reg := ⟨19, 0x110, 0⟩
@[simp] def MAC.LPI_TW : Reg := ⟨19, 0x114, 0⟩
@[simp] def MAC.LPI_IDLE : Reg := ⟨19, 0x118, 0⟩
@[simp] def MAC.PREEMPT_MAP : Reg := ⟨19, 0x11c, 0⟩
@[simp] def MAC.CT_START : Reg := ⟨19, 0x120, 0⟩
@[simp] def MAC.STATION : Reg := ⟨19, 0x124, 0⟩
@[simp] def MAC.MAC_STATUS : Reg := ⟨19, 0x12c, 0⟩
@[simp] def MAC.FILT_W0 (i : Nat) : Reg := ⟨19, 0x400 + 16 * i, 0⟩
@[simp] def MAC.FILT_W1 (i : Nat) : Reg := ⟨19, 0x404 + 16 * i, 0⟩
@[simp] def MAC.FILT_W2 (i : Nat) : Reg := ⟨19, 0x408 + 16 * i, 0⟩
@[simp] def MAC.FILT_W3 (i : Nat) : Reg := ⟨19, 0x40c + 16 * i, 0⟩
@[simp] def MAC.RX_OK : Reg := ⟨19, 0x800, 0⟩
@[simp] def MAC.RX_OCTETS : Reg := ⟨19, 0x808, 0⟩
@[simp] def MAC.RX_FCS_ERR : Reg := ⟨19, 0x810, 0⟩
@[simp] def MAC.RX_RUNT : Reg := ⟨19, 0x818, 0⟩
@[simp] def MAC.RX_OVERSIZE : Reg := ⟨19, 0x820, 0⟩
@[simp] def MAC.RX_TRUNC : Reg := ⟨19, 0x828, 0⟩
@[simp] def MAC.RX_FILT_DROP : Reg := ⟨19, 0x830, 0⟩
@[simp] def MAC.RX_NOBUF : Reg := ⟨19, 0x838, 0⟩
@[simp] def MAC.FEC_CORR_CW : Reg := ⟨19, 0x840, 0⟩
@[simp] def MAC.FEC_UNCORR_CW : Reg := ⟨19, 0x848, 0⟩
@[simp] def MAC.RX_PFC (i : Nat) : Reg := ⟨19, 0x880 + 8 * i, 0⟩
@[simp] def MAC.TX_PFC (i : Nat) : Reg := ⟨19, 0x8c0 + 8 * i, 0⟩
@[simp] def MAC.TX_OK : Reg := ⟨19, 0x900, 0⟩
@[simp] def MAC.TX_OCTETS : Reg := ⟨19, 0x908, 0⟩
@[simp] def MAC.TX_STOMPED : Reg := ⟨19, 0x910, 0⟩
@[simp] def MAC.RX_PAUSE : Reg := ⟨19, 0x918, 0⟩
@[simp] def MAC.TX_PAUSE : Reg := ⟨19, 0x920, 0⟩
@[simp] def MAC.LPI_TX_ENTRIES : Reg := ⟨19, 0x928, 0⟩
@[simp] def MAC.LPI_RX_ENTRIES : Reg := ⟨19, 0x930, 0⟩
@[simp] def MAC.MM_ASSY_OK : Reg := ⟨19, 0x938, 0⟩
@[simp] def MAC.MM_ASSY_ERR : Reg := ⟨19, 0x940, 0⟩
@[simp] def MAC.MM_SMD_ERR : Reg := ⟨19, 0x948, 0⟩
@[simp] def MAC.MM_FRAG_TX : Reg := ⟨19, 0x950, 0⟩
@[simp] def MAC.MM_HOLD : Reg := ⟨19, 0x958, 0⟩
@[simp] def MAC.RX_BIN (i : Nat) : Reg := ⟨19, 0xa00 + 8 * i, 0⟩
@[simp] def MAC.TX_BIN (i : Nat) : Reg := ⟨19, 0xa80 + 8 * i, 0⟩
@[simp] def PARSE.START : Reg := ⟨20, 0x100, 0⟩
@[simp] def PARSE.START_RECIRC : Reg := ⟨20, 0x104, 0⟩
@[simp] def PARSE.LIMITS : Reg := ⟨20, 0x108, 0⟩
@[simp] def PARSE.COMMIT_INFO : Reg := ⟨20, 0x10c, 0⟩
@[simp] def PARSE.FRAMES_CNT : Reg := ⟨20, 0x120, 0⟩
@[simp] def PARSE.DEPTH_CNT : Reg := ⟨20, 0x124, 0⟩
@[simp] def PARSE.SHORT_CNT : Reg := ⟨20, 0x128, 0⟩
@[simp] def PARSE.VISIT_CNT : Reg := ⟨20, 0x12c, 0⟩
@[simp] def PARSE.TAG_CNT : Reg := ⟨20, 0x130, 0⟩
@[simp] def PARSE.TUNNEL_CNT : Reg := ⟨20, 0x134, 0⟩
@[simp] def PARSE.UNKNOWN_CNT : Reg := ⟨20, 0x138, 0⟩
@[simp] def PARSE.LEN_CNT : Reg := ⟨20, 0x13c, 0⟩
@[simp] def CLASS.CLASS_CTL : Reg := ⟨21, 0x100, 0⟩
@[simp] def CLASS.CTRL_LIMIT : Reg := ⟨21, 0x104, 0⟩
@[simp] def CLASS.DEFAULT_ACT_W (i j : Nat) : Reg := ⟨21, 0x140 + 32 * i + 4 * j, 0⟩
@[simp] def CLASS.KPROF_SEL (i j : Nat) : Reg := ⟨21, 0x200 + 32 * i + 4 * j, 0⟩
@[simp] def CLASS.HPROF_CTL (i : Nat) : Reg := ⟨21, 0x400 + 64 * i, 0⟩
@[simp] def CLASS.HPROF_MASK (i : Nat) : Reg := ⟨21, 0x404 + 64 * i, 0⟩
@[simp] def CLASS.HPROF_KEY (i j : Nat) : Reg := ⟨21, 0x40c + 64 * i + 4 * j, 0⟩
@[simp] def CLASS.MIRR_CTL (i : Nat) : Reg := ⟨21, 0x800 + 16 * i, 0⟩
@[simp] def CLASS.MIRR_SAMPLE (i : Nat) : Reg := ⟨21, 0x804 + 16 * i, 0⟩
@[simp] def CLASS.INDIR_SEL : Reg := ⟨21, 0x900, 0⟩
@[simp] def CLASS.INDIR_DATA : Reg := ⟨21, 0x904, 0⟩
@[simp] def CLASS.CNT_SEL : Reg := ⟨21, 0x940, 0⟩
@[simp] def CLASS.CNT_PKT : Reg := ⟨21, 0x948, 0⟩
@[simp] def CLASS.CNT_BYTE : Reg := ⟨21, 0x950, 0⟩
@[simp] def CLASS.MISS_CNT : Reg := ⟨21, 0x980, 0⟩
@[simp] def CLASS.DROP_CNT : Reg := ⟨21, 0x984, 0⟩
@[simp] def CLASS.BAD_ACTION_CNT : Reg := ⟨21, 0x988, 0⟩
@[simp] def CLASS.NO_TARGET_CNT : Reg := ⟨21, 0x98c, 0⟩
@[simp] def CLASS.CTRL_LIMIT_DROP_CNT : Reg := ⟨21, 0x990, 0⟩
@[simp] def CLASS.MIRROR_CNT : Reg := ⟨21, 0x994, 0⟩
@[simp] def CLASS.INDIR_CFG (i : Nat) : Reg := ⟨21, 0xa00 + 4 * i, 0⟩
@[simp] def FWD.LPROF_CTL (i : Nat) : Reg := ⟨22, 0x100 + 16 * i, 0⟩
@[simp] def FWD.LPROF_L3 (i : Nat) : Reg := ⟨22, 0x104 + 16 * i, 0⟩
@[simp] def FWD.LPROF_EM_MASK (i : Nat) : Reg := ⟨22, 0x108 + 16 * i, 0⟩
@[simp] def FWD.LPROF_MISS (i : Nat) : Reg := ⟨22, 0x10c + 16 * i, 0⟩
@[simp] def FWD.HASH_CFG : Reg := ⟨22, 0x200, 0⟩
@[simp] def FWD.HASH_SEED : Reg := ⟨22, 0x204, 0⟩
@[simp] def FWD.RESIZE : Reg := ⟨22, 0x208, 0⟩
@[simp] def FWD.RESIZE_SEED : Reg := ⟨22, 0x20c, 0⟩
@[simp] def FWD.RESIZE_STATUS : Reg := ⟨22, 0x210, 0⟩
@[simp] def FWD.MOVE_HOLD : Reg := ⟨22, 0x220, 0⟩
@[simp] def FWD.TIME_CFG : Reg := ⟨22, 0x224, 0⟩
@[simp] def FWD.AGE_CFG : Reg := ⟨22, 0x228, 0⟩
@[simp] def FWD.LEARN_Q : Reg := ⟨22, 0x22c, 0⟩
@[simp] def FWD.LEARN_Q_HWM : Reg := ⟨22, 0x230, 0⟩
@[simp] def FWD.ENTRIES : Reg := ⟨22, 0x234, 0⟩
@[simp] def FWD.HAMPER_USE : Reg := ⟨22, 0x238, 0⟩
@[simp] def FWD.SW_MAC : Reg := ⟨22, 0x240, 0⟩
@[simp] def FWD.SW_DOM : Reg := ⟨22, 0x248, 0⟩
@[simp] def FWD.SW_RESULT : Reg := ⟨22, 0x24c, 0⟩
@[simp] def FWD.SW_CTL : Reg := ⟨22, 0x250, 0⟩
@[simp] def FWD.SW_STATUS : Reg := ⟨22, 0x254, 0⟩
@[simp] def FWD.SW_WHERE : Reg := ⟨22, 0x258, 0⟩
@[simp] def FWD.NOTIFY_BASE : Reg := ⟨22, 0x280, 0⟩
@[simp] def FWD.NOTIFY_CTL : Reg := ⟨22, 0x288, 0⟩
@[simp] def FWD.NOTIFY_HEAD : Reg := ⟨22, 0x28c, 0⟩
@[simp] def FWD.PORT_LEARN (i : Nat) : Reg := ⟨22, 0x300 + 4 * i, 0⟩
@[simp] def FWD.MEMB_SEL : Reg := ⟨22, 0x600, 0⟩
@[simp] def FWD.MEMB_DATA : Reg := ⟨22, 0x604, 0⟩
@[simp] def FWD.EM_HIT_CNT : Reg := ⟨22, 0x700, 0⟩
@[simp] def FWD.L2_HIT_CNT : Reg := ⟨22, 0x704, 0⟩
@[simp] def FWD.L2_MISS_CNT : Reg := ⟨22, 0x708, 0⟩
@[simp] def FWD.DROP_CNT : Reg := ⟨22, 0x70c, 0⟩
@[simp] def FWD.LEARN_CNT : Reg := ⟨22, 0x710, 0⟩
@[simp] def FWD.MOVE_CNT : Reg := ⟨22, 0x714, 0⟩
@[simp] def FWD.FLAP_CNT : Reg := ⟨22, 0x718, 0⟩
@[simp] def FWD.FULL_CNT : Reg := ⟨22, 0x71c, 0⟩
@[simp] def FWD.LOCKED_CNT : Reg := ⟨22, 0x720, 0⟩
@[simp] def FWD.LEARN_DROP_CNT : Reg := ⟨22, 0x724, 0⟩
@[simp] def FWD.AGED_CNT : Reg := ⟨22, 0x728, 0⟩
@[simp] def FWD.HOLD_EVICT_CNT : Reg := ⟨22, 0x72c, 0⟩
@[simp] def FWD.NOTIFY_DROP_CNT : Reg := ⟨22, 0x730, 0⟩
@[simp] def FWD.RESIZE_LOST_CNT : Reg := ⟨22, 0x734, 0⟩
@[simp] def FWD.PGRP (i : Nat) : Reg := ⟨22, 0x4000 + 4 * i, 0⟩
@[simp] def LPM.CMD_PFX (i : Nat) : Reg := ⟨23, 0x100 + 4 * i, 0⟩
@[simp] def LPM.CMD_KEY : Reg := ⟨23, 0x110, 0⟩
@[simp] def LPM.CMD_RESULT : Reg := ⟨23, 0x114, 0⟩
@[simp] def LPM.CMD_NH : Reg := ⟨23, 0x118, 0⟩
@[simp] def LPM.CMD_CTL : Reg := ⟨23, 0x11c, 0⟩
@[simp] def LPM.CMD_STATUS : Reg := ⟨23, 0x120, 0⟩
@[simp] def LPM.ENTRIES : Reg := ⟨23, 0x140, 0⟩
@[simp] def LPM.LENMAP_V4 : Reg := ⟨23, 0x144, 0⟩
@[simp] def LPM.LENMAP_V6 (i : Nat) : Reg := ⟨23, 0x150 + 4 * i, 0⟩
@[simp] def LPM.NH_SEL : Reg := ⟨23, 0x180, 0⟩
@[simp] def LPM.NH_W0 : Reg := ⟨23, 0x184, 0⟩
@[simp] def LPM.NH_W1 : Reg := ⟨23, 0x188, 0⟩
@[simp] def LPM.NH_W2 : Reg := ⟨23, 0x18c, 0⟩
@[simp] def LPM.NH_W3 : Reg := ⟨23, 0x190, 0⟩
@[simp] def LPM.LOOKUP_CNT : Reg := ⟨23, 0x200, 0⟩
@[simp] def LPM.HIT_CNT : Reg := ⟨23, 0x204, 0⟩
@[simp] def LPM.PROBE_CNT : Reg := ⟨23, 0x208, 0⟩
@[simp] def LPM.PROBE_LIMIT_CNT : Reg := ⟨23, 0x20c, 0⟩
@[simp] def LPM.TTL_EXP_CNT : Reg := ⟨23, 0x210, 0⟩
@[simp] def TM.OBJ_SEL : Reg := ⟨24, 0x40, 0⟩
@[simp] def TM.SCHED : Reg := ⟨24, 0x44, 0⟩
@[simp] def TM.SHAPE_RATE : Reg := ⟨24, 0x48, 0⟩
@[simp] def TM.SHAPE_BURST : Reg := ⟨24, 0x4c, 0⟩
@[simp] def TM.ADMIT : Reg := ⟨24, 0x50, 0⟩
@[simp] def TM.LATE_LIMIT : Reg := ⟨24, 0x54, 0⟩
@[simp] def TM.PORT_CTL : Reg := ⟨24, 0x58, 0⟩
@[simp] def TM.LV_COUNT : Reg := ⟨24, 0x5c, 0⟩
@[simp] def TM.LV_CYCLE_NS : Reg := ⟨24, 0x60, 0⟩
@[simp] def TM.LV_BASE_SEC : Reg := ⟨24, 0x64, 0⟩
@[simp] def TM.LV_BASE_NS : Reg := ⟨24, 0x6c, 0⟩
@[simp] def TM.LV_FALLBACK : Reg := ⟨24, 0x70, 0⟩
@[simp] def TM.GUARD_NS : Reg := ⟨24, 0x74, 0⟩
@[simp] def TM.PFC_THRESH : Reg := ⟨24, 0x78, 0⟩
@[simp] def TM.PFC_CFG : Reg := ⟨24, 0x7c, 0⟩
@[simp] def TM.LV_STATUS : Reg := ⟨24, 0xc0, 0⟩
@[simp] def TM.SHAPE_TICK : Reg := ⟨24, 0x100, 0⟩
@[simp] def TM.POL_TICK : Reg := ⟨24, 0x104, 0⟩
@[simp] def TM.TEL_CFG : Reg := ⟨24, 0x108, 0⟩
@[simp] def TM.TM_DOM : Reg := ⟨24, 0x10c, 0⟩
@[simp] def TM.SPILL_BASE : Reg := ⟨24, 0x110, 0⟩
@[simp] def TM.SPILL_SIZE : Reg := ⟨24, 0x118, 0⟩
@[simp] def TM.BUF_RESV : Reg := ⟨24, 0x11c, 0⟩
@[simp] def TM.HOSTBUF (i : Nat) : Reg := ⟨24, 0x120 + 4 * i, 0⟩
@[simp] def TM.BUF_FREE : Reg := ⟨24, 0x134, 0⟩
@[simp] def TM.SPILL_USE : Reg := ⟨24, 0x138, 0⟩
@[simp] def TM.HIST_SEL : Reg := ⟨24, 0x140, 0⟩
@[simp] def TM.Q_DEPTH : Reg := ⟨24, 0x144, 0⟩
@[simp] def TM.Q_HWM : Reg := ⟨24, 0x148, 0⟩
@[simp] def TM.HIST_BIN (i : Nat) : Reg := ⟨24, 0x180 + 4 * i, 0⟩
@[simp] def TM.POL_SEL : Reg := ⟨24, 0x200, 0⟩
@[simp] def TM.POL_W0 : Reg := ⟨24, 0x204, 0⟩
@[simp] def TM.POL_W1 : Reg := ⟨24, 0x208, 0⟩
@[simp] def TM.POL_W2 : Reg := ⟨24, 0x20c, 0⟩
@[simp] def TM.POL_W3 : Reg := ⟨24, 0x210, 0⟩
@[simp] def TM.POL_W4 : Reg := ⟨24, 0x214, 0⟩
@[simp] def TM.POL_GREEN : Reg := ⟨24, 0x218, 0⟩
@[simp] def TM.POL_YELLOW : Reg := ⟨24, 0x21c, 0⟩
@[simp] def TM.POL_RED : Reg := ⟨24, 0x220, 0⟩
@[simp] def TM.PCOLOUR (i : Nat) : Reg := ⟨24, 0x230 + 4 * i, 0⟩
@[simp] def TM.LV_SEL : Reg := ⟨24, 0x280, 0⟩
@[simp] def TM.LV_W0 : Reg := ⟨24, 0x284, 0⟩
@[simp] def TM.LV_W1 : Reg := ⟨24, 0x288, 0⟩
@[simp] def TM.REPL_SEL : Reg := ⟨24, 0x300, 0⟩
@[simp] def TM.REPL_CTL : Reg := ⟨24, 0x304, 0⟩
@[simp] def TM.REPL_MASK (i : Nat) : Reg := ⟨24, 0x380 + 4 * i, 0⟩
@[simp] def TM.TM_DROP_CNT : Reg := ⟨24, 0x400, 0⟩
@[simp] def TM.LATE_DROP_CNT : Reg := ⟨24, 0x404, 0⟩
@[simp] def TM.GATE_OVERSIZE_CNT : Reg := ⟨24, 0x408, 0⟩
@[simp] def TM.HEADROOM_DROP_CNT : Reg := ⟨24, 0x40c, 0⟩
@[simp] def TM.PORT_DOWN_CNT : Reg := ⟨24, 0x410, 0⟩
@[simp] def FLOW.ENG_CTL : Reg := ⟨25, 0x100, 0⟩
@[simp] def FLOW.ENG_STATUS : Reg := ⟨25, 0x104, 0⟩
@[simp] def FLOW.PROG_BASE : Reg := ⟨25, 0x108, 0⟩
@[simp] def FLOW.PROG_SIZE : Reg := ⟨25, 0x110, 0⟩
@[simp] def FLOW.ICACHE_INV : Reg := ⟨25, 0x114, 0⟩
@[simp] def FLOW.WQ_STATUS : Reg := ⟨25, 0x118, 0⟩
@[simp] def FLOW.WQ_HWM : Reg := ⟨25, 0x11c, 0⟩
@[simp] def FLOW.ENTRY (i : Nat) : Reg := ⟨25, 0x140 + 4 * i, 0⟩
@[simp] def FLOW.THR_CFG (i : Nat) : Reg := ⟨25, 0x200 + 32 * i, 0⟩
@[simp] def FLOW.THR_START (i : Nat) : Reg := ⟨25, 0x204 + 32 * i, 0⟩
@[simp] def FLOW.THR_CTL (i : Nat) : Reg := ⟨25, 0x208 + 32 * i, 0⟩
@[simp] def FLOW.THR_STATUS (i : Nat) : Reg := ⟨25, 0x20c + 32 * i, 0⟩
@[simp] def FLOW.THR_FPC (i : Nat) : Reg := ⟨25, 0x210 + 32 * i, 0⟩
@[simp] def FLOW.THR_UPC (i : Nat) : Reg := ⟨25, 0x214 + 32 * i, 0⟩
@[simp] def FLOW.REG_SEL : Reg := ⟨25, 0x400, 0⟩
@[simp] def FLOW.REG_DATA : Reg := ⟨25, 0x408, 0⟩
@[simp] def FLOW.CS_CTL : Reg := ⟨25, 0x440, 0⟩
@[simp] def FLOW.CS_STATUS : Reg := ⟨25, 0x444, 0⟩
@[simp] def FLOW.CS_CRC : Reg := ⟨25, 0x448, 0⟩
@[simp] def FLOW.CS_INFO : Reg := ⟨25, 0x44c, 0⟩
@[simp] def FLOW.WORK_DROP_CNT : Reg := ⟨25, 0x480, 0⟩
@[simp] def FLOW.FRAME_LEAK_CNT : Reg := ⟨25, 0x484, 0⟩
@[simp] def FLOW.REINJ_DROP_CNT : Reg := ⟨25, 0x488, 0⟩
@[simp] def FLOW.TRAP_CNT : Reg := ⟨25, 0x48c, 0⟩
@[simp] def FLOW.ABORT_CNT : Reg := ⟨25, 0x490, 0⟩
@[simp] def FLOW.MISPREDICT_CNT : Reg := ⟨25, 0x494, 0⟩
@[simp] def FLOW.CPL_DUP_CNT : Reg := ⟨25, 0x498, 0⟩
@[simp] def FLOW.FC_BASE : Reg := ⟨25, 0x500, 0⟩
@[simp] def FLOW.FC_CFG : Reg := ⟨25, 0x508, 0⟩
@[simp] def FLOW.FC_SWEEP_MS : Reg := ⟨25, 0x50c, 0⟩
@[simp] def FLOW.FC_ENTRIES : Reg := ⟨25, 0x510, 0⟩
@[simp] def FLOW.FC_FULL_CNT : Reg := ⟨25, 0x514, 0⟩
@[simp] def FLOW.FC_AGED_CNT : Reg := ⟨25, 0x518, 0⟩
@[simp] def CHAN.CH_CTL (i : Nat) : Reg := ⟨26, 0x100 + 32 * i, 0⟩
@[simp] def CHAN.CH_STATUS (i : Nat) : Reg := ⟨26, 0x104 + 32 * i, 0⟩
@[simp] def CHAN.PUT (i : Nat) : Reg := ⟨26, 0x108 + 32 * i, 0⟩
@[simp] def CHAN.GET (i : Nat) : Reg := ⟨26, 0x110 + 32 * i, 0⟩
@[simp] def CHAN.EVT_DROP_CNT : Reg := ⟨26, 0x500, 0⟩
@[simp] def CORE.CORE_CTL : Reg := ⟨27, 0x100, 0⟩
@[simp] def CORE.CORE_STATUS : Reg := ⟨27, 0x104, 0⟩
@[simp] def CORE.BOOT_ADDR : Reg := ⟨27, 0x108, 0⟩
@[simp] def CORE.FATAL_CAUSE : Reg := ⟨27, 0x110, 0⟩
@[simp] def CORE.FATAL_EPC : Reg := ⟨27, 0x114, 0⟩
@[simp] def CORE.CTRLQ_CTL : Reg := ⟨27, 0x120, 0⟩
@[simp] def CORE.CTRLQ_WBASE : Reg := ⟨27, 0x124, 0⟩
@[simp] def CORE.CTRLQ_CBASE : Reg := ⟨27, 0x12c, 0⟩
@[simp] def CORE.CTRLQ_DB : Reg := ⟨27, 0x134, 0⟩
@[simp] def CORE.CTRLQ_HEAD : Reg := ⟨27, 0x138, 0⟩
@[simp] def CORE.CTRLQ_DROP_CNT : Reg := ⟨27, 0x13c, 0⟩
@[simp] def RDMA.QP_SEL : Reg := ⟨28, 0x40, 0⟩
@[simp] def RDMA.QP_CTL : Reg := ⟨28, 0x44, 0⟩
@[simp] def RDMA.QP_DEST : Reg := ⟨28, 0x48, 0⟩
@[simp] def RDMA.QP_PORT : Reg := ⟨28, 0x4c, 0⟩
@[simp] def RDMA.QP_DIP (i : Nat) : Reg := ⟨28, 0x50 + 4 * i, 0⟩
@[simp] def RDMA.QP_SIP (i : Nat) : Reg := ⟨28, 0x60 + 4 * i, 0⟩
@[simp] def RDMA.QP_DMAC : Reg := ⟨28, 0x70, 0⟩
@[simp] def RDMA.QP_SPSN : Reg := ⟨28, 0x78, 0⟩
@[simp] def RDMA.QP_RPSN : Reg := ⟨28, 0x7c, 0⟩
@[simp] def RDMA.QP_TIMERS : Reg := ⟨28, 0x80, 0⟩
@[simp] def RDMA.QP_RINGS : Reg := ⟨28, 0x84, 0⟩
@[simp] def RDMA.QP_ACCESS : Reg := ⟨28, 0x88, 0⟩
@[simp] def RDMA.QP_CC : Reg := ⟨28, 0x8c, 0⟩
@[simp] def RDMA.QP_STATUS : Reg := ⟨28, 0x90, 0⟩
@[simp] def RDMA.QP_RATE : Reg := ⟨28, 0x94, 0⟩
@[simp] def RDMA.QP_RTT : Reg := ⟨28, 0x98, 0⟩
@[simp] def RDMA.QP_INFLIGHT : Reg := ⟨28, 0x9c, 0⟩
@[simp] def RDMA.MR_BASE : Reg := ⟨28, 0x100, 0⟩
@[simp] def RDMA.MR_CFG : Reg := ⟨28, 0x108, 0⟩
@[simp] def RDMA.MR_SEL : Reg := ⟨28, 0x10c, 0⟩
@[simp] def RDMA.MR_W (i : Nat) : Reg := ⟨28, 0x110 + 4 * i, 0⟩
@[simp] def RDMA.RTX_BASE : Reg := ⟨28, 0x140, 0⟩
@[simp] def RDMA.RTX_SIZE : Reg := ⟨28, 0x148, 0⟩
@[simp] def RDMA.RTX_USE : Reg := ⟨28, 0x14c, 0⟩
@[simp] def RDMA.RX_CTL : Reg := ⟨28, 0x150, 0⟩
@[simp] def RDMA.ACK_EVERY : Reg := ⟨28, 0x154, 0⟩
@[simp] def RDMA.LIP_SEL : Reg := ⟨28, 0x160, 0⟩
@[simp] def RDMA.LIP_W (i : Nat) : Reg := ⟨28, 0x164 + 4 * i, 0⟩
@[simp] def RDMA.LIP_CTL : Reg := ⟨28, 0x174, 0⟩
@[simp] def RDMA.CC_TLOW (i : Nat) : Reg := ⟨28, 0x200 + 32 * i, 0⟩
@[simp] def RDMA.CC_THIGH (i : Nat) : Reg := ⟨28, 0x204 + 32 * i, 0⟩
@[simp] def RDMA.CC_STEP (i : Nat) : Reg := ⟨28, 0x208 + 32 * i, 0⟩
@[simp] def RDMA.CC_MIN (i : Nat) : Reg := ⟨28, 0x20c + 32 * i, 0⟩
@[simp] def RDMA.CC_INIT (i : Nat) : Reg := ⟨28, 0x210 + 32 * i, 0⟩
@[simp] def RDMA.TRIG_SEL : Reg := ⟨28, 0x300, 0⟩
@[simp] def RDMA.TRIG_VAL : Reg := ⟨28, 0x304, 0⟩
@[simp] def RDMA.TX_PKT_CNT : Reg := ⟨28, 0x400, 0⟩
@[simp] def RDMA.RX_PKT_CNT : Reg := ⟨28, 0x404, 0⟩
@[simp] def RDMA.RETX_PKT_CNT : Reg := ⟨28, 0x408, 0⟩
@[simp] def RDMA.SEQ_NAK_TX_CNT : Reg := ⟨28, 0x40c, 0⟩
@[simp] def RDMA.SEQ_NAK_RX_CNT : Reg := ⟨28, 0x410, 0⟩
@[simp] def RDMA.TIMEOUT_CNT : Reg := ⟨28, 0x414, 0⟩
@[simp] def RDMA.RNR_NAK_TX_CNT : Reg := ⟨28, 0x418, 0⟩
@[simp] def RDMA.RNR_NAK_RX_CNT : Reg := ⟨28, 0x41c, 0⟩
@[simp] def RDMA.DUP_CNT : Reg := ⟨28, 0x420, 0⟩
@[simp] def RDMA.REPLAY_CNT : Reg := ⟨28, 0x424, 0⟩
@[simp] def RDMA.CACHE_NAK_CNT : Reg := ⟨28, 0x428, 0⟩
@[simp] def RDMA.ACCESS_NAK_CNT : Reg := ⟨28, 0x42c, 0⟩
@[simp] def RDMA.ICRC_ERR_CNT : Reg := ⟨28, 0x430, 0⟩
@[simp] def RDMA.BAD_HDR_CNT : Reg := ⟨28, 0x434, 0⟩
@[simp] def RDMA.CNP_RX_CNT : Reg := ⟨28, 0x438, 0⟩
@[simp] def RDMA.QP_ERR_CNT : Reg := ⟨28, 0x43c, 0⟩
@[simp] def BLKF.VOL_SEL : Reg := ⟨29, 0x40, 0⟩
@[simp] def BLKF.VOL_CTL : Reg := ⟨29, 0x44, 0⟩
@[simp] def BLKF.VOL_OWNER : Reg := ⟨29, 0x48, 0⟩
@[simp] def BLKF.VOL_FIRST_EXT : Reg := ⟨29, 0x4c, 0⟩
@[simp] def BLKF.VOL_NUM_EXT : Reg := ⟨29, 0x54, 0⟩
@[simp] def BLKF.VOL_FLUSH_US : Reg := ⟨29, 0x5c, 0⟩
@[simp] def BLKF.VOL_KEY : Reg := ⟨29, 0x60, 0⟩
@[simp] def BLKF.VOL_STATUS : Reg := ⟨29, 0x64, 0⟩
@[simp] def BLKF.DEFER_TAG : Reg := ⟨29, 0x68, 0⟩
@[simp] def BLKF.DEFER_INFO : Reg := ⟨29, 0x6c, 0⟩
@[simp] def BLKF.DEFER_LBA : Reg := ⟨29, 0x70, 0⟩
@[simp] def BLKF.STAGE_BASE : Reg := ⟨29, 0x100, 0⟩
@[simp] def BLKF.STAGE_CFG : Reg := ⟨29, 0x108, 0⟩
@[simp] def BLKF.STAGE_USED : Reg := ⟨29, 0x10c, 0⟩
@[simp] def BLKF.STAGE_HWM : Reg := ⟨29, 0x110, 0⟩
@[simp] def BLKF.TW_SEL : Reg := ⟨29, 0x140, 0⟩
@[simp] def BLKF.TW_STATE : Reg := ⟨29, 0x144, 0⟩
@[simp] def BLKF.TW_TAG : Reg := ⟨29, 0x148, 0⟩
@[simp] def BLKF.TW_CTL : Reg := ⟨29, 0x14c, 0⟩
@[simp] def BLKF.READ_CNT : Reg := ⟨29, 0x180, 0⟩
@[simp] def BLKF.WRITE_CNT : Reg := ⟨29, 0x184, 0⟩
@[simp] def BLKF.HAZARD_WAIT_CNT : Reg := ⟨29, 0x188, 0⟩
@[simp] def BLKF.DIRTY_WAIT_CNT : Reg := ⟨29, 0x18c, 0⟩
@[simp] def BLKF.ATOMIC_REJ_CNT : Reg := ⟨29, 0x190, 0⟩
@[simp] def BLKF.SOLO_ACK_CNT : Reg := ⟨29, 0x194, 0⟩
@[simp] def BLKF.DEFER_CNT : Reg := ⟨29, 0x198, 0⟩
@[simp] def BLKF.TASK_BUSY_CNT : Reg := ⟨29, 0x19c, 0⟩
@[simp] def BLKF.SPACE_REJ_CNT : Reg := ⟨29, 0x1a0, 0⟩
@[simp] def BLKB.DOM : Reg := ⟨30, 0x40, 0⟩
@[simp] def BLKB.NVME_TIMEOUT_MS : Reg := ⟨30, 0x44, 0⟩
@[simp] def BLKB.BE_CFG : Reg := ⟨30, 0x48, 0⟩
@[simp] def BLKB.INBOUND_DENY_CNT : Reg := ⟨30, 0x4c, 0⟩
@[simp] def BLKB.SSD_CFG (i : Nat) : Reg := ⟨30, 0x100 + 32 * i, 0⟩
@[simp] def BLKB.SSD_NSID (i : Nat) : Reg := ⟨30, 0x104 + 32 * i, 0⟩
@[simp] def BLKB.SSD_STATUS (i : Nat) : Reg := ⟨30, 0x108 + 32 * i, 0⟩
@[simp] def BLKB.SSD_CMD (i : Nat) : Reg := ⟨30, 0x10c + 32 * i, 0⟩
@[simp] def BLKB.SSD_MEDIA_ERR_CNT (i : Nat) : Reg := ⟨30, 0x110 + 32 * i, 0⟩
@[simp] def BLKB.SSD_TIMEOUT_CNT (i : Nat) : Reg := ⟨30, 0x114 + 32 * i, 0⟩
@[simp] def BLKB.SSD_RECON_CNT (i : Nat) : Reg := ⟨30, 0x118 + 32 * i, 0⟩
@[simp] def BLKB.SET_CFG (i : Nat) : Reg := ⟨30, 0x400 + 16 * i, 0⟩
@[simp] def BLKB.SET_LBA0 (i : Nat) : Reg := ⟨30, 0x404 + 16 * i, 0⟩
@[simp] def BLKB.SET_STATE (i : Nat) : Reg := ⟨30, 0x40c + 16 * i, 0⟩
@[simp] def BLKB.SET_FREE (i : Nat) : Reg := ⟨30, 0x600 + 8 * i, 0⟩
@[simp] def BLKB.SET_RESV (i : Nat) : Reg := ⟨30, 0x680 + 8 * i, 0⟩
@[simp] def MAP.MAP_BASE : Reg := ⟨31, 0x40, 0⟩
@[simp] def MAP.MAP_CFG : Reg := ⟨31, 0x48, 0⟩
@[simp] def MAP.JRNL_CFG : Reg := ⟨31, 0x4c, 0⟩
@[simp] def MAP.JRNL_LBA : Reg := ⟨31, 0x50, 0⟩
@[simp] def MAP.JRNL_SIZE : Reg := ⟨31, 0x58, 0⟩
@[simp] def MAP.CKPT_LBA : Reg := ⟨31, 0x5c, 0⟩
@[simp] def MAP.JRNL_USE : Reg := ⟨31, 0x64, 0⟩
@[simp] def MAP.JRNL_SEQ : Reg := ⟨31, 0x68, 0⟩
@[simp] def MAP.REBUILD : Reg := ⟨31, 0x70, 0⟩
@[simp] def MAP.REBUILD_STATUS : Reg := ⟨31, 0x74, 0⟩
@[simp] def MAP.JRNL_REC_CNT : Reg := ⟨31, 0x100, 0⟩
@[simp] def MAP.JRNL_FULL_CNT : Reg := ⟨31, 0x104, 0⟩
@[simp] def MAP.CKPT_PAGE_CNT : Reg := ⟨31, 0x108, 0⟩
@[simp] def MAP.MAP_UE_CNT : Reg := ⟨31, 0x10c, 0⟩
@[simp] def CIPH.SA_SEL : Reg := ⟨32, 0x40, 0⟩
@[simp] def CIPH.SA_W (i : Nat) : Reg := ⟨32, 0x44 + 4 * i, 0⟩
@[simp] def CIPH.MASK_CFG : Reg := ⟨32, 0xc0, 0⟩
@[simp] def CIPH.MASK_STATUS : Reg := ⟨32, 0xc4, 0⟩
@[simp] def CIPH.JOB_SHARE : Reg := ⟨32, 0xc8, 0⟩
@[simp] def CIPH.LAST_KEY : Reg := ⟨32, 0xcc, 0⟩
@[simp] def CIPH.STORE_STATUS : Reg := ⟨32, 0xd0, 0⟩
@[simp] def CIPH.AUTH_FAIL_CNT : Reg := ⟨32, 0x100, 0⟩
@[simp] def CIPH.REPLAY_DROP_CNT : Reg := ⟨32, 0x104, 0⟩
@[simp] def CIPH.SA_BAD_CNT : Reg := ⟨32, 0x108, 0⟩
@[simp] def CIPH.PN_EXHAUST_CNT : Reg := ⟨32, 0x10c, 0⟩
@[simp] def CIPH.SPENT_DROP_CNT : Reg := ⟨32, 0x110, 0⟩
@[simp] def CIPH.OVERRUN_CNT : Reg := ⟨32, 0x114, 0⟩
@[simp] def CIPH.MASK_STOP_CNT : Reg := ⟨32, 0x118, 0⟩
@[simp] def CIPH.FAULT_CNT : Reg := ⟨32, 0x11c, 0⟩
@[simp] def VAULT.CMD : Reg := ⟨33, 0x40, 0⟩
@[simp] def VAULT.SLOT : Reg := ⟨33, 0x44, 0⟩
@[simp] def VAULT.ARG : Reg := ⟨33, 0x48, 0⟩
@[simp] def VAULT.LEN : Reg := ⟨33, 0x4c, 0⟩
@[simp] def VAULT.STATUS : Reg := ⟨33, 0x50, 0⟩
@[simp] def VAULT.OUT_LEN : Reg := ⟨33, 0x54, 0⟩
@[simp] def VAULT.SLOT_INFO : Reg := ⟨33, 0x58, 0⟩
@[simp] def VAULT.USE : Reg := ⟨33, 0x60, 0⟩
@[simp] def VAULT.WARN : Reg := ⟨33, 0x68, 0⟩
@[simp] def VAULT.LIMIT : Reg := ⟨33, 0x70, 0⟩
@[simp] def VAULT.SLOTS_USED : Reg := ⟨33, 0x78, 0⟩
@[simp] def VAULT.IN (i : Nat) : Reg := ⟨33, 0x2000 + 4 * i, 0⟩
@[simp] def VAULT.OUT (i : Nat) : Reg := ⟨33, 0x4000 + 4 * i, 0⟩
@[simp] def RNG.CTL : Reg := ⟨34, 0x40, 0⟩
@[simp] def RNG.STATUS : Reg := ⟨34, 0x44, 0⟩
@[simp] def RNG.HT_CFG : Reg := ⟨34, 0x48, 0⟩
@[simp] def RNG.RESEED_LOG2 : Reg := ⟨34, 0x4c, 0⟩
@[simp] def RNG.HELD : Reg := ⟨34, 0x50, 0⟩
@[simp] def RNG.RCT_FAIL_CNT : Reg := ⟨34, 0x80, 0⟩
@[simp] def RNG.APT_FAIL_CNT : Reg := ⟨34, 0x84, 0⟩
@[simp] def RNG.DISCARD_CNT : Reg := ⟨34, 0x88, 0⟩
@[simp] def RNG.HELD_FAIL_CNT : Reg := ⟨34, 0x8c, 0⟩
@[simp] def PAIR.CFG : Reg := ⟨35, 0x40, 0⟩
@[simp] def PAIR.HB_US : Reg := ⟨35, 0x44, 0⟩
@[simp] def PAIR.DEAD_US : Reg := ⟨35, 0x48, 0⟩
@[simp] def PAIR.LINK_CFG : Reg := ⟨35, 0x4c, 0⟩
@[simp] def PAIR.MIRROR_CFG : Reg := ⟨35, 0x50, 0⟩
@[simp] def PAIR.TIME_ALARM_NS : Reg := ⟨35, 0x54, 0⟩
@[simp] def PAIR.CTL : Reg := ⟨35, 0x58, 0⟩
@[simp] def PAIR.STATUS : Reg := ⟨35, 0x5c, 0⟩
@[simp] def PAIR.EPOCH : Reg := ⟨35, 0x60, 0⟩
@[simp] def PAIR.PEER_EPOCH : Reg := ⟨35, 0x64, 0⟩
@[simp] def PAIR.FENCE_INFO : Reg := ⟨35, 0x68, 0⟩
@[simp] def PAIR.RESYNC_STATUS : Reg := ⟨35, 0x6c, 0⟩
@[simp] def PAIR.VOL_OWN (i : Nat) : Reg := ⟨35, 0x80 + 4 * i, 0⟩
@[simp] def PAIR.TOFF (i : Nat) : Reg := ⟨35, 0x900 + 8 * i, 0⟩
@[simp] def PAIR.HB_TX_CNT : Reg := ⟨35, 0xa00, 0⟩
@[simp] def PAIR.HB_RX_CNT : Reg := ⟨35, 0xa04, 0⟩
@[simp] def PAIR.STALE_DROP_CNT : Reg := ⟨35, 0xa08, 0⟩
@[simp] def PAIR.FENCE_TX_CNT : Reg := ⟨35, 0xa0c, 0⟩
@[simp] def PAIR.RETX_CNT : Reg := ⟨35, 0xa10, 0⟩
@[simp] def PAIR.DUP_CNT : Reg := ⟨35, 0xa14, 0⟩
@[simp] def PAIR.LINK_DOWN_CNT : Reg := ⟨35, 0xa18, 0⟩
@[simp] def PAIR.DECLARE_CNT : Reg := ⟨35, 0xa1c, 0⟩
@[simp] def MEM.HBM_SCRUB : Reg := ⟨36, 0x40, 0⟩
@[simp] def MEM.DDR_SCRUB : Reg := ⟨36, 0x44, 0⟩
@[simp] def MEM.SCRUB_STATUS : Reg := ⟨36, 0x48, 0⟩
@[simp] def MEM.HBM_PASS_CNT : Reg := ⟨36, 0x4c, 0⟩
@[simp] def MEM.DDR_PASS_CNT : Reg := ⟨36, 0x50, 0⟩
@[simp] def MEM.SCRUB_SKIP_CNT : Reg := ⟨36, 0x54, 0⟩
@[simp] def MEM.CE_CFG : Reg := ⟨36, 0x58, 0⟩
@[simp] def MEM.CE_RATE_SRC : Reg := ⟨36, 0x5c, 0⟩
@[simp] def MEM.UE_INFO : Reg := ⟨36, 0x60, 0⟩
@[simp] def MEM.UE_ADDR : Reg := ⟨36, 0x64, 0⟩
@[simp] def MEM.DDR_STATUS : Reg := ⟨36, 0x6c, 0⟩
@[simp] def MEM.HBM_STATUS : Reg := ⟨36, 0x70, 0⟩
@[simp] def MEM.CE_CNT (i : Nat) : Reg := ⟨36, 0x100 + 8 * i, 0⟩
@[simp] def MEM.UE_CNT (i : Nat) : Reg := ⟨36, 0x104 + 8 * i, 0⟩
@[simp] def ERR.REC_HEAD : Reg := ⟨37, 0x40, 0⟩
@[simp] def ERR.REC_TAIL : Reg := ⟨37, 0x44, 0⟩
@[simp] def ERR.SEQ : Reg := ⟨37, 0x48, 0⟩
@[simp] def ERR.LAST (i : Nat) : Reg := ⟨37, 0xc0 + 4 * i, 0⟩
@[simp] def ERR.CLASS_CTL (i : Nat) : Reg := ⟨37, 0x100 + 16 * i, 0⟩
@[simp] def ERR.CLASS_CNT (i : Nat) : Reg := ⟨37, 0x104 + 16 * i, 0⟩
@[simp] def ERR.CLASS_OVF_CNT (i : Nat) : Reg := ⟨37, 0x108 + 16 * i, 0⟩
@[simp] def ERR.REC (i : Nat) : Reg := ⟨37, 0x1000 + 4 * i, 0⟩
@[simp] def LIFE.CTL : Reg := ⟨38, 0x40, 0⟩
@[simp] def LIFE.STATUS : Reg := ⟨38, 0x44, 0⟩
@[simp] def LIFE.LAST_SEQ : Reg := ⟨38, 0x48, 0⟩
@[simp] def LIFE.SINCE_S : Reg := ⟨38, 0x4c, 0⟩
@[simp] def LIFE.RECORDS : Reg := ⟨38, 0x50, 0⟩
@[simp] def LIFE.TJ_NOW : Reg := ⟨38, 0x54, 0⟩
@[simp] def LIFE.TJ_AVG : Reg := ⟨38, 0x58, 0⟩
@[simp] def LIFE.CNT_SEL : Reg := ⟨38, 0x60, 0⟩
@[simp] def LIFE.CNT : Reg := ⟨38, 0x64, 0⟩
@[simp] def PEEP.CTL : Reg := ⟨39, 0x40, 0⟩
@[simp] def PEEP.STREAM_EN : Reg := ⟨39, 0x44, 0⟩
@[simp] def PEEP.STATUS : Reg := ⟨39, 0x48, 0⟩
@[simp] def PEEP.WR_PTR : Reg := ⟨39, 0x4c, 0⟩
@[simp] def PEEP.WRAPS : Reg := ⟨39, 0x50, 0⟩
@[simp] def PEEP.TRACE_DROP_CNT : Reg := ⟨39, 0x54, 0⟩
@[simp] def PEEP.TRIG : Reg := ⟨39, 0x58, 0⟩
@[simp] def PEEP.TRIG_THRESH : Reg := ⟨39, 0x5c, 0⟩
@[simp] def PEEP.POST : Reg := ⟨39, 0x64, 0⟩
@[simp] def PEEP.FILT (i : Nat) : Reg := ⟨39, 0x80 + 4 * i, 0⟩
@[simp] def PEEP.CNT_CLR : Reg := ⟨39, 0x100, 0⟩
@[simp] def PEEP.CNT (i : Nat) : Reg := ⟨39, 0x1000 + 8 * i, 0⟩
@[simp] def PEEP.CNT_CFG (i : Nat) : Reg := ⟨39, 0x3000 + 4 * i, 0⟩
@[simp] def SUPPLY.GUARD_CFG : Reg := ⟨40, 0x40, 0⟩
@[simp] def SUPPLY.GUARD_STATUS : Reg := ⟨40, 0x44, 0⟩
@[simp] def SUPPLY.PF_STATE : Reg := ⟨40, 0x48, 0⟩
@[simp] def SUPPLY.DUMP_CTL : Reg := ⟨40, 0x4c, 0⟩
@[simp] def SUPPLY.DUMP_MASK : Reg := ⟨40, 0x50, 0⟩
@[simp] def SUPPLY.DUMP_LBA : Reg := ⟨40, 0x54, 0⟩
@[simp] def SUPPLY.DUMP_AREA_MIB : Reg := ⟨40, 0x5c, 0⟩
@[simp] def SUPPLY.DUMP_RATE : Reg := ⟨40, 0x60, 0⟩
@[simp] def SUPPLY.HOLDUP_US : Reg := ⟨40, 0x64, 0⟩
@[simp] def SUPPLY.HOLDUP_STATUS : Reg := ⟨40, 0x68, 0⟩
@[simp] def SUPPLY.LAST_DUMP_STATUS : Reg := ⟨40, 0x6c, 0⟩
@[simp] def SUPPLY.GUARD_TRIP_CNT : Reg := ⟨40, 0x80, 0⟩
@[simp] def SUPPLY.PFAIL_GLITCH_CNT : Reg := ⟨40, 0x84, 0⟩
@[simp] def SUPPLY.NV_BLOCK_CNT : Reg := ⟨40, 0x88, 0⟩
@[simp] def SUPPLY.DUMP_ORPHAN_CNT : Reg := ⟨40, 0x8c, 0⟩
@[simp] def SUPPLY.MON_CFG (i : Nat) : Reg := ⟨40, 0x100 + 16 * i, 0⟩
@[simp] def SUPPLY.MON_STATUS (i : Nat) : Reg := ⟨40, 0x104 + 16 * i, 0⟩
@[simp] def SUPPLY.MON_MIN (i : Nat) : Reg := ⟨40, 0x108 + 16 * i, 0⟩

end Sys2Proof.Machine
end

