-- ==== Sys2Proof/Machine/State.lean ====
section
/-! DEFINITION. The state of the ZG4712 as plain data: waiting commands, memory, register copies, and what stands behind
the registers; and the state right after device reset. -/

namespace Sys2Proof.Machine

/-- Everything but commands, memory and register copies. -/
structure Ctl where
  /-- the model's own: number of free values taken so far -/
  free : Nat := 0
  /-- the value answered to the last read -/
  answer : Nat := 0
  /-- what has left the block, oldest first -/
  out : List Out := []
  /-- object of a page's pending set, by page -/
  pendObj : Tbl Nat := []
  /-- parts of a pending set already in use, a bit each, by 512 × page + copy (R71, R80) -/
  parts : Tbl Nat := []
  time : TimeSt
  latches : Tbl Latch := []
  maint : MaintSt
  host : HostSt
  rings : RingsSt
  transom : TransomSt
  health : HealthSt
  net : NetSt
  flow : FlowSt
  boot : BootSt
  ciph : CiphSt
  rdma : RdmaSt
  blk : BlkSt
  pair : PairSt
  lsio : LsioSt
deriving DecidableEq, Repr

/-- The machine. `mem` and `reg` are in canonical form: keys rise strictly, nothing is listed at what it reads as when
unlisted. -/
structure State where
  pending : List Instr
  mem : List Host.Cell
  reg : List (RKey × Word)
  ctl : Ctl
deriving DecidableEq, Repr

/-- Why a run stops. No command of the ZG4712 stops it; the type has one constructor so that it is a type. -/
inductive Fault where
  /-- Raised by nothing: the spec gives every command an effect (safe). -/
  | none
deriving DecidableEq, Repr

/-- Why a command has no meaning. -/
inductive Refusal where
  /-- Raised by `exec` for a command whose meaning is not written yet (safe). -/
  | notModelled (mnemonic : String)
deriving DecidableEq, Repr

/-- A link after device reset. The AER severities are PCIe's defaults (R120), log entry 7. -/
def Link.init : Link := ⟨0, false, false, false, 0, 0, 0, 0x00400000, 0x00462030, 0, 0x0000E000, none⟩

/-- Slot 0 after device reset: DEVICE_ROOT, a KEK256 with WRAP only and a LIMIT of 2^64 − 1 (R434). -/
def deviceRootSlot : KeySlot := ⟨4, 0x10, 0, 2 ^ 64 - 1, 2 ^ 64 - 1, Config.deviceRoot, false, false⟩

/-- Everything behind the registers after device reset. -/
def Ctl.reset : Ctl where
  time := {}
  maint := {}
  host := {}
  rings := {}
  transom := {}
  health := {}
  net := {}
  flow := {}
  boot := {}
  ciph := { slots := [(0, deviceRootSlot)] }
  rdma := {}
  blk := {}
  pair := {}
  lsio := {}

/-- The machine right after reset: no command waiting, nothing listed in memory, every register at its reset value. -/
def State.reset : State := ⟨[], [], [], Ctl.reset⟩

end Sys2Proof.Machine
end

