-- ==== Sys2Proof/Machine/Prog.lean ====
section
/-! DEFINITION. Effects: a command's meaning is a `Prog`, and `Prog.run` says what it does to the state. Its few
primitives keep the queue, the canonical form of memory and registers, and the reserved bits (R5), whatever a meaning
says; so such claims need one induction. -/

namespace Sys2Proof.Machine

/-- Whether offset `o` lies in a row, and if so on which half of a pair. -/
def RegRow.half (r : RegRow) (o : Nat) : Option Bool :=
  if o < r.off then none else
  let d := o - r.off
  let a := if r.n1 = 1 then 0 else d / r.s1
  let d1 := if r.n1 = 1 then d else d % r.s1
  let b := if r.n2 = 1 then 0 else d1 / r.s2
  let d2 := if r.n2 = 1 then d1 else d1 % r.s2
  if a < r.n1 ∧ b < r.n2 ∧ (d2 = 0 ∨ (d2 = 4 ∧ r.wide = true)) then some (decide (d2 = 4)) else none

/-- The first row of a list that holds offset `o`. -/
def findRow (o : Nat) : List RegRow → Option (RegRow × Bool)
  | [] => none
  | r :: t =>
    match r.half o with
    | some h => some (r, h)
    | none => findRow o t

/-- The register at offset `o` of a page: its row and whether `o` is the HI half. -/
def rowAt (page o : Nat) : Option (RegRow × Bool) :=
  if o < 0x40 then findRow o rowsHeader else findRow o (pageRows page)

/-- The half of a 64-bit mask that a word sees. -/
def halfOf (hi : Bool) (v : Nat) : Nat := if hi then v / 2 ^ 32 else v % 2 ^ 32

/-- Rail thresholds and their hysteresis at reset (R401, R418). -/
def monReset (m : Nat) : Nat := 10 * 65536 + [712, 808, 855, 1045, 1045, 855, 1710, 3135].getD m 0

/-- Default severity of an error class (R480), as CLASSc_CTL holds it. -/
def classReset (c : Nat) : Nat := 2 * [0, 0, 1, 2, 2, 1, 2, 2, 2, 2, 2, 1, 3, 2, 1, 1].getD c 0

/-- Reset value of the register at an offset (R7), of the word that the offset names. -/
def resetAt (page o : Nat) : Nat :=
  if page = 40 ∧ 0x100 ≤ o ∧ o < 0x180 ∧ o % 0x10 = 0 then monReset ((o - 0x100) / 0x10) else
  if page = 37 ∧ 0x100 ≤ o ∧ o < 0x200 ∧ o % 0x10 = 0 then classReset ((o - 0x100) / 0x10) else
  match rowAt page o with
  | some (r, h) => halfOf h r.reset
  | none => 0

/-- Bits the register at an offset implements in a bank; the others read 0 and cannot be set (R5). -/
def maskAt (b : Bank) (page o : Nat) : Nat :=
  match b with
  | .hiLatch => 2 ^ 32 - 1
  | .loHold => 2 ^ 32 - 1
  | .live | .selector =>
    match rowAt page o with
    | some (r, h) => halfOf h (r.rw ||| r.ro ||| r.rc ||| r.w1c ||| r.w1s ||| r.wo ||| r.lk ||| r.st)
    | none => 0
  | .staged | .pending | .committed =>
    match rowAt page o with
    | some (r, h) => halfOf h (r.st ||| r.rw)
    | none => 0

/-- What an unlisted register copy reads as: its reset value; a HI latch reads 0, a LO holding register the reset
value of the low half (R6). -/
def RKey.reset (k : RKey) : Word :=
  match k.bank with
  | .hiLatch => 0
  | _ => BitVec.ofNat 32 (resetAt k.page k.off)

/-- The bits a register copy implements. -/
def RKey.mask (k : RKey) : Word := BitVec.ofNat 32 (maskAt k.bank k.page k.off)

/-- What a command does, from the few things anything does: change what stands behind the registers, a byte of memory,
a register copy; one thing after another; or look at the state and go on. -/
inductive Prog where
  | skip
  | upd (f : Ctl → Ctl)
  | memSet (addr : Nat) (b : Byte)
  | regSet (k : RKey) (v : Word)
  | seq (p q : Prog)
  | look (k : State → Prog)

/-- The state after a `Prog`. -/
def Prog.run : Prog → State → State
  | .skip, s => s
  | .upd f, s => { s with ctl := f s.ctl }
  | .memSet a b, s => { s with mem := nset 0 s.mem a b }
  | .regSet k v, s => { s with reg := tset RKey.lt k.reset s.reg k (v &&& k.mask) }
  | .seq p q, s => q.run (p.run s)
  | .look k, s => (k s).run s

/-- Several effects, in order. -/
def Prog.all : List Prog → Prog
  | [] => .skip
  | p :: t => .seq p (Prog.all t)

/-- An effect only when a condition holds. -/
def Prog.when (b : Bool) (p : Prog) : Prog := if b then p else .skip

/-- An effect for each of a list, in order. -/
def Prog.each {α : Type} (l : List α) (f : α → Prog) : Prog := Prog.all (l.map f)

/-- Look at the state, then go on. -/
abbrev get := Prog.look

/-- Change what stands behind the registers. -/
abbrev ctl := Prog.upd

/-- Effects in order. -/
abbrev doAll := Prog.all

/-- What a command answers. -/
abbrev Res := Host.Outcome State Fault Refusal

/-- The outcome of a command whose effect is `p`: a next state. -/
def done (p : Prog) (s : State) : Res := .next (p.run s)

/-! ## Reading registers and memory -/

/-- A register copy's value. -/
def State.copy (s : State) (b : Bank) (r : Reg) : Nat :=
  (tget (RKey.reset ⟨b, r.page, r.inst, r.off⟩) s.reg ⟨b, r.page, r.inst, r.off⟩).toNat

/-- The value of a register. -/
def State.rd (s : State) (r : Reg) : Nat := s.copy .live r

/-- Bits `[hi:lo]` of a register. -/
def State.fd (s : State) (r : Reg) (hi lo : Nat) : Nat := field (s.rd r) hi lo

/-- Bit `i` of a register. -/
def State.bit (s : State) (r : Reg) (i : Nat) : Bool := tbit (s.rd r) i

/-- The value of a LO/HI pair (R6). -/
def State.rdW (s : State) (r : Reg) : Nat := s.rd r + 2 ^ 32 * s.rd r.hi

/-- The committed value of a staged register (R7, R77). -/
def State.cfg (s : State) (r : Reg) : Nat := s.copy .committed r

/-- Bits `[hi:lo]` of a committed register. -/
def State.cfd (s : State) (r : Reg) (hi lo : Nat) : Nat := field (s.cfg r) hi lo

/-- Bit `i` of a committed register. -/
def State.cbit (s : State) (r : Reg) (i : Nat) : Bool := tbit (s.cfg r) i

/-- The committed value of a staged pair. -/
def State.cfgW (s : State) (r : Reg) : Nat := s.cfg r + 2 ^ 32 * s.cfg r.hi

/-- Memory spaces: HBM 1, DDR5 2, control store 3, committed stakes 4, rules 5, comparators 6, exact match 7, hampers 8,
boot image 10, staged stakes 12, engine LMEM 13, boot flash 14, frame stores 15, staging keys 16; the instance counts on. -/
def memKey (space inst addr : Nat) : Nat := (space * 64 + inst) * 2 ^ 48 + addr

/-- One byte of a memory space; an unlisted byte reads 0 (log entry 2). -/
def State.byte (s : State) (space inst addr : Nat) : Byte := tget 0 s.mem (memKey space inst addr)

/-- `n` bytes of a memory space. -/
def State.bytes (s : State) (space inst addr n : Nat) : List Byte :=
  (List.range n).map fun i => s.byte space inst (addr + i)

/-- The little-endian number in `n` bytes of a memory space (R526). -/
def State.memNat (s : State) (space inst addr n : Nat) : Nat := leVal (s.bytes space inst addr n)

/-- Numbers of the `size`-byte entries of a space, from address `base` to `base + len`, that hold a non-zero byte. -/
def State.usedEntries (s : State) (space inst base len size : Nat) : List Nat :=
  ((s.mem.filterMap fun c =>
    if memKey space inst base ≤ c.1 ∧ c.1 < memKey space inst base + len then
      some ((c.1 - memKey space inst base) / size) else none)).dedup

/-! ## Writing registers and memory -/

/-- Write a register copy. -/
def setCopy (b : Bank) (r : Reg) (v : Nat) : Prog := .regSet ⟨b, r.page, r.inst, r.off⟩ (BitVec.ofNat 32 v)

/-- Write a register, as hardware does. -/
def wr (r : Reg) (v : Nat) : Prog := setCopy .live r v

/-- Write both halves of a pair. -/
def wrW (r : Reg) (v : Nat) : Prog := doAll [wr r (v % 2 ^ 32), wr r.hi (v / 2 ^ 32)]

/-- Write bits `[hi:lo]` of a register. -/
def wrF (r : Reg) (hi lo v : Nat) : Prog := get fun s => wr r (setField (s.rd r) hi lo v)

/-- Set or clear bit `i` of a register. -/
def wrB (r : Reg) (i : Nat) (b : Bool) : Prog := wrF r i i (b2n b)

/-- Step a 32-bit counter by `n`, saturating. -/
def incBy (r : Reg) (n : Nat) : Prog := get fun s => wr r (satAdd 32 (s.rd r) n)

/-- Step a 32-bit counter, saturating. -/
def inc (r : Reg) : Prog := incBy r 1

/-- Step a 64-bit counter by `n`, saturating. -/
def incW (r : Reg) (n : Nat) : Prog := get fun s => wrW r (satAdd 64 (s.rdW r) n)

/-- Keep the highest value seen in a register (the high-water marks of the spec). -/
def keepMax (r : Reg) (v : Nat) : Prog := get fun s => wr r (max (s.rd r) v)

/-- Write bytes of a memory space. -/
def poke (space inst addr : Nat) (l : List Byte) : Prog :=
  Prog.each (l.zipIdx) fun e => .memSet (memKey space inst (addr + e.2)) e.1

/-- Put out an output. -/
def emit (o : Out) : Prog := ctl fun c => { c with out := c.out ++ [o] }

/-- Answer a read. -/
def answer (v : Nat) : Prog := ctl fun c => { c with answer := v }

end Sys2Proof.Machine
end

