-- ==== Sys2Proof/Machine/Ops.lean ====
section
/-! DEFINITION. Operations that every subsystem uses: STATUS codes, wheel time, interrupt causes, error reports, event
routing and the MAINT arbiter's starts. -/

namespace Sys2Proof.Machine

/-! ## STATUS codes (R177) -/

namespace ST
@[simp] def OK : Nat := 0x0000
@[simp] def BAD_TYPE : Nat := 0x0101
@[simp] def BAD_LENGTH : Nat := 0x0102
@[simp] def BAD_FIELD : Nat := 0x0103
@[simp] def ACCESS_DENIED : Nat := 0x0201
@[simp] def HOST_ABORT : Nat := 0x0202
@[simp] def CONFLICT : Nat := 0x0301
@[simp] def LATCH_HELD : Nat := 0x0302
@[simp] def BROKEN_LATCH : Nat := 0x0303
@[simp] def WHEEL_FULL : Nat := 0x0304
@[simp] def TASK_BUSY : Nat := 0x0305
@[simp] def STEPPED : Nat := 0x0401
@[simp] def OUT_OF_HORIZON : Nat := 0x0402
@[simp] def DOMAIN_ARMED : Nat := 0x0403
@[simp] def LATE_DROP : Nat := 0x0404
@[simp] def UNCORRECTABLE : Nat := 0x0501
@[simp] def AUTH_FAIL : Nat := 0x0502
@[simp] def CIPHER_FAULT : Nat := 0x0503
@[simp] def KEY_SPENT : Nat := 0x0504
@[simp] def ENTROPY_FAILED : Nat := 0x0505
@[simp] def KEY_INVALID : Nat := 0x0506
@[simp] def TM_DROP : Nat := 0x0601
@[simp] def PORT_DOWN : Nat := 0x0602
@[simp] def DEFERRED_ERROR : Nat := 0x0701
@[simp] def LBA_RANGE : Nat := 0x0702
@[simp] def MEDIA_ERROR : Nat := 0x0703
@[simp] def VOLUME_OFFLINE : Nat := 0x0704
@[simp] def READ_ONLY : Nat := 0x0705
@[simp] def ATOMIC_BOUNDARY : Nat := 0x0706
@[simp] def RETRY_EXCEEDED : Nat := 0x0801
@[simp] def RNR_EXCEEDED : Nat := 0x0802
@[simp] def REMOTE_ACCESS : Nat := 0x0803
@[simp] def REMOTE_OP : Nat := 0x0804
@[simp] def QP_FLUSHED : Nat := 0x0805
@[simp] def FENCED : Nat := 0x0901
@[simp] def ENGINE_FAULT : Nat := 0x0A01
@[simp] def ABORTED : Nat := 0x0A02
end ST

/-- The STATUS values of R177. -/
def stCodes : List Nat := [ST.OK, ST.BAD_TYPE, ST.BAD_LENGTH, ST.BAD_FIELD, ST.ACCESS_DENIED, ST.HOST_ABORT, ST.CONFLICT, ST.LATCH_HELD,
  ST.BROKEN_LATCH, ST.WHEEL_FULL, ST.TASK_BUSY, ST.STEPPED, ST.OUT_OF_HORIZON, ST.DOMAIN_ARMED, ST.LATE_DROP, ST.UNCORRECTABLE,
  ST.AUTH_FAIL, ST.CIPHER_FAULT, ST.KEY_SPENT, ST.ENTROPY_FAILED, ST.KEY_INVALID, ST.TM_DROP, ST.PORT_DOWN, ST.DEFERRED_ERROR,
  ST.LBA_RANGE, ST.MEDIA_ERROR, ST.VOLUME_OFFLINE, ST.READ_ONLY, ST.ATOMIC_BOUNDARY, ST.RETRY_EXCEEDED, ST.RNR_EXCEEDED,
  ST.REMOTE_ACCESS, ST.REMOTE_OP, ST.QP_FLUSHED, ST.FENCED, ST.ENGINE_FAULT, ST.ABORTED]

/-- A STATUS that the spec leaves open, as a free value picks it from the table. -/
def anyStatus (v : Nat) : Nat := stCodes.getD (v % stCodes.length) ST.OK

/-! ## Domain time and wheel time -/

/-- Domain `n` (R35). -/
def State.dom (s : State) (n : Nat) : Dom := tget Dom.zero s.ctl.time.dom n

/-- Change domain `n`. -/
def modDom (n : Nat) (f : Dom → Dom) : Prog :=
  ctl fun c => { c with time.dom := nmod Dom.zero c.time.dom n f }

/-- Wheel time of a domain time (R37). -/
def Dom.wt (d : Dom) : Nat := (d.sec * 500000000 + d.ns / 2) % 2 ^ 48

/-- Wheel time of domain `n` (R37). -/
def State.wt (s : State) (n : Nat) : Nat := (s.dom n).wt

/-- Domain time in ns, seconds and nanoseconds together. -/
def Dom.nanos (d : Dom) : Nat := d.sec * 1000000000 + d.ns

/-- STATE of domain `n` (R41): 0 FREE, 1 FLUSHING, 2 ARMED, 3 LOCKED. -/
def State.domState (s : State) (n : Nat) : Nat := s.fd (TIME.DOM_STATUS n) 1 0

/-! ## Whether the device runs -/

/-- PF_STATE (R401, R409): 0 NORMAL, 1 DUMPING, 2 DUMPED. -/
def State.pf (s : State) : Nat := s.fd SUPPLY.PF_STATE 1 0

/-- Out of reset, and no hold-up dump has stopped it (R409 step 1, R412, R508). -/
def State.alive (s : State) : Bool := s.ctl.boot.pwrok && s.ctl.boot.sysRst && decide (s.pf = 0)

/-- Whether clock input `i` runs: it is not known to be lost (R96, log entry 118). -/
def State.clockRuns (s : State) (i : Nat) : Bool := !tbit s.ctl.boot.clkLost i

/-- The power state (R98). -/
def State.pstate (s : State) : Nat := s.fd PWR.PSTATE_STATUS 1 0

/-- What a part of the device does, unless the device stands or the part is gated: from power state P`lvl` on (R98). -/
def during (lvl : Nat) (p : Prog) : Prog := get fun s => Prog.when (s.alive && decide (s.pstate < lvl)) p

/-- The outcome of a command of a part that P`lvl` gates. -/
def live (lvl : Nat) (p : Prog) (s : State) : Res := done (during lvl p) s

/-- What goes on while the device is out of reset, a hold-up dump or not. -/
def awake (p : Prog) : Prog := get fun s => Prog.when (s.ctl.boot.pwrok && s.ctl.boot.sysRst) p

/-- The outcome of a command of a part that only reset stops. -/
def board (p : Prog) (s : State) : Res := done (awake p) s

/-! ## Interrupt causes, errors and events -/

/-! Error classes (R480). -/
namespace EC
@[simp] def ACCESS : Nat := 0
@[simp] def CONFIG : Nat := 1
@[simp] def MEM_CE : Nat := 2
@[simp] def MEM_UE : Nat := 3
@[simp] def HOST : Nat := 4
@[simp] def NET : Nat := 5
@[simp] def STORAGE : Nat := 6
@[simp] def CIPHER : Nat := 7
@[simp] def ENTROPY : Nat := 8
@[simp] def PAIR : Nat := 9
@[simp] def SUPPLY : Nat := 10
@[simp] def ENGINE : Nat := 11
@[simp] def CORE : Nat := 12
@[simp] def BOOT : Nat := 13
@[simp] def TIME : Nat := 14
@[simp] def OTHER : Nat := 15
end EC

/-! Reasons of class ACCESS and CONFIG (R481), and the two common to the other classes. -/
namespace RS
@[simp] def MISALIGNED : Nat := 0x001
@[simp] def UNMAPPED : Nat := 0x002
@[simp] def NOT_OWNER : Nat := 0x003
@[simp] def BAD_INST : Nat := 0x004
@[simp] def WRONG_STATE : Nat := 0x005
@[simp] def LATCH_MISUSE : Nat := 0x006
@[simp] def TRANSOM_REJ : Nat := 0x007
@[simp] def VALUE_REJ : Nat := 0x101
@[simp] def COMMIT_REJ : Nat := 0x102
@[simp] def RESCHED_REFUSED : Nat := 0x0FE
@[simp] def NONE : Nat := 0x0FF
end RS

/-- Class of the report that setting INT_STAT bit `i` of a page makes (R527); the ERR page makes none. -/
def intClass (page i : Nat) : Option Nat :=
  if page ∈ [0, 1, 2, 3, 4, 7, 8, 16, 38, 39] then some EC.OTHER
  else if page ∈ [5, 6] then some EC.BOOT
  else if page ∈ [9, 10] then some EC.TIME
  else if page ∈ [11, 12, 13, 14, 15] then some EC.HOST
  else if page ∈ [17, 18, 19, 20, 21, 22, 23, 24, 28] then some EC.NET
  else if page ∈ [25, 26] then some EC.ENGINE
  else if page = 27 then some EC.CORE
  else if page ∈ [29, 30, 31] then some EC.STORAGE
  else if page ∈ [32, 33] then some EC.CIPHER
  else if page = 34 then some EC.ENTROPY
  else if page = 35 then some EC.PAIR
  else if page = 40 then some EC.SUPPLY
  else if page = 36 then (if i = 0 then some EC.MEM_CE else if i = 1 then some EC.MEM_UE else some EC.OTHER)
  else none

/-- Function `f`'s configuration. -/
def State.fnCfg (s : State) (f : Nat) : FnCfg := tget FnCfg.init s.ctl.host.cfg f

/-- Function `f`'s progress. -/
def State.fnSt (s : State) (f : Nat) : FnSt := tget FnSt.init s.ctl.host.fns f

/-- Change a function's progress record. -/
def modFn (f : Nat) (g : FnSt → FnSt) : Prog :=
  ctl fun c => { c with host.fns := nmod FnSt.init c.host.fns f g }

/-- First virtual function number of physical function `k` of port `h` (R134). -/
def State.firstVF (s : State) (h k : Nat) : Nat :=
  8 + ((List.range k).map fun j =>
    if s.bit (HOST.LINK_STATUS h) 20 then 127 else s.fd (HOST.VF_ALLOC h j) 10 0).sum

/-- The physical function of a function code and, for a virtual one, its index below it (R134). -/
def State.pfOf (s : State) (f : Nat) : Nat × Option Nat :=
  let h := f / 1024
  let n := f % 1024
  if n < 8 then (n, none) else
  match ((List.range 8).reverse).find? (fun k => decide (s.firstVF h k ≤ n)) with
  | some k => (k, some (n - s.firstVF h k))
  | none => (0, none)

/-- Whether a function exists for new events, doorbells and accesses (R135, R143). -/
def State.fnExists (s : State) (f : Nat) : Bool :=
  match s.pfOf f with
  | (_, none) => true
  | (k, some i) =>
    let pf := s.fnCfg (f / 1024 * 1024 + k)
    pf.vfEn && decide (i < pf.numVFs) && !(s.fnSt f).vfGoing

/-- The link of a function: 2 × port + link; in 2 × x8 mode functions 4 to 7 and theirs are on sub-link 1 (R101). -/
def State.linkOf (s : State) (f : Nat) : Nat :=
  let h := f / 1024
  if tget false s.ctl.host.formed2 h && decide (4 ≤ (s.pfOf f).1) then 2 * h + 1 else 2 * h

/-- The shutter register of a link (R123). -/
def shutReg (l : Nat) : Reg := if l % 2 = 0 then HOST.SHUT0_STATUS (l / 2) else HOST.SHUT1_STATUS (l / 2)

/-- Shutter state of a link: 0 OPEN, 1 SHUT, 2 READY, 3 RELEASING (R123). -/
def State.shut (s : State) (l : Nat) : Nat := s.fd (shutReg l) 1 0

/-- Whether a link is in L0, L0p or L1. -/
def State.linkUp (s : State) (l : Nat) : Bool := s.bit (HOST.LINK_STATUS (l / 2)) (if l % 2 = 0 then 9 else 19)

/-- Whether DMA of a link's functions passes (R122, R124). -/
def State.linkOpen (s : State) (l : Nat) : Bool := s.linkUp l && decide (s.shut l = 0)

/-- A vector of the pool. -/
def State.vec (s : State) (v : Nat) : Vec := tget Vec.init s.ctl.host.vecs v

/-- Change a vector of the pool. -/
def modVec (v : Nat) (g : Vec → Vec) : Prog :=
  ctl fun c => { c with host.vecs := nmod Vec.init c.host.vecs v g }

/-- What can follow from what: an interrupt cause set, an error report, an event of a source, a raise of its target, an
event dropped for a function, an internal event that the peephole sees, a confirmed one that it may trace. -/
inductive Sig where
  | int (page inst bit : Nat)
  | err (page inst cls reason info : Nat)
  | evt (src : Nat)
  | raise (src : Nat)
  | drop (fn : Nat)
  | peep (stream event key : Nat)
  | trace (stream event key : Nat)
deriving DecidableEq, Repr

/-- Take a fresh free value. -/
def fresh (k : Nat → Prog) : Prog := get fun s =>
  .seq (ctl fun c => { c with free := c.free + 1 }) (k (Config.freeValue s.ctl.free))

/-- `n` free bytes. -/
def freeBytes (n : Nat) (k : List Byte → Prog) : Prog := get fun s =>
  .seq (ctl fun c => { c with free := c.free + n })
    (k ((List.range n).map fun i => BitVec.ofNat 8 (Config.freeValue (s.ctl.free + i))))

/-- R75 in the reporting page: ERR_COUNT steps; the first error while VALID = 0 is frozen, a later one sets ERR_OVF. -/
def firstError (page cls reason info : Nat) : Prog := doAll [
  inc (HDR.ERR_COUNT page),
  get fun s =>
    if s.bit (HDR.ERR_FIRST page) 31 then wr (HDR.ERR_OVF page) 1
    else doAll [wr (HDR.ERR_FIRST page) (2 ^ 31 + cls * 4096 + reason), wr (HDR.ERR_FIRST_INFO page) (info % 2 ^ 32)]]

/-- The 32 bytes of a record (R484). -/
def Report.bytes (r : Report) (sev : Nat) : List Byte :=
  leBytes 4 r.seq ++ leBytes 2 r.code ++ leBytes 1 r.page ++ leBytes 1 sev ++ leBytes 2 r.inst ++ leBytes 6 r.wt
    ++ leBytes 8 r.info ++ leBytes 8 0

/-- Write the 8 words of a record from register `r 0` on. -/
def putRecord (r : Nat → Reg) (b : List Byte) : Prog :=
  Prog.each (List.range 8) fun i => wr (r i) (leAt b (4 * i) 4)

/-- A report that is not recorded (R483): the class's overflow count, ERR_OVF, the LAST slot. -/
def loseReport (r : Report) : Prog := get fun s => doAll [
  inc (ERR.CLASS_OVF_CNT (r.code / 4096)),
  wr (HDR.ERR_OVF Pg.err) 1,
  putRecord ERR.LAST (r.bytes (s.fd (ERR.CLASS_CTL (r.code / 4096)) 2 1))]

/-- A channel gets an event (R313): a word, or the pending event of a full channel, or a counted drop. -/
def chanEvent (ch src : Nat) : Prog := get fun s =>
  let c := tget Chan.init s.ctl.flow.chans ch
  let ctlr := s.cfg ((CHAN.CH_CTL (ch % 32)).of (ch / 32))
  if !(tbit ctlr 0 && tbit ctlr 1) then inc (CHAN.EVT_DROP_CNT.of (ch / 32))
  else if c.words.length < 4 then
    ctl fun x => { x with flow.chans := nset Chan.init x.flow.chans ch { c with words := c.words ++ [2 ^ 63 + src % 4096] } }
  else
    ctl fun x => { x with flow.chans := nset Chan.init x.flow.chans ch { c with evt := some (src % 4096) } }

/-- Whether the peephole's tracing runs (R494, R495): RUN is set, and neither the STOP mode's full buffer nor the end of
the POST records after a trigger has stopped it. -/
def State.tracing (s : State) : Bool :=
  s.bit PEEP.CTL 0 && !(s.bit PEEP.CTL 1 && s.bit PEEP.STATUS 2) && !decide (s.ctl.health.postLeft = some 0)

/-- One trace record into the peephole buffer (R494), in HBM from 0x2900_0000 (R23). Its event detail is free. -/
def traceRecord (stream event key : Nat) : Prog := fresh fun detail => get fun s =>
  let p := s.rd PEEP.WR_PTR % 2 ^ 26 / 32 * 32
  let rec32 := leBytes 6 (s.wt 0) ++ leBytes 1 stream ++ leBytes 1 event ++ leBytes 2 key
    ++ leBytes 1 (b2n s.ctl.health.gap) ++ leBytes 5 0 ++ leBytes 16 detail
  doAll [poke 1 0 (0x29000000 + p) rec32,
    wr PEEP.WR_PTR ((p + 32) % 2 ^ 26),
    ctl fun c => { c with health := { c.health with gap := false, postLeft := c.health.postLeft.map (· - 1) } },
    Prog.when (decide (p + 32 = 2 ^ 26)) (doAll [
      if s.bit PEEP.CTL 1 then wrB PEEP.STATUS 2 true
      else wr PEEP.WRAPS ((s.rd PEEP.WRAPS + 1) % 2 ^ 32)])]

/-- Peephole counters configured for an event and key (R496): their numbers, from the CNTk_CFG registers listed. -/
def State.peepHits (s : State) (code key : Nat) : List Nat :=
  s.reg.filterMap fun e =>
    if e.1.bank = .live ∧ e.1.page = 39 ∧ 0x3000 ≤ e.1.off ∧ e.1.off < 0x4000 then
      let v := e.2.toNat
      if tbit v 12 && decide (field v 11 0 = code) && (decide (field v 31 16 = 0xFFFF) || decide (field v 31 16 = key)) then
        some ((e.1.off - 0x3000) / 4) else none
    else none

/-- Whether an event is speculative: only its counters step before its confirmation, and its trace record waits (R31, R492, R493). -/
def speculative (st ev : Nat) : Bool := decide ((st, ev) ∈ [(0, 2), (1, 3), (3, 1), (5, 1), (5, 4)])

/-- The chain of effects of a signal; `n` bounds its length (every link but the first sets a bit that was clear, so
the chain ends of itself before the bound). -/
def chain : Nat → Sig → Prog
  | 0, _ => .skip
  | n + 1, .int p i b => get fun s =>
    if s.bit ((HDR.INT_STAT p).of i) b then .skip else
    let sev := s.bit (HDR.INT_SEV p) b
    doAll [wrB ((HDR.INT_STAT p).of i) b true,
      match intClass p b with
      | some c => Prog.when sev (fresh fun v => chain n (.err p i c b (v % 2 ^ 64)))
      | none => .skip,
      Prog.when (!s.bit (HDR.INT_MASK p) b) (chain n (.evt (3968 + 2 * p + b2n sev)))]
  | n + 1, .err p i c r info => get fun s =>
    let q := (s.rd ERR.SEQ + 1) % 2 ^ 32
    let rep : Report := ⟨q, c * 4096 + r, p, i % 65536, s.wt 0, info⟩
    doAll [firstError p c r info, inc (ERR.CLASS_CNT c), chain n (.peep 11 0 p),
      Prog.when (!s.bit (ERR.CLASS_CTL c) 0) (doAll [wr ERR.SEQ q,
        if s.ctl.health.intake.length < 64 then
          ctl fun x => { x with health.intake := x.health.intake ++ [rep] }
        else doAll [loseReport rep, chain n (.int Pg.err 0 4)]])]
  | n + 1, .evt src => get fun s =>
    let w0 := s.cfg (FUNC.ERT_W0 src)
    let w1 := s.cfg (FUNC.ERT_W1 src)
    if !tbit w0 0 || decide (field w0 2 1 = 0) then .skip else
    let f := field w0 26 16
    if decide (field w0 2 1 = 1) && (!s.fnExists f || (s.fnSt f).busy || decide (s.fd (FUNC.VEC_COUNT.of f) 11 0 ≤ field w1 10 0))
    then chain n (.drop f) else
    let us := field w1 23 16
    let cnt := field w1 31 24
    if us = 0 ∧ cnt = 0 then chain n (.raise src) else
    let k := tget 0 s.ctl.host.modCnt src + 1
    if cnt ≠ 0 ∧ cnt ≤ k then
      .seq (ctl fun c => { c with host.modCnt := nset 0 c.host.modCnt src 0 }) (chain n (.raise src))
    else ctl fun c => { c with host.modCnt := nset 0 c.host.modCnt src k }
  | n + 1, .raise src => get fun s =>
    let w0 := s.cfg (FUNC.ERT_W0 src)
    let t := field (s.cfg (FUNC.ERT_W1 src)) 10 0
    let f := field w0 26 16
    if field w0 2 1 = 1 then
      if !s.fnExists f || (s.fnSt f).busy || decide (s.fd (FUNC.VEC_COUNT.of f) 11 0 ≤ t) || !(s.fnCfg f).msixEn
        || !(s.fnCfg f).bme then chain n (.drop f)
      else
        let v := s.fd (FUNC.VEC_BASE.of f) 13 0 + t
        modVec v fun x => if x.masked || (s.fnCfg f).fnMask then { x with pend := true } else { x with raised := true }
    else if field w0 2 1 = 2 then ctl fun c => { c with flow.coreIrq := fset c.flow.coreIrq t true }
    else if field w0 2 1 = 3 then chanEvent t src
    else .skip
  | n + 1, .drop f => .seq (inc (FUNC.EVT_DROP_CNT.of f)) (chain n (.int Pg.func 0 1))
  | n + 1, .peep st ev key => get fun s =>
    let code := st * 256 + ev
    let k16 := key % 65536
    doAll [
      Prog.each (s.peepHits code k16) (fun k => doAll [incW (PEEP.CNT k) 1,
        get fun t => Prog.when (t.bit PEEP.TRIG 31 && decide (t.fd PEEP.TRIG 9 0 = k) && !t.bit PEEP.STATUS 1
            && decide (t.rdW PEEP.TRIG_THRESH ≤ t.rdW (PEEP.CNT k))) (doAll [
          wrB PEEP.STATUS 1 true,
          ctl fun c => { c with health.postLeft := some (t.fd PEEP.POST 20 0) },
          chain n (.int Pg.peep 0 0)])]),
      Prog.when (!speculative st ev) (chain n (.trace st ev key))]
  | n + 1, .trace st ev key => get fun t =>
    let k16 := key % 65536
    Prog.when (t.tracing && t.cbit PEEP.STREAM_EN st &&
        decide (k16 &&& t.fd (PEEP.FILT st) 31 16 = t.fd (PEEP.FILT st) 15 0 &&& t.fd (PEEP.FILT st) 31 16)) (doAll [
      traceRecord st ev k16,
      get fun u => Prog.when (u.bit PEEP.STATUS 2) (chain n (.int Pg.peep 0 1))])

/-- Set INT_STAT bit `b` of a page (R76, R479). -/
def int (page inst b : Nat) : Prog := chain 24 (.int page inst b)

/-- Make an error report (R479). -/
def err (page inst cls reason info : Nat) : Prog := chain 24 (.err page inst cls reason info)

/-- Produce one event of a source (R138). -/
def evt (src : Nat) : Prog := chain 24 (.evt src)

/-- Something aimed at a function that does not exist is dropped (R135). -/
def dropFor (f : Nat) : Prog := doAll [inc (FUNC.EVT_DROP_CNT.of f), int Pg.func 0 1]

/-- An internal event that the peephole may count, and trace unless it is speculative (R493). -/
def peep (stream event key : Nat) : Prog := chain 24 (.peep stream event key)

/-- A speculative event that was counted when it occurred is confirmed: the peephole may trace it (R492, R496). -/
def traceConfirmed (stream event key : Nat) : Prog := chain 24 (.trace stream event key)

/-- Full BAR0 offset of a register (R481). -/
def bar0 (page off : Nat) : Nat := page * 0x10000 + off

/-! ## The MAINT arbiter (R91 to R94) -/

/-! Activities (R91). -/
namespace MA
@[simp] def AGING_SWEEP : Nat := 0
@[simp] def TABLE_RESIZE : Nat := 1
@[simp] def SSD_SCRUB : Nat := 2
@[simp] def SANITISE : Nat := 3
@[simp] def FORMAT : Nat := 4
@[simp] def DRAM_SCRUB : Nat := 5
@[simp] def HBM_SCRUB : Nat := 6
@[simp] def MAP_REBUILD : Nat := 7
@[simp] def LIFE_COMMIT : Nat := 8
@[simp] def SLOT_UPDATE : Nat := 9
@[simp] def CS_RELOAD : Nat := 10
@[simp] def ENGINE_SELFTEST : Nat := 11
@[simp] def FUSE_BURN : Nat := 12
@[simp] def PAIR_RESYNC : Nat := 13
end MA

/-- Whether starts of two activities conflict when their scopes overlap (R92). -/
def maConflict (a b : Nat) : Bool :=
  (decide (a = b) && decide (a < 14)) ||
  ([(0, 1), (2, 3), (2, 4), (3, 4), (4, 7), (5, 7), (7, 13), (8, 9), (9, 12), (10, 11)].any fun p =>
    (decide (p.1 = a) && decide (p.2 = b)) || (decide (p.1 = b) && decide (p.2 = a)))

/-- Whether two scopes overlap (R92). -/
def scopesOverlap (a b : Nat) : Bool := decide (a = b) || decide (a = 0xFF) || decide (b = 0xFF)

/-- MAINT.COMPATi (R92). -/
def compat (i : Nat) : Nat := ((List.range 14).map fun j => b2n (maConflict i j) * 2 ^ j).sum

/-- A start reaches the arbiter and waits for its decision (R94). -/
def mstart (act scope : Nat) (origin : Origin) (ref : Nat) : Prog :=
  ctl fun c => { c with maint.waiting := c.maint.waiting ++ [⟨act, scope, origin, ref, c.maint.clock⟩] }

/-- Show the running activities in MAINT.RUNNING. -/
def showRunning : Prog := get fun s =>
  wr MAINT.RUNNING (((List.range 14).map fun i =>
    b2n (s.ctl.maint.running.any fun m => decide (m.act = i)) * 2 ^ i).sum)

/-- A block reports the end of its activity (R94). -/
def mend (act scope : Nat) : Prog := doAll [
  ctl fun c => { c with maint.running := c.maint.running.filter fun m => !(decide (m.act = act) && decide (m.scope = scope)) },
  showRunning, peep 14 2 act]

/-- Whether an activity runs on a scope. -/
def State.mrunning (s : State) (act scope : Nat) : Bool :=
  s.ctl.maint.running.any fun m => decide (m.act = act) && decide (m.scope = scope)

end Sys2Proof.Machine
end

