-- ==== Sys2Proof/Machine/Guard.lean ====
section
/-! DEFINITION. Who may write a register: ownership (R74), the pages open before RUNNING (R447), and which copy of a
windowed page or of a selector an accessor meets (R72, R73). -/

namespace Sys2Proof.Machine

/-- Number of copies of a windowed page (R71); 1 for the others. -/
def instCount (page : Nat) : Nat :=
  if page = 19 then 512
  else if page ∈ [20, 21, 22, 23] then 4
  else if page ∈ [25, 26] then 64
  else if page = 27 then 48
  else 1

/-- Whether a page is windowed (R72). -/
def windowed (page : Nat) : Bool := decide (1 < instCount page)

/-- Whether a page has staged registers (R71). -/
def hasStaged (page : Nat) : Bool :=
  decide (page ∈ [1, 2, 3, 4, 13, 15, 18, 19, 20, 21, 22, 23, 24, 25, 26, 28, 29, 30, 31, 32, 34, 35, 36, 39, 40])

/-- Pages whose staged set belongs to one object that a selector names (R147, R151, R272, R360, R398). -/
def objectPage (page : Nat) : Bool := decide (page ∈ [13, 15, 24, 28, 29])

/-- Offsets of the selector registers of which each accessor has its own copy. -/
def selectorOffs (page : Nat) : List Nat :=
  if page = 13 ∨ page = 15 ∨ page = 32 then [0x40]
  else if page = 24 then [0x40, 0x140, 0x200, 0x280, 0x300]
  else if page = 28 then [0x40, 0x10C, 0x160, 0x300]
  else if page = 29 then [0x40, 0x140]
  else if page = 21 then [0x40, 0x900, 0x940]
  else if page = 22 then [0x40, 0x600]
  else if page = 23 then [0x40, 0x180]
  else if page = 25 then [0x40, 0x400]
  else if page = 38 then [0x60]
  else if windowed page then [0x40]
  else []

/-- The copy of a windowed page an accessor has selected (R73). -/
def State.instSel (s : State) (a : Accessor) (page : Nat) : Nat :=
  if windowed page then s.copy .selector ⟨page, 0x40, a.code⟩ else 0

/-- An accessor's own copy of a selector register other than INST_SEL. -/
def selReg (s : State) (a : Accessor) (page off : Nat) : Reg := ⟨page, off, a.code + 64 * s.instSel a page⟩

/-- The value of an accessor's selector. -/
def State.sel (s : State) (a : Accessor) (page off : Nat) : Nat :=
  if windowed page && decide (off = 0x40) then s.instSel a page else s.copy .selector (selReg s a page off)

/-- Whether `a` is a host port's management function. -/
def Accessor.isPort : Accessor → Bool
  | .port _ => true
  | .core _ => false

/-- Whether an accessor holds management: a core, or the port that MGMT_OWNER names (R74). -/
def State.owner (s : State) : Accessor → Bool
  | .port p => decide (s.rd CHIP.MGMT_OWNER = p.val)
  | .core _ => true

/-- Whether a page is open to an accessor now: until STATE is RUNNING a host meets only CHIP, BOOT, FUSE and TRANSOM
(R447), and through a link that is not OPEN only HOST0 and HOST1 (R126; the management function is on link 0 of its port); a dump
stops the control cores and P2 gates them (R98), and once it has ended no host is served (R409, R412); a device held in reset answers nothing (R507). -/
def State.open (s : State) (a : Accessor) (page : Nat) : Bool :=
  s.ctl.boot.pwrok && s.ctl.boot.sysRst &&
    (match a with
      | .port p => decide (s.pf < 2) && (decide (s.fd BOOT.STATE 2 0 = 2) || decide (page ∈ [0, 5, 6, 16])) &&
          s.linkUp (2 * p.val) && (decide (s.shut (2 * p.val) = 0) || decide (page ∈ [11, 12]))
      | .core _ => decide (s.pf = 0) && decide (s.pstate < 2))

/-- A register write by an accessor: nothing while the page is closed (R447); recorded in CHIP and without effect by the
port that does not hold management (R74); otherwise `p`. -/
def byWriter (a : Accessor) (page off : Nat) (p : Prog) : Prog := get fun s =>
  if !s.open a page then .skip
  else if !s.owner a then err Pg.chip 0 EC.ACCESS RS.NOT_OWNER (bar0 page off)
  else p

/-- A register read by an accessor: 0 while the page is closed, otherwise `p`. -/
def byReader (a : Accessor) (page : Nat) (p : Prog) : Prog := get fun s =>
  if !s.open a page then answer 0 else p

/-- The register an accessor meets at an offset, in the copy it has selected. -/
def State.regFor (s : State) (a : Accessor) (page off : Nat) : Reg :=
  if windowed page && (decide (0x40 ≤ off) || decide (off ∈ [0x0C, 0x10])) then ⟨page, off, s.instSel a page⟩
  else if page = 13 ∧ 0x44 ≤ off ∧ off < 0x70 ∧ ¬ (0x50 ≤ off ∧ off < 0x60) then ⟨page, off, s.sel a 13 0x40 % 2048⟩
  else ⟨page, off, 0⟩

/-- The fields of a register word take a write, each by its access type (R5, R7): RW and unlocked LK bits take the value,
written W1C bits clear, ST bits go to the staged copy. WO input buffers (KH_IN, VAULT.IN) take the value; other WO bits and
W1S bits store nothing, and what they start is a row's own. -/
def writeFields (a : Accessor) (page off v : Nat) : Prog := get fun s =>
  match rowAt page off with
  | none => .skip
  | some (row, h) =>
    let r := s.regFor a page off
    let locked := s.bit CHIP.BOOT_LOCK 0
    let put := halfOf h (row.rw ||| (if locked then 0 else row.lk) |||
      (if page = 6 ∨ page = 33 then row.wo else 0))
    let clr := halfOf h row.w1c &&& v
    let st := halfOf h row.st
    if off ∈ selectorOffs page then
      setCopy .selector (selReg s a page off) v
    else doAll [
      Prog.when (decide (put ≠ 0) || decide (clr ≠ 0)) (
        let old := s.rd r
        wr r ((old &&& notN 32 (put ||| clr)) ||| (v &&& put) ||| (old &&& clr &&& notN 32 v))),
      Prog.when (decide (st ≠ 0)) (setCopy .staged ⟨page, off, r.inst⟩ v)]

/-- The word an accessor reads where no rule computes one: staged bits from the staged copy, WO and W1S bits 0, the
others as they stand (R7). -/
def State.plainWord (s : State) (a : Accessor) (page off : Nat) : Nat :=
  match rowAt page off with
  | none => 0
  | some (row, h) =>
    let r := s.regFor a page off
    if off ∈ selectorOffs page then s.sel a page off else
    let st := halfOf h row.st
    let hide := halfOf h (row.wo ||| row.st)
    (s.rd r &&& notN 32 hide) ||| (s.copy .staged ⟨page, off, r.inst⟩ &&& st)

end Sys2Proof.Machine
end

