-- ==== Sys2Proof/Machine/Wheel.lean ====
section
/-! DEFINITION. The event wheel (R52 to R58, R69): requests, due events in dispatch order, firing, periodic consumers. -/

namespace Sys2Proof.Machine

/-- (target − now) modulo 2^48 as a signed 48-bit value (R52). -/
def wtDiff (target now : Nat) : Int := toSigned 48 (target % 2 ^ 48 + 2 ^ 48 - now % 2 ^ 48)

/-- A target of a request (R53). `full` carries target and now in ticks of full domain time. -/
inductive Target where
  | rel (d : Nat)
  | abs (t : Nat)
  | full (t now : Nat)
deriving DecidableEq, Repr

/-- Capacity of the wheel (R54). -/
def wheelSize : Nat := 1048576

/-- Late limit of absolute targets in ticks (R53, R69). -/
def State.lateLimit (s : State) : Nat := 2 ^ min 47 (s.fd WHEEL.WHEEL_CFG 5 0)

/-- The wheel time a request's target stands for. -/
def Target.wt (now : Nat) : Target → Nat
  | .rel d => (now + d) % 2 ^ 48
  | .abs t => t % 2 ^ 48
  | .full t _ => t % 2 ^ 48

/-- Whether a target lies inside the horizon (R53). -/
def State.inHorizon (s : State) (dom : Nat) : Target → Bool
  | .rel d => decide (d < 2 ^ 47)
  | .abs t => decide (-(s.lateLimit : Int) ≤ wtDiff t (s.wt dom))
  | .full t now => decide (t ≤ now + (2 ^ 47 - 1))

/-- Pending events of class 1. -/
def State.class1 (s : State) : Nat := (s.ctl.time.events.filter fun e => decide (e.cls ≠ 0)).length

/-- Class 1 entries allowed (R54). -/
def State.class1Max (s : State) : Nat := wheelSize - 1024 * s.fd WHEEL.WHEEL_CFG 23 16

/-- Whether the wheel has room for one more event of a class (R54). -/
def State.wheelRoom (s : State) (cls : Nat) : Bool :=
  decide (s.ctl.time.events.length < wheelSize) && (decide (cls = 0) || decide (s.class1 < s.class1Max))

/-- STATUS of a request, the first reason that applies (R44, R54). -/
def State.wheelStatus (s : State) (dom cls : Nat) (t : Target) : Nat :=
  if s.domState dom = 1 ∨ s.domState dom = 2 then ST.DOMAIN_ARMED
  else if !s.inHorizon dom t then ST.OUT_OF_HORIZON
  else if !s.wheelRoom cls then ST.WHEEL_FULL
  else ST.OK

/-- An index not in use, from `i` on; the spec leaves the choice open, so `i` is a free value (log entry 9). -/
def freshIdx (used : List Nat) : Nat → Nat → Nat
  | 0, i => i
  | n + 1, i => if i ∈ used then freshIdx used n ((i + 1) % wheelSize) else i

/-- A request to schedule an event. `k` gets the STATUS and, when it is OK, the handle (R53, R54). -/
def request (dom cls : Nat) (t : Target) (cons : Consumer) (k : Nat → Nat → Prog) : Prog := get fun s =>
  let st := s.wheelStatus dom cls t
  if st ≠ ST.OK then
    doAll [Prog.when (decide (st = ST.OUT_OF_HORIZON)) (inc WHEEL.HORIZON_CNT),
      Prog.when (decide (st = ST.WHEEL_FULL)) (inc WHEEL.FULL_CNT), peep 2 3 dom, k st 0]
  else
    let idx := freshIdx (s.ctl.time.events.map (·.idx)) s.ctl.time.events.length (Config.freeValue s.ctl.free % wheelSize)
    let gen := Config.freeValue (s.ctl.free + 1) % 4096
    let tgt := t.wt (s.wt dom)
    let due := match t with
      | .full a now => if a ≤ now then some s.ctl.time.tick else none
      | _ => if wtDiff tgt (s.wt dom) ≤ 0 then some s.ctl.time.tick else none
    doAll [ctl fun c => { c with
        free := c.free + 2
        time := { c.time with
          seq := c.time.seq + 1
          events := c.time.events ++ [⟨idx, gen, dom, tgt, cls, c.time.seq, due, cons⟩] } },
      keepMax WHEEL.PENDING_HWM (s.ctl.time.events.length + 1), peep 2 0 dom, k ST.OK (idx + 2 ^ 20 * gen)]

/-- Dispatch order of due events: due tick, class, order of scheduling (R55). -/
def WEvent.before (a b : WEvent) : Bool :=
  let x := a.due.getD 0
  let y := b.due.getD 0
  decide (x < y) || (decide (x = y) && (decide (a.cls < b.cls) || (decide (a.cls = b.cls) && decide (a.seq < b.seq))))

/-- The first of a list by an order. -/
def firstBy {α : Type} (lt : α → α → Bool) : List α → Option α
  | [] => none
  | a :: t =>
    match firstBy lt t with
    | none => some a
    | some b => if lt b a then some b else some a

/-- Insertion into an ordered list. -/
def ordIns {α : Type} (lt : α → α → Bool) (a : α) : List α → List α
  | [] => [a]
  | b :: t => if lt a b then a :: b :: t else b :: ordIns lt a t

/-- A list put in order, equal elements in their first order. -/
def inOrder {α : Type} (lt : α → α → Bool) (l : List α) : List α := l.foldl (fun acc a => ordIns lt a acc) []

/-- The event the wheel dispatches next, and whether it fires with STEPPED: due events first, then those that an
arming removed (R42, R55). -/
def State.nextEvent (s : State) : Option (WEvent × Bool) :=
  match firstBy WEvent.before (s.ctl.time.events.filter (·.due.isSome)) with
  | some e => some (e, false)
  | none => (s.ctl.time.flush.head?).map fun e => (e, true)

/-- The dispatch tick of the next dispatch, and the events dispatched in it with that one: four at most (R55). -/
def State.dispatchSlot (s : State) : Nat × Nat :=
  if s.ctl.time.fired < 4 then (s.ctl.time.tick, s.ctl.time.fired + 1) else (s.ctl.time.tick + 1, 1)

/-- Take the next place among the dispatches (R55). -/
def takeSlot : Prog := get fun s => ctl fun c => { c with time := { c.time with tick := s.dispatchSlot.1, fired := s.dispatchSlot.2 } }

/-- Dispatch the next event when it is for the consumer meant; `k` acts on it (R55, R56). -/
def dispatch (want : Consumer → Bool) (k : WEvent → Bool → Prog) : Prog := get fun s =>
  match s.nextEvent with
  | some (e, stepped) =>
    if want e.consumer then doAll [
      (if stepped then ctl fun c => { c with time.flush := c.time.flush.tail }
       else ctl fun c => { c with time.events := c.time.events.filter fun x => !decide (x.seq = e.seq) }),
      Prog.when stepped (inc WHEEL.STEPPED_CNT),
      takeSlot,
      Prog.when (!stepped && decide (e.due.getD 0 < s.dispatchSlot.1)) (doAll [inc WHEEL.LATE_CNT, peep 2 2 e.dom]),
      peep 2 1 e.dom, k e stepped]
    else .skip
  | none => .skip

/-- Remove a consumer's pending event, as WHEEL.CANCEL does (R58). -/
def cancelFor (want : Consumer → Bool) : Prog :=
  ctl fun c => { c with time.events := c.time.events.filter fun e => !want e.consumer }

/-- Whether a consumer has a pending or flushed event. -/
def State.scheduled (s : State) (c : Consumer) : Bool :=
  (s.ctl.time.events.any fun e => decide (e.consumer = c)) || (s.ctl.time.flush.any fun e => decide (e.consumer = c))

/-- DEAD_US; values below 3 × HB_US act as that (R478). -/
def State.deadUs (s : State) : Nat := max (s.cfd PAIR.DEAD_US 19 0) (3 * max 10 (s.cfd PAIR.HB_US 15 0))

/-- Domain and period, in ticks, of an internal periodic consumer while its block keeps it on (R57); none when it is not
periodic or is off; aging consumer 4 is the flow-cache sweep (R329). Periods in ns count whole 2 ns ticks (log entry 10). -/
def State.period (s : State) : Consumer → Option (Nat × Nat)
  | .shaperRefill _ => some (s.fd TM.TM_DOM 2 0, max 500 (s.fd TM.SHAPE_TICK 15 0) / 2)
  | .polBlock _ => some (s.fd TM.TM_DOM 2 0, max 5000 (s.fd TM.POL_TICK 19 0) / 2)
  | .telemetry => if s.bit TM.TEL_CFG 0 then some (s.fd TM.TM_DOM 2 0, max 20 (s.fd TM.TEL_CFG 23 8) * 500) else none
  | .ctrlLimit _ => some (0, 50000)
  | .intBucket f =>
    let rate := field (s.cfg (FUNC.INT_SHARE.of f)) 15 0
    if rate = 0 then none else some (0, 500000 / rate)
  | .aging p =>
    if p = 4 then (if s.bit FLOW.FC_CFG 31 then
      some (s.fd FLOW.FC_CFG 18 16, max 100 (s.fd FLOW.FC_SWEEP_MS 15 0) * 500000) else none) else
    if s.cbit (FWD.AGE_CFG.of p) 0 then
      some (s.cfd (FWD.TIME_CFG.of p) 2 0, max 1 (s.cfd (FWD.AGE_CFG.of p) 23 8) * 500000000) else none
  | .ringPoll r =>
    let us := s.cfd (RING.CTX_POLL.of r) 15 0
    if us = 0 ∨ (tget RingSt.init s.ctl.rings.rings r).st ≠ .active then none else some (0, us * 500)
  | .hbSend => if s.fd PAIR.STATUS 2 0 ∈ [2, 3, 4] then some (s.cfd PAIR.CFG 6 4, max 10 (s.cfd PAIR.HB_US 15 0) * 500) else none
  | .flushDeadline v => some (s.fd BLKB.DOM 2 0, max 1 (s.cfd (BLKF.VOL_FLUSH_US.of v) 23 0) * 500)
  | .deadPeer => some (s.cfd PAIR.CFG 6 4, s.deadUs * 500)
  | _ => none

/-- The page that reports a consumer's refused reschedule (R57). -/
def Consumer.page : Consumer → Nat
  | .ringPoll _ => 15 | .intBucket _ => 13 | .ctrlLimit _ => 21 | .aging p => if p = 4 then 25 else 22
  | .hbSend => 35
  | .flushDeadline _ => 29 | .pacing _ => 28 | .retx _ => 28 | .rnr _ => 28 | .deadPeer => 35 | .periodOut _ => 9
  | .threadWait _ => 25 | .swEvent _ => 10 | _ => 24

/-- The instance a consumer's report names (R481). -/
def Consumer.inst : Consumer → Nat
  | .shaperRefill b => b | .polBlock b => b | .intBucket f => f | .aging p => p % 4 | .ringPoll r => r | .ctrlLimit p => p
  | .flushDeadline v => v | .pacing q => q | .retx q => q | .rnr q => q | .threadWait t => t / 16 | _ => 0

/-- A refused reschedule: an error report in the consumer's page, and retries (R57, R481, R527). -/
def refused (c : Consumer) (dom last st : Nat) : Prog := doAll [
  err c.page 0 ((intClass c.page 0).getD EC.OTHER) RS.RESCHED_REFUSED (c.inst + st * 2 ^ 32),
  ctl fun x => { x with time.retry := x.time.retry.filter (fun r => !decide (r.consumer = c)) ++ [⟨c, dom, last⟩] }]

/-- Schedule a periodic consumer for the grid point `target` (R53 relative form, R57). DEDUCED: a consumer dispatched more than a
period late asks for a point that lies behind now; that distance modulo 2^48 is beyond the horizon, so it is refused, reported and
retried like any other (log entry 126). -/
def scheduleAt (c : Consumer) (dom target : Nat) : Prog := get fun s =>
  request dom 1 (.rel ((target % 2 ^ 48 + 2 ^ 48 - s.wt dom) % 2 ^ 48)) c fun st _ =>
    Prog.when (decide (st ≠ ST.OK)) (refused c dom target st)

/-- After a firing with OK: the next event one period after the target that fired (R57). -/
def reschedule (e : WEvent) : Prog := get fun s =>
  match s.period e.consumer with
  | some (dom, p) => scheduleAt e.consumer dom (e.target + p)
  | none => .skip

/-- After a firing with STEPPED: the grid restarts at the step (R42, R57). -/
def restartAtStep (e : WEvent) : Prog :=
  ctl fun c => { c with time.restart := c.time.restart ++ [(e.dom, e.consumer)] }

/-- After a firing of a periodic consumer, by its status. -/
def nextPeriod (e : WEvent) (stepped : Bool) : Prog := if stepped then restartAtStep e else reschedule e

/-- Start a periodic consumer now: its first event one period on. -/
def startPeriodic (c : Consumer) : Prog := get fun s =>
  match s.period c with
  | some (dom, p) => Prog.when (!s.scheduled c) (scheduleAt c dom (s.wt dom + p))
  | none => .skip

/-- A periodic consumer that is on has its next event: scheduled, or waiting for a retry or for its domain's step (R57). -/
def keepPeriodic (c : Consumer) : Prog := get fun s =>
  Prog.when (!(s.ctl.time.retry.any fun r => decide (r.consumer = c)) && !(s.ctl.time.restart.any fun r => decide (r.2 = c)))
    (startPeriodic c)

/-- A periodic consumer that is turned off has none any longer. -/
def stopPeriodic (c : Consumer) : Prog := doAll [cancelFor fun k => decide (k = c),
  ctl fun x => { x with time := { x.time with
    retry := x.time.retry.filter fun r => !decide (r.consumer = c)
    restart := x.time.restart.filter fun r => !decide (r.2 = c)
    flush := x.time.flush.filter fun e => !decide (e.consumer = c) } }]

/-- A retry of a refused reschedule: the first grid point after now (R57). A periodic consumer that has no event yet gets
its first (log entry 11). -/
def retryConsumer (c : Consumer) : Prog := get fun s =>
  match s.ctl.time.retry.find? (fun r => decide (r.consumer = c)) with
  | some r =>
    match s.period c with
    | some (_, p) =>
      let now := s.wt r.dom
      let behind := (now + 2 ^ 48 - r.last % 2 ^ 48) % 2 ^ 48
      let target := if wtDiff r.last now > 0 then r.last else r.last + (behind / max 1 p + 1) * p
      request r.dom 1 (.rel ((target % 2 ^ 48 + 2 ^ 48 - now) % 2 ^ 48)) c fun st _ =>
        Prog.when (decide (st = ST.OK))
          (ctl fun x => { x with time.retry := x.time.retry.filter fun y => !decide (y.consumer = c) })
    | none => ctl fun x => { x with time.retry := x.time.retry.filter fun y => !decide (y.consumer = c) }
  | none => Prog.when (!(s.ctl.time.restart.any fun y => decide (y.2 = c))) (startPeriodic c)

/-! ## The rows -/

/-- GO (R53, R54, R59, R69): a software event request from SCHED_TARGET and the word written. -/
def execGo (a : Accessor) (v : Word) (s : State) : Res := done (byWriter a Pg.wheel 0x68 (get fun s => doAll [
  wr WHEEL.SCHED_CTL (v.toNat % 2 ^ 31),
  let t := s.rdW WHEEL.SCHED_TARGET % 2 ^ 48
  let w := v.toNat
  request (field w 2 0) (field w 8 8) (if tbit w 4 then .rel t else .abs t) (.swEvent (field w 27 16)) fun st h => doAll [
    wr WHEEL.SCHED_STATUS st,
    Prog.when (decide (st = ST.OK)) (ctl fun c => { c with time.handle := h })]])) s

/-- CANCEL (R58): remove the pending event of the handle, and say whether there was one. -/
def execCancel (a : Accessor) (h : Word) (s : State) : Res := done (byWriter a Pg.wheel 0x74 (get fun s =>
  let hit := fun e : WEvent => decide (e.idx = field h.toNat 19 0) && decide (e.gen = field h.toNat 31 20)
  doAll [wr WHEEL.CANCEL_RESULT (b2n (s.ctl.time.events.any hit)),
    ctl fun c => { c with time.events := c.time.events.filter fun e => !hit e }])) s

/-- SOFTWARE_EVENT_FIRE (R56): the next event, a software event, raises its source, with OK and with STEPPED. -/
def execSoftwareEventFire (s : State) : Res := board (
  dispatch (fun c => match c with | .swEvent _ => true | _ => false) fun e _ =>
    match e.consumer with
    | .swEvent src => evt src
    | _ => .skip) s

end Sys2Proof.Machine
end

