-- ==== Sys2Proof/Machine/Mem.lean ====
section
/-! DEFINITION. Memory errors and the patrol scrubs (R20 to R26, R486): corrected and uncorrectable errors, poisoned
content, the MEM page. -/

namespace Sys2Proof.Machine

/-- Step life-log counter `i` by `n` (R487). -/
def lifeAdd (i n : Nat) : Prog := ctl fun c => { c with health.life := nmod 0 c.health.life i fun v => satAdd 64 v n }

/-- Life-log counter of corrected errors of a memory; the one of uncorrectable errors follows it (R25, R487). -/
def lifeOfMem (m : Nat) : Nat := if m < 2 then 18 else if m < 4 then 14 else 16

/-- A corrected error of a memory (R20, R25). -/
def memCE (m : Nat) : Prog := get fun s =>
  let w := max 1 (s.fd MEM.CE_CFG 31 16)
  let now := s.ctl.health.sysSec
  let (st, n, hit) := tget (0, 0, false) s.ctl.health.ceWin m
  let (st, n, hit) := if st = 0 ∨ st - 1 + w ≤ now then (now + 1, 1, false) else (st, n + 1, hit)
  let fires := !hit && decide (s.fd MEM.CE_CFG 15 0 < n)
  doAll [inc (MEM.CE_CNT m), lifeAdd (lifeOfMem m) 1,
    ctl fun c => { c with health.ceWin := nset (0, 0, false) c.health.ceWin m (st, n, hit || fires) },
    Prog.when fires (doAll [wr MEM.CE_RATE_SRC m, int Pg.mem 0 0])]

/-- An uncorrectable error of a memory at an address (R21, R25). -/
def memUE (m addr : Nat) (byScrub : Bool) : Prog := get fun s => doAll [
  inc (MEM.UE_CNT m), lifeAdd (lifeOfMem m + 1) 1,
  Prog.when (!s.bit MEM.UE_INFO 31) (doAll [
    wr MEM.UE_INFO (2 ^ 31 + 256 * b2n byScrub + m), wrW MEM.UE_ADDR (addr % 2 ^ 40)]),
  int Pg.mem 0 1]

/-- Mark `n` bytes of a space as poisoned (R21). -/
def poison (space inst addr n : Nat) : Prog :=
  ctl fun c => { c with health.poison := c.health.poison ++ [(memKey space inst addr, n)] }

/-- Whether any of `n` bytes of a space is poisoned. -/
def State.poisoned (s : State) (space inst addr n : Nat) : Bool :=
  s.ctl.health.poison.any fun e => decide (e.1 < memKey space inst addr + n) && decide (memKey space inst addr < e.1 + e.2)

/-- New content clears the poison of the item it rewrites (R486). -/
def cleanse (space inst addr n : Nat) : Prog := ctl fun c =>
  let k := memKey space inst addr
  { c with health.poison := c.health.poison.flatMap fun e =>
    [(e.1, min e.2 (k - e.1)), (max e.1 (k + n), e.1 + e.2 - max e.1 (k + n))].filter fun x => decide (x.2 ≠ 0) }

/-! On-die tables that stand outside memory have their poison in spaces of their own: 19 next hops, 20 class indirection, 21 members
of path groups, 22 ring contexts, 23 contexts of the traffic manager. How an error's word index meets them is a free layout (log entry
131). -/
def spNh : Nat := 19
def spIndir : Nat := 20
def spMember : Nat := 21
def spRing : Nat := 22
def spTm : Nat := 23

/-- Bytes that an item of such a table takes. -/
def itemSize (sp : Nat) : Nat := if sp = spNh then 16 else if sp = spRing ∨ sp = spTm then 64 else 4

/-- Whether item `i` of such a table holds poisoned content. -/
def State.itemBad (s : State) (sp inst i : Nat) : Bool := s.poisoned sp inst (itemSize sp * i) (itemSize sp)

/-- Item `i` of such a table is rewritten (R486). -/
def cleanItem (sp inst i : Nat) : Prog := cleanse sp inst (itemSize sp * i) (itemSize sp)

/-- DDR5 address of the volume table (R19), whose place the spec does not give: free (log entry 131). -/
def volTable : Nat := leVal (Config.layout 9 []) % 2 ^ 38 / 64 * 64

/-- Whether the context of a volume holds poisoned content. -/
def State.volBad (s : State) (v : Nat) : Bool := s.poisoned 2 0 (volTable + 64 * v) 64

/-- Buckets of the flow cache, as a power of two (R328). -/
def State.fcLog2 (s : State) : Nat := max 10 (min 24 (s.fd FLOW.FC_CFG 4 0))

/-- HBM address of the flow cache (R328). -/
def State.fcBase (s : State) : Nat := field (s.rdW FLOW.FC_BASE) 47 20 * 2 ^ 20

/-- The page whose tables an HBM address belongs to (R23), with its copy: queue-pair contexts RDMA, baskets FWD,
prefixes LPM, the flow cache FLOW, whose copy 0 has its registers. -/
def State.hbmOwner (s : State) (addr : Nat) : Option (Nat × Nat) :=
  if addr < 0x08000000 then some (Pg.rdma, 0)
  else if addr < 0x18000000 then some (Pg.fwd, (addr - 0x08000000) / 0x04000000)
  else if addr < 0x28000000 then some (Pg.lpm, (addr - 0x18000000) / 0x04000000)
  else if s.bit FLOW.FC_CFG 31 = true ∧ s.fcBase ≤ addr ∧ addr < s.fcBase + 2 ^ s.fcLog2 * 256 then some (Pg.flow, 0)
  else none

/-- LOG2 of the map; values outside 20 to 34 act as the nearer limit (R400). -/
def State.mapLog (s : State) : Nat := max 20 (min 34 (s.fd MAP.MAP_CFG 13 8))

/-- DDR5 address of the map entry of a global extent (R368). -/
def State.mapAddr (s : State) (g : Nat) : Nat := s.rdW MAP.MAP_BASE / 4096 * 4096 + 8 * g

/-- Entries of the memory-region table (R341). -/
def State.mrCount (s : State) : Nat := 2 ^ max 10 (min 20 (s.fd RDMA.MR_CFG 4 0))

/-- DDR5 address of memory-region entry `i` (R341). -/
def State.mrAddr (s : State) (i : Nat) : Nat := s.rdW RDMA.MR_BASE / 4096 * 4096 + 32 * i

/-- The page whose tables a DDR5 address belongs to: the extent map MAP, the memory regions RDMA, the volume table BLKF. -/
def State.ddrOwner (s : State) (addr : Nat) : Option (Nat × Nat) :=
  if s.mapAddr 0 ≤ addr ∧ addr < s.mapAddr (2 ^ s.mapLog) then some (Pg.map, 0)
  else if s.mrAddr 0 ≤ addr ∧ addr < s.mrAddr s.mrCount then some (Pg.rdma, 0)
  else if volTable ≤ addr ∧ addr < volTable + 64 * 16384 then some (Pg.blkf, 0)
  else none

/-- The page, with its copy, one of whose control stores or tables holds the byte under a memory key (R486). -/
def State.ownerOf (s : State) (key : Nat) : Option (Nat × Nat) :=
  let inst := key / 2 ^ 48 % 64
  match key / 2 ^ 48 / 64 with
  | 1 => s.hbmOwner (key % 2 ^ 48)
  | 2 => s.ddrOwner (key % 2 ^ 48)
  | 3 => some (Pg.flow, inst)
  | 4 => some (Pg.parse, inst)
  | 5 | 6 => some (Pg.cls, inst)
  | 7 | 8 => some (Pg.fwd, inst)
  | 17 => some (Pg.ciph, 0)
  | 19 => some (Pg.lpm, inst)
  | 20 => some (Pg.cls, inst)
  | 21 => some (Pg.fwd, inst)
  | 22 => some (Pg.ring, 0)
  | 23 => some (Pg.tm, 0)
  | _ => none

/-- Whether a page's block is in its error state because a control store or table of its holds poisoned content (R486). -/
def State.blockErr (s : State) (page inst : Nat) : Bool :=
  s.ctl.health.poison.any fun e => decide (s.ownerOf e.1 = some (page, inst))

/-- The on-die memories of a page's block that hold stores and tables: memory space, copies, bytes of each. The flow engines' local
memories stand beside their control stores. -/
def sramOf (page : Nat) : List (Nat × Nat × Nat) :=
  if page = Pg.parse then [(4, 4, 131072)]
  else if page = Pg.cls then [(5, 4, 8388608), (6, 4, 8192), (spIndir, 4, 131072)]
  else if page = Pg.fwd then [(7, 4, 1048576), (8, 4, 1048576), (spMember, 4, 262144)]
  else if page = Pg.lpm then [(spNh, 4, 524288)]
  else if page = Pg.ring then [(spRing, 1, 131072 * 64)]
  else if page = Pg.tm then [(spTm, 1, 16896 * 64)]
  else if page = Pg.flow then [(3, 64, 65536), (13, 64, 262144)]
  else if page = Pg.ciph then [(17, 1, 2097152)]
  else []

/-- Byte `o` of the on-die memories of a block, as memory space, copy, address. -/
def sramByte : List (Nat × Nat × Nat) → Nat → Option (Nat × Nat × Nat)
  | [], _ => none
  | (sp, n, b) :: t, o => if o < n * b then some (sp, o / b, o % b) else sramByte t (o - n * b)

/-- What an uncorrectable error in memory `m` at an address of R25 spoils (R19, R21, R25): memory space, copy, address, bytes. HBM
has 32-byte code words and DDR5 8-byte ones. Which item of a block an on-die word is, the spec does not say: a free value
(log entry 131). The buffer SRAM holds no table. -/
def spoiled (m addr : Nat) : Option (Nat × Nat × Nat × Nat) :=
  if m = 0 then none
  else if m = 1 then
    let l := sramOf (addr / 2 ^ 32 % 256)
    let n := (l.map fun x => x.2.1 * x.2.2).sum
    (sramByte l (leVal (Config.layout 8 [addr]) % max 1 n / 8 * 8)).map fun x => (x.1, x.2.1, x.2.2, 8)
  else if m < 4 then some (1, 0, addr / 32 * 32, 32)
  else some (2, 0, addr / 8 * 8, 8)

/-- `n` bytes of a space become poisoned; a block that this puts into its error state reports it (R21, R486). -/
def spoil (space inst addr n : Nat) : Prog := get fun s => doAll [
  Prog.when (!s.poisoned space inst addr n) (poison space inst addr n),
  match s.ownerOf (memKey space inst addr) with
  | some (p, i) => Prog.when (!s.blockErr p i) (err p i EC.MEM_UE RS.NONE addr)
  | none => .skip]

/-- An uncorrectable error that a read or a scrub finds (R21, R24, R25, R486): counted, and what it spoils is poisoned. -/
def ueSeen (m addr : Nat) (byScrub : Bool) : Prog := doAll [
  memUE m addr byScrub,
  match spoiled m addr with
  | some (sp, i, a, n) => spoil sp i a n
  | none => .skip]

/-- Items of `size` bytes of a memory space, from address `base` to `base + len`, that hold poisoned bytes. -/
def State.badItems (s : State) (space inst base len size : Nat) : List Nat :=
  s.ctl.health.poison.filterMap fun e =>
    if memKey space inst base < e.1 + e.2 ∧ e.1 < memKey space inst base + len then
      some ((max e.1 (memKey space inst base) - memKey space inst base) / size) else none

/-- Installed GiB of HBM (false) or DDR5 (true). -/
def State.memGiB (s : State) (ddr : Bool) : Nat := if ddr then s.fd MEM.DDR_STATUS 31 16 else s.fd MEM.HBM_STATUS 31 16

/-- SCRUB_SEGMENT_START (R24): at a segment instant an enabled scrub asks the arbiter for its segment. -/
def execScrubSegmentStart (ddr : Bool) (s : State) : Res := board (get fun s =>
  Prog.when (s.cbit (if ddr then MEM.DDR_SCRUB else MEM.HBM_SCRUB) 0)
    (mstart (if ddr then MA.DRAM_SCRUB else MA.HBM_SCRUB) 0xFF .periodic 0)) s

/-- An accepted segment runs (R24). -/
def scrubAccepted (ddr : Bool) : Prog := wrB MEM.SCRUB_STATUS (if ddr then 1 else 0) true

/-- A refused segment (R24). -/
def scrubRefused : Prog := inc MEM.SCRUB_SKIP_CNT

/-- SCRUB_SEGMENT_END (R20, R24, R25): the errors it found, by memory and address, and the pass's progress. The percentage counts
whole segments, rounded down, and is 0 again when the last one ends: a DESIGN CHOICE, R26 says only "in %" (log entry 130). -/
def execScrubSegmentEnd (ddr : Bool) (ces ues : List (Fin 12 × Nat)) (s : State) : Res := board (get fun s =>
  let act := if ddr then MA.DRAM_SCRUB else MA.HBM_SCRUB
  let total := max 1 (s.memGiB ddr)
  let seg := (if ddr then s.ctl.health.ddrSeg else s.ctl.health.hbmSeg) + 1
  let wraps := decide (total ≤ seg)
  let now := if wraps then 0 else seg
  Prog.when (s.mrunning act 0xFF) (doAll [
    Prog.each ces fun e => memCE e.1.val,
    Prog.each ues fun e => ueSeen e.1.val e.2 true,
    mend act 0xFF,
    wrB MEM.SCRUB_STATUS (if ddr then 1 else 0) false,
    wrF MEM.SCRUB_STATUS (if ddr then 23 else 15) (if ddr then 16 else 8) (100 * now / total),
    ctl fun c => { c with health := if ddr then { c.health with ddrSeg := now } else { c.health with hbmSeg := now } },
    Prog.when wraps (doAll [inc (if ddr then MEM.DDR_PASS_CNT else MEM.HBM_PASS_CNT), int Pg.mem 0 (if ddr then 3 else 2)])]))
  s

end Sys2Proof.Machine
end

