-- ==== Sys2Proof/Machine/Latch.lean ====
section
/-! DEFINITION. The 1,024 latches (R86 to R90): acquire, release, CLR_BROKEN, and the breaking of an owner's latches. -/

namespace Sys2Proof.Machine

/-- Latch `n`. -/
def State.latch (s : State) (n : Nat) : Latch := tget Latch.init s.ctl.latches n

/-- Put latch `n` in a state. -/
def setLatch (n : Nat) (l : Latch) : Prog := ctl fun c => { c with latches := nset Latch.init c.latches n l }

/-- Owner code of a function (R86). -/
def ownerFn (f : Nat) : Nat := f

/-- Owner code of a control core. -/
def ownerCore (c : Nat) : Nat := 0x4000 + c

/-- Owner code of an engine thread, global number engine × 16 + thread. -/
def ownerThread (t : Nat) : Nat := 0x8000 + t

/-- Owner code of an accessor of the register pages: a port's management function is its function 0. -/
def ownerOf : Accessor → Nat
  | .port p => 1024 * p.val
  | .core c => ownerCore c

/-- The STATE code of a latch (R88). -/
def LState.code : LState → Nat
  | .free => 0 | .held => 1 | .broken => 2 | .heldBroken => 3

/-- LATCHn_STATE (R87). -/
def Latch.word (l : Latch) : Nat := l.st.code + 65536 * l.owner

/-- What an acquire by `o` makes of a latch, and its STATUS (R88). -/
def Latch.acquire (l : Latch) (o : Nat) : Latch × Nat :=
  match l.st with
  | .free => (⟨.held, o⟩, ST.OK)
  | .broken => (⟨.heldBroken, o⟩, ST.BROKEN_LATCH)
  | _ => (l, ST.LATCH_HELD)

/-- What a RELEASE by `o` makes of a latch; `none` when it is refused (R88). -/
def Latch.release (l : Latch) (o : Nat) : Option Latch :=
  if l.owner ≠ o then none else
  match l.st with
  | .held => some Latch.init
  | .heldBroken => some ⟨.broken, o⟩
  | _ => none

/-- What a CLR_BROKEN by `o` makes of a latch; `none` when it is refused (R88). -/
def Latch.clrBroken (l : Latch) (o : Nat) : Option Latch :=
  if l.owner = o ∧ l.st = .heldBroken then some ⟨.held, o⟩ else none

/-- An acquire by an owner code: the latch's new state; `k` gets the word that LATCHn_ACQ answers (R87). -/
def acquireLatch (n o : Nat) (k : Nat → Prog) : Prog := get fun s =>
  let (l, st) := (s.latch n).acquire o
  doAll [setLatch n l, Prog.when (decide (st = ST.OK) || decide (st = ST.BROKEN_LATCH)) (peep 13 0 n), k (st + 65536 * l.owner)]

/-- Offset of LATCHn_CTL in BAR0. -/
def latchCtlAddr (n : Nat) : Nat := bar0 Pg.latch (0x1008 + 16 * n)

/-- A refused RELEASE or CLR_BROKEN (R88). -/
def refuseRelease (n : Nat) : Prog := doAll [
  inc LATCH.REL_REJ_CNT, err Pg.latch 0 EC.ACCESS RS.LATCH_MISUSE (latchCtlAddr n)]

/-- A RELEASE by an owner code (R88). -/
def releaseLatch (n o : Nat) : Prog := get fun s =>
  match (s.latch n).release o with
  | some l => doAll [setLatch n l, peep 13 1 n]
  | none => refuseRelease n

/-- A CLR_BROKEN by an owner code (R88). -/
def clrBrokenLatch (n o : Nat) : Prog := get fun s =>
  match (s.latch n).clrBroken o with
  | some l => setLatch n l
  | none => refuseRelease n

/-- A LATCHn_CTL write: [0] RELEASE, [1] CLR_BROKEN, both as CLR_BROKEN then RELEASE (R88). -/
def latchCtl (n o v : Nat) : Prog := doAll [
  Prog.when (tbit v 1) (clrBrokenLatch n o), Prog.when (tbit v 0) (releaseLatch n o)]

/-- Every HELD or HELD_BROKEN latch of an owner becomes BROKEN (R88, R89). -/
def breakLatches (owns : Nat → Bool) : Prog := get fun s =>
  Prog.each (s.ctl.latches.filter fun e => (decide (e.2.st = .held) || decide (e.2.st = .heldBroken)) && owns e.2.owner)
    fun e => doAll [setLatch e.1 ⟨.broken, e.2.owner⟩, inc LATCH.BROKEN_CNT, peep 13 2 e.1, int Pg.latch 0 0]

/-- Whether a function may use latch `n` through its window (R88). -/
def State.mayUseLatch (s : State) (n f : Nat) : Bool :=
  s.bit (LATCH.LATCH_ACCESS n) 31 && decide (s.fd (LATCH.LATCH_ACCESS n) 15 0 = ownerFn f)

/-- Whether a function reaches its latch window: it exists and its link passes requests. -/
def State.windowOpen (s : State) (f : Nat) : Bool :=
  s.alive && s.fnExists f && !(s.fnSt f).busy && s.linkOpen (s.linkOf f)

/-- What a closed latch window does with an access: one of a function that does not exist is dropped and counted (R135, R143). -/
def closedWindow (f : Nat) : Prog := get fun s =>
  Prog.when (s.alive && s.linkOpen (s.linkOf f) && !s.fnExists f) (dropFor f)

/-- LATCH_ACQUIRE (R74, R87, R88): a read of LATCHn_ACQ, or of a latch window. The port without management, and a function that
LATCHn_ACCESS does not name, get ACCESS_DENIED. -/
def execLatchAcquire (u : LatchUser) (n : Fin 1024) (s : State) : Res := done (
  let denied : Prog := get fun s => answer (ST.ACCESS_DENIED + 65536 * (s.latch n.val).owner)
  match u with
  | .page a => byReader a Pg.latch (get fun s => if s.owner a then acquireLatch n.val (ownerOf a) answer else denied)
  | .window f => get fun s => if !s.windowOpen f.val then doAll [answer 0, closedWindow f.val]
      else if s.mayUseLatch n.val f.val then acquireLatch n.val (ownerFn f.val) answer else denied) s

/-- A write of LATCHn_CTL, or to a latch window (R87, R88). -/
def writeLatch (u : LatchUser) (n v : Nat) : Prog := match u with
  | .page a => byWriter a Pg.latch (0x1008 + 16 * n) (latchCtl n (ownerOf a) v)
  | .window f => get fun s => if s.windowOpen f.val then latchCtl n (ownerFn f.val) v else closedWindow f.val

/-- LATCH_RELEASE (R88). -/
def execLatchRelease (u : LatchUser) (n : Fin 1024) (s : State) : Res := done (writeLatch u n.val 1) s

/-- CLR_BROKEN (R88). -/
def execClrBroken (u : LatchUser) (n : Fin 1024) (s : State) : Res := done (writeLatch u n.val 2) s

/-- CLR_BROKEN_AND_RELEASE (R88): one event, the two in this order. -/
def execClrBrokenAndRelease (u : LatchUser) (n : Fin 1024) (s : State) : Res := done (writeLatch u n.val 3) s

end Sys2Proof.Machine
end

