-- ==== Sys2Proof/Machine/Host.lean ====
section
/-! DEFINITION. DMA toward the hosts (R104 to R117, R120): windows, translations, denials, read tags, AER. -/

namespace Sys2Proof.Machine

/-- What the checks of an access answer (R115, R116). -/
inductive Check where
  | pass
  | denied (byXlat : Bool)
  | miss (page : Nat)
deriving DecidableEq, Repr

/-- The 4 KiB pages an access covers. -/
def pagesOf (addr len : Nat) : List Nat :=
  (List.range ((addr + max 1 len - 1) / 4096 + 1 - addr / 4096)).map (addr / 4096 + ·)

/-- Window `w` of function `f` (R115, R118). -/
def State.window (s : State) (f w : Nat) : Window := tget Window.init s.ctl.host.windows (8 * f + w)

/-- Whether the windows of a function allow an access: no window enabled, or every page in an enabled one that grants the
direction. Windows are 4 KiB aligned, so a page is the finest grain (R115). -/
def State.windowsAllow (s : State) (f addr len : Nat) (wr : Bool) : Bool :=
  let ws := ((List.range 8).map (s.window f)).filter (·.en)
  ws.isEmpty || (pagesOf addr len).all fun p =>
    ws.any fun w => decide (w.base ≤ p * 4096) && decide (p * 4096 + 4095 ≤ w.limit) && (if wr then w.wr else w.rd)

/-- Whether a translation entry covers a page. -/
def Xl.covers (x : Xl) (f pasid page : Nat) : Bool :=
  decide (x.fn = f) && decide (x.pasid = pasid) && decide (page * 4096 / 2 ^ x.logSize = x.page * 4096 / 2 ^ x.logSize)

/-- The valid translation of a page (R108). -/
def State.xlFor (s : State) (f pasid page : Nat) : Option Xl := s.ctl.host.xl.find? fun x => x.covers f pasid page

/-- The checks of an access, before any byte moves (R110, R115, R116); a function without ATS is untranslated (R12). `pas` is 0
for no PASID and the PASID plus 1 otherwise. -/
def State.checkP (s : State) (f pas addr len : Nat) (wr : Bool) : Check :=
  if !s.windowsAllow f addr len wr then .denied false
  else if !(s.fnCfg f).atsEn then .pass
  else
    let bad := (pagesOf addr len).filter fun p =>
      match s.xlFor f pas p with
      | some x => !(if wr then x.wr else x.rd)
      | none => false
    let miss := (pagesOf addr len).filter fun p => (s.xlFor f pas p).isNone
    if !bad.isEmpty then .denied true
    else match miss with
      | [] => .pass
      | p :: _ => .miss p

/-- The checks of an access without a PASID. -/
abbrev State.check (s : State) (f addr len : Nat) (wr : Bool) : Check := s.checkP f 0 addr len wr

/-- The address on the link of a byte that a function reaches (R12, R15, R108): itself without ATS, else its translation. -/
def State.xaddr (s : State) (f pas addr : Nat) : Nat :=
  if !(s.fnCfg f).atsEn then addr else
  match s.xlFor f pas (addr / 4096) with
  | some x => x.out / 2 ^ x.logSize * 2 ^ x.logSize + addr % 2 ^ x.logSize
  | none => addr

/-- A write as it goes on the link: whole where the function is untranslated, else page by page. -/
def State.outPieces (s : State) (f pas addr : Nat) (b : List Byte) : List (Nat × List Byte) :=
  if !(s.fnCfg f).atsEn then [(addr, b)] else
  (pagesOf addr b.length).map fun p =>
    let lo := max addr (4096 * p)
    (s.xaddr f pas lo, slice b (lo - addr) (min (addr + b.length) (4096 * p + 4096) - lo))

/-- A denial (R117): the first is frozen, each later one counts; INT_STAT.DENY at each (R133). -/
def deny (f addr len : Nat) (wrt byXlat : Bool) : Prog := get fun s => doAll [
  if s.bit XLAT.DENY_INFO 31 then inc XLAT.DENY_CNT
  else doAll [wrW XLAT.DENY_ADDR addr, wr XLAT.DENY_LEN len,
    wr XLAT.DENY_INFO (2 ^ 31 + b2n byXlat * 2 ^ 13 + b2n wrt * 2 ^ 12 + f % 2048)],
  int Pg.xlat 0 0]

/-- An access has used its translations: a hit, and the entries are the last used (R108, R133). -/
def noteHit (f pas addr len : Nat) : Prog := get fun s =>
  let mine := fun x : Xl => (pagesOf addr len).any (x.covers f pas)
  Prog.when (s.fnCfg f).atsEn (doAll [
    -- the first use of an entry confirms its speculative fill (R30, R492)
    Prog.each (s.ctl.host.xl.filter fun x => x.unused && mine x) (fun _ => traceConfirmed 1 3 f),
    inc (XLAT.HIT_CNT (f / 1024)), peep 1 2 f,
    ctl fun c => { c with host := { c.host with
      xlUse := c.host.xlUse + 1
      xl := c.host.xl.map fun x => if mine x then { x with used := c.host.xlUse, unused := false } else x } }])

/-! ## The DMA share of a function (R141) -/

/-- Time since reset in 0.2 ns: a REFCLK edge is 6.4 ns (R36). -/
def State.dmaNow (s : State) : Nat := s.ctl.time.edges * 32

/-- DMA_CAP in Gb/s; 0 is no cap. -/
def State.dmaCap (s : State) (f : Nat) : Nat := s.cfd (FUNC.DMA_SHARE.of f) 31 16

/-- Whether a function is held at its cap (R141, R142; log entry 40). -/
def State.dmaHeld (s : State) (f : Nat) : Bool := decide (s.dmaCap f ≠ 0) && decide (s.dmaNow < (s.fnSt f).dmaFree)

/-- Bytes that a function has moved: its cap lets the next go when their time at that rate is over. -/
def chargeDma (f n : Nat) : Prog := get fun s => Prog.when (decide (s.dmaCap f ≠ 0))
  (modFn f fun x => { x with dmaFree := max x.dmaFree s.dmaNow + ceilDiv (40 * n) (s.dmaCap f) })

/-- A write counts in the deficit round robin: its bytes leave its function's deficit (R141, log entry 40). -/
def chargeTurn (f n : Nat) : Prog := get fun s =>
  Prog.when (decide ((s.fnSt f).dmaDef ≠ 0)) (modFn f fun x => { x with dmaDef := x.dmaDef - n })

/-- A host write that has passed its checks. A PASID shows in the function code, as 2,048 × (PASID + 1). -/
def putOut (f pas addr : Nat) (b : List Byte) : Prog := get fun s => doAll [
  noteHit f pas addr b.length,
  Prog.each (s.outPieces f pas addr b) (fun x => emit (.hostWrite (f + 2048 * pas) x.1 x.2)),
  peep 1 1 f, chargeDma f b.length, chargeTurn f b.length]

/-! ## Reads (R104 to R109) -/

/-- The data of a work item's read, or its failure (R21, R106, R116). -/
def workData (w off st : Nat) (b : List Byte) : Prog := ctl fun c =>
  let f := fun e : Work => { e with
    reads := e.reads - 1
    buf := if st = ST.OK then splice e.buf off b else e.buf
    status := if e.status = ST.OK then st else e.status }
  { c with rings.works := c.rings.works.map fun e => if e.1 = w then (e.1, f e.2) else e }

/-- A host read ends with a STATUS and its bytes: a descriptor goes to its held entry, data to its work item, the rest
waits for the row that takes it. A Translation Request has no data to hand on. -/
def endRead (p : Purpose) (st : Nat) (b : List Byte) : Prog :=
  match p with
  | .descriptor ring entry => ctl fun c => { c with rings.rings := nmod RingSt.init c.rings.rings ring fun r =>
      { r with held := r.held.map fun h =>
        if h.entry = entry ∧ h.data = none then { h with data := some (if st = ST.OK then some b else none) } else h } }
  | .data w off => workData w off st b
  | .ats _ _ _ => .skip
  | p => ctl fun c => { c with host.arrived := c.host.arrived ++ [⟨p, st, b⟩] }

/-- Add a host read to the waiting ones. -/
def pushReq (f pas addr len : Nat) (p : Purpose) : Prog := ctl fun c => { c with host := { c.host with
  nextReq := c.host.nextReq + 1
  reqs := c.host.reqs ++ [⟨c.host.nextReq, f / 1024, f, addr, len, p, none, false, false, [], false, false, pas⟩] } }

/-- Ask for the translation of a page, unless that is already asked (R109). -/
def askXlat (f pas page : Nat) : Prog := get fun s =>
  Prog.when (!(s.ctl.host.reqs.any fun r => decide (r.purpose = .ats f pas page) && !r.discard))
    (pushReq f pas (page * 4096) 8 (.ats f pas page))

/-- A function reads host memory: the request waits for a tag (R104, R105); at a link that is not open it is discarded at once, and its
work ends with HOST_ABORT (R122, R124). `pas` is 0 for no PASID and the PASID plus 1 otherwise. -/
def hostReadP (f pas addr len : Nat) (p : Purpose) : Prog := get fun s =>
  if s.linkOpen (s.linkOf f) then pushReq f pas addr len p
  else doAll [inc (HOST.SHUT_DISCARD_CNT (f / 1024)), endRead p ST.HOST_ABORT []]

/-- A read without a PASID. -/
abbrev hostRead (f addr len : Nat) (p : Purpose) : Prog := hostReadP f 0 addr len p

/-- The reads of a consumer go: those without a tag, and what has arrived; the others lose their data. -/
def dropReads (mine : Purpose → Bool) : Prog := ctl fun c => { c with host := { c.host with
  reqs := (c.host.reqs.filter fun r => !(mine r.purpose && r.tag.isNone)).map fun r =>
    if mine r.purpose then { r with discard := true } else r
  arrived := c.host.arrived.filter fun a => !mine a.purpose } }

/-- What the reads of a consumer have brought, `place` saying where the bytes of each go: `none` while some of `n` bytes lack;
else their STATUS and the bytes. -/
def State.gathered (s : State) (place : Purpose → Option Nat) (n : Nat) : Option (Nat × List Byte) :=
  let l := s.ctl.host.arrived.filterMap fun a => (place a.purpose).map fun o => (o, a)
  match l.find? fun x => decide (x.2.status ≠ ST.OK) with
  | some x => some (x.2.status, [])
  | none =>
    if (l.map fun x => x.2.bytes.length).sum < n then none
    else some (ST.OK, l.foldl (fun b x => splice b x.1 x.2.bytes) [])

/-! ## Waits for a translation in place -/

/-- Someone waits for a page's translation: it is asked for (R109). -/
def waitXlat (who : Waiter) (f pas page : Nat) : Prog := doAll [
  askXlat f pas page,
  ctl fun c => { c with host.xlWait := c.host.xlWait.filter (fun x => decide (x.who ≠ who)) ++ [⟨who, f, pas, page, none⟩] }]

/-- A waiter goes on. -/
def endWait (who : Waiter) : Prog := ctl fun c => { c with host.xlWait := c.host.xlWait.filter fun x => decide (x.who ≠ who) }

/-- The STATUS with which a waiter's translation was refused, if it was. -/
def State.waitRes (s : State) (who : Waiter) : Option Nat :=
  (s.ctl.host.xlWait.find? fun x => decide (x.who = who)).bind (·.res)

/-- Tags of a port held by requests. -/
def State.tagsHeld (s : State) (h : Nat) : List Nat :=
  s.ctl.host.reqs.filterMap fun r => if r.port = h then r.tag else none

/-- Show tags held and in quarantine in HOSTn.TAG_USE, and keep the high-water mark (R132). -/
def showTags (h : Nat) : Prog := get fun s =>
  let held := (s.tagsHeld h).length
  doAll [wr (HOST.TAG_USE h) (held + 65536 * (s.ctl.host.quar.filter fun q => decide (q.1 = h)).length),
    keepMax (HOST.TAG_HWM h) held]

/-- Show Translation Requests outstanding in XLAT.ATS_OUTn (R133). -/
def showAts (h : Nat) : Prog := get fun s =>
  wrF (XLAT.ATS_OUT h) 8 0 (s.ctl.host.reqs.filter fun r => decide (r.port = h) && r.tag.isSome &&
    (match r.purpose with | .ats _ _ _ => true | _ => false)).length

/-- Show the deepest queue of Invalidate Requests of one function (R133). -/
def showInval (h : Nat) : Prog := get fun s =>
  let per := s.ctl.host.invals.map fun i =>
    (s.ctl.host.invals.filter fun j => decide (j.port = h) && decide (j.fn = i.fn) && !j.flush).length
  wrF (XLAT.ATS_OUT h) 23 16 (min 255 (per.foldl max 0))

/-- Remove a request. -/
def dropReq (id : Nat) : Prog := ctl fun c => { c with host.reqs := c.host.reqs.filter fun r => !decide (r.id = id) }

/-- Change a request. -/
def modReq (id : Nat) (f : HostReq → HostReq) : Prog :=
  ctl fun c => { c with host.reqs := c.host.reqs.map fun r => if r.id = id then f r else r }

/-- Whether a request is a descriptor fetch, which may use reserved tags (R105). -/
def HostReq.isDesc (r : HostReq) : Bool := match r.purpose with | .descriptor _ _ => true | _ => false

/-- Tags reserved for descriptor fetches (R105, R132). -/
def State.tagResv (s : State) (h : Nat) : Nat := min 1024 (s.fd (HOST.TAG_RESV h) 13 0)

/-- Whether a request finds a tag, and whether a reserved one (R105): descriptor fetches a reserved tag first; every
request a shared tag, the others within their function's quota; tags in quarantine are not free (R106), and none finds one beyond
the pool of 8,192 (R104). -/
def State.tagFor (s : State) (r : HostReq) : Option Bool :=
  let held := s.ctl.host.reqs.filter fun q => decide (q.port = r.port) && q.tag.isSome
  let quar := s.ctl.host.quar.filter fun q => decide (q.1 = r.port)
  let resvUsed := (held.filter (·.resvTag)).length + (quar.filter fun q => q.2.2).length
  let sharedUsed := (held.filter fun q => !q.resvTag).length + (quar.filter fun q => !q.2.2).length
  let mine := (held.filter fun q => !q.resvTag && decide (q.fn = r.fn) && !q.freed).length
  if 8192 ≤ held.length + quar.length then none
  else if r.isDesc && decide (resvUsed < s.tagResv r.port) then some true
  else if sharedUsed < 8192 - s.tagResv r.port ∧ (r.isDesc = true ∨ mine < field (s.cfg (FUNC.TAG_QUOTA.of r.fn)) 13 0)
    then some false
  else none

/-- The lowest tag of a port that is neither held nor in quarantine (log entry 13). -/
def State.freeTag (s : State) (h : Nat) : Nat :=
  let used := s.tagsHeld h ++ (s.ctl.host.quar.filterMap fun q => if q.1 = h then some q.2.1 else none)
  ((List.range (used.length + 1)).find? fun t => !decide (t ∈ used)).getD 0

/-- Outstanding Translation Requests of a port. -/
def State.atsOut (s : State) (h : Nat) : Nat := s.fd (XLAT.ATS_OUT h) 8 0

/-- The purpose of the part of a read from offset `o` on. -/
def Purpose.rest (o : Nat) : Purpose → Purpose
  | .data w off => .data w (off + o)
  | .thread k off => .thread k (off + o)
  | .qp q f off => .qp q f (off + o)
  | .sgl w off => .sgl w (off + o)
  | p => p

/-- Max Read Request Size of a function in bytes, as the Device Control of its physical function sets it, at most 4,096 (R100). -/
def State.maxRead (s : State) (f : Nat) : Nat :=
  128 * 2 ^ min 5 (field (s.fnCfg (f / 1024 * 1024 + (s.pfOf f).1)).devCtl 14 12)

/-- Bytes of a waiting read that one tag takes (R100, R104): up to Max Read Request Size, and no further than its pages' translations go
on at one address. -/
def State.readLen (s : State) (r : HostReq) : Nat :=
  let n := min (s.maxRead r.fn) r.len
  let edge := 4096 - r.addr % 4096
  if n ≤ edge ∨ s.xaddr r.fn r.pasid (r.addr + edge) = s.xaddr r.fn r.pasid r.addr + edge then n else edge

/-- Give a request a tag and issue it to the link at its translated address (R12, R110). A read longer than its tag takes leaves
its rest waiting in its place. -/
def issueReq (r : HostReq) (resv : Bool) : Prog := get fun s =>
  let t := s.freeTag r.port
  let n := s.readLen r
  let first : HostReq := { r with tag := some t, resvTag := resv, len := n }
  doAll [
    ctl (fun c =>
      let rest : List HostReq := if r.len ≤ n then [] else
        [{ r with id := c.host.nextReq, addr := r.addr + n, len := r.len - n, purpose := r.purpose.rest n }]
      let put := fun q : HostReq => if q.id = r.id then first :: rest else [q]
      { c with host.reqs := c.host.reqs.flatMap put }),
    ctl (fun c => { c with host.nextReq := c.host.nextReq + 1 }),
    (match r.purpose with
      | .data w _ => Prog.when (decide (n < r.len)) (ctl fun c =>
          let more := fun e : Nat × Work => if e.1 = w then (e.1, { e.2 with reads := e.2.reads + 1 }) else e
          { c with rings.works := c.rings.works.map more })
      | _ => .skip),
    emit (match r.purpose with
      | .ats f p page => .atsRequest r.port t f p page
      | _ => .hostRead r.port t (r.fn + 2048 * r.pasid) (s.xaddr r.fn r.pasid r.addr) n),
    showTags r.port, showAts r.port, peep 1 0 r.fn, chargeDma r.fn n]

/-- Whether a waiting read lacks a translation that is already asked for (R109). -/
def State.waitsXlat (s : State) (r : HostReq) : Bool :=
  match s.checkP r.fn r.pasid r.addr r.len false with
  | .miss p => s.ctl.host.reqs.any fun q => decide (q.purpose = .ats r.fn r.pasid p) && !q.discard
  | _ => false

/-- Whether a request can be served now: it finds a tag (R105), its function is not held at its cap (R141), at most 256
Translation Requests are out, and a read does not wait for one (R109). -/
def State.servable (s : State) (r : HostReq) : Bool :=
  r.tag.isNone && (s.tagFor r).isSome && !s.dmaHeld r.fn &&
    (match r.purpose with
      | .ats _ _ _ => decide (s.atsOut r.port < 256)
      | _ => !(s.linkOpen (s.linkOf r.fn) && s.waitsXlat r))

/-- The quantum of a function in its port's deficit round robin, in bytes: DMA_WEIGHT times the longest request (R141, log
entry 40). -/
def State.dmaQuantum (s : State) (f : Nat) : Nat := 4096 * max 1 (s.cfd (FUNC.DMA_SHARE.of f) 7 0)

/-- What a request costs in the deficit round robin. -/
def HostReq.cost (r : HostReq) : Nat := min 4096 r.len

/-- The next request of a port in the deficit round robin among its functions (R141), and whether a visit begins with it: the
function whose turn it is while its deficit lasts, then the next function with a request; of a function the oldest. A quantum
pays for any request. -/
def State.dmaNext (s : State) (h : Nat) : Option (HostReq × Bool) :=
  let l := s.ctl.host.reqs.filter fun r => decide (r.port = h) && s.servable r
  let cur := tget 0 s.ctl.host.dmaTurn h
  match l.find? fun r => decide (r.fn = 1024 * h + cur) with
  | some r => if r.cost ≤ (s.fnSt r.fn).dmaDef then some (r, false) else (after l cur).map fun q => (q, true)
  | none => (after l cur).map fun q => (q, true)
where
  /-- the first request of the function that follows `cur` most closely -/
  after : List HostReq → Nat → Option HostReq
    | [], _ => none
    | r :: t, cur =>
      let far := fun q : HostReq => (q.fn % 1024 + 1023 - cur) % 1024
      match after t cur with
      | none => some r
      | some q => if far r ≤ far q then some r else some q

/-- A request is served: the turn, and the deficit it leaves. A function with nothing left waiting keeps none. -/
def takeTurn (r : HostReq) (new : Bool) : Prog := get fun s =>
  let was := 1024 * r.port + tget 0 s.ctl.host.dmaTurn r.port
  doAll [
    Prog.when (new && !(s.ctl.host.reqs.any fun q => decide (q.fn = was) && q.tag.isNone)) (modFn was fun x => { x with dmaDef := 0 }),
    Prog.when new (ctl fun c => { c with host.dmaTurn := nset 0 c.host.dmaTurn r.port (r.fn % 1024) }),
    modFn r.fn fun x => { x with dmaDef := x.dmaDef + (if new then s.dmaQuantum r.fn else 0) - r.cost }]

/-- TAG_ALLOCATE (R105, R109, R110, R116, R122, R141): of the requests of a port that can be served, the one whose turn it is
passes its checks and is issued, or is refused whole, or has its translation asked for; at a link that is shut or down it ends
with HOST_ABORT. -/
def execTagAllocate (h : Fin 2) (s : State) : Res := live 4 (get fun s =>
  match s.dmaNext h.val with
  | none => .skip
  | some (r, new) => doAll [takeTurn r new,
      let resv := (s.tagFor r).getD false
      if !s.linkOpen (s.linkOf r.fn) then
        doAll [dropReq r.id, inc (HOST.SHUT_DISCARD_CNT r.port), endRead r.purpose ST.HOST_ABORT []]
      else match r.purpose with
        | .ats _ _ _ => doAll [issueReq r resv, inc (XLAT.MISS_CNT r.port)]
        | _ =>
          match s.checkP r.fn r.pasid r.addr r.len false with
          | .denied x => doAll [dropReq r.id, deny r.fn r.addr r.len false x, endRead r.purpose ST.ACCESS_DENIED []]
          | .miss p => askXlat r.fn r.pasid p
          | .pass => doAll [issueReq r resv, noteHit r.fn r.pasid r.addr r.len]]) s

/-! ## AER (R120) -/

/-- A link's record. -/
def State.link (s : State) (l : Nat) : Link := tget Link.init s.ctl.host.links l

/-- Change a link's record. -/
def modLink (l : Nat) (f : Link → Link) : Prog :=
  ctl fun c => { c with host.links := nmod Link.init c.host.links l f }

/-- An uncorrectable error is logged (R120): its status bit; unless masked, its message and, when the logs are free, its header
and TLP prefixes (16 bytes each); with the logs occupied, MULTI. -/
def aerUnc (l b : Nat) (hdr : List Byte) : Prog := get fun s =>
  let k := s.link l
  doAll [modLink l fun k => { k with uncStat := k.uncStat ||| BitVec.ofNat 32 (2 ^ b) },
    Prog.when (!k.uncMask.getLsbD b) (doAll [
      if k.hdrLog.isNone then modLink l fun k => { k with hdrLog := some (b, hdr) }
      else doAll [wrB (HOST.AER_EXTRA (l / 2)) 0 true,
        wrF (HOST.AER_EXTRA (l / 2)) 31 16 (satAdd 16 (s.fd (HOST.AER_EXTRA (l / 2)) 31 16) 1),
        int (11 + l / 2) 0 4],
      emit (.linkAsk l (if k.uncSev.getLsbD b then 6 else 5) b)])]

/-- A correctable error (R120): its status bit; an ERR_COR message unless masked; CORR_CNT in every case. -/
def aerCor (l b : Nat) : Prog := get fun s => doAll [
  modLink l fun k => { k with corStat := k.corStat ||| BitVec.ofNat 32 (2 ^ b) },
  inc (HOST.CORR_CNT (l / 2)),
  Prog.when (!(s.link l).corMask.getLsbD b) (emit (.linkAsk l 4 b))]

/-- Kinds of completion TLP (R107). -/
def cplGood (k : CplKind) : Bool := match k with | .success => true | _ => false

/-- TAG_QUARANTINE_END (R106). -/
def execTagQuarantineEnd (h : Fin 2) (tag : Nat) (s : State) : Res := board (doAll [
  ctl fun c => { c with host.quar := c.host.quar.filter fun q => !(decide (q.1 = h.val) && decide (q.2.1 = tag)) },
  showTags h.val]) s

/-! ## Translations (R108 to R114) -/

/-- A translation as the cache holds it: of one above 1 GiB the 1 GiB piece that holds the page (R108). -/
def Xl.clip (x : Xl) : Xl :=
  if x.logSize ≤ 30 then { x with logSize := max 12 x.logSize } else
  { x with
    logSize := 30
    out := x.out / 2 ^ x.logSize * 2 ^ x.logSize + x.page * 4096 % 2 ^ x.logSize / 2 ^ 30 * 2 ^ 30 }

/-- Put an entry into the cache, in its set of 8, in place of the least recently used (R108). -/
def fillXl (x : Xl) : Prog := ctl fun c =>
  let setOf := fun y : Xl => Config.xlSet y.fn y.pasid y.page % 2048
  let mates := c.host.xl.filter fun y => decide (y.port = x.port) && decide (setOf y = setOf x)
  let rest := if mates.length < 8 then c.host.xl else
    match firstBy8 mates with
    | some v => c.host.xl.erase v
    | none => c.host.xl
  { c with host := { c.host with xlUse := c.host.xlUse + 1, xl := rest ++ [{ x with used := c.host.xlUse }] } }
where
  /-- the least recently used of a list -/
  firstBy8 : List Xl → Option Xl
    | [] => none
    | a :: t => match firstBy8 t with
      | none => some a
      | some b => if b.used < a.used then some b else some a

/-- Whether an Invalidate Request's range meets an entry: of the PASID given (0 for no PASID), or of any with the Global bit. -/
def Xl.inRange (x : Xl) (f : Nat) (pasid : Option Nat) (addr size : Nat) : Bool :=
  decide (x.fn = f) && (match pasid with | none => true | some p => decide (x.pasid = p)) &&
    decide (x.page * 4096 / 2 ^ x.logSize * 2 ^ x.logSize < addr + size) &&
    decide (addr < x.page * 4096 / 2 ^ x.logSize * 2 ^ x.logSize + 2 ^ x.logSize)

/-- Whether an outstanding request is a read that holds an invalidation or a flush up: one whose data is dropped does too (R111, R114).
A function's reset waits for none of them (R143 step 4): it removes its entries and goes on. -/
def HostReq.holdsInval (r : HostReq) : Bool :=
  r.tag.isSome && (match r.purpose with | .ats _ _ _ => false | _ => true)

/-- Remove the entries in a range, mark the Translation Requests for it for discard, and start waiting for the reads that
used a removed entry (R111). Writes are issued when they pass their checks, so none waits. -/
def invalidate (h f : Nat) (pasid : Option Nat) (addr size itag : Nat) (flush : Bool) : Prog := get fun s =>
  let gone := s.ctl.host.xl.filter fun x => decide (x.port = h) && x.inRange f pasid addr size
  let users := s.ctl.host.reqs.filter fun r => decide (r.port = h) && decide (r.fn = f) && r.holdsInval &&
    gone.any fun x => (pagesOf r.addr r.len).any (x.covers f r.pasid)
  ctl fun c => { c with host := { c.host with
    xl := c.host.xl.filter fun x => !(decide (x.port = h) && x.inRange f pasid addr size)
    reqs := c.host.reqs.map fun r => match r.purpose with
      | .ats g q page =>
        if r.port = h ∧ g = f ∧ r.tag.isSome ∧ (pasid.all fun p => decide (p = q)) = true ∧ addr ≤ page * 4096 + 4095 ∧
          page * 4096 < addr + size then { r with discard := true } else r
      | _ => r
    invals := c.host.invals ++ [⟨h, f, itag, flush, users.map (·.id)⟩] } }

/-- INVALIDATE_REQUEST (R111, R113): for the PASID given, for the entries without a PASID, or with the Global bit for all. -/
def execInvalidateRequest (f : Fin 2048) (scope : InvScope) (addr size itag : Nat) (s : State) : Res :=
  board (doAll [inc (XLAT.INV_REQ_CNT (f.val / 1024)),
    invalidate (f.val / 1024) f.val scope.key addr size itag false,
    showInval (f.val / 1024)]) s

/-- Reads that an invalidation still waits for. -/
def State.invalUsers (s : State) (i : Inval) : Bool :=
  i.waits.any fun id => s.ctl.host.reqs.any fun r => decide (r.id = id) && r.holdsInval

/-- INVALIDATE_COMPLETION (R111 step 3): the oldest request of the port whose users are done. -/
def execInvalidateCompletion (h : Fin 2) (s : State) : Res := board (get fun s =>
  match s.ctl.host.invals.find? (fun i => decide (i.port = h.val) && !i.flush && !s.invalUsers i) with
  | none => .skip
  | some i => doAll [
      ctl fun c => { c with host.invals := c.host.invals.erase i }, showInval h.val,
      emit (.invCompletion h.val i.fn i.itag), inc (XLAT.INV_CPL_CNT h.val)]) s

/-- XLAT_FLUSH (R114): a write of FLUSH; with no flush busy, every entry of the function goes, for all PASIDs or one. -/
def execXlatFlush (a : Accessor) (v : Word) (s : State) : Res := done (byWriter a Pg.xlat 0x40 (get fun s => doAll [
  wr XLAT.FLUSH (v.toNat % 4096),
  Prog.when (!s.bit XLAT.FLUSH_STATUS 0) (
    let f := field v.toNat 10 0
    doAll [wr XLAT.FLUSH_STATUS 1,
      invalidate (f / 1024) f (if tbit v.toNat 11 then some (s.fd XLAT.FLUSH_PASID 19 0 + 1) else none) 0 (2 ^ 64) 0 true])])) s

/-- XLAT_FLUSH_DONE (R114). -/
def execXlatFlushDone (s : State) : Res := board (get fun s =>
  match s.ctl.host.invals.find? (·.flush) with
  | some i => Prog.when (!s.invalUsers i) (doAll [
      ctl fun c => { c with host.invals := c.host.invals.erase i }, wr XLAT.FLUSH_STATUS 0, int Pg.xlat 0 1])
  | none => .skip) s

/-- WINDOW_COMMIT (R118, R133): WIN_CTL commits the selected window's base, limit and control. -/
def execWindowCommit (a : Accessor) (v : Word) (s : State) : Res := done (byWriter a Pg.xlat 0x64 (get fun s => doAll [
  wr XLAT.WIN_CTL (v.toNat % 8),
  let w : Window := ⟨s.rdW XLAT.WIN_BASE, s.rdW XLAT.WIN_LIMIT, tbit v.toNat 0, tbit v.toNat 1, tbit v.toNat 2⟩
  let k := 8 * s.fd XLAT.WIN_SEL 10 0 + s.fd XLAT.WIN_SEL 14 12
  ctl fun c => { c with host.windows := nset Window.init c.host.windows k w }])) s

end Sys2Proof.Machine
end

