-- ==== Sys2Proof/Machine/Rings.lean ====
section
/-! DEFINITION. Work rings and completions (R148 to R177): scans, descriptor checks, scatter lists, completion writes. -/

namespace Sys2Proof.Machine

/-- A ring. -/
def State.ring (s : State) (r : Nat) : RingSt := tget RingSt.init s.ctl.rings.rings r

/-- Change a ring. -/
def modRing (r : Nat) (f : RingSt → RingSt) : Prog :=
  ctl fun c => { c with rings.rings := nmod RingSt.init c.rings.rings r f }

/-- Entries of a ring (R149). -/
def State.ringSize (s : State) (r : Nat) : Nat := 2 ^ s.cfd (RING.CTX_CTL.of r) 12 8

/-- The owner function of a ring (R148). -/
def State.ringOwner (s : State) (r : Nat) : Nat := s.cfd (RING.CTX_CTL.of r) 26 16

/-- The consumer of a work ring (R150). -/
def State.ringConsumer (s : State) (r : Nat) : Nat := s.cfd (RING.CTX_CTL.of r) 7 4

/-- The base of a ring. -/
def State.ringBase (s : State) (r : Nat) : Nat := s.cfgW (RING.CTX_BASE.of r) / 4096 * 4096

/-- The completion ring of a work ring (R150), as a ring ID. -/
def State.ringCpl (s : State) (r : Nat) : Nat := 65536 + s.cfd (RING.CTX_LINK.of r) 15 0

/-- PREFETCH_DEPTH; larger values act as 16 (R185). -/
def State.prefetch (s : State) (r : Nat) : Nat := min 16 (s.cfd (RING.PREFETCH_DEPTH.of r) 4 0)

/-- OWN of entry `i` in pass `p` (R156). -/
def expectedOwn (p i : Nat) : Nat := (p + 1) % 2 * 128 + i % 128

/-! Fields of a descriptor (R155, R159). -/
def Work.typ (w : Work) : Nat := leAt w.desc 1 1
def Work.flags (w : Work) : Nat := leAt w.desc 2 2
def Work.tag (w : Work) : Nat := leAt w.desc 4 4
def Work.addr (w : Work) : Nat := leAt w.desc 8 8
def Work.length (w : Work) : Nat := leAt w.desc 16 4

/-- The type-specific field of `n` bytes at byte `i`. -/
def Work.at (w : Work) (i n : Nat) : Nat := leAt w.desc i n

/-- FLAGS bit `i`. -/
def Work.flag (w : Work) (i : Nat) : Bool := tbit w.flags i

/-- The work item of an identifier. -/
def State.work? (s : State) (w : Nat) : Option Work := (s.ctl.rings.works.find? fun e => decide (e.1 = w)).map (·.2)

/-- Change a work item. -/
def modWork (w : Nat) (f : Work → Work) : Prog :=
  ctl fun c => { c with rings.works := c.rings.works.map fun e => if e.1 = w then (e.1, f e.2) else e }

/-- Act on a work item that exists. -/
def withWork (w : Nat) (k : Work → Prog) : Prog := get fun s =>
  match s.work? w with
  | some x => k x
  | none => .skip

/-- A work item is over. -/
def dropWork (w : Nat) : Prog :=
  ctl fun c => { c with rings.works := c.rings.works.filter fun e => !decide (e.1 = w) }

/-- The buffer pieces of a work item (R159, R160). -/
def Work.pieces (w : Work) : List (Nat × Nat) := if w.flag 0 then w.sgl else [(w.addr, w.length)]

/-- The part of a list of pieces from byte `o` on, `n` bytes long. -/
def piecesFrom : List (Nat × Nat) → Nat → Nat → List (Nat × Nat)
  | [], _, _ => []
  | (a, l) :: t, o, n =>
    if n = 0 then [] else
    if l ≤ o then piecesFrom t (o - l) n
    else (a + o, min (l - o) n) :: piecesFrom t 0 (n - min (l - o) n)

/-- Bytes laid out over pieces, as host writes. -/
def scatter : List (Nat × Nat) → List Byte → List (Nat × List Byte)
  | [], _ => []
  | (a, l) :: t, b => if b.isEmpty then [] else (a, b.take l) :: scatter t (b.drop l)

/-- Read the pieces of a work item's source, one read each; `off` is where the bytes go in its buffer (R104). -/
def gather (id fn : Nat) : List (Nat × Nat) → Nat → Prog
  | [], _ => .skip
  | (_, 0) :: t, off => gather id fn t off
  | (a, l) :: t, off => doAll [modWork id (fun w => { w with reads := w.reads + 1 }),
      hostRead fn a l (.data id off), gather id fn t (off + l)]

/-- Work items of a ring. -/
def State.worksOf (s : State) (r : Nat) : List (Nat × Work) := s.ctl.rings.works.filter fun e => decide (e.2.ring = r)

/-- QPN of an RDMA_SQ work request (R347). -/
def Work.qpn (w : Work) : Nat := w.at 20 3 % 2 ^ 18

/-- Whether a work request is a READ or an ATOMIC that has started and not ended (R348). -/
def State.readOut (s : State) (e : Nat × Work) : Bool :=
  decide (e.2.typ ∈ [0x45, 0x46, 0x47]) &&
    (tget Qp.init s.ctl.rdma.qps e.2.qpn).wrs.any fun x => decide (x.wr = e.1) && x.fin.isNone

/-- Whether the consumer of a ring has room for one more descriptor: BLOCK (R375), RDMA_SQ (R348). The FLOW consumer's
place depends on the descriptor and is asked at its confirmation (R305). -/
def State.consumerRoom (s : State) (r : Nat) : Bool :=
  let mine := s.worksOf r
  if s.ringConsumer r = 3 then
    decide (mine.length < 256) &&
      decide ((s.ctl.rings.works.filter fun e => decide (s.ringConsumer e.2.ring = 3)).length < 65536)
  else if s.ringConsumer r = 4 then
    mine.all fun e =>
      let of := mine.filter fun x => decide (x.2.qpn = e.2.qpn)
      let out := (of.filter s.readOut).length
      decide (of.length < 64) && (decide (out = 0) || decide (out < s.cfd (RDMA.QP_TIMERS.of e.2.qpn) 19 16))
  else true

/-- Whether a completion ring can reserve one more slot (R174). -/
def State.cplRoom (s : State) (c : Nat) : Bool :=
  let n := s.ringSize c
  decide (((s.ring c).widx + n - (s.ring c).swHead) % n + (s.ring c).resv < n - 1)

/-- Issue descriptor reads of a scanning ring while it may hold more entries (R165). -/
def issueReads (r : Nat) : Prog := get fun s =>
  let g := s.ring r
  let k := if g.st = .active ∧ g.scanning = true ∧ s.consumerRoom r = true ∧ s.cplRoom (s.ringCpl r) = true then
    s.prefetch r + 1 - g.held.length else 0
  Prog.each (List.range k) fun i =>
    let e := (g.head + g.held.length + i) % s.ringSize r
    doAll [modRing r fun x => { x with held := x.held ++ [⟨e, none⟩] },
      hostRead (s.ringOwner r) (s.ringBase r + 64 * e) 64 (.descriptor r e), peep 0 2 r]

/-- Scanning rings go on when room has appeared. -/
def kickAll : Prog := get fun s =>
  Prog.each (s.ctl.rings.rings.filter fun e => e.2.scanning) fun e => issueReads e.1

/-- Start a scan of an ACTIVE ring, or ask for one more when it scans (R164). -/
def startScan (r : Nat) : Prog := get fun s =>
  if (s.ring r).st ≠ .active then .skip
  else if (s.ring r).scanning then modRing r fun x => { x with rescan := true }
  else doAll [modRing r fun x => { x with scanning := true, rescan := false }, issueReads r]

/-- Drop every held entry of a ring: its waiting reads go, its outstanding ones lose their data. -/
def dropHeld (r : Nat) : Prog := doAll [
  modRing r fun x => { x with held := [], stalled := false },
  dropReads fun q => match q with | .descriptor g _ => decide (g = r) | _ => false]

/-- The scan of a ring ends; one more runs if it was asked for (R164). -/
def endScan (r : Nat) : Prog := get fun s =>
  if (s.ring r).rescan then doAll [modRing r fun x => { x with scanning := false }, startScan r]
  else modRing r fun x => { x with scanning := false }

/-- The head entry's bytes when it has arrived, its OWN bytes match and nothing keeps the ring from serving (R156). -/
def State.headReady (s : State) (r : Nat) : Option (List Byte) :=
  let g := s.ring r
  if g.st ≠ .active then none else
  match g.held with
  | ⟨e, some (some b)⟩ :: _ =>
    let own := expectedOwn g.pass e
    if leAt b 0 1 = own ∧ leAt b 63 1 = own then some b else none
  | _ => none

/-- A ring with its head ready that finds no completion slot starts to wait, counted once (R174). A scan that reads no entry because the
completion ring is full is not counted: only a descriptor waits for a slot (DEDUCED, log entry 151). -/
def noteStall (r : Nat) : Prog := get fun s =>
  Prog.when ((s.headReady r).isSome && !s.cplRoom (s.ringCpl r) && !(s.ring r).stalled) (doAll [
    inc RING.CPL_STALL_CNT, modRing r fun x => { x with stalled := true }])

/-- A slot of a completion ring has been taken: every ring that now waits for one starts to (R174). -/
def noteStalls (c : Nat) : Prog := get fun s =>
  Prog.each (s.ctl.rings.rings.filter fun e => decide (e.1 < 65536) && decide (s.ringCpl e.1 = c)) fun e => noteStall e.1

/-! ## Completions -/

/-- The 32 bytes of a completion (R170, R171). -/
def cplBytes (w : Work) (st len now phase : Nat) (ts : Option (Nat × Option Nat)) (extra : List (Nat × List Byte)) :
    List Byte :=
  let tsx := ts.bind (·.2)
  let base := leBytes 4 w.tag ++ leBytes 2 st ++ leBytes 1 (b2n ts.isSome + 2 * b2n tsx.isSome) ++ leBytes 1 w.typ ++
    leBytes 4 len ++ leBytes 6 (match ts with | some t => t.1 | none => now) ++ leBytes 2 w.srcNo ++ leBytes 8 0 ++
    leBytes 3 (tsx.getD 0) ++ leBytes 1 phase
  extra.foldl (fun b e => splice b e.1 e.2) base

/-- Phase of a completion ring's entry in pass `q` (R172). -/
def cplPhase (q : Nat) : Nat := if q % 2 = 0 then 128 else 0

/-- The event of a completion ring (R176). -/
def raiseCpl (c : Nat) : Prog := get fun s =>
  Prog.when (s.cbit (RING.CTX_LINK.of c) 31) (evt (s.cfd (RING.CTX_LINK.of c) 11 0))

/-- The work item of a post ends without a completion entry; its slot is free again (R124, R143, R173). -/
def endWork (id : Nat) (w : Work) : Prog := doAll [
  dropWork id, modRing w.cpl fun x => { x with resv := x.resv - 1 }, kickAll]

/-- Write the completion of a post's work item (R170 to R176). One discarded at a link that is not open counts (R122). -/
def writeCpl (p : Post) (id : Nat) (w : Work) : Prog := get fun s =>
  let c := s.ring w.cpl
  let addr := s.ringBase w.cpl + 32 * c.widx
  if !s.linkOpen (s.linkOf w.fn) then doAll [inc (HOST.SHUT_DISCARD_CNT (w.fn / 1024)), endWork id w]
  else if (s.fnSt w.fn).busy then endWork id w
  else match s.check w.fn addr 32 true with
  | .denied x => doAll [deny w.fn addr 32 true x, endWork id w]
  | .miss pg => doAll [askXlat w.fn 0 pg, ctl fun k => { k with rings.posts := k.rings.posts ++ [{ p with writes := [] }] }]
  | .pass =>
    let last := decide (c.widx + 1 = s.ringSize w.cpl)
    doAll [
      putOut w.fn 0 addr (cplBytes w p.status p.length (s.wt 0) (cplPhase c.wpass) p.ts p.extra),
      Prog.when (decide (p.status ∈ [ST.BAD_TYPE, ST.BAD_LENGTH, ST.BAD_FIELD])) (doAll [inc RING.BAD_DESC_CNT,
        int Pg.ring 0 2]),
      modRing w.cpl fun x => { x with
        widx := if last then 0 else c.widx + 1
        wpass := if last then c.wpass + 1 else c.wpass
        resv := x.resv - 1
        armed := false },
      dropWork id, peep 0 4 (w.cpl % 65536),
      Prog.when (c.armed || w.flag 1) (raiseCpl w.cpl), kickAll]

/-- Serve a post's writes in order, then its completion (R116, R122, R172). A refused write makes the completion carry
ACCESS_DENIED; one that lacks a translation waits for it with what follows. -/
def serveWrites (p : Post) : List (Nat × List Byte) → Prog
  | [] => match p.work with
    | none => .skip
    | some id => withWork id (writeCpl p id)
  | (a, b) :: t => get fun s =>
    if b.isEmpty then serveWrites p t
    else if !s.linkOpen (s.linkOf p.fn) then doAll [inc (HOST.SHUT_DISCARD_CNT (p.fn / 1024)), serveWrites p t]
    else if (s.fnSt p.fn).busy then serveWrites p t
    else match s.check p.fn a b.length true with
    | .denied x => doAll [deny p.fn a b.length true x,
        serveWrites (if p.status = ST.OK then { p with status := ST.ACCESS_DENIED, length := 0 } else p) t]
    | .miss pg => doAll [askXlat p.fn 0 pg,
        ctl fun k => { k with rings.posts := k.rings.posts ++ [{ p with writes := (a, b) :: t }] }]
    | .pass => doAll [putOut p.fn 0 a b, serveWrites p t]

/-- Issue a group of host writes and a completion. Those of a function held at its DMA_CAP wait (R141). Once a hold-up dump has begun
the device writes none (R409). -/
def post (p : Post) : Prog := get fun s => Prog.when s.alive (
  if s.dmaHeld p.fn && s.linkOpen (s.linkOf p.fn) && !(s.fnSt p.fn).busy then
    ctl fun c => { c with rings.posts := c.rings.posts ++ [p] }
  else serveWrites p p.writes)

/-- Complete a work item with a STATUS and LENGTH and nothing more. -/
def complete (id st len : Nat) : Prog := withWork id fun w => post ⟨w.fn, [], some id, st, len, none, []⟩

/-- Complete a work item: data writes, timestamp, type-specific bytes. -/
def completeWith (id st len : Nat) (writes : List (Nat × List Byte)) (ts : Option (Nat × Option Nat))
    (extra : List (Nat × List Byte)) : Prog :=
  withWork id fun w => post ⟨w.fn, writes, some id, st, len, ts, extra⟩

/-- A function writes host memory without a completion. -/
def hostWrite (f a : Nat) (b : List Byte) : Prog := post ⟨f, [(a, b)], none, 0, 0, none, []⟩

/-- Whether the completion of a work item waits for a translation. -/
def State.postWaits (s : State) (id : Nat) : Bool := s.ctl.rings.posts.any fun p => decide (p.work = some id)

/-- Posts that waited for a translation, or for their function's cap, are served again, oldest first. -/
def retryPosts : Prog := get fun s => .seq (ctl fun c => { c with rings.posts := [] })
  (Prog.each s.ctl.rings.posts post)

/-- As time goes on, a function's cap lets its waiting writes go (R141). -/
def capsEnd : Prog := get fun s =>
  Prog.when (s.ctl.rings.posts.any fun p => !s.dmaHeld p.fn) retryPosts

/-! ## Doorbells and scans -/

/-- A work or completion ring of a function by its local number, in a state (R148, R163). -/
def State.ringAt (s : State) (cpl : Bool) (f l : Nat) : Option Nat :=
  (s.ctl.rings.rings.find? fun e => decide (65536 ≤ e.1) == cpl && decide (e.2.st = .active) &&
    decide (s.ringOwner e.1 = f) && decide (s.cfd (RING.CTX_LOCAL.of e.1) 11 0 = l)).map (·.1)

/-- What reaches a function's doorbell page: nothing through a link that is not OPEN (R126); counted and dropped for a function
that does not exist (R135, R143); discarded during its reset (R143). -/
def atPage (f : Nat) (p : Prog) : Prog := get fun s =>
  if !s.linkOpen (s.linkOf f) then .skip
  else if !s.fnExists f then dropFor f
  else Prog.when (!(s.fnSt f).busy) p

/-- A doorbell at a slot (R163). -/
def doorbell (f w : Nat) : Prog := get fun s =>
  match s.ringAt false f w with
  | some r => doAll [startScan r, peep 0 0 r]
  | none => doAll [inc RING.DB_DROP_CNT, int Pg.ring 0 0]

/-- DOORBELL (R126, R135, R143, R163, R164). -/
def execDoorbell (f : Fin 2048) (w : Fin 4096) (s : State) : Res := live 4 (atPage f.val (doorbell f.val w.val)) s

/-- RING_POLL (R56, R168): the next event, a ring's poll, acts as a doorbell, and the next poll is scheduled. -/
def execRingPoll (s : State) : Res := live 4 (
  dispatch (fun c => match c with | .ringPoll _ => true | _ => false) fun e stepped =>
    match e.consumer with
    | .ringPoll r => doAll [startScan r, nextPeriod e stepped]
    | _ => .skip) s

/-- DESCRIPTOR_ARRIVAL (R165, R166): the head entry's read has returned. Its OWN bytes match and it waits for its
confirmation, or it and every later held entry are dropped and the scan ends. -/
def execDescriptorArrival (r : Fin 65536) (s : State) : Res := live 4 (get fun s =>
  let g := s.ring r.val
  match g.held with
  | ⟨_, some _⟩ :: _ =>
    if g.st ≠ .active then .skip
    else if (s.headReady r.val).isSome then noteStall r.val
    else doAll [incBy RING.PREFETCH_DROP_CNT g.held.length, Prog.each g.held (fun _ => peep 0 3 r.val), dropHeld r.val, endScan r.val]
  | _ => .skip) s

/-- RING_DRAINED (R154). -/
def execRingDrained (r : Fin 65536) (s : State) : Res := live 4 (get fun s =>
  Prog.when (decide ((s.ring r.val).st = .draining) && (s.worksOf r.val).isEmpty)
    (modRing r.val fun x => { x with st := .off })) s

/-- A head write of 4 bytes at a head slot (R175, R176). -/
def headWrite (f l v : Nat) : Prog := get fun s =>
  match s.ringAt true f l with
  | none => doAll [inc RING.HEAD_REJ_CNT, int Pg.ring 0 1]
  | some c =>
    let g := s.ring c
    let n := s.ringSize c
    let h := field v 15 0
    if h < n ∧ (h + n - g.swHead) % n ≤ (g.widx + n - g.swHead) % n then doAll [
      modRing c fun x => { x with swHead := h },
      Prog.when (tbit v 31) (if g.widx = h then modRing c fun x => { x with armed := true }
        else doAll [modRing c fun x => { x with armed := false }, raiseCpl c]),
      kickAll]
    else doAll [inc RING.HEAD_REJ_CNT, int Pg.ring 0 1]

/-- HEAD_WRITE (R126, R135, R143, R175, R176). -/
def execHeadWrite (f : Fin 2048) (c : Fin 2048) (v : Word) (s : State) : Res := live 4 (
  atPage f.val (headWrite f.val c.val v.toNat)) s

/-- What a head-slot read returns (R175). -/
def State.headSlot (s : State) (f l : Nat) : Nat :=
  match s.ringAt true f l with
  | some c => (s.ring c).swHead + 65536 * (s.ring c).widx
  | none => 0

/-- RING_NOP (R158): a dispatched NOP completes with OK. -/
def execRingNop (w : Nat) (s : State) : Res := live 4 (withWork w fun x =>
  Prog.when (decide (x.typ = 0) && decide (x.stage = 0)) (complete w ST.OK 0)) s

/-! ## Scatter lists (R160) -/

/-- Whether a descriptor that passes its checks has a scatter list for the device to read: the types whose ADDR is a
buffer. -/
def Work.listed (w : Work) : Bool :=
  w.flag 0 && decide (w.typ ∈ [0x10, 0x31, 0x32, 0x3E, 0x41, 0x43, 0x45, 0x46, 0x47, 0x51,
    0x61, 0x62, 0x63, 0x64, 0x65, 0x66])

/-- Ask for element `k` of a work item's scatter list: the model reads a list element by element (log entry 14). -/
def readSgl (id : Nat) (w : Work) (k : Nat) : Prog := hostRead w.fn (w.addr + 16 * k) 16 (.sgl id 0)

/-- A work item whose buffer is the source of what it does gets its bytes: a NET_TX send, a SEND or WRITE, a cipher job. A
BLOCK WRITE reads its data into staging later (R17); an armed work request reads its own when its counter releases it (R353). -/
def fetchSource (id : Nat) : Prog := withWork id fun w =>
  Prog.when (decide (w.typ ∈ [0x10, 0x41, 0x43, 0x61, 0x62, 0x63, 0x64, 0x65, 0x66]) && !(decide (w.typ / 16 = 4) && w.flag 8)) (doAll [
    gather id w.fn w.pieces 0,
    Prog.when (decide (0x61 ≤ w.typ)) (modWork id fun x => { x with stage := 3 })])

/-- Where a read's bytes belong in a scatter-list element of a work item. -/
def sglPlace (id : Nat) : Purpose → Option Nat
  | .sgl w off => if w = id then some off else none
  | _ => none

end Sys2Proof.Machine
end

