-- ==== Sys2Proof/Machine/Keys.lean ====
section
/-! DEFINITION. Key slots and their use counts (R431 to R434), SA entries and the inline cipher on frames (R419 to R425). -/

namespace Sys2Proof.Machine

/-- A key slot. -/
def State.slot (s : State) (k : Nat) : KeySlot := tget KeySlot.empty s.ctl.ciph.slots k

/-- Put a key slot. -/
def setSlot (k : Nat) (x : KeySlot) : Prog := ctl fun c => { c with ciph.slots := nset KeySlot.empty c.ciph.slots k x }

/-! Attributes (R434). -/
def atExport : Nat := 0
def atNet : Nat := 1
def atStore : Nat := 2
def atJob : Nat := 3
def atWrap : Nat := 4
def atSign : Nat := 5

/-- Marks of a slot whose counts changed (R433, R436): WARNED at WARN, SPENT at LIMIT, each shown once. -/
def markSlot (k : Nat) : Prog := get fun s =>
  let x := s.slot k
  let warn := decide (x.warn ≤ x.use) && !x.warned
  let spent := decide (x.limit ≤ x.use) && !x.spent
  doAll [
    setSlot k { x with warned := x.warned || warn, spent := x.spent || spent },
    Prog.when warn (doAll [wr CIPH.LAST_KEY k, int Pg.ciph 0 1]),
    Prog.when spent (doAll [wr CIPH.LAST_KEY (k + 65536), int Pg.ciph 0 2])]

/-- A use of `n` counts of a slot whose kind and attribute must permit it (R432, R433): `k` gets OK, KEY_SPENT or
KEY_INVALID and the key material. -/
def useKey (slot n : Nat) (kinds : List Nat) (attr : Nat) (k : Nat → Nat → Prog) : Prog := get fun s =>
  let x := s.slot slot
  if 16384 ≤ slot ∨ x.kind ∉ kinds ∨ tbit x.attr attr = false then k ST.KEY_INVALID 0
  else if x.limit < x.use + n then k ST.KEY_SPENT 0
  else doAll [setSlot slot { x with use := x.use + n }, markSlot slot, peep 10 0 slot, k ST.OK x.material]

/-- Whether the mask generator has STOPPED (R442). -/
def State.maskStopped (s : State) : Bool := s.bit CIPH.MASK_STATUS 9

/-- Whether the storage datapath of the cipher has stopped (R430). -/
def State.storeError (s : State) : Bool := s.bit CIPH.STORE_STATUS 0

/-- Whether placements and reads of encrypted volumes wait: the storage datapath has stopped (R430), or the masks have (R442). -/
def State.storeWaits (s : State) : Bool := s.storeError || s.maskStopped

/-! ## SA entries (R420, R421) -/

/-- Bytes of SA entry `i`; the entries lie in memory space 17. -/
def State.sa (s : State) (i : Nat) : List Byte := s.bytes 17 0 (64 * i) 64

/-- PN of an SA entry. -/
def saPN (e : List Byte) : Nat := leAt e 32 8

/-- Largest PN of an SA entry (R424). -/
def saMaxPN (e : List Byte) : Nat := if tbit (leAt e 1 1) 0 then 2 ^ 64 - 1 else 2 ^ 32 - 1

/-- SA_W15_WRITE (R421, R425): the words become the entry, whose FRAMES software cannot write and whose last 16 bytes are
reserved; its replay state starts anew. FRAMES keeps its count (log entry 144). -/
def execSaW15Write (a : Accessor) (v : Word) (s : State) : Res := done (byWriter a Pg.ciph 0x80 (get fun s =>
  let i := s.sel a 32 0x40 % 32768
  let words := (List.range 10).flatMap fun w => leBytes 4 (s.rd (CIPH.SA_W w))
  doAll [wr (CIPH.SA_W 15) v.toNat, poke 17 0 (64 * i) words, cleanse 17 0 (64 * i) 64,
    ctl fun c => { c with ciph := { c.ciph with
      saSeen := nset [] c.ciph.saSeen i []
      saWords := setField c.ciph.saWords 15 15 0 } }])) s

/-- Ones-complement sum of 16-bit words of a byte list. -/
def onesSum : List Byte → Nat
  | a :: b :: t => a.toNat * 256 + b.toNat + onesSum t
  | [a] => a.toNat * 256
  | [] => 0

/-- Fold a sum into 16 bits. -/
def fold16 (n : Nat) : Nat :=
  let a := n % 65536 + n / 65536
  let b := a % 65536 + a / 65536
  b % 65536 + b / 65536

/-- The internet checksum of a byte list. -/
def inetSum (l : List Byte) : Nat := notN 16 (fold16 (onesSum l))

/-- A frame with the checksum of the IPv4 header at `o` computed anew. -/
def fixIPv4 (f : List Byte) (o : Nat) : List Byte :=
  let n := (byteAt f o).toNat % 16 * 4
  let z := splice f (o + 10) [0, 0]
  splice z (o + 10) (beBytes 2 (inetSum (slice z o n)))

/-- IPv6 extension headers a frame's Next Header may name (R422): hop-by-hop, routing, fragment, ESP, AH, options, mobility, HIP, shim6
and the two for experiments, as IANA lists them. -/
def isExtHeader (n : Nat) : Bool := decide (n ∈ [0, 43, 44, 50, 51, 60, 135, 139, 140, 253, 254])

/-- `n` bytes of cipher output: the standards fix the length, not this definition (R419). -/
def cipherOut (op key : Nat) (iv aad inp : List Byte) (n : Nat) : List Byte := slice (Config.cipherText op key iv aad inp) 0 n

/-- A 16-byte tag. -/
def tagOut (op key : Nat) (iv aad inp : List Byte) : List Byte := slice (Config.cipherTag op key iv aad inp) 0 16

/-! Operation codes handed to the cipher functions. -/
def opEnc : Nat := 0
def opDec : Nat := 1
def opTag : Nat := 2

/-- XOR of two byte lists of one length. -/
def xorBytes (a b : List Byte) : List Byte := a.zipWith (· ^^^ ·) b

/-- The 96-bit IV of MACsec (R419): SCI and PN, or with XPN the salt against SSCI and the 64-bit PN. -/
def macsecIV (e : List Byte) (pn : Nat) : List Byte :=
  if tbit (leAt e 1 1) 0 then xorBytes (slice e 4 12) (beBytes 4 (leAt e 16 4) ++ beBytes 8 pn)
  else beBytes 8 (leAt e 20 8) ++ beBytes 4 pn

/-- The SecTAG (R421, R422; IEEE 802.1AE): EtherType, TCI and AN, short length, PN, SCI. -/
def secTag (e : List Byte) (pn len : Nat) : List Byte :=
  let fl := leAt e 1 1
  let tci := (if tbit fl 1 then 32 else 0) + (if tbit fl 2 then 0 else 12) + (leAt e 28 1) % 4
  beBytes 2 0x88E5 ++ beBytes 1 tci ++ beBytes 1 (if len < 48 then len else 0) ++ beBytes 4 (pn % 2 ^ 32) ++
    (if tbit fl 1 then beBytes 8 (leAt e 20 8) else [])

/-- MACSEC_TX on a frame (R422). -/
def macsecTx (e : List Byte) (key pn : Nat) (f : List Byte) : List Byte :=
  let body := f.drop 12
  let tag := secTag e pn body.length
  let hd := f.take 12 ++ tag
  let iv := macsecIV e pn
  if tbit (leAt e 1 1) 2 then hd ++ body ++ tagOut opTag key iv (hd ++ body) []
  else hd ++ cipherOut opEnc key iv hd body body.length ++ tagOut opTag key iv hd body

/-- ESP_TX on a frame (R422): the IP header at `o`, IPv6 or not. `none` when it cannot be protected. -/
def espTx (e : List Byte) (key pn o : Nat) (v6 : Bool) (f : List Byte) : Option (List Byte) :=
  let hl := if v6 then 40 else 20
  let next := (byteAt f (o + (if v6 then 6 else 9))).toNat
  if v6 && isExtHeader next then none else
  let pay := f.drop (o + hl)
  let padn := (4 - (pay.length + 2) % 4) % 4
  let plain := pay ++ (List.range padn).map (fun i => BitVec.ofNat 8 (i + 1)) ++ beBytes 1 padn ++ beBytes 1 next
  let esn := tbit (leAt e 1 1) 0
  let hd := beBytes 4 (leAt e 16 4) ++ beBytes 4 (pn % 2 ^ 32)
  let iv8 := beBytes 8 pn
  let iv := slice e 4 4 ++ iv8
  let aad := beBytes 4 (leAt e 16 4) ++ (if esn then beBytes 8 pn else beBytes 4 pn)
  let sec := if tbit (leAt e 1 1) 2 then plain ++ tagOut opTag key iv (aad ++ iv8 ++ plain) []
    else cipherOut opEnc key iv aad plain plain.length ++ tagOut opTag key iv aad plain
  let ip := f.take (o + hl)
  let body := hd ++ iv8 ++ sec
  some (if v6 then splice (splice ip (o + 4) (beBytes 2 body.length)) (o + 6) [50] ++ body
    else fixIPv4 (splice (splice ip (o + 2) (beBytes 2 (hl + body.length))) (o + 9) [50] ++ body) o)

/-- The 64-bit sequence number that an ESP frame's low half stands for, from the lowest acceptable one (RFC 4303, appendix A). -/
def recoverESN (esn : Bool) (lowest low : Nat) : Nat :=
  if !esn then low
  else (lowest / 2 ^ 32 + (if low < lowest % 2 ^ 32 then 1 else 0)) % 2 ^ 32 * 2 ^ 32 + low

/-- The 64-bit packet number that a MACsec frame's low half stands for, from the lowest acceptable one (IEEE 802.1AE). -/
def recoverPN (wide : Bool) (lowest low : Nat) : Nat :=
  if !wide then low else
  let hi := lowest / 2 ^ 32
  if 2 ^ 31 ≤ lowest % 2 ^ 32 ∧ low < 2 ^ 31 then (hi + 1) % 2 ^ 32 * 2 ^ 32 + low else hi * 2 ^ 32 + low

/-- What the checks of R423 find in a received MACsec frame: its PN, what was authenticated, the secured bytes, their tag,
and the frame without protection round them. -/
structure Protected where
  pn : Nat
  iv : List Byte
  aad : List Byte
  secured : List Byte
  tag : List Byte
  front : List Byte
deriving DecidableEq, Repr

/-- A received MACsec frame against its entry: step 1 of R423. A SecTAG's short length other than 0 says how much is secured; what follows
the ICV is padding (R419; IEEE 802.1AE). -/
def macsecRx (e f : List Byte) : Option Protected :=
  if beAt f 12 2 ≠ 0x88E5 then none else
  let tci := (byteAt f 14).toNat
  let sc := tbit tci 5
  let n := if sc then 16 else 8
  let short := (byteAt f 15).toNat % 64
  let len := if short = 0 then f.length - 12 - n - 16 else short
  if tci % 4 ≠ leAt e 28 1 % 4 ∨ (sc = true ∧ beAt f 20 8 ≠ leAt e 20 8) ∨ f.length < 12 + n + len + 16 then none else
  let pn := recoverPN (tbit (leAt e 1 1) 0) (saPN e) (beAt f 16 4)
  let hd := f.take (12 + n)
  some ⟨pn, macsecIV e pn, hd, slice f (12 + n) len, slice f (12 + n + len) 16, f.take 12⟩

/-- A received ESP frame against its entry: step 1 of R423. AES-GMAC authenticates the IV too (RFC 4543). -/
def espRx (e f : List Byte) (o : Nat) (v6 : Bool) : Option Protected :=
  let hl := if v6 then 40 else 20
  let next := (byteAt f (o + (if v6 then 6 else 9))).toNat
  if next ≠ 50 ∨ beAt f (o + hl) 4 ≠ leAt e 16 4 ∨ f.length < o + hl + 34 then none else
  let esn := tbit (leAt e 1 1) 0
  let pn := recoverESN esn (saPN e) (beAt f (o + hl + 4) 4)
  let iv8 := slice f (o + hl + 8) 8
  some ⟨pn, slice e 4 4 ++ iv8, beBytes 4 (leAt e 16 4) ++ (if esn then beBytes 8 pn else beBytes 4 pn) ++ (if tbit (leAt e 1 1) 2 then iv8 else []),
    (f.drop (o + hl + 16)).take (f.length - o - hl - 32), f.drop (f.length - 16), f.take (o + hl)⟩

/-- The plain frame of a received ESP frame: trailer removed, IP fields corrected (R423). -/
def espPlain (o : Nat) (v6 : Bool) (front plain : List Byte) : List Byte :=
  let next := byteAt plain (plain.length - 1)
  let padn := (byteAt plain (plain.length - 2)).toNat
  let pay := plain.take (plain.length - 2 - padn)
  if v6 then splice (splice front (o + 4) (beBytes 2 pay.length)) (o + 6) [next] ++ pay
  else fixIPv4 (splice (splice front (o + 2) (beBytes 2 (20 + pay.length))) (o + 9) [next] ++ pay) o

/-- Whether a transmit entry has no PN left (R424); the flag stands for the PN 2^64 that the entry cannot hold. -/
def State.pnSpent (s : State) (i : Nat) : Bool :=
  decide (saMaxPN (s.sa i) < saPN (s.sa i)) || !(tget [] s.ctl.ciph.saSeen i).isEmpty

/-- Take a transmit entry's PN (R424). -/
def takePN (i : Nat) : Prog := get fun s => doAll [
  Prog.when (decide (saPN (s.sa i) + 1 = 2 ^ 64)) (ctl fun c => { c with ciph.saSeen := nset [] c.ciph.saSeen i [0] }),
  poke 17 0 (64 * i + 32) (leBytes 8 (saPN (s.sa i) + 1))]

/-- Step FRAMES of an SA entry. -/
def saCount (i : Nat) : Prog := get fun s =>
  poke 17 0 (64 * i + 40) (leBytes 8 (satAdd 64 (leAt (s.sa i) 40 8) 1))

/-- Bytes the cipher passes of a pipeline in one REFCLK edge: 1.6 Tb/s (R419, R424; log entry 160). -/
def cipherStride : Nat := 1280

/-- Bytes of a pipeline that wait in its cipher queue now (R424). -/
def State.cipherQueued (s : State) (pipe : Nat) : Nat :=
  let q := tget (0, 0) s.ctl.ciph.queued pipe
  q.1 - cipherStride * (s.ctl.time.edges - q.2)

/-- A frame of `n` bytes joins its pipeline's cipher queue of 512 KiB; `full` runs instead when it has no room there (R424). A frame that
STOPPED masks drop takes none (R442). -/
def cipherQueue (pipe n : Nat) (full pass : Prog) : Prog := get fun s =>
  if s.maskStopped then pass
  else if 524288 < s.cipherQueued pipe + n then doAll [inc CIPH.OVERRUN_CNT, full]
  else doAll [ctl fun c => { c with ciph.queued := nset (0, 0) c.ciph.queued pipe (s.cipherQueued pipe + n, s.ctl.time.edges) }, pass]

/-- A frame through its security association (R422 to R424, R430, R433, R442): `k` gets the frame that leaves the cipher,
or nothing when it is dropped, as one whose entry is poisoned is (R486). -/
def cipherFrame (sa : Nat) (f : List Byte) (l3 : Option (Nat × Bool)) (k : Option (List Byte) → Prog) : Prog := get fun s =>
  let i := sa % 32768
  let e := s.sa i
  let mode := leAt e 0 1
  let slot := leAt e 2 2 % 16384
  let bad := doAll [inc CIPH.SA_BAD_CNT, k none]
  let refuse := doAll [inc CIPH.SPENT_DROP_CNT, k none]
  let integrity := tbit (leAt e 1 1) 2
  if s.poisoned 17 0 (64 * i) 64 then doAll [inc (HDR.ERR_COUNT Pg.ciph), k none]
  else if s.maskStopped then doAll [inc CIPH.MASK_STOP_CNT, k none]
  else if mode = 1 ∨ mode = 2 then
    if mode = 1 ∧ s.pnSpent i = true then doAll [inc CIPH.PN_EXHAUST_CNT, int Pg.ciph 0 3, k none]
    else if mode = 1 then useKey slot 1 [1, 2] atNet fun st key =>
      if st ≠ ST.OK then refuse else doAll [
        takePN i, saCount i, k (some (macsecTx e key (saPN e) f))]
    else match macsecRx e f with
      | none => bad
      | some p => check i e slot p integrity k fun plain => p.front ++ plain
  else match l3 with
    | none => bad
    | some (o, v6) =>
      if mode = 3 then
        if s.pnSpent i then doAll [inc CIPH.PN_EXHAUST_CNT, int Pg.ciph 0 3, k none]
        else if (espTx e 0 (saPN e) o v6 f).isNone then bad
        else useKey slot 1 [1, 2] atNet fun st key =>
          if st ≠ ST.OK then refuse else doAll [
            takePN i, saCount i, k (espTx e key (saPN e) o v6 f)]
      else match espRx e f o v6 with
        | none => bad
        | some p => check i e slot p integrity k fun plain => espPlain o v6 p.front plain
where
  /-- steps 2 and 3 of R423 -/
  check (i : Nat) (e : List Byte) (slot : Nat) (p : Protected) (integrity : Bool) (k : Option (List Byte) → Prog)
      (build : List Byte → List Byte) : Prog := get fun s =>
    let seen := tget [] s.ctl.ciph.saSeen i
    if p.pn < saPN e ∨ p.pn ∈ seen then doAll [inc CIPH.REPLAY_DROP_CNT, k none]
    else useKey slot 1 [1, 2] atNet fun st key =>
      if st ≠ ST.OK then doAll [inc CIPH.SPENT_DROP_CNT, k none]
      else
        let plain := if integrity then p.secured else cipherOut opDec key p.iv p.aad p.secured p.secured.length
        let want := if integrity then tagOut opTag key p.iv (p.aad ++ p.secured) [] else tagOut opTag key p.iv p.aad plain
        if want ≠ p.tag then doAll [inc CIPH.AUTH_FAIL_CNT, peep 10 1 i, k none]
        else
          let top := max p.pn (seen.foldl max 0)
          -- the entry holds no PN above 2^64 - 1: with that one seen, it stays lowest and its repetition is refused
          let low := min (2 ^ 64 - 1) (max (saPN e) (top + 1 - min 1024 (leAt e 30 2)))
          doAll [
            ctl fun c => { c with ciph.saSeen := nset [] c.ciph.saSeen i ((seen ++ [p.pn]).filter fun n => decide (low ≤ n)) },
            poke 17 0 (64 * i + 32) (leBytes 8 low), saCount i, k (some (build plain))]

end Sys2Proof.Machine
end

