-- ==== Sys2Proof/Machine/Cipher.lean ====
section
/-! DEFINITION. Cipher jobs, masks, the Falal vault and the entropy source (R426 to R445). -/

namespace Sys2Proof.Machine

/-! ## Cipher jobs (R426 to R428) -/

/-! Type-specific fields of a CIPHER descriptor (R426). -/
def Work.jobKey (w : Work) : Nat := w.at 20 2 % 16384
def Work.duLen (w : Work) : Nat := w.at 22 2
def Work.jobDst (w : Work) : Nat := w.at 40 8
def Work.aadLen (w : Work) : Nat := w.at 48 4

/-- Validation of a CIPHER descriptor (R158, R161, R426). -/
def jobCheck (w : Work) : Nat :=
  if w.typ < 0x61 ∨ 0x67 < w.typ then ST.BAD_TYPE
  else if w.length = 0 ∨ 2 ^ 24 < w.length then ST.BAD_LENGTH
  else if w.typ = 0x67 then
    if 65536 < w.length then ST.BAD_LENGTH else if w.flag 0 then ST.BAD_FIELD else ST.OK
  else if w.typ = 0x65 ∨ w.typ = 0x66 then
    if w.duLen < 16 ∨ 16384 < w.duLen ∨ w.duLen % 16 ≠ 0 then ST.BAD_FIELD
    else if w.length % w.duLen ≠ 0 then ST.BAD_LENGTH else ST.OK
  else if w.typ = 0x62 ∨ w.typ = 0x64 then
    if w.length < w.aadLen + 16 then ST.BAD_LENGTH else ST.OK
  else if w.length < w.aadLen then ST.BAD_LENGTH else ST.OK

/-- A job whose source is there starts: refused by its reads, by stopped masks (R442), or run. -/
def startJob (id typ : Nat) (run : Work → Prog) : Prog := get fun s => withWork id fun w =>
  if w.typ ≠ typ ∨ w.stage ≠ 3 ∨ w.reads ≠ 0 then .skip
  else if w.status ≠ ST.OK then complete id w.status 0
  else if s.maskStopped then complete id ST.ENTROPY_FAILED 0
  else run w

/-- A job that uses its key `n` times, refused as the key refuses. -/
def withJobKey (id : Nat) (w : Work) (kinds : List Nat) (n : Nat) (run : Nat → Prog) : Prog :=
  useKey w.jobKey n kinds atJob fun st key => if st ≠ ST.OK then complete id st 0 else run key

/-- A job writes its output at DST and completes; LENGTH is what was written (R426). -/
def jobDone (id st : Nat) (w : Work) (out : List Byte) : Prog :=
  completeWith id st out.length (if out.isEmpty then [] else [(w.jobDst, out)]) none []

/-- IV of a GCM job (R426). -/
def Work.gcmIV (w : Work) : List Byte := slice w.desc 24 12

/-- GCM_ENC (R426). -/
def execGcmEnc (id : Nat) (s : State) : Res := live 2 (startJob id 0x61 fun w => withJobKey id w [1, 2] 1 fun key =>
  let aad := w.buf.take w.aadLen
  let pt := w.buf.drop w.aadLen
  jobDone id ST.OK w (cipherOut opEnc key w.gcmIV aad pt pt.length ++ tagOut opTag key w.gcmIV aad pt)) s

/-- GCM_DEC (R426, R427). -/
def execGcmDec (id : Nat) (s : State) : Res := live 2 (startJob id 0x62 fun w => withJobKey id w [1, 2] 1 fun key =>
  let aad := w.buf.take w.aadLen
  let ct := (w.buf.drop w.aadLen).take (w.length - w.aadLen - 16)
  let pt := cipherOut opDec key w.gcmIV aad ct ct.length
  jobDone id (if tagOut opTag key w.gcmIV aad pt = w.buf.drop (w.length - 16) then ST.OK else ST.AUTH_FAIL) w pt) s

/-- GMAC_GEN (R426): the tag over AAD_LEN bytes of AAD. -/
def execGmacGen (id : Nat) (s : State) : Res := live 2 (startJob id 0x63 fun w => withJobKey id w [1, 2] 1 fun key =>
  jobDone id ST.OK w (tagOut opTag key w.gcmIV (w.buf.take w.aadLen) [])) s

/-- GMAC_VER (R426, R427): AAD_LEN bytes of AAD, then the tag; what follows it is not read (log entry 161). -/
def execGmacVer (id : Nat) (s : State) : Res := live 2 (startJob id 0x64 fun w => withJobKey id w [1, 2] 1 fun key =>
  jobDone id (if tagOut opTag key w.gcmIV (w.buf.take w.aadLen) [] = slice w.buf w.aadLen 16 then ST.OK
    else ST.AUTH_FAIL) w []) s

/-- XTS over data units: unit `i` has the tweak plus `i`, little-endian (R426). -/
def xtsUnits (op key du tweak : Nat) (b : List Byte) : List Byte :=
  (List.range (b.length / max 1 du)).flatMap fun i =>
    cipherOut op key (leBytes 16 (tweak + i)) [] (slice b (i * du) du) du

/-- XTS_ENC (R426, R432). -/
def execXtsEnc (id : Nat) (s : State) : Res := live 2 (startJob id 0x65 fun w =>
  withJobKey id w [3] (w.length / max 1 w.duLen) fun key =>
    jobDone id ST.OK w (xtsUnits opEnc key w.duLen (w.at 24 16) w.buf)) s

/-- XTS_DEC (R426, R432). -/
def execXtsDec (id : Nat) (s : State) : Res := live 2 (startJob id 0x66 fun w =>
  withJobKey id w [3] (w.length / max 1 w.duLen) fun key =>
    jobDone id ST.OK w (xtsUnits opDec key w.duLen (w.at 24 16) w.buf)) s

/-! ## The entropy source (R439 to R441) -/

/-- STATE of the source (R440): 0 RESTARTING, 1 OK, 2 FAILED. -/
def State.rngState (s : State) : Nat := s.fd RNG.STATUS 1 0

/-- CONSEC (R440). -/
def State.consec (s : State) : Nat := s.fd RNG.STATUS 3 2

/-- The DRBG is seeded from fresh blocks (R439, R441). -/
def seedDrbg : Prog := ctl fun c => { c with ciph := { c.ciph with generates := 0, seeded := c.ciph.seeded + 1 } }

/-- RESEED_LOG2 as it acts (R445). -/
def State.reseedLog (s : State) : Nat := max 10 (min 48 (s.fd RNG.RESEED_LOG2 5 0))

/-- A request for `n` bytes of output (R439): calls of 2^19 bits at most, with a reseed after each 2^RESEED_LOG2 of them, and one before a
request that asks for prediction resistance. The output itself is free (log entry 87). -/
def drbgRequest (n : Nat) (resist : Bool) : Prog := doAll [
  Prog.when resist seedDrbg,
  get fun s =>
    let calls := s.ctl.ciph.generates + max 1 (ceilDiv (8 * n) (2 ^ 19))
    ctl fun c => { c with ciph := { c.ciph with
      generates := calls % 2 ^ s.reseedLog
      seeded := c.ciph.seeded + calls / 2 ^ s.reseedLog } }]

/-- Whether a run of equal samples fails the repetition count test (R439, R445). -/
def State.rctFails (s : State) (run : Nat) : Bool := decide (min 41 (s.fd RNG.HT_CFG 7 0) ≤ run)

/-- Whether a window of samples fails the adaptive proportion test (R439, R445). -/
def State.aptFails (s : State) (count : Nat) : Bool := decide (min 800 (s.fd RNG.HT_CFG 25 16) ≤ count)

/-- Show the requests held (R445). -/
def showHeld : Prog := get fun s => wr RNG.HELD s.ctl.ciph.held.length

/-- A request to the DRBG: served, held, or failed (R440, R441). -/
def askRng (q : RngReq) (serve : Nat → Prog) (fail : Prog) : Prog := get fun s =>
  if s.rngState = 1 then fresh serve
  else if s.rngState = 2 then doAll [inc RNG.HELD_FAIL_CNT, fail]
  else doAll [ctl fun c => { c with ciph.held := c.ciph.held ++ [q] }, showHeld]

/-- A RANDOM job is served: LENGTH free bytes to ADDR, with prediction resistance if it asks for that (R426, R439). -/
def serveRandom (id v : Nat) : Prog := withWork id fun w => doAll [
  drbgRequest w.length (w.flag 8), completeWith id ST.OK w.length [(w.addr, leBytes w.length v)] none []]

/-- RANDOM (R426, R440, R442). -/
def execRandom (id : Nat) (s : State) : Res := live 2 (startJob id 0x67 fun _ => doAll [
  modWork id fun w => { w with stage := 4 },
  askRng (.job id) (serveRandom id) (complete id ST.ENTROPY_FAILED 0)]) s

/-! ## The vault (R434 to R438) -/

/-- Bytes of IN (R444). -/
def State.vaultIn (s : State) : List Byte :=
  ((List.range ((min 8192 (s.fd VAULT.LEN 13 0) + 3) / 4)).flatMap fun i => leBytes 4 (s.rd (VAULT.IN i))).take
    (min 8192 (s.fd VAULT.LEN 13 0))

/-- Put the vault's command. -/
def setVault (v : Option VaultCmd) : Prog := ctl fun c => { c with ciph.vault := v }

/-- The command is decided: its STATUS and OUT, to be shown at its end. -/
def vaultResult (st : Nat) (out : List Byte) : Prog := ctl fun c =>
  { c with ciph.vault := c.ciph.vault.map fun v => { v with status := some st, out := out } }

/-- ARG fields (R444). -/
def argKek (v : Nat) : Nat := field v 13 0
def argKind (v : Nat) : Nat := field v 19 16
def argAttr (v : Nat) : Nat := field v 29 24

/-- Write the OUT buffer and its length. -/
def writeOut (b : List Byte) : Prog := doAll [
  get fun s => Prog.each ((s.reg.filter fun e => decide (e.1.bank = .live) && decide (e.1.page = 33) &&
    decide (0x4000 ≤ e.1.off)).map (·.1.off)) (fun o => wr ⟨33, o, 0⟩ 0),
  Prog.each (List.range ((b.length + 3) / 4)) fun i => wr (VAULT.OUT i) (leAt b (4 * i) 4),
  wr VAULT.OUT_LEN b.length]

/-- A GO write of an operation (R436): refused while BUSY; otherwise BUSY, OUT cleared, and the operation decided. -/
def vaultGo (a : Accessor) (op : Nat) (v : Word) (run : VaultCmd → Prog) : Prog := byWriter a Pg.vault 0x40 (get fun s =>
  if s.bit VAULT.STATUS 0 then doAll [wr VAULT.CMD (v.toNat % 256), wrB VAULT.STATUS 1 true]
  else
    let c : VaultCmd := ⟨op, s.fd VAULT.SLOT 13 0, s.rd VAULT.ARG, s.vaultIn, none, []⟩
    doAll [wr VAULT.CMD (v.toNat / 256 % 2 ^ 23 * 256 + op), wrB VAULT.STATUS 0 true, writeOut [], setVault (some c), run c])

/-- Bytes of a key of a kind (R434). -/
def keyBytes (kind : Nat) : Nat := [0, 16, 32, 64, 32, 48, 32].getD kind 0

/-- A new key in a slot (R434, R438). -/
def newSlot (slot kind attr use warn limit material : Nat) : Prog := doAll [
  setSlot slot ⟨kind, attr, use, warn, limit, material, false, false⟩, markSlot slot,
  get fun s => wr VAULT.SLOTS_USED (s.ctl.ciph.slots.filter fun e => decide (e.2.kind ≠ 0)).length]

/-- GENERATE is served by the DRBG (R436). -/
def serveGenerate (c : VaultCmd) (v : Nat) : Prog :=
  let warn := if c.input.length = 16 then leAt c.input 0 8 else 2 ^ 64 - 1
  let limit := if c.input.length = 16 then leAt c.input 8 8 else 2 ^ 64 - 1
  doAll [drbgRequest (keyBytes (argKind c.arg)) false,
    newSlot c.slot (argKind c.arg) (argAttr c.arg) 0 warn limit v, vaultResult ST.OK []]

/-- SIGN is served by the DRBG (R436): one use of a signing slot; the signature is a function of the key, the digest and
the random value. -/
def serveSign (c : VaultCmd) (v : Nat) : Prog := useKey c.slot 1 [5, 6] atSign fun st key => get fun s =>
  if st ≠ ST.OK then vaultResult st [] else
  let kind := (s.slot c.slot).kind
  doAll [drbgRequest 32 false,
    vaultResult ST.OK (slice (Config.signature kind key (c.input ++ leBytes 32 v)) 0 (if kind = 5 then 96 else 4627))]

/-- A held command of the vault is served. -/
def serveVault (v : Nat) : Prog := get fun s =>
  match s.ctl.ciph.vault with
  | some c => if c.op = 1 then serveGenerate c v else serveSign c v
  | none => .skip

/-- GENERATE (R436, R441). -/
def execGenerate (a : Accessor) (v : Word) (s : State) : Res := done (vaultGo a 1 v fun c => get fun s =>
  if (s.slot c.slot).kind ≠ 0 ∨ argKind c.arg = 0 ∨ 6 < argKind c.arg then vaultResult ST.BAD_FIELD []
  else askRng .vault (serveGenerate c) (vaultResult ST.ENTROPY_FAILED [])) s

/-- UNWRAP (R435, R436): the blob's header gives kind, attributes and counts. -/
def execUnwrap (a : Accessor) (v : Word) (s : State) : Res := done (vaultGo a 2 v fun c => get fun s =>
  if (s.slot c.slot).kind ≠ 0 then vaultResult ST.BAD_FIELD []
  else useKey (argKek c.arg) 1 [4] atWrap fun st kek =>
    if st ≠ ST.OK then vaultResult st [] else
    match Config.unwrapBlob kek c.input with
    | none => vaultResult ST.AUTH_FAIL []
    | some m =>
      let hd := leBytes 32 m
      doAll [newSlot c.slot (leAt hd 0 1) (leAt hd 1 1 % 64) (leAt hd 8 8) (leAt hd 16 8) (leAt hd 24 8) (m / 2 ^ 256),
        vaultResult ST.OK []]) s

/-- WRAP (R435, R436): a blob 40 bytes longer than its key. -/
def execWrap (a : Accessor) (v : Word) (s : State) : Res := done (vaultGo a 3 v fun c => get fun s =>
  let x := s.slot c.slot
  if x.kind = 0 ∨ tbit x.attr atExport = false then vaultResult ST.KEY_INVALID []
  else useKey (argKek c.arg) 1 [4] atWrap fun st kek =>
    if st ≠ ST.OK then vaultResult st [] else get fun t =>
    let y := t.slot c.slot
    let hd := leBytes 1 y.kind ++ leBytes 1 y.attr ++ leBytes 6 0 ++ leBytes 8 y.use ++ leBytes 8 y.warn ++ leBytes 8 y.limit
    vaultResult ST.OK (slice (Config.wrapBlob kek y.material hd) 0 (keyBytes y.kind + 40))) s

/-- ERASE (R434, R437): at once for new uses; it ends after the last use in flight. Slot 0 cannot be erased. -/
def execErase (a : Accessor) (v : Word) (s : State) : Res := done (vaultGo a 4 v fun c =>
  if c.slot = 0 then vaultResult ST.KEY_INVALID []
  else doAll [setSlot c.slot KeySlot.empty,
    get fun s => wr VAULT.SLOTS_USED (s.ctl.ciph.slots.filter fun e => decide (e.2.kind ≠ 0)).length,
    vaultResult ST.OK []]) s

/-- SET_LIMIT (R436). -/
def execSetLimit (a : Accessor) (v : Word) (s : State) : Res := done (vaultGo a 5 v fun c => get fun s =>
  let x := s.slot c.slot
  if x.kind = 0 then vaultResult ST.KEY_INVALID []
  else if x.warn < leAt c.input 0 8 ∨ x.limit < leAt c.input 8 8 then vaultResult ST.BAD_FIELD []
  else doAll [setSlot c.slot { x with warn := leAt c.input 0 8, limit := leAt c.input 8 8 }, markSlot c.slot,
    vaultResult ST.OK []]) s

/-- PUBKEY (R436). -/
def execPubkey (a : Accessor) (v : Word) (s : State) : Res := done (vaultGo a 6 v fun c => get fun s =>
  let x := s.slot c.slot
  if x.kind ≠ 5 ∧ x.kind ≠ 6 then vaultResult ST.KEY_INVALID []
  else vaultResult ST.OK (slice (Config.publicKey x.kind x.material) 0 (if x.kind = 5 then 97 else 2592))) s

/-- SIGN (R436, R441). -/
def execSign (a : Accessor) (v : Word) (s : State) : Res := done (vaultGo a 7 v fun c =>
  askRng .vault (serveSign c) (vaultResult ST.ENTROPY_FAILED [])) s

/-- VERIFY (R436): IN holds public key, signature, digest. -/
def execVerify (a : Accessor) (v : Word) (s : State) : Res := done (vaultGo a 8 v fun c =>
  let kind := argKind c.arg
  if kind ≠ 5 ∧ kind ≠ 6 then vaultResult ST.BAD_FIELD [] else
  let pk := if kind = 5 then 97 else 2592
  let sg := if kind = 5 then 96 else 4627
  vaultResult (if Config.verifies kind (c.input.take pk) (slice c.input pk sg) (c.input.drop (pk + sg)) then ST.OK
    else ST.AUTH_FAIL) []) s

/-- HASH of the vault (R436). -/
def execVaultHash (a : Accessor) (v : Word) (s : State) : Res := done (vaultGo a 9 v fun c =>
  let kind := argKind c.arg
  if kind = 0 ∨ 3 < kind then vaultResult ST.BAD_FIELD []
  else vaultResult ST.OK (slice (Config.digest kind c.input) 0 (if kind = 1 then 48 else 64))) s

/-- The vault's command ends: BUSY clears, STATUS and OUT are written, DONE is set (R436, R444). -/
def vaultEnd (c : VaultCmd) (st : Nat) : Prog := doAll [
  wrB VAULT.STATUS 0 false, wrF VAULT.STATUS 31 16 st, writeOut c.out, setVault none, int Pg.vault 0 0]

/-- VAULT_COMMAND_DONE (R436): of every command but ERASE. An ML-DSA SIGN that ran out of attempts is ABORTED. -/
def execVaultCommandDone (exhausted : Bool) (s : State) : Res := live 4 (get fun s =>
  match s.ctl.ciph.vault with
  | some c => match c.status with
    | some st => Prog.when (decide (c.op ≠ 4)) (
        if exhausted && decide (c.op = 7) && decide ((s.slot c.slot).kind = 6) then vaultEnd { c with out := [] } ST.ABORTED
        else vaultEnd c st)
    | none => .skip
  | none => .skip) s

/-- ERASE_DONE (R437): no placement holds the slot's key any longer. -/
def execEraseDone (s : State) : Res := live 4 (get fun s =>
  match s.ctl.ciph.vault with
  | some c => Prog.when (decide (c.op = 4) && !decide (c.slot ∈ s.ctl.ciph.keysBusy)) (vaultEnd c (c.status.getD 0))
  | none => .skip) s

/-- Every slot but slot 0 becomes EMPTY (R438). -/
def emptySlots : Prog := doAll [
  ctl fun c => { c with ciph.slots := c.ciph.slots.filter fun e => decide (e.1 = 0) }, wr VAULT.SLOTS_USED 1]

/-- VAULT_ZEROISE (R438). -/
def execVaultZeroise (s : State) : Res := done (doAll [emptySlots, int Pg.vault 0 1]) s

/-! ## Health of the source -/

/-- A held request ends without data (R441). -/
def failHeld (q : RngReq) : Prog := .seq (inc RNG.HELD_FAIL_CNT) (
  match q with
  | .job id => complete id ST.ENTROPY_FAILED 0
  | .vault => vaultResult ST.ENTROPY_FAILED [])

/-- Serve a held request. -/
def serveHeld (q : RngReq) : Prog := fresh fun v =>
  match q with
  | .job id => serveRandom id v
  | .vault => serveVault v

/-- Step 4 of R441: FAILED, and what was held fails. -/
def sourceFailed : Prog := get fun s => doAll [
  wrF RNG.STATUS 3 0 (2 + 4 * 3), lifeAdd' 23, int Pg.rng 0 1,
  ctl fun c => { c with ciph.held := [] }, Prog.each s.ctl.ciph.held failHeld, showHeld]
where
  /-- life-log counter of entropy failures (R487) -/
  lifeAdd' (i : Nat) : Prog := ctl fun c => { c with health.life := nmod 0 c.health.life i fun v => satAdd 64 v 1 }

/-- HEALTH_TEST_FAIL (R439, R441 step 1): what a test finds, which fails at its cutoff, and the blocks discarded then. -/
def execHealthTestFail (h : HealthSeen) (blocks : Nat) (s : State) : Res := live 4 (get fun s =>
  let (cnt, fails) := match h with
    | .rct n => (RNG.RCT_FAIL_CNT, s.rctFails n)
    | .apt n => (RNG.APT_FAIL_CNT, s.aptFails n)
  Prog.when (decide (s.rngState = 1) && fails) (doAll [
    inc cnt, incBy RNG.DISCARD_CNT blocks,
    wrF RNG.STATUS 31 16 (s.fd RNG.STATUS 31 16 + 1), int Pg.rng 0 0,
    if s.consec + 1 = 3 then sourceFailed else wrF RNG.STATUS 3 0 (4 * (s.consec + 1))])) s

/-- RNG_RESTART_DONE (R439, R441 steps 2 to 4): the start-up test ends, passed or not; each test that failed counts. -/
def execRngRestartDone (t : StartUp) (s : State) : Res := live 4 (get fun s =>
  Prog.when (decide (s.rngState = 0)) (
    if !s.rctFails t.run && !s.aptFails t.count then doAll [seedDrbg, wrF RNG.STATUS 1 0 1, int Pg.rng 0 2,
      ctl fun c => { c with ciph.held := [] }, Prog.each s.ctl.ciph.held serveHeld, showHeld]
    else doAll [wrF RNG.STATUS 31 16 (s.fd RNG.STATUS 31 16 + 1),
      Prog.when (s.rctFails t.run) (inc RNG.RCT_FAIL_CNT), Prog.when (s.aptFails t.count) (inc RNG.APT_FAIL_CNT),
      if s.consec < 2 then wrF RNG.STATUS 3 2 (s.consec + 1) else sourceFailed])) s

/-- CONSEC_CLEAR (R440). -/
def execConsecClear (s : State) : Res := live 4 (get fun s =>
  Prog.when (decide (s.rngState = 1)) (wrF RNG.STATUS 3 2 0)) s

/-- RESTART (R441, R445): by a control core in FAILED only. -/
def execRestart (a : Accessor) (s : State) : Res := done (byWriter a Pg.rng 0x40 (get fun s =>
  Prog.when (!a.isPort && decide (s.rngState = 2)) (wrF RNG.STATUS 3 0 0))) s

/-- RESEED (R439, R445): the DRBG is reseeded from two fresh blocks. -/
def execReseed (a : Accessor) (s : State) : Res := done (byWriter a Pg.rng 0x40 (get fun s =>
  Prog.when (decide (s.rngState = 1)) seedDrbg)) s

/-- ENTROPY_HOLD_TIMEOUT (R441): the oldest held request has waited 10 ms. -/
def execEntropyHoldTimeout (s : State) : Res := live 4 (get fun s =>
  match s.ctl.ciph.held with
  | q :: t => doAll [ctl fun c => { c with ciph.held := t }, failHeld q, showHeld]
  | [] => .skip) s

/-! ## Masks (R442) -/

/-- The generator stops (R442). -/
def maskStop : Prog := get fun s =>
  Prog.when (!s.maskStopped) (doAll [wrB CIPH.MASK_STATUS 9 true, int Pg.ciph 0 5])

/-- MASK_STOP (R442): 1 s has passed since the fallback began. -/
def execMaskStop (s : State) : Res := live 4 (get fun s => Prog.when (s.bit CIPH.MASK_STATUS 8) maskStop) s

end Sys2Proof.Machine
end

