-- ==== Sys2Proof/Machine/Ssd.lean ====
section
/-! DEFINITION. SSDs, sets, the extent map and NVMe commands (R361 to R368, R388): geometry, parity, extent reads. -/

namespace Sys2Proof.Machine

/-- Change the storage service. -/
def modBlk (f : BlkSt → BlkSt) : Prog := ctl fun c => { c with blk := f c.blk }

/-- A fresh identifier of the storage service. -/
def blkId (k : Nat → Prog) : Prog := get fun s => .seq (modBlk fun b => { b with ids := b.ids + 1 }) (k s.ctl.blk.ids)

/-! ## SSDs and sets -/

/-! SSD states (R363). -/
def ssdDisabled : Nat := 0
def ssdAbsent : Nat := 1
def ssdFree : Nat := 2
def ssdMember : Nat := 3
def ssdSpare : Nat := 4
def ssdDead : Nat := 5

/-- State of an SSD (R363). -/
def State.ssd (s : State) (i : Nat) : Nat := s.fd (BLKB.SSD_STATUS i) 2 0

/-- Put an SSD in a state. -/
def setSsd (i st : Nat) : Prog := wrF (BLKB.SSD_STATUS i) 2 0 st

/-- EN of an SSD. -/
def State.ssdEn (s : State) (i : Nat) : Bool := s.cbit (BLKB.SSD_CFG i) 0

/-- LAYOUT of a set (R364); value 3 is not in the table and counts as PARITY does not: it has no members. -/
def State.layoutOf (s : State) (k : Nat) : Nat := s.cfd (BLKB.SET_CFG k) 2 1

/-- Members of a layout (R364). -/
def layoutMembers (l : Nat) : Nat := [1, 2, 10, 0].getD l 0

/-- Losses a layout tolerates (R364). -/
def layoutTol (l : Nat) : Nat := [0, 1, 2, 0].getD l 0

/-- LBAs of a physical extent on each member (R364). -/
def layoutLbas (l : Nat) : Nat := if l = 2 then 2 else 16

/-- Whether an SSD is configured for a position of a set (R399). -/
def State.holdsPos (s : State) (k pos i : Nat) : Bool :=
  let c := s.cfg (BLKB.SSD_CFG i)
  tbit c 0 && decide (field c 2 1 = 1) && decide (field c 6 3 = k) && decide (field c 10 7 = pos)

/-- The SSD at a position of a set: one that has not FAILED before one that has (R389). -/
def State.memberAt (s : State) (k pos : Nat) : Option Nat :=
  match (List.range 16).find? fun i => s.holdsPos k pos i && !decide (s.ssd i = ssdDead) with
  | some i => some i
  | none => (List.range 16).find? fun i => s.holdsPos k pos i

/-- The SSD at a position when it can be written: a MEMBER. -/
def State.writable (s : State) (k pos : Nat) : Option Nat :=
  match s.memberAt k pos with
  | some i => if s.ssd i = ssdMember then some i else none
  | none => none

/-- The SSD at a position when it can be read: a MEMBER whose content is that of its position. -/
def State.readable (s : State) (k pos : Nat) : Option Nat :=
  match s.writable k pos with
  | some i => if tget false s.ctl.blk.stale i then none else some i
  | none => none

/-- Members of a set that fail it now. -/
def State.setFailures (s : State) (k : Nat) : Nat :=
  ((List.range (layoutMembers (s.layoutOf k))).filter fun p => (s.readable k p).isNone).length

/-- State of a set (R389, R399): 0 OFF, 1 OPTIMAL, 2 DEGRADED, 3 FAILED. -/
def State.setState (s : State) (k : Nat) : Nat :=
  if s.cbit (BLKB.SET_CFG k) 0 = false then 0
  else if s.setFailures k = 0 then 1
  else if s.setFailures k ≤ layoutTol (s.layoutOf k) then 2 else 3

/-- The word of SETk_STATE (R399). -/
def State.setWord (s : State) (k : Nat) : Nat :=
  if s.setState k = 0 then 0 else s.setState k + 4 * min 15 (s.setFailures k)

/-- LBA0 of a set. -/
def State.setLba0 (s : State) (k : Nat) : Nat := s.cfgW (BLKB.SET_LBA0 k) % 2 ^ 48

/-- Position of a chunk of physical extent `p` (R364): chunk 8 is P and chunk 9 is Q of PARITY. -/
def chunkPos (l p c : Nat) : Nat := if l = 2 then (p + c) % 10 else c

/-- First LBA of physical extent `p` on its members. -/
def State.pextLba (s : State) (k p : Nat) : Nat := s.setLba0 k + layoutLbas (s.layoutOf k) * p

/-- Capacity of a set in physical extents (R365). -/
def State.setCap (s : State) (k : Nat) : Nat :=
  let caps := (List.range (layoutMembers (s.layoutOf k))).map fun p =>
    match s.memberAt k p with
    | some i => (tget 0 s.ctl.blk.caps i - s.setLba0 k) / layoutLbas (s.layoutOf k)
    | none => 0
  caps.foldl min (caps.headD 0)

/-! ## P and Q (R364) -/

/-- Multiply by 2 in GF(2^8) with polynomial 0x11D. -/
def gfTwo (a : Nat) : Nat := if 128 ≤ a then (2 * a) ^^^ 0x11D else 2 * a

/-- Product in GF(2^8); `n` bounds the bits of `b` looked at. -/
def gfMul : Nat → Nat → Nat → Nat
  | 0, _, _ => 0
  | n + 1, a, b => (if b % 2 = 1 then a else 0) ^^^ gfMul n (gfTwo a) (b / 2)

/-- The generator 2 to a power. -/
def gfPow : Nat → Nat
  | 0 => 1
  | n + 1 => gfTwo (gfPow n)

/-- Power of an element. -/
def gfExp (a : Nat) : Nat → Nat
  | 0 => 1
  | n + 1 => gfMul 8 a (gfExp a n)

/-- Inverse of a non-zero element: its power 254. -/
def gfInv (a : Nat) : Nat := gfExp a 254

/-- A chunk times an element. -/
def gfScale (k : Nat) (l : List Byte) : List Byte := l.map fun b => BitVec.ofNat 8 (gfMul 8 k b.toNat)

/-- Sum of chunks. -/
def gfSum (ls : List (List Byte)) : List Byte := ls.foldl xorBytes (List.replicate 8192 0)

/-- P of eight data chunks. -/
def parityP (d : List (List Byte)) : List Byte := gfSum d

/-- Q of eight data chunks. -/
def parityQ (d : List (List Byte)) : List Byte := gfSum (d.zipIdx.map fun e => gfScale (gfPow e.2) e.1)

/-- A chunk got of an extent read. -/
def ExtRd.chunk (r : ExtRd) (c : Nat) : Option (List Byte) := (r.got.find? fun e => decide (e.1 = c)).map (·.2)

/-- The data chunks of a PARITY extent from any eight of its ten chunks (R388). -/
def parityData (r : ExtRd) : List (List Byte) :=
  let have_ := fun i => (r.chunk i).isSome
  let g := fun i => (r.chunk i).getD []
  let lost := (List.range 8).filter fun i => !have_ i
  let kept := (List.range 8).filter have_
  let sumP := gfSum (kept.map g)
  let sumQ := gfSum (kept.map fun i => gfScale (gfPow i) (g i))
  match lost with
  | [] => (List.range 8).map g
  | [x] =>
    let dx := if have_ 8 then xorBytes (g 8) sumP else gfScale (gfInv (gfPow x)) (xorBytes (g 9) sumQ)
    (List.range 8).map fun i => if i = x then dx else g i
  | x :: y :: _ =>
    let pxy := xorBytes (g 8) sumP
    let qxy := xorBytes (g 9) sumQ
    let dx := gfScale (gfInv (gfPow x ^^^ gfPow y)) (xorBytes qxy (gfScale (gfPow y) pxy))
    let dy := xorBytes pxy dx
    (List.range 8).map fun i => if i = x then dx else if i = y then dy else g i

/-- Chunk `c` of an extent's 65,536 bytes (R364). -/
def chunkOf (l c : Nat) (data : List Byte) : List Byte :=
  if l ≠ 2 then data else
  let d := (List.range 8).map fun i => slice data (8192 * i) 8192
  if c < 8 then d.getD c [] else if c = 8 then parityP d else parityQ d

/-! ## Volumes and the map -/

/-- EN of a volume. -/
def State.volEn (s : State) (v : Nat) : Bool := decide (v < 16384) && s.cbit (BLKF.VOL_CTL.of v) 0
/-- MODE of a volume (R398): 2 and 3 are OFFLINE. -/
def State.volMode (s : State) (v : Nat) : Nat := s.cfd (BLKF.VOL_CTL.of v) 2 1
def State.volPair (s : State) (v : Nat) : Bool := s.cbit (BLKF.VOL_CTL.of v) 3
def State.volCipher (s : State) (v : Nat) : Bool := s.cbit (BLKF.VOL_CTL.of v) 4
/-- Logical block size (R366). -/
def State.volBs (s : State) (v : Nat) : Nat := if s.cbit (BLKF.VOL_CTL.of v) 5 then 4096 else 512
def State.volSet (s : State) (v : Nat) : Nat := s.cfd (BLKF.VOL_CTL.of v) 11 8
def State.volFirst (s : State) (v : Nat) : Nat := s.cfgW (BLKF.VOL_FIRST_EXT.of v) % 2 ^ 34
def State.volExts (s : State) (v : Nat) : Nat := s.cfgW (BLKF.VOL_NUM_EXT.of v) % 2 ^ 34
def State.volKey (s : State) (v : Nat) : Nat := s.cfd (BLKF.VOL_KEY.of v) 15 0

/-- What the device keeps of a volume. -/
def State.vol (s : State) (v : Nat) : VolSt := tget VolSt.init s.ctl.blk.vols v

/-- Change it. -/
def modVol (v : Nat) (f : VolSt → VolSt) : Prog := modBlk fun b => { b with vols := nmod VolSt.init b.vols v f }

/-- The map entry of a global extent (R368). -/
def State.entry (s : State) (g : Nat) : Nat := s.memNat 2 0 (s.mapAddr g) 8

/-- MAPPED, POISON and PEXT of an entry (R368). -/
def eMapped (e : Nat) : Bool := tbit e 63
def ePoison (e : Nat) : Bool := tbit e 60
def ePext (e : Nat) : Nat := field e 33 0

/-- An entry that names a physical extent. -/
def mkEntry (pext : Nat) (poisoned : Bool) : Nat := 2 ^ 63 + b2n poisoned * 2 ^ 60 + pext % 2 ^ 34

/-- Whether a map entry's memory holds an uncorrectable error (R397). -/
def State.entryBad (s : State) (g : Nat) : Bool := s.poisoned 2 0 (s.mapAddr g) 8

/-- Change a map entry. -/
def setEntry (g v : Nat) : Prog := get fun s => doAll [cleanse 2 0 (s.mapAddr g) 8, poke 2 0 (s.mapAddr g) (leBytes 8 v)]

/-- Enabled volumes that have something staged or committed: those with a context listed. -/
def State.volsOn (s : State) : List Nat :=
  ((s.reg.filterMap fun e => if e.1.bank = .committed ∧ e.1.page = 29 ∧ e.1.off = 0x44 then some e.1.inst else none).filter
    fun v => s.volEn v).dedup

/-- Volumes whose context has been committed. -/
def State.volsKnown (s : State) : List Nat :=
  (s.reg.filterMap fun e => if e.1.bank = .committed ∧ e.1.page = 29 ∧ e.1.inst < 16384 then some e.1.inst else none).dedup

/-- The enabled volume of a global extent (R366). -/
def State.volOfExt (s : State) (g : Nat) : Option Nat :=
  s.volsOn.find? fun v => decide (s.volFirst v ≤ g) && decide (g < s.volFirst v + s.volExts v)

/-- Global extents that the map names on a set, with their physical extents (R368, R369): of disabled volumes too. -/
def State.mappedOn (s : State) (k : Nat) : List (Nat × Nat) :=
  let vs := s.volsKnown.filter fun v => decide (s.volSet v = k)
  vs.flatMap fun v => (s.usedEntries 2 0 (s.mapAddr (s.volFirst v)) (8 * s.volExts v) 8).filterMap fun i =>
    let e := s.entry (s.volFirst v + i)
    if eMapped e then some (s.volFirst v + i, ePext e) else none

/-- Physical extents of a set in use: named by the map, being written, being read, or still to be deallocated (R369). -/
def State.pextsUsed (s : State) (k : Nat) : List Nat :=
  (s.mappedOn k).map (·.2) ++
  (s.ctl.blk.placings.flatMap fun p => if s.volSet p.vol = k ∧ p.stage ≠ 0 then (p.exts.filter fun e => !e.unmap).map (·.new) else []) ++
  (s.ctl.blk.reads.filterMap fun r => if r.set = k then some r.pext else none) ++
  (s.ctl.blk.deallocs.filterMap fun o => if o.1 = k then some o.2 else none)

/-- Free physical extents of a set (R399). -/
def State.pextsFree (s : State) (k : Nat) : Nat := s.setCap k - (s.pextsUsed k).dedup.length

/-- The first number from `i` on, modulo `size`, that is not used; `n` bounds the search. -/
def freeFrom (used : List Nat) (size : Nat) : Nat → Nat → Nat
  | 0, i => i
  | n + 1, i => if i ∈ used then freeFrom used size n ((i + 1) % max 1 size) else i

/-! ## NVMe commands (R361) -/

/-- Send an NVMe command to an SSD's namespace; every Write carries FUA = 1 (R361). -/
def sendNvme (ssd op lba n : Nat) (bytes : List Byte) : Prog := get fun s =>
  emit (.nvme ssd op (s.cfg (BLKB.SSD_NSID ssd)) lba n (decide (op = 2)) bytes)

/-- Send an outstanding command again. -/
def NCmd.send (c : NCmd) : Prog := sendNvme c.ssd c.op c.lba c.n c.bytes

/-- Issue an NVMe command. -/
def nvme (ssd op lba n : Nat) (bytes : List Byte) (job : NvFor) : Prog := blkId fun id => doAll [
  modBlk fun b => { b with cmds := b.cmds ++ [⟨id, ssd, op, lba, n, bytes, job, false, false⟩] },
  sendNvme ssd op lba n bytes, peep 7 0 ssd]

/-- An NVMe command is over. -/
def dropCmd (id : Nat) : Prog := modBlk fun b => { b with cmds := b.cmds.filter fun c => !decide (c.id = id) }

/-- An extent read. -/
def State.extRd? (s : State) (id : Nat) : Option ExtRd := s.ctl.blk.reads.find? fun r => decide (r.id = id)

/-- Change an extent read. -/
def modRd (id : Nat) (f : ExtRd → ExtRd) : Prog :=
  modBlk fun b => { b with reads := b.reads.map fun r => if r.id = id then f r else r }

/-- Chunks that hold an extent's data, and how many of them it takes (R364, R388). -/
def layoutChunks (l : Nat) : Nat := layoutMembers l
def layoutNeed (l : Nat) : Nat := if l = 2 then 8 else 1

/-- Chunks of an extent that could be asked for: readable, not asked; SSD `not` keeps out of it. -/
def State.askable (s : State) (r : ExtRd) (not_ : Option Nat) : List Nat :=
  (List.range (layoutChunks (s.layoutOf r.set))).filter fun c =>
    match s.readable r.set (chunkPos (s.layoutOf r.set) r.pext c) with
    | some i => !decide (c ∈ r.asked) && !decide (some i = not_)
    | none => false

/-- The SSD a repair rebuilds keeps out of its own reads. -/
def RdFor.keepsOut : RdFor → Option Nat
  | .repair i _ => some i
  | _ => none

/-- Ask the SSD of a chunk for it. -/
def askChunk (r : ExtRd) (c : Nat) : Prog := get fun s =>
  match s.readable r.set (chunkPos (s.layoutOf r.set) r.pext c) with
  | some i => doAll [modRd r.id fun x => { x with asked := x.asked ++ [c] },
      nvme i 1 (s.pextLba r.set r.pext) (layoutLbas (s.layoutOf r.set)) [] (.ext r.id c)]
  | none => .skip

/-- An extent read under way: enough chunks got, more to ask for, or no way left. `k` gets the extent's 65,536 bytes, or none
when they cannot be rebuilt; of a mirror the copy asked first is free (R388). -/
def tryRead (id : Nat) (k : ExtRd → Option (List Byte) → Prog) : Prog := fresh fun pick => get fun s =>
  match s.extRd? id with
  | none => .skip
  | some r =>
    let l := s.layoutOf r.set
    let need := layoutNeed l
    let out := r.asked.length - r.got.length - r.bad.length
    let cand := s.askable r r.job.keepsOut
    let cand := if l = 1 ∧ cand.length = 2 ∧ pick % 2 = 1 then cand.reverse else cand
    let mine := fun c => match r.job with
      | .verify i => decide (s.readable r.set (chunkPos l r.pext c) = some i)
      | _ => false
    let cand := cand.filter mine ++ cand.filter fun c => !mine c
    if need ≤ r.got.length then doAll [
      modBlk fun b => { b with reads := b.reads.filter fun x => !decide (x.id = id) },
      -- the members that the data was rebuilt for (R388)
      Prog.each ((List.range (if l = 2 then 8 else layoutChunks l)).filter fun c => (r.chunk c).isNone &&
          (decide (c ∈ r.bad) || (s.readable r.set (chunkPos l r.pext c)).isNone)) (fun c =>
        match s.memberAt r.set (chunkPos l r.pext c) with
        | some i => inc (BLKB.SSD_RECON_CNT i)
        | none => .skip),
      k r (some (if l = 2 then (parityData r).flatten else slice (((r.got.head?).map (·.2)).getD []) 0 65536))]
    else if need ≤ r.got.length + out then .skip
    else if cand.isEmpty then
      Prog.when (decide (out = 0)) (doAll [
        modBlk fun b => { b with reads := b.reads.filter fun x => !decide (x.id = id) }, k r none])
    else Prog.each (cand.take (need - r.got.length - out)) (askChunk r)

/-- Start an extent read for a consumer; `k` acts on its end if it ends at once. -/
def startRead (set pext : Nat) (job : RdFor) (k : ExtRd → Option (List Byte) → Prog) : Prog := blkId fun id => doAll [
  modBlk fun b => { b with reads := b.reads ++ [⟨id, set, pext, [], [], [], false, job⟩] }, tryRead id k]

/-- The storage datapath of the cipher has run without a fault: its faults are no longer consecutive (R430). -/
def storeGood : Prog := get fun s => Prog.when (!s.bit CIPH.STORE_STATUS 0) (wrF CIPH.STORE_STATUS 4 1 0)

/-- The key of an encrypted volume, if its slot permits its use (R370, R432). -/
def State.storeKey (s : State) (v : Nat) : Option Nat :=
  let x := s.slot (s.volKey v)
  if s.volKey v < 16384 ∧ x.kind = 3 ∧ tbit x.attr atStore = true then some x.material else none

/-- The bytes of an extent, deciphered when its volume is ciphered: units are logical blocks, the tweak their numbers
(R370). `held`: the key that who asks holds already (R437). `k` gets none where the key cannot be used, and what waits for the bytes
waits on once the datapath has stopped (R430). -/
def decipher (held : Option Nat) (v g : Nat) (data : List Byte) (k : Option (List Byte) → Prog) : Prog := get fun s =>
  if !s.volCipher v then k (some data) else if s.storeError then .skip else
  match held.orElse fun _ => s.storeKey v with
  | none => k none
  | some key => doAll [storeGood, k (some (xtsUnits opDec key (s.volBs v) ((g - s.volFirst v) * (65536 / s.volBs v)) data))]

/-- The bytes of an extent as the SSDs hold them (R370). -/
def State.encipher (s : State) (v g key : Nat) (data : List Byte) : List Byte :=
  if s.volCipher v then xtsUnits opEnc key (s.volBs v) ((g - s.volFirst v) * (65536 / s.volBs v)) data else data

/-- Bytes with others laid over them, oldest first. -/
def layOver (base : List Byte) (l : List (Nat × List Byte)) : List Byte := l.foldl (fun b e => splice b e.1 e.2) base

/-- Whether what lies over an extent covers it whole, looked at in 512-byte sectors. -/
def laysCover (l : List (Nat × List Byte)) : Bool :=
  (List.range 128).all fun j => l.any fun e => decide (e.1 ≤ 512 * j) && decide (512 * j + 512 ≤ e.1 + e.2.length)

/-- An uncorrectable error in the map (R397). -/
def mapUE (g : Nat) : Prog := get fun s => doAll [
  inc MAP.MAP_UE_CNT, int Pg.map 0 1,
  spoil 2 0 (s.mapAddr g) 8]

end Sys2Proof.Machine
end

