-- ==== Sys2Proof/Machine/Link.lean ====
section
/-! DEFINITION. The Xindaord link's streams (R463, R464): sending, keeping and acknowledging messages. -/

namespace Sys2Proof.Machine

/-- Change the pair unit. -/
def modPair (f : PairSt → PairSt) : Prog := ctl fun c => { c with pair := f c.pair }

/-! Message classes (R463). -/
def clsMgmt : Nat := 0
def clsHb : Nat := 1
def clsStage : Nat := 2
def clsJournal : Nat := 3
def clsTime : Nat := 4
def clsResync : Nat := 5

/-! States of the pair unit (R466). -/
def prOff : Nat := 0
def prAlone : Nat := 1
def prJoining : Nat := 2
def prPaired : Nat := 3
def prSuspended : Nat := 4
def prFenced : Nat := 5

/-- STATE of the pair unit (R466). -/
def State.pairState (s : State) : Nat := s.fd PAIR.STATUS 2 0

/-- Whether the link is up (R462). -/
def State.pairUp (s : State) : Bool := s.bit PAIR.STATUS 3

/-- A stream of a class. -/
def State.stream (s : State) (c : Nat) : PStream := tget PStream.init s.ctl.pair.streams c

/-- Change a stream. -/
def modStream (c : Nat) (f : PStream → PStream) : Prog :=
  modPair fun p => { p with streams := nmod PStream.init p.streams c f }

/-- Whether a message of a class may go out now: the link is up, and a FENCED unit sends only MGMT (R477). -/
def State.mayTalk (s : State) (c : Nat) : Bool :=
  s.pairUp && (decide (s.pairState ≠ prFenced) || decide (c = clsMgmt))

/-- The place of a class in the link's service (R463): HB and TIME, MGMT, STAGE and JOURNAL, RESYNC. -/
def clsRank (c : Nat) : Nat :=
  if c = clsHb ∨ c = clsTime then 0 else if c = clsMgmt then 1 else if c = clsResync then 3 else 2

/-- A message waits for the link, behind those that the link serves before it (R463). -/
def pairOut (c seq : Nat) (m : PMsg) : Prog := get fun s =>
  Prog.when (s.mayTalk c) (modPair fun p =>
    let before := p.outq.filter fun e => decide (clsRank e.1 ≤ clsRank c)
    { p with outq := before ++ (c, seq, m) :: p.outq.filter fun e => !decide (clsRank e.1 ≤ clsRank c) })

/-- The link takes what waits, in its order; each message carries the sender's epoch (R463). -/
def linkServes : Prog := get fun s => doAll [
  modPair fun p => { p with outq := [] },
  Prog.each (s.ctl.pair.outq.filter fun e => s.mayTalk e.1) fun e => doAll [emit (.pair e.1 e.2.1 (s.rd PAIR.EPOCH) e.2.2), peep 9 0 e.1]]

/-- Acknowledge a stream cumulatively, at this unit's epoch (R463, R464). -/
def sendPairAck (c upto : Nat) : Prog := get fun s => emit (.pairAck c upto (s.rd PAIR.EPOCH))

/-- Messages of a stream that its window of 4,096 lets go (R464), once they may go at all; `n` bounds how many. -/
def pumpStream (c : Nat) : Nat → Prog
  | 0 => .skip
  | n + 1 => get fun s =>
    let t := s.stream c
    match t.queue with
    | m :: q =>
      if t.kept.length < 4096 ∧ s.mayTalk c = true then doAll [
        modStream c fun x => { x with
          next := (t.next + 1) % 2 ^ 32
          kept := x.kept ++ [(t.next, m)]
          queue := q },
        pairOut c t.next m, pumpStream c n]
      else .skip
    | [] => .skip

/-- Send a message of a reliable class (R464). -/
def sendMsg (c : Nat) (m : PMsg) : Prog := doAll [modStream c fun x => { x with queue := x.queue ++ [m] }, pumpStream c 1]

/-- Every stream goes on (R464): the link is up again, or the unit is FENCED no longer. -/
def pumpStreams : Prog := Prog.each [clsMgmt, clsStage, clsJournal, clsResync] fun c => get fun s => pumpStream c (s.stream c).queue.length

/-- (a − b) modulo 2^32 as a signed value (R464). -/
def seqDiff (a b : Nat) : Int := toSigned 32 ((a % 2 ^ 32 + 2 ^ 32 - b % 2 ^ 32) % 2 ^ 32)

/-- A cumulative acknowledgement: every message up to `upto` is released, and what waited for the window goes (R464). -/
def ackStream (c upto : Nat) : Prog := get fun s =>
  let t := s.stream c
  let kept := t.kept.filter fun e => decide (seqDiff e.1 upto > 0)
  doAll [modStream c fun x => { x with kept := kept, tries := if kept.length < t.kept.length then 0 else x.tries },
    pumpStream c t.queue.length]

/-- Messages of a stream from a sequence on are sent again; `RETX_CNT` steps once (R464). -/
def resendStream (c seq : Nat) : Prog := get fun s =>
  Prog.each ((s.stream c).kept.filter fun e => decide (0 ≤ seqDiff e.1 seq)) fun e => doAll [pairOut c e.1 e.2, peep 9 2 c]

/-- Every unacknowledged message of every stream is discarded, here and on its way: the epoch has changed (R464). -/
def dropStreams : Prog := modPair fun p => { p with
  streams := p.streams.map fun e => (e.1, { e.2 with kept := [], queue := [] })
  outq := p.outq.filter fun e => decide (clsRank e.1 = 0)
  held := [] }

end Sys2Proof.Machine
end

