-- ==== Sys2Proof/Machine/Transom.lean ====
section
/-! DEFINITION. The transom port (R178 to R184, R186): spaces, refusals, port and burst mode, table entries. -/

namespace Sys2Proof.Machine

/-- Where an address of a transom space lies: memory space, copy, address. Written entries of STAKES go to the staged
graph; baskets and prefixes lie in HBM (R23, R225, R252). -/
def transomPlace (wrt : Bool) (space inst addr : Nat) : Nat × Nat × Nat :=
  if space = 4 then (if wrt then 12 else 4, inst, addr)
  else if space = 8 then
    if addr < 0x4000000 then (1, 0, 0x08000000 + inst * 0x04000000 + addr) else (8, inst, addr - 0x4000000)
  else if space = 9 then (1, 0, 0x18000000 + inst * 0x04000000 + addr)
  else if space = 11 then (1, 0, 0x29000000 + addr)
  else (space, inst, addr)

/-- Entry size of a space in bytes (R178, R186). -/
def transomEntry (space : Nat) : Nat :=
  match space with
  | 4 => 128 | 5 => 128 | 6 => 8 | 7 => 64 | 8 => 16 | 9 => 32 | 0 => 0 | _ => if space ≤ 11 then 4 else 0

/-- Bytes in a space (R178). -/
def State.transomSize (s : State) (space : Nat) : Nat :=
  match space with
  | 1 => 48 * 2 ^ 30
  | 2 => s.memGiB true * 2 ^ 30
  | 3 => 65536
  | 4 => 1024 * 128
  | 5 => 65536 * 128
  | 6 => 1024 * 8
  | 7 => 16384 * 64
  | 8 => (4194304 + 65536) * 16
  | 9 => 2097152 * 32
  | 10 => 2 ^ 26
  | 11 => 2 ^ 26
  | _ => 0

/-- Whether a space has an instance (R178). -/
def transomInst (space inst : Nat) : Bool :=
  if space = 3 then decide (inst < 64) else if 4 ≤ space ∧ space ≤ 9 then decide (inst < 4)
  else decide (1 ≤ space) && decide (space ≤ 11)

/-- DIRTY_MIB within its range (R398). -/
def State.dirtyMiB (s : State) : Nat := max 256 (min 8192 (s.fd BLKF.STAGE_CFG 13 0))

/-- Bytes of HBM that the transom only reads: the fixed regions and write staging (R178). -/
def State.hbmReadOnly (s : State) (addr len : Nat) : Bool :=
  let b := field (s.rdW BLKF.STAGE_BASE) 47 20 * 2 ^ 20
  decide (addr < 0x2D000000) ||
    (decide (addr < b + (s.dirtyMiB + 128) * 2 ^ 20) && decide (b < addr + len))

/-- Whether an HBM address lies where the device keeps content whose layout the spec does not give (R23): queue-pair contexts, the
event wheel's store, write staging, spilled frames, the retransmit store. What reads there return is free (log entry 132). -/
def State.hbmOpaque (s : State) (addr : Nat) : Bool :=
  let within := fun (base size : Nat) => decide (base ≤ addr) && decide (addr < base + size * 2 ^ 20)
  let at_ := fun r : Reg => field (s.rdW r) 47 20 * 2 ^ 20
  decide (addr < 0x08000000) || (decide (0x28000000 ≤ addr) && decide (addr < 0x29000000)) ||
    (decide (0x2D000000 ≤ addr) && (within (at_ BLKF.STAGE_BASE) (s.dirtyMiB + 128) ||
      within (at_ TM.SPILL_BASE) (s.fd TM.SPILL_SIZE 15 0) || within (at_ RDMA.RTX_BASE) (s.fd RDMA.RTX_SIZE 15 0)))

/-- Whether any of `n` bytes of a memory space lies there. -/
def State.opaqueAt (s : State) (space addr n : Nat) : Bool :=
  decide (space = 1) && (List.range n).any fun i => s.hbmOpaque (addr + i)

/-- Whether a space allows an access now (R178). A reload takes writes of its control store in PHASE LOAD (R330). BOOT_IMAGE, of which R178 says only when it may be written, is never read: DEDUCED
(log entry 128). -/
def State.transomNow (s : State) (wrt : Bool) (space inst : Nat) : Bool :=
  transomInst space inst && (if wrt then
    (if space = 3 then s.mrunning MA.CS_RELOAD inst && decide (s.fd (FLOW.CS_STATUS.of inst) 1 0 = 2)
     else if space = 10 then decide (s.fd BOOT.STATE 2 0 = 1) && !s.ctl.boot.verifying
     else decide (space ≠ 11))
    else decide (space ≠ 10))

/-! The selected space and mode (R186). -/
def State.tSpace (s : State) : Nat := s.fd TRANSOM.TGT 7 0
def State.tInst (s : State) : Nat := s.fd TRANSOM.TGT 21 16
def State.tBurst (s : State) : Bool := s.bit TRANSOM.TGT 31
def State.tAddr (s : State) : Nat := s.rdW TRANSOM.ADDR

/-- Why an access of `len` bytes at `addr` is refused, 0 when it is not (R183). -/
def State.transomRefusal (s : State) (wrt : Bool) (addr len : Nat) : Nat :=
  if !s.transomNow wrt s.tSpace s.tInst then 1
  else if s.transomSize s.tSpace < addr + len then 2
  else if wrt ∧ s.tSpace = 1 ∧ s.hbmReadOnly addr len then 1
  else 0

/-- A refused access (R183, R186, R481). -/
def transomReject (reason addr : Nat) : Prog := doAll [
  wrB TRANSOM.STATUS 1 true, wrF TRANSOM.STATUS 7 4 reason,
  err Pg.transom 0 EC.ACCESS RS.TRANSOM_REJ addr, int Pg.transom 0 0]

/-- Whether a space is a table. -/
def isTable (space : Nat) : Bool := decide (4 ≤ space) && decide (space ≤ 9)

/-- An entry that is only partly written is discarded (R181). -/
def dropPartial : Prog := get fun s => Prog.when (!s.ctl.transom.coll.isEmpty) (doAll [
  ctl fun c => { c with transom.coll := [] },
  wrB TRANSOM.STATUS 0 false, wrB TRANSOM.STATUS 2 true, int Pg.transom 0 1])

/-- The latch of a table entry is released (R182). -/
def dropLatched : Prog := ctl fun c => { c with transom.latched := none }

/-- Write one whole entry of a table, or plain bytes: one staged entry write (R34, R181, R486). -/
def transomPut (space inst addr : Nat) (b : List Byte) : Prog :=
  let (sp, i, a) := transomPlace true space inst addr
  doAll [poke sp i a b, cleanse sp i a b.length]

/-- Collect bytes of the entry of a table at `addr`; its last byte writes it (R181). In burst mode several entries can be partly
written at once; in port mode `otherEntry` has discarded any other. -/
def collect (space inst addr : Nat) (b : List Byte) : Prog :=
  let n := transomEntry space
  let base := addr / n * n
  let mine := fun k : Nat => decide (base ≤ k) && decide (k < base + n)
  doAll [
    ctl fun c => { c with transom := { c.transom with
      collAddr := base
      coll := b.zipIdx.foldl (fun t e => nset none t (addr + e.2) (some e.1)) c.transom.coll } },
    get fun s =>
      let got := s.ctl.transom.coll.filter fun e => mine e.1
      Prog.when (decide (got.length = n)) (doAll [
        transomPut space inst base (got.map fun e => e.2.getD 0),
        ctl fun c => { c with transom.coll := c.transom.coll.filter fun e => !mine e.1 }]),
    get fun s => wrB TRANSOM.STATUS 0 (!s.ctl.transom.coll.isEmpty)]

/-- Bytes of an access to tables, entry by entry. -/
def collectAll (space inst : Nat) : Nat → List Byte → Prog
  | _, [] => .skip
  | addr, b :: t => .seq (collect space inst addr [b]) (collectAll space inst (addr + 1) t)

/-- Store the bytes of an access that is not refused. -/
def transomStore (addr : Nat) (b : List Byte) : Prog := get fun s =>
  if isTable s.tSpace then collectAll s.tSpace s.tInst addr b else transomPut s.tSpace s.tInst addr b

/-- The committed entry of a table that holds `addr` is latched, unless it is already (R182). -/
def latchEntry (addr : Nat) : Prog := get fun s =>
  let n := transomEntry s.tSpace
  let base := addr / n * n
  let (sp, i, a) := transomPlace false s.tSpace s.tInst base
  Prog.when (decide ((s.ctl.transom.latched.map (·.1)) ≠ some base))
    (ctl fun c => { c with transom.latched := some (base, s.bytes sp i a n) })

/-- The bytes a read returns: in a table, from the latched entries (R182); where the layout is the device's own, free ones. -/
def transomFetch : Nat → Nat → List Byte → (List Byte → Prog) → Prog
  | 0, _, acc, k => k acc
  | n + 1, addr, acc, k => get fun s =>
    if isTable s.tSpace then .seq (latchEntry addr) (get fun t =>
      let b := match t.ctl.transom.latched with
        | some (base, l) => byteAt l (addr - base)
        | none => 0
      transomFetch n (addr + 1) (acc ++ [b]) k)
    else
      let (sp, i, a) := transomPlace false s.tSpace s.tInst addr
      if s.opaqueAt sp a 1 then fresh fun v => transomFetch n (addr + 1) (acc ++ [BitVec.ofNat 8 v]) k
      else transomFetch n (addr + 1) (acc ++ [s.byte sp i a]) k

/-- Move ADDR on after a DATA access (R179). -/
def stepAddr : Prog := get fun s => wrW TRANSOM.ADDR ((s.tAddr + s.fd TRANSOM.INCR 15 0) % 2 ^ 48)

/-- In port mode a table access to another entry discards the one being collected (R181). -/
def otherEntry (addr : Nat) : Prog := get fun s =>
  let n := max 1 (transomEntry s.tSpace)
  Prog.when (isTable s.tSpace && decide (s.ctl.transom.collAddr ≠ addr / n * n)) dropPartial

/-- A register access that R4 lets do nothing: recorded in the page's ERR_FIRST. -/
def misSize (a : Accessor) (page off : Nat) : Prog := get fun s =>
  err page (s.instSel a page) EC.ACCESS RS.MISALIGNED (bar0 page off)

/-- A write of DATA, `len` bytes wide (R179, R181, R183). In burst mode, for which the spec gives DATA no meaning, it does
nothing (log entry 120). -/
def dataWrite (a : Accessor) (len v : Nat) : Prog := byWriter a Pg.transom 0x50 (get fun s =>
  if s.tBurst then Prog.when (decide (len ≠ 4)) (misSize a Pg.transom 0x50)
  else if len ≠ 4 then transomReject 3 s.tAddr
  else match s.transomRefusal true s.tAddr 4 with
    | 0 => doAll [otherEntry s.tAddr, wr TRANSOM.DATA v, transomStore s.tAddr (leBytes 4 v), stepAddr]
    | r => transomReject r s.tAddr)

/-- A read of DATA (R179, R182, R183). In burst mode it answers 0 (log entry 120). -/
def dataRead (a : Accessor) (len : Nat) : Prog := byReader a Pg.transom (get fun s =>
  if s.tBurst then doAll [answer 0, Prog.when (decide (len ≠ 4)) (misSize a Pg.transom 0x50)]
  else if len ≠ 4 then doAll [transomReject 3 s.tAddr, answer 0]
  else match s.transomRefusal false s.tAddr 4 with
    | 0 => doAll [otherEntry s.tAddr, transomFetch 4 s.tAddr [] fun b => answer (leVal b), stepAddr]
    | r => doAll [transomReject r s.tAddr, answer 0])

/-- TRANSOM_DATA_WRITE (R179, R181, R183). `len` is the width of the access: one that is not 4 bytes is refused. -/
def execTransomDataWrite (a : Accessor) (len : Fin 9) (v : Word) (s : State) : Res := done (dataWrite a len.val v.toNat) s

/-- TRANSOM_DATA_READ (R179, R182, R183). -/
def execTransomDataRead (a : Accessor) (len : Fin 9) (s : State) : Res := done (dataRead a len.val) s

/-- Whether an aperture access keeps the rules of R180: its offset from 0x8000, its length, ADDR's alignment. -/
def apertureOk (x len addr : Nat) : Bool :=
  decide (0x8000 ≤ x) && decide (4 ≤ len) && decide (len ≤ 512) && decide (len % 4 = 0) && decide (x % 4 = 0) &&
    decide (x + len ≤ 0x10000) && decide (addr % 32768 = 0)

/-- The window moves on (R180, R181). -/
def advance : Prog := get fun s => doAll [dropPartial, wrW TRANSOM.ADDR ((s.tAddr + 32768) % 2 ^ 48), wr TRANSOM.FILL 0]

/-- A write to the aperture at offset `x` of the page (R180, R181, R183, R186). -/
def apertureWrite (a : Accessor) (x : Nat) (b : List Byte) : Prog := byWriter a Pg.transom x (get fun s =>
  let at_ := s.tAddr + x - 0x8000
  if !s.tBurst then .skip
  else if !apertureOk x b.length s.tAddr then transomReject 3 at_
  else match s.transomRefusal true at_ b.length with
    | 0 => doAll [transomStore at_ b, get fun t =>
        let f := t.fd TRANSOM.FILL 15 0 + b.length
        if 32768 ≤ f then advance else wr TRANSOM.FILL f]
    | r => transomReject r at_)

/-- A read of `len` bytes of the aperture (R180, R182, R183, R186). -/
def apertureRead (a : Accessor) (x len : Nat) : Prog := byReader a Pg.transom (get fun s =>
  let at_ := s.tAddr + x - 0x8000
  if !s.tBurst then answer 0
  else if !apertureOk x len s.tAddr then doAll [transomReject 3 at_, answer 0]
  else match s.transomRefusal false at_ len with
    | 0 => transomFetch len at_ [] fun b => answer (leVal b)
    | r => doAll [transomReject r at_, answer 0])

/-- APERTURE_WRITE (R180, R181, R183, R186): `x` is the offset in the page. -/
def execApertureWrite (a : Accessor) (x : Fin 65536) (b : List Byte) (s : State) : Res := done (apertureWrite a x.val b) s

/-- APERTURE_READ (R180, R182, R183, R186). -/
def execApertureRead (a : Accessor) (x : Fin 65536) (len : Fin 513) (s : State) : Res := done (apertureRead a x.val len.val) s

/-- ADVANCE (R180, R186). In port mode, of which R180 does not speak, it does the same to ADDR and FILL: a DESIGN CHOICE (log entry
145). -/
def execAdvance (a : Accessor) (v : Word) (s : State) : Res := done (
  byWriter a Pg.transom 0x54 (Prog.when (tbit v.toNat 0) advance)) s

/-- TGT_WRITE (R181, R182, R186). -/
def execTgtWrite (a : Accessor) (v : Word) (s : State) : Res := done (
  byWriter a Pg.transom 0x40 (doAll [dropPartial, dropLatched, wr TRANSOM.TGT v.toNat])) s

/-- A write of ADDR_HI discards a partial entry and releases the latch (R181, R182). -/
def transomAddrHi : Prog := doAll [dropPartial, dropLatched]

/-- SPACE_INFO (R186). -/
def State.spaceInfo (s : State) : Nat :=
  transomEntry s.tSpace + 65536 * b2n (s.transomNow false s.tSpace s.tInst) + 131072 * b2n (s.transomNow true s.tSpace s.tInst)

end Sys2Proof.Machine
end

