-- ==== Sys2Proof/Machine/Stage.lean ====
section
/-! DEFINITION. Write staging (R377 to R386): records, what is staged over an extent, acknowledgements, deferred errors, the
dirty limit, completions of block commands. -/

namespace Sys2Proof.Machine

/-- 4 KiB units that `len` bytes from `off` on touch (R380). -/
def span4k (off len : Nat) : Nat := if len = 0 then 0 else (off + len - 1) / 4096 - off / 4096 + 1

/-- Dirty units of zeros: extents covered whole hold no data (R371, R380). -/
def zeroDirty (off len : Nat) : Nat :=
  if len = 0 then 0 else
  let e0 := off / 65536
  ((List.range ((off + len - 1) / 65536 - e0 + 1)).map fun i =>
    let lo := max off (65536 * (e0 + i))
    let hi := min (off + len) (65536 * (e0 + i + 1))
    if hi - lo = 65536 then 0 else span4k lo (hi - lo)).sum

/-- Dirty units of a piece. -/
def Piece.dirty (p : Piece) : Nat := match p.data with
  | some _ => span4k p.off p.len
  | none => zeroDirty p.off p.len

/-- The parts of a byte range of a volume by atomic unit (R378): unit, offset, length. -/
def splitUnits (off len : Nat) : List (Nat × Nat × Nat) :=
  if len = 0 then [] else
  let u0 := off / 262144
  (List.range ((off + len - 1) / 262144 - u0 + 1)).map fun i =>
    let lo := max off (262144 * (u0 + i))
    (u0 + i, lo, min (off + len) (262144 * (u0 + i + 1)) - lo)

/-- Show the dirty data (R380, R398). -/
def showStage : Prog := get fun s =>
  let n := (s.ctl.blk.pieces.map Piece.dirty).sum
  doAll [wr BLKF.STAGE_USED n, keepMax BLKF.STAGE_HWM n]

/-- Effective dirty limit in MiB before its floor (R407). -/
def State.holdupMiB (s : State) : Nat := (s.fd SUPPLY.HOLDUP_US 15 0 - 5000) * s.fd SUPPLY.DUMP_RATE 17 0 / 1048576

/-- Whether the effective limit follows the hold-up time (R407). -/
def State.enforced (s : State) : Bool := s.bit SUPPLY.DUMP_CTL 1 && s.bit SUPPLY.DUMP_RATE 31

/-- The effective dirty limit in MiB (R407). -/
def State.effMiB (s : State) : Nat :=
  if s.enforced then max 256 (min s.dirtyMiB s.holdupMiB) else s.dirtyMiB

/-- MET of HOLDUP_STATUS (R405 to R407). -/
def State.holdupMet (s : State) : Bool :=
  s.bit SUPPLY.DUMP_RATE 31 && !(s.enforced && decide (min s.dirtyMiB s.holdupMiB < 256)) &&
    decide (s.effMiB * 1048576 ≤ (s.fd SUPPLY.HOLDUP_US 15 0 - 5000) * s.fd SUPPLY.DUMP_RATE 17 0) &&
    decide (5000 ≤ s.fd SUPPLY.HOLDUP_US 15 0)

/-- Pieces of a volume's atomic unit, oldest first. -/
def State.unitPieces (s : State) (v u : Nat) : List Piece :=
  s.ctl.blk.pieces.filter fun p => decide (p.vol = v) && decide (p.unit = u)

/-- What is staged over an extent of a volume, oldest first, from byte `o` of the volume on; true when it now reads as
zeros whole and nothing more (R371, R377). -/
def overlay (o : Nat) : List Piece → List (Nat × List Byte) × Bool
  | ps => ps.foldl (fun (acc : List (Nat × List Byte) × Bool) p =>
    let lo := max p.off o
    let hi := min (p.off + p.len) (o + 65536)
    if hi ≤ lo then acc else
    match p.data with
    | some d => (acc.1 ++ [(lo - o, slice d (lo - p.off) (hi - lo))], false)
    | none => if hi - lo = 65536 then ([(0, List.replicate 65536 0)], true)
        else (acc.1 ++ [(lo - o, List.replicate (hi - lo) 0)], acc.2)) ([], false)

/-- What is staged over global extent `g` of volume `v`. -/
def State.staged (s : State) (v g : Nat) : List (Nat × List Byte) × Bool :=
  overlay ((g - s.volFirst v) * 65536) (s.unitPieces v ((g - s.volFirst v) / 4))

/-- A record. -/
def State.rec? (s : State) (q : Nat) : Option Staged := s.ctl.blk.recs.find? fun r => decide (r.seq = q)

/-- Change a record. -/
def modRec (q : Nat) (f : Staged → Staged) : Prog :=
  modBlk fun b => { b with recs := b.recs.map fun r => if r.seq = q then f r else r }

/-- A record whose every piece has been placed or dropped is over once its command has been acknowledged. -/
def sweepRecs : Prog := doAll [
  modBlk fun b => { b with recs := b.recs.filter fun r => r.work.isSome || b.pieces.any fun p => decide (p.seq = r.seq) }, showStage]

/-! ## Completions -/

/-- Complete a block command: bytes 20–21 hold the volume (R374). -/
def blockCpl (id st len : Nat) (writes : List (Nat × List Byte)) (extra : List (Nat × List Byte)) : Prog :=
  withWork id fun w => completeWith id st len writes none ((20, leBytes 2 (w.at 20 2 % 16384)) :: extra)

/-- Acknowledge a recorded write (R382). -/
def ackRec (q : Nat) (solo : Bool) : Prog := get fun s =>
  match s.rec? q with
  | none => .skip
  | some r => match r.work with
    | none => .skip
    | some w => withWork w fun x => doAll [
        modBlk fun b => { b with acks := b.acks + 1 },
        modRec q fun y => { y with work := none, ack := s.ctl.blk.acks + 1, waitPeer := false }, sweepRecs,
        inc BLKF.WRITE_CNT, peep 6 1 r.vol,
        Prog.when solo (doAll [inc BLKF.SOLO_ACK_CNT, modVol r.vol fun y => { y with solo := true }]),
        blockCpl w ST.OK (if r.zero then 0 else x.length) [] []]

/-- Mirroring has left service: every write that waits for the peer's confirmation is acknowledged (R382, R470). -/
def ackWaiting : Prog := get fun s =>
  Prog.each (s.ctl.blk.recs.filter fun r => r.waitPeer) fun r => doAll [
    modRec r.seq fun y => { y with waitPeer := false },
    Prog.when (!r.placed) (ackRec r.seq true)]

/-- FLUSH commands whose writes are all placed complete (R371, R376). -/
def endFlushes : Prog := get fun s =>
  Prog.each (s.ctl.rings.works.filter fun e => decide (e.2.typ = 0x33) && decide (e.2.aux = 5) &&
      decide (s.ringConsumer e.2.ring = 3) &&
      !(s.ctl.blk.recs.any fun r => decide (r.vol = e.2.at 20 2 % 16384) && decide (r.ack ≠ 0) && decide (r.ack ≤ e.2.res)))
    fun e => blockCpl e.1 ST.OK 0 [] []

/-! ## Deferred errors -/

/-- The atomic units a write touches. -/
def State.recUnits (s : State) (r : Staged) : List Nat := (splitUnits (r.lba * s.volBs r.vol) r.len).map (·.1)

/-- Drop every piece of a record and the record. -/
def dropRec (q : Nat) : Prog := doAll [
  modBlk fun b => { b with
    pieces := b.pieces.filter fun p => !decide (p.seq = q)
    recs := b.recs.filter fun r => !decide (r.seq = q) },
  showStage]

/-- The first command to meet a volume's deferred error takes it (R386). -/
def takeDeferred (id v : Nat) : Prog := get fun s => doAll [
  modVol v fun x => { x with pend := false, multi := false }, inc BLKF.DEFER_CNT,
  blockCpl id ST.DEFERRED_ERROR 0 [] [(24, leBytes 4 (s.vol v).tag), (28, leBytes 2 (s.vol v).status)]]

/-! ## The dirty limit -/

/-- Dirty units a command's data will take (R380). -/
def State.needs (s : State) (w : Work) : Nat :=
  let v := w.at 20 2 % 16384
  let off := w.at 24 8 * s.volBs v
  if w.typ = 0x32 then span4k off w.length else zeroDirty off (w.at 32 4 * s.volBs v)

/-- Dirty units promised to commands that gather their data. -/
def State.promised (s : State) : Nat :=
  ((s.ctl.rings.works.filter fun e => decide (e.2.typ ∈ [0x32, 0x34]) && decide (e.2.aux = 2) &&
    decide (s.ringConsumer e.2.ring = 3)).map fun e => s.needs e.2).sum

/-- Whether a command's data fits under the effective limit now (R380, R407). -/
def State.dirtyFits (s : State) (w : Work) : Bool :=
  decide (s.needs w = 0) || decide (s.rd BLKF.STAGE_USED + s.promised + s.needs w ≤ s.effMiB * 256)

/-- Commands that wait at the limit, in confirmation order. -/
def State.dirtyWaiters (s : State) : List (Nat × Work) :=
  s.ctl.rings.works.filter fun e => decide (e.2.aux = 3) && decide (s.ringConsumer e.2.ring = 3)

end Sys2Proof.Machine
end

