-- ==== Sys2Proof/Machine/Place.lean ====
section
/-! DEFINITION. Placement (R369, R370, R383 to R385, R388, R396): copies of staged data, merges, writes to free physical
extents, journal records, checkpoint pages, release. -/

namespace Sys2Proof.Machine

/-- Whether the back-end may start writing to SSDs (R402, R409, R477). -/
def State.beWrites (s : State) : Bool := decide (s.pf = 0) && decide (s.pairState ≠ prFenced)

/-- A placement. -/
def State.placing? (s : State) (id : Nat) : Option Placing := s.ctl.blk.placings.find? fun p => decide (p.id = id)

/-- Change a placement. -/
def modPl (id : Nat) (f : Placing → Placing) : Prog :=
  modBlk fun b => { b with placings := b.placings.map fun p => if p.id = id then f p else p }

/-- Change extent `i` of a placement. -/
def modPlExt (id i : Nat) (f : PlExt → PlExt) : Prog :=
  modPl id fun p => { p with exts := p.exts.zipIdx.map fun e => if e.2 = i then f e.1 else e.1 }

/-- What a placement takes of an extent: what is staged over it and may be placed (R384, R473). -/
def State.toPlace (s : State) (v g : Nat) : List (Nat × List Byte) × Bool :=
  overlay ((g - s.volFirst v) * 65536) ((s.unitPieces v ((g - s.volFirst v) / 4)).filter (·.named))

/-- Extents of a unit that a placement writes: those with something to place staged over them, and those read with an error
(R369, R388). -/
def State.unitExts (s : State) (v u : Nat) : List Nat :=
  ((List.range 4).map fun i => s.volFirst v + 4 * u + i).filter fun g =>
    !(s.toPlace v g).1.isEmpty || decide ((v, g) ∈ s.ctl.blk.rewrite)

/-- Whether the placement of a unit can start now (R384, R430, R442). -/
def State.canPlace (s : State) (v u : Nat) : Bool :=
  s.beWrites && s.volEn v && (s.ctl.blk.rebuilt || s.ctl.blk.rebuild.isSome) &&
    !(s.ctl.blk.placings.any fun p => decide (p.vol = v) && decide (p.unit = u)) &&
    !(s.volCipher v && s.storeWaits) && decide (s.setState (s.volSet v) ≠ 0) &&
    decide ((s.unitExts v u).length ≤ s.pextsFree (s.volSet v))

/-- A placement lets its key go (R437). -/
def freeKey (p : Placing) : Prog := match p.key with
  | some k => ctl fun c => { c with ciph.keysBusy := c.ciph.keysBusy.erase k }
  | none => .skip

/-- Whether this unit serves a paired volume (R471). -/
def State.ownsVol (s : State) (v : Nat) : Bool := s.cbit (PAIR.VOL_OWN (v / 32)) (v % 32)

/-- The copies a map change takes in the journal: the journal SSDs that can be written (R396). -/
def State.jrnlSsds (s : State) : List Nat :=
  ([s.fd MAP.JRNL_CFG 3 0, s.fd MAP.JRNL_CFG 7 4].dedup).filter fun i => s.ssdEn i && decide (s.ssd i ∈ [ssdFree, ssdMember, ssdSpare])

/-- Records of the journal ring (R396, R400). -/
def State.jrnlSize (s : State) : Nat := max 1024 (s.fd MAP.JRNL_SIZE 23 0)

/-- The sequence number of the newest record. -/
def State.jrnlLast (s : State) : Nat := s.ctl.blk.jrecs.foldl (fun a r => max a r.seq) (s.rdW MAP.JRNL_SEQ)

/-- The 4,096 bytes of a journal record (R396): its sequence number and changes. Their places are free. -/
def jrnlBytes (q : Nat) (ch : List (Nat × Nat)) : List Byte :=
  slice (Config.layout 1 (q :: ch.flatMap fun e => [e.1, e.2])) 0 4096

/-- Whether the journal has no room for a record: its ring's next place is that of one not yet freed (R396). -/
def State.jrnlFull (s : State) : Bool := s.ctl.blk.jrecs.any fun r => decide (r.seq + s.jrnlSize ≤ s.jrnlLast + 1)

/-- Write a journal record for changes of the map (R396). -/
def writeJournal (pl : Option Nat) (ch : List (Nat × Nat)) : Prog := get fun s =>
  let q := s.jrnlLast + 1
  let to_ := s.jrnlSsds
  doAll [
    modBlk fun b => { b with jrecs := b.jrecs ++ [⟨q, ch, pl, to_.length, false, false, 0, false, false⟩] },
    wrF MAP.JRNL_USE 23 0 (s.ctl.blk.jrecs.length + 1),
    Prog.when (decide (to_.length = 1)) (int Pg.map 0 3),
    Prog.each to_ fun i => nvme i 2 (s.rdW MAP.JRNL_LBA % 2 ^ 48 + q % s.jrnlSize) 1 (jrnlBytes q ch) (.journal q)]

/-- Map changes that wait for a record of their own get it, as far as the journal has room (R378, R385). -/
def kickJournal : Prog := get fun s => Prog.each s.ctl.blk.jwait fun ch => get fun t =>
  Prog.when (t.beWrites && !t.jrnlSsds.isEmpty && !t.jrnlFull) (doAll [
    modBlk fun b => { b with jwait := b.jwait.drop 1 }, writeJournal none ch])

/-- A map entry as it will be once every journal record written or waiting is durable. -/
def State.entryNext (s : State) (g : Nat) : Nat :=
  let l := ((s.ctl.blk.jrecs.filter fun r => !r.durable).map (·.changes) ++ s.ctl.blk.jwait).flatten
  ((l.reverse.find? fun e => decide (e.1 = g)).map (·.2)).getD (s.entry g)

/-- The entries of a volume's atomic units are marked POISON, at once and in the journal, each unit's in one record (R378, R385). A record
holds 252 changes, 63 units' (R396). -/
def poisonUnits (v : Nat) (units : List Nat) : Prog := get fun s =>
  let exts := fun u : Nat => ((List.range 4).filter fun i => decide (4 * u + i < s.volExts v)).map fun i => s.volFirst v + 4 * u + i
  let parts := (List.range (ceilDiv units.length 63)).map fun i => ((units.drop (63 * i)).take 63).flatMap exts
  doAll [
    modBlk fun b => { b with jwait := b.jwait ++ parts.map fun l => l.map fun g => (g, s.entryNext g ||| 2 ^ 60) },
    Prog.each (units.flatMap exts) fun g => setEntry g (s.entry g ||| 2 ^ 60),
    kickJournal]

/-- A recorded write cannot be placed (R385). An acknowledged one becomes a deferred error of its volume, its units' entries
marked POISON; one that PLACED still holds completes with the STATUS. -/
def deferRec (q st : Nat) : Prog := get fun s =>
  match s.rec? q with
  | none => .skip
  | some r =>
    match r.work with
    | some w => doAll [dropRec q, blockCpl w st 0 [] []]
    | none => doAll [
        poisonUnits r.vol (s.recUnits r),
        dropRec q,
        modVol r.vol fun v => if v.pend then { v with multi := true, count := (v.count + 1) % 65536 } else { v with
          pend := true
          count := (v.count + 1) % 65536
          tag := r.tag
          status := st
          lba := r.lba },
        int Pg.blkf 0 0, peep 6 3 r.vol]

/-- A placement ends before its journal record: its merges are read no further, and its key is free. -/
def endPlacing (p : Placing) : Prog := doAll [
  modBlk fun b => { b with
    placings := b.placings.filter fun x => !decide (x.id = p.id)
    reads := b.reads.filter fun r => match r.job with | .merge pl _ => !decide (pl = p.id) | _ => true },
  freeKey p]

/-- A placement that cannot be made: its records become deferred errors (R385). Once the supply fails nothing is given up: the dump
holds it (R409). -/
def failPlace (id st : Nat) : Prog := get fun s =>
  match s.placing? id with
  | none => .skip
  | some p => Prog.when (decide (s.pf = 0)) <| doAll [
      endPlacing p,
      Prog.each ((s.ctl.blk.pieces.filter fun x => decide (x.taken = some id)).map (·.seq)).dedup fun q => deferRec q st,
      endFlushes]

/-- The map entry an extent of a placement gets (R368, R371). -/
def PlExt.entry (e : PlExt) : Nat := if e.unmap then 0 else mkEntry e.new e.poison

/-- The data of a placement is written: its journal record, or the wait for room in the journal (R384, R385). -/
def journalPl (id : Nat) : Prog := get fun s =>
  match s.placing? id with
  | none => .skip
  | some p =>
    if s.jrnlSsds.isEmpty then failPlace id ST.MEDIA_ERROR
    else if !s.beWrites then modPl id fun x => { x with stage := 2 }
    else if s.jrnlFull then doAll [
      modPl id fun x => { x with stage := 2, full := true },
      Prog.when (!p.full) (doAll [inc MAP.JRNL_FULL_CNT, int Pg.map 0 0])]
    else doAll [modPl id fun x => { x with stage := 3 }, writeJournal (some id) (p.exts.map fun e => (e.ext, e.entry))]

/-- A free physical extent of a set; which one is free (R369). -/
def withPext (k : Nat) (f : Nat → Prog) : Prog := fresh fun v => get fun s =>
  f (freeFrom (s.pextsUsed k) (s.setCap k) ((s.pextsUsed k).length + 1) (v % max 1 (s.setCap k)))

/-- Write extent `i` of a placement to its new physical extent, on every member that can be written (R364, R389). -/
def writePlExt (id i : Nat) : Prog := get fun s =>
  match s.placing? id with
  | none => .skip
  | some p => match p.exts[i]? with
    | none => .skip
    | some e =>
      let k := s.volSet p.vol
      let l := s.layoutOf k
      let to_ := (List.range (layoutChunks l)).filter fun c => (s.writable k (chunkPos l e.new c)).isSome
      doAll [modPlExt id i fun x => { x with left := to_.length },
        Prog.each to_ fun c => match s.writable k (chunkPos l e.new c) with
          | some d => nvme d 2 (s.pextLba k e.new) (layoutLbas l) (chunkOf l c e.data) (.place id i c)
          | none => .skip]

/-- Choose a new physical extent for extent `i` of a placement and write it there; it waits while the back-end may start no
write (R409 step 3, R477). -/
def placeExt (id i : Nat) : Prog := get fun s =>
  match s.placing? id with
  | none => .skip
  | some p =>
    if !s.beWrites then modPlExt id i fun x => { x with held := true, left := 1 }
    else withPext (s.volSet p.vol) fun n => doAll [modPlExt id i fun x => { x with new := n, held := false }, writePlExt id i]

/-- Whether every chunk write of a placement has ended. -/
def Placing.written (p : Placing) : Bool := p.exts.all fun e => decide (e.left = 0)

/-- Every merge of a placement has arrived: the data is laid over, enciphered and written (R369, R370), unless the back-end starts
no placement write (R18, R409 step 3, R477), or the storage datapath has stopped (R430): then it waits. -/
def writePl (id : Nat) : Prog := get fun s =>
  match s.placing? id with
  | none => .skip
  | some p =>
    let v := p.vol
    let dataExts := p.exts.filter fun e => !e.unmap
    let units := dataExts.length * (65536 / s.volBs v)
    let go := fun key : Nat => doAll [
      modPl id fun x => { x with stage := 1, exts := x.exts.map fun e =>
        { e with data := if e.unmap then [] else s.encipher v e.ext key (layOver e.data e.lays) } },
      Prog.each (p.exts.zipIdx.filter fun e => !e.1.unmap) fun e => placeExt id e.2,
      get fun t => match t.placing? id with
        | some y => Prog.when y.written (journalPl id)
        | none => .skip]
    if !s.beWrites || (s.volCipher v && s.storeError) then .skip
    else if s.setState (s.volSet v) = 3 then failPlace id ST.MEDIA_ERROR
    else if s.volCipher v && !dataExts.isEmpty then
      useKey (s.volKey v) units [3] atStore fun st key =>
        if st ≠ ST.OK then failPlace id st
        else doAll [ctl fun c => { c with ciph.keysBusy := c.ciph.keysBusy ++ [s.volKey v] },
          modPl id fun x => { x with key := some (s.volKey v) }, storeGood, go key]
    else go 0

/-- A merge of a placement arrives, or cannot be read (R369, R385). -/
def mergeDone (id i : Nat) (d : Option (List Byte)) : Prog := get fun s =>
  match s.placing? id, d with
  | some p, some b => decipher none p.vol ((p.exts[i]?.map (·.ext)).getD 0) b fun x =>
      match x with
      | none => failPlace id ST.KEY_INVALID
      | some y => doAll [modPlExt id i fun e => { e with data := y, merge := false },
          get fun t => match t.placing? id with
            | some q => Prog.when (q.exts.all fun e => !e.merge) (writePl id)
            | none => .skip]
  | some _, none => failPlace id ST.MEDIA_ERROR
  | none, _ => .skip

/-- What a merge's read does when it ends. -/
def mergeEnd (r : ExtRd) (d : Option (List Byte)) : Prog := match r.job with
  | .merge id i => mergeDone id i d
  | _ => .skip

/-- Start the placement of an atomic unit: a copy of its newest staged data is taken (R384). -/
def startPlace (v u : Nat) : Prog := blkId fun id => get fun s =>
  let exts := (s.unitExts v u).map fun g =>
    let (lays, zero) := s.toPlace v g
    let e := s.entry g
    let whole := laysCover lays
    let merge := !whole && eMapped e && !ePoison e
    (⟨g, merge, lays, if merge then [] else List.replicate 65536 0, zero, ePoison e && !whole, 0, 0, 0, false⟩ : PlExt)
  doAll [
    modBlk fun b => { b with
      placings := b.placings ++ [⟨id, v, u, exts, 0, false, none⟩]
      wanted := b.wanted.filter fun x => !decide (x = (v, u))
      rewrite := b.rewrite.filter fun x => !(decide (x.1 = v) && decide (x.2 ∈ exts.map (·.ext)))
      pieces := b.pieces.map fun p => if p.vol = v ∧ p.unit = u ∧ p.named = true then { p with taken := some id } else p },
    if exts.any (·.merge) then
      Prog.each (exts.zipIdx.filter fun e => e.1.merge) fun e =>
        startRead (s.volSet v) (ePext (s.entry e.1.ext)) (.merge id e.2) mergeEnd
    else writePl id]

/-- A placement meets a map entry that cannot be read (R397): the commands that need it complete with UNCORRECTABLE, a PLACED write and
every FLUSH that waits for the unit; what is acknowledged stays staged until a REBUILD. -/
def placeUE (v u g : Nat) : Prog := get fun s =>
  let here := fun q : Nat => s.ctl.blk.pieces.any fun p => decide (p.seq = q) && decide (p.vol = v) && decide (p.unit = u)
  doAll [
    mapUE g,
    modBlk fun b => { b with wanted := b.wanted.filter fun y => !decide (y = (v, u)) },
    Prog.each (s.ctl.blk.recs.filter fun r => r.placed && here r.seq) fun r => match r.work with
      | some w => doAll [dropRec r.seq, blockCpl w ST.UNCORRECTABLE 0 [] []]
      | none => .skip,
    Prog.each (s.ctl.rings.works.filter fun e => decide (e.2.typ = 0x33) && decide (e.2.aux = 5) &&
        decide (s.ringConsumer e.2.ring = 3) && decide (e.2.at 20 2 % 16384 = v) &&
        (s.ctl.blk.recs.any fun r => decide (r.ack ≠ 0) && decide (r.ack ≤ e.2.res) && here r.seq))
      fun e => blockCpl e.1 ST.UNCORRECTABLE 0 [] []]

/-- Place what is wanted, oldest first, as far as it can start (R383, R384). -/
def kickPlace : Prog := get fun s =>
  Prog.each s.ctl.blk.wanted fun x => get fun t =>
    if (t.unitExts x.1 x.2).isEmpty then
      modBlk fun b => { b with wanted := b.wanted.filter fun y => !decide (y = x) }
    else Prog.when (t.canPlace x.1 x.2) (match (t.unitExts x.1 x.2).find? t.entryBad with
      | some g => placeUE x.1 x.2 g
      | none => startPlace x.1 x.2)

/-- Ask for the placement of the units of some pieces (R383), of those that may be placed. -/
def wantPieces (ps : List Piece) : Prog := doAll [
  modBlk fun b => { b with wanted := (b.wanted ++ (ps.filter fun p => p.taken.isNone && p.named).map fun p => (p.vol, p.unit)).dedup },
  kickPlace]

/-- Pieces of mirrored writes are named by the owner, or wait for it no longer: they are placed (R473). -/
def namePieces (ps : List Piece) : Prog := doAll [
  modBlk fun b => { b with pieces := b.pieces.map fun p =>
    if (ps.any fun q => decide (q.seq = p.seq) && decide (q.unit = p.unit)) = true then { p with named := true } else p },
  wantPieces (ps.map fun p => { p with named := true })]

/-- Whether a piece is that of a mirrored write (R472): one that a STAGE message brought. -/
def State.mirrorPiece (s : State) (p : Piece) : Bool :=
  s.ctl.blk.recs.any fun r => decide (r.seq = p.seq) && r.peer.isSome && decide (r.peer ≠ some 0)

/-- The owner's next order is obeyed once the one before is placed, so that the units change in the owner's order (R473). -/
def nextOrder : Prog := get fun s => Prog.each s.ctl.pair.orders fun l => get fun t =>
  Prog.when (!(t.ctl.blk.pieces.any fun p => p.named && t.mirrorPiece p)) (doAll [
    modPair fun x => { x with orders := x.orders.drop 1 },
    namePieces (t.ctl.blk.pieces.filter fun p => l.any fun e => decide (p.unit = e.2) &&
      (t.ctl.blk.recs.any fun r => decide (r.seq = p.seq) && decide (r.peer = some e.1)))])

/-- While STAGE_USED exceeds HIGH_PCT % of the limit the oldest staged writes are placed (R383); enough of them are asked
for to bring it down. -/
def placeHigh : Prog := get fun s =>
  let limit := s.dirtyMiB * 256 * s.fd BLKF.STAGE_CFG 23 16 / 100
  let over_ := s.rd BLKF.STAGE_USED - limit
  let pick := ((s.ctl.blk.pieces.filter (·.named)).foldl (fun (a : Nat × List Piece) p =>
    if a.1 < over_ then (a.1 + p.dirty, a.2 ++ [p]) else a) (0, [])).2
  Prog.when (decide (0 < over_)) (wantPieces pick)

/-- The flush deadline of a volume (R383). -/
def flushDeadline (v : Nat) : Prog := get fun s =>
  let us := max 1 (s.cfd (BLKF.VOL_FLUSH_US.of v) 23 0)
  let dom := s.fd BLKB.DOM 2 0
  request dom 1 (.rel (us * 500)) (.flushDeadline v) fun st _ =>
    Prog.when (decide (st ≠ ST.OK)) (refused (.flushDeadline v) dom ((s.wt dom + us * 500) % 2 ^ 48) st)

/-! ## Write staging in HBM (R380) -/

/-- Units of 4 KiB of staging that hold data. -/
def State.stageBusy (s : State) : List Nat := s.ctl.blk.pieces.flatMap (·.room)

/-- `n` units free from `start` on, modulo `size`: the search goes past those of `used`. -/
def freeUnits (used : List Nat) (size : Nat) : Nat → Nat → List Nat
  | 0, _ => []
  | n + 1, start =>
    let u := freeFrom used size (used.length + 1) (start % max 1 size)
    u :: freeUnits (u :: used) size n (u + 1)

/-- HBM address of write staging (R380). -/
def State.stageBase (s : State) : Nat := s.rdW BLKF.STAGE_BASE % 2 ^ 48 / 1048576 * 1048576

/-- A piece of a write goes into units of staging (R380); which units, the spec leaves open: free (log entry 156). `k` gets them. -/
def stageData (off : Nat) (data : Option (List Byte)) (k : List Nat → Prog) : Prog := match data with
  | none => k []
  | some d => fresh fun v => get fun s =>
    let room := freeUnits s.stageBusy (256 * s.dirtyMiB) (span4k off d.length) v
    doAll [
      Prog.each room.zipIdx fun e =>
        let skip := if e.2 = 0 then off % 4096 else 0
        let at_ := 4096 * e.2 - off % 4096
        let part := slice d at_ (min (4096 - skip) (d.length - at_))
        let addr := s.stageBase + 4096 * e.1 + skip
        doAll [poke 1 0 addr part, cleanse 1 0 addr part.length],
      k room]

/-- The bytes of a staging record, 64 in a place of their own after the data; their layout is free (log entry 156). -/
def stageRecord (q vol tag lba len : Nat) (zero : Bool) : Prog := get fun s =>
  let addr := s.stageBase + s.dirtyMiB * 1048576 + 64 * (q % 1048576)
  doAll [poke 1 0 addr (slice (Config.layout 10 [q, vol, tag, lba, len, b2n zero]) 0 64), cleanse 1 0 addr 64]

/-- Whether a write recorded now may be placed at the back-end's own choice: a mirrored one waits for the owner's JOURNAL message while
the pair is in service or forming (R473, R476). -/
def State.placeable (s : State) (peer : Option Nat) : Bool :=
  peer.isNone || !(decide (s.pairState = prPaired) || decide (s.pairState = prJoining))

/-- Record a write or ZERO in staging, as the next of the staging sequence (R381 to R383). `k` gets its sequence. -/
def record (vol tag : Nat) (work : Option Nat) (lba len : Nat) (zero placed waitPeer : Bool) (peer : Option Nat)
    (data : List Byte) (k : Nat → Prog) : Prog := get fun s =>
  let q := s.ctl.blk.seq + 1
  let off := lba * s.volBs vol
  let first := s.placeable peer && !(s.ctl.blk.pieces.any fun p => decide (p.vol = vol) && p.named)
  doAll [
    modBlk fun b => { b with
      seq := q
      recs := b.recs ++ [⟨q, vol, tag, work, lba, len, zero, 0, placed, waitPeer, peer⟩] },
    Prog.each (splitUnits off len) fun x =>
      let d := if zero then none else some (slice data (x.2.1 - off) x.2.2)
      stageData x.2.1 d fun room => modBlk fun b => { b with pieces := b.pieces ++ [⟨q, vol, x.1, x.2.1, x.2.2, d, none, room, s.placeable peer⟩] },
    stageRecord q vol tag lba len zero,
    showStage,
    Prog.when first (flushDeadline vol),
    k q]

/-- The chunk writes of an extent have ended; when all of a placement have, its journal record follows. -/
def chunkWritten (id i : Nat) : Prog := doAll [
  modPlExt id i fun e => { e with left := e.left - 1 },
  get fun s => match s.placing? id with
    | some p => Prog.when (decide (p.stage = 1) && p.written) (journalPl id)
    | none => .skip]

/-- Map changes and placements held by the journal go on (R384). -/
def retryJournal : Prog := doAll [kickJournal, get fun s =>
  Prog.each (s.ctl.blk.placings.filter fun p => decide (p.stage = 2)) fun p => journalPl p.id]

/-- Checkpoint pages of a record's changes, of 512 entries each, on both journal SSDs (R396). They wait while the back-end may
write nothing (R477). -/
def writeCkpt (r : JRec) : Prog := get fun s =>
  let pages := (r.changes.map fun c => c.1 / 512).dedup
  let to_ := s.jrnlSsds
  doAll [
    modBlk fun b => { b with jrecs := b.jrecs.map fun x => if x.seq = r.seq then { x with
      ckLeft := pages.length * to_.length
      ckWaits := !s.beWrites } else x },
    Prog.when s.beWrites <| Prog.each pages fun p => Prog.each to_ fun i =>
      nvme i 2 (s.rdW MAP.CKPT_LBA % 2 ^ 48 + p) 1 (s.bytes 2 0 (s.mapAddr (512 * p)) 4096) (.ckpt r.seq)]

/-- Placements that waited for the back-end to write again go on: their first writes, checkpoint pages, or one extent's next try (R477). -/
def retryWrites : Prog := get fun s => doAll [
  Prog.each (s.ctl.blk.placings.filter fun p => decide (p.stage = 0) && p.exts.all fun e => !e.merge) (fun p => writePl p.id),
  Prog.each (s.ctl.blk.jrecs.filter (·.ckWaits)) writeCkpt,
  Prog.each s.ctl.blk.placings fun p => Prog.each (p.exts.zipIdx.filter fun e => e.1.held) fun e => placeExt p.id e.2]

/-- Free the journal records whose changes are all in the checkpoint (R396). -/
def freeRecords (q : Nat) : Prog := get fun s =>
  match s.ctl.blk.jrecs.find? fun r => decide (r.seq = q) with
  | some r => Prog.when (r.durable && !r.ckWaits && decide (r.ckLeft = 0)) (doAll [
      incBy MAP.CKPT_PAGE_CNT (r.changes.map fun c => c.1 / 512).dedup.length,
      modBlk fun b => { b with jrecs := b.jrecs.filter fun x => !decide (x.seq = q) },
      wrF MAP.JRNL_USE 23 0 (s.ctl.blk.jrecs.length - 1),
      retryJournal])
  | none => .skip

/-- The oldest journal record that is not durable, when every copy's write has ended and one was good (R396). -/
def State.jrnlReady (s : State) : Option JRec :=
  match s.ctl.blk.jrecs.find? fun r => !r.durable with
  | some r => if r.left = 0 ∧ r.good = true then some r else none
  | none => none

/-- A placement as the JOURNAL message names it (R473): the staging sequences of this unit's own writes that it placed, with their unit. -/
def State.placedSeqs (s : State) (pl : Nat) : List (Nat × Nat) :=
  (s.ctl.blk.pieces.filter fun p => decide (p.taken = some pl) &&
    (s.ctl.blk.recs.any fun r => decide (r.seq = p.seq) && r.peer.isNone)).map fun p => (p.seq, p.unit)

/-- Whether what this unit records and places of paired volumes goes to the peer: in PAIRED, and from the leader in JOINING (R472, R473, R476). -/
def State.mirrors (s : State) : Bool :=
  decide (s.pairState = prPaired) || (decide (s.pairState = prJoining) && decide (s.ctl.pair.asked = 1))

/-- Physical extents that no READ reads any longer are deallocated (R377, R399). -/
def deallocNext : Prog := get fun s =>
  Prog.each (s.ctl.blk.deallocs.filter fun o => !(s.ctl.blk.reads.any fun r => decide (r.set = o.1) && decide (r.pext = o.2))) fun o => doAll [
    modBlk fun b => { b with deallocs := b.deallocs.filter fun x => !decide (x = o) },
    Prog.when (s.bit BLKB.BE_CFG 0 && s.beWrites) (
      Prog.each ((List.range (layoutMembers (s.layoutOf o.1))).filterMap fun p => s.writable o.1 p) fun i =>
        nvme i 3 (s.pextLba o.1 o.2) (layoutLbas (s.layoutOf o.1)) [] .dealloc)]

/-- Whether the back-end still takes what its commands bring: not once the dump has begun to write, which disregards them (R409). -/
def State.settles (s : State) : Bool := decide (s.pf = 0) || s.ctl.blk.dump.all fun d => d.started.isEmpty

/-- JOURNAL_DURABLE (R369, R384, R396, R473): the map takes the record's changes; the old physical extents are free and,
with DSM_EN, deallocated; the checkpoint pages are written; a paired volume's placement is told to the peer. -/
def execJournalDurable (s : State) : Res := board (get fun s => Prog.when s.settles <|
  match s.jrnlReady with
  | none => .skip
  | some r =>
    let olds := r.changes.filterMap fun c =>
      let e := s.entry c.1
      match s.volOfExt c.1 with
      | some v => if eMapped e && !decide (ePext e = ePext c.2 ∧ eMapped c.2 = true) then some (s.volSet v, ePext e) else none
      | none => none
    doAll [
      Prog.each r.changes (fun c => setEntry c.1 c.2),
      wrW MAP.JRNL_SEQ r.seq, inc MAP.JRNL_REC_CNT,
      modBlk fun b => { b with jrecs := b.jrecs.map fun x => if x.seq = r.seq then { x with durable := true } else x },
      Prog.when (s.bit BLKB.BE_CFG 0) (doAll [modBlk fun b => { b with deallocs := b.deallocs ++ olds }, deallocNext]),
      writeCkpt r,
      match r.pl with
      | some id => doAll [modPl id fun p => { p with stage := 4 },
          match s.placing? id with
          | some p => Prog.when (s.volPair p.vol && s.mirrors && !(s.placedSeqs id).isEmpty)
              (sendMsg clsJournal (.journal (s.placedSeqs id)))
          | none => .skip]
      | none => .skip,
      freeRecords r.seq]) s

/-- Commands that a PLACED write or a FLUSH waits on, and the next placements, after staging was released. -/
def afterRelease : Prog := doAll [sweepRecs, endFlushes, kickPlace, placeHigh, nextOrder]

/-- PLACEMENT_DONE (R369, R382, R384): the record is durable; the staging space of the data placed is released, PLACED
writes are acknowledged and FLUSH commands complete. -/
def execPlacementDone (id : Nat) (s : State) : Res := board (get fun s =>
  match s.placing? id with
  | some p => Prog.when (decide (p.stage = 4) && s.settles) (
      let gone := (s.ctl.blk.pieces.filter fun x => decide (x.taken = some id)).map (·.seq)
      let left := (s.ctl.blk.pieces.filter fun x => !decide (x.taken = some id)).map (·.seq)
      doAll [
        Prog.each ((gone.dedup).filter fun q => !decide (q ∈ left)) (fun q => get fun t =>
          match t.rec? q with
          | some r => Prog.when r.placed (ackRec q false)
          | none => .skip),
        modBlk fun b => { b with
          placings := b.placings.filter fun x => !decide (x.id = id)
          pieces := b.pieces.filter fun x => !decide (x.taken = some id)
          restored := b.restored.filter fun q => !(decide (q ∈ gone) && !decide (q ∈ left)) },
        freeKey p, peep 6 2 p.vol, afterRelease])
  | none => .skip) s

/-- FLUSH_DEADLINE (R56, R383): with OK or STEPPED, every write of the volume recorded so far is placed. -/
def execFlushDeadline (s : State) : Res := board (
  dispatch (fun c => match c with | .flushDeadline _ => true | _ => false) fun e _ => get fun t =>
    match e.consumer with
    | .flushDeadline v => wantPieces (t.ctl.blk.pieces.filter fun p => decide (p.vol = v))
    | _ => .skip) s

end Sys2Proof.Machine
end

