-- ==== Sys2Proof/Machine/Block.lean ====
section
/-! DEFINITION. Block commands (R371 to R382, R390, R391): validation, ordering, READ, WRITE, FLUSH, ZERO and task windows. -/

namespace Sys2Proof.Machine

/-! Type-specific fields of a BLOCK descriptor (R372). -/
def Work.vol (w : Work) : Nat := w.at 20 2 % 16384
def Work.taskOp (w : Work) : Nat := w.at 22 1
def Work.lba (w : Work) : Nat := w.at 24 8
def Work.nblocks (w : Work) : Nat := w.at 32 4
def Work.ordered (w : Work) : Bool := w.flag 2
def Work.atomic (w : Work) : Bool := w.flag 8
def Work.placed (w : Work) : Bool := w.flag 9

/-! TYPE values (R371). -/
def btRead : Nat := 0x31
def btWrite : Nat := 0x32
def btFlush : Nat := 0x33
def btZero : Nat := 0x34
def btTask : Nat := 0x3E

/-- Bytes a READ, WRITE or ZERO covers. -/
def State.blockLen (s : State) (w : Work) : Nat := if w.typ = btZero then w.nblocks * s.volBs w.vol else w.length

/-- The management function that holds ownership (R74, R390). -/
def State.mgmtFn (s : State) : Nat := 1024 * s.rd CHIP.MGMT_OWNER

/-- Bytes of a task's result (R390). -/
def taskResult (op : Nat) : Nat := if op = 1 then 64 else if op = 2 then 32 else 0

/-- The STATUS of the first check of R373 that a command fails, OK if it passes them all; a poisoned context of its volume goes before
them (R486). -/
def State.blockCheck (s : State) (w : Work) : Nat :=
  let t := w.typ
  let task := decide (t = btTask)
  let v := w.vol
  let len := s.blockLen w
  let off := w.lba * s.volBs v
  if s.volBad v then ST.UNCORRECTABLE
  else if !s.volEn v || (task && (decide (w.taskOp = 0) || decide (4 < w.taskOp))) then ST.BAD_FIELD
  else if !(if task then decide (w.fn = s.mgmtFn) || (decide (w.taskOp ≤ 2) && decide (w.fn = s.cfd (BLKF.VOL_OWNER.of v) 10 0))
      else decide (w.fn = s.cfd (BLKF.VOL_OWNER.of v) 10 0)) then ST.ACCESS_DENIED
  else if !task && (decide (2 ≤ s.volMode v) || !s.ctl.blk.rebuilt || (s.volPair v && !s.ownsVol v)) then ST.VOLUME_OFFLINE
  else if !task && (s.vol v).pend then ST.DEFERRED_ERROR
  else if (decide (t = btRead) || decide (t = btWrite)) &&
      (decide (len < s.volBs v) || decide (4194304 < len) || decide (len % s.volBs v ≠ 0)) then ST.BAD_LENGTH
  else if (decide (t = btFlush) || decide (t = btZero)) && decide (w.length ≠ 0) then ST.BAD_LENGTH
  else if decide (t = btZero) && decide (w.nblocks = 0) then ST.BAD_LENGTH
  else if task && decide (w.length < taskResult w.taskOp) then ST.BAD_LENGTH
  else if (decide (t = btRead) || decide (t = btWrite) || decide (t = btZero)) && decide (s.volExts v * 65536 < off + len) then
    ST.LBA_RANGE
  else if (decide (t = btWrite) || decide (t = btZero)) && decide (s.volMode v = 1) then ST.READ_ONLY
  else if decide (t = btWrite) && w.atomic && decide ((splitUnits off len).length ≠ 1) then ST.ATOMIC_BOUNDARY
  else if (decide (t = btWrite) || decide (t = btZero) || decide (t = btFlush)) && decide (s.pairState = prFenced) then ST.FENCED
  else if (decide (t = btWrite) || (decide (t = btZero) && decide (zeroDirty off len ≠ 0))) &&
      decide (s.pextsFree (s.volSet v) ≤ s.rdW (BLKB.SET_RESV (s.volSet v)) % 2 ^ 34) then ST.MEDIA_ERROR
  else ST.OK

/-- A command refused by R373 completes, with what its STATUS counts. -/
def refuseBlock (id : Nat) (w : Work) (st : Nat) : Prog :=
  if st = ST.DEFERRED_ERROR then takeDeferred id w.vol
  else doAll [
    Prog.when (decide (st = ST.ATOMIC_BOUNDARY)) (inc BLKF.ATOMIC_REJ_CNT),
    Prog.when (decide (st = ST.MEDIA_ERROR)) (inc BLKF.SPACE_REJ_CNT),
    blockCpl id st 0 [] []]

/-! ## Ordering (R376) -/

/-- Whether two commands of a ring conflict. -/
def State.conflict (s : State) (a b : Work) : Bool :=
  let data := fun w : Work => decide (w.typ ∈ [btRead, btWrite, btZero])
  let wrt := fun w : Work => decide (w.typ ∈ [btWrite, btZero])
  data a && data b && decide (a.vol = b.vol) && (wrt a || wrt b) &&
    decide (a.lba * s.volBs a.vol < b.lba * s.volBs a.vol + s.blockLen b) &&
    decide (b.lba * s.volBs a.vol < a.lba * s.volBs a.vol + s.blockLen a)

/-- Whether an earlier command of its ring holds a command. -/
def State.blockHeld (s : State) (id : Nat) (w : Work) : Bool :=
  (s.worksOf w.ring).any fun e => decide (e.1 < id) && (w.ordered || e.2.ordered || s.conflict e.2 w)

/-! ## READ -/

/-- Put a READ under way. -/
def modJob (id : Nat) (f : RdJob → RdJob) : Prog :=
  modBlk fun b => { b with jobs := b.jobs.map fun j => if j.work = id then f j else j }

/-- The READ of a work item. -/
def State.job? (s : State) (id : Nat) : Option RdJob := s.ctl.blk.jobs.find? fun j => decide (j.work = id)

/-- A READ whose extents have all come: the newest data of its range goes to the host (R377). -/
def finishRead (id : Nat) : Prog := get fun s =>
  match s.job? id with
  | none => .skip
  | some j => Prog.when (j.exts.all fun e => !e.need) (doAll [
      modBlk fun b => { b with jobs := b.jobs.filter fun x => !decide (x.work = id) },
      match j.key with
      | some e => ctl fun c => { c with ciph.keysBusy := c.ciph.keysBusy.erase e.1 }
      | none => .skip,
      inc BLKF.READ_CNT,
      withWork id fun w =>
        if j.exts.any (·.bad) then blockCpl id ST.MEDIA_ERROR 0 [] [] else
        let all := j.exts.flatMap fun e => slice (layOver e.base e.lays) 0 65536
        let data := slice all (j.lba * s.volBs j.vol % 65536) w.length
        blockCpl id ST.OK w.length (scatter w.pieces data) []])

/-- Extent `i` of a READ arrives, or cannot be rebuilt (R388). -/
def readArrives (id i : Nat) (d : Option (List Byte)) : Prog := get fun s =>
  match s.job? id with
  | none => .skip
  | some j =>
    let put := fun x : Option (List Byte) => doAll [
      modJob id fun y => { y with exts := y.exts.zipIdx.map fun e =>
        if e.2 = i then { e.1 with need := false, base := x.getD [], bad := x.isNone } else e.1 },
      finishRead id]
    match d with
    | some b => decipher (j.key.map (·.2)) j.vol ((j.exts[i]?.map (·.ext)).getD 0) b put
    | none => put none

/-- What an extent read of a READ does when it ends. -/
def readEnd (r : ExtRd) (d : Option (List Byte)) : Prog := match r.job with
  | .work id i => readArrives id i d
  | _ => .skip

/-- The extents of a READ that it still needs and that nothing reads are read, and it ends if it needs none; a READ of an encrypted
volume waits while the cipher's storage datapath does (R430, R442). -/
def goRead (id : Nat) : Prog := get fun s =>
  match s.job? id with
  | none => .skip
  | some j => Prog.when (!(s.volCipher j.vol && s.storeWaits)) (doAll [
      Prog.each (j.exts.zipIdx.filter fun e => e.1.need && !(s.ctl.blk.reads.any fun r => decide (r.job = .work id e.2))) fun e =>
        startRead (s.volSet j.vol) (ePext (s.entry e.1.ext)) (.work id e.2) readEnd,
      finishRead id])

/-- A READ starts (R377): what is staged over each extent is taken, and the SSDs are read for the rest. -/
def startReadCmd (id : Nat) (w : Work) : Prog := get fun s =>
  let v := w.vol
  let off := w.lba * s.volBs v
  let g0 := s.volFirst v + off / 65536
  let gs := (List.range ((off + w.length - 1) / 65536 - off / 65536 + 1)).map (g0 + ·)
  let partial_ := fun g => !laysCover (s.staged v g).1
  match gs.find? fun g => partial_ g && s.entryBad g with
  | some g => doAll [mapUE g, inc BLKF.READ_CNT, blockCpl id ST.UNCORRECTABLE 0 [] []]
  | none =>
    let exts := gs.map fun g =>
      let e := s.entry g
      let need := partial_ g && eMapped e && !ePoison e
      (⟨g, need, (s.staged v g).1, List.replicate 65536 0, partial_ g && ePoison e⟩ : RdExt)
    let key := if s.volCipher v ∧ exts.any (·.need) = true then (s.storeKey v).map fun m => (s.volKey v, m) else none
    doAll [
      modWork id fun x => { x with aux := 2, stage := 3 },
      modBlk fun b => { b with jobs := b.jobs ++ [⟨id, v, w.lba, exts, key⟩] },
      match key with
      | some e => ctl fun c => { c with ciph.keysBusy := c.ciph.keysBusy ++ [e.1] }
      | none => .skip,
      goRead id]

/-! ## Task windows (R390, R391) -/

/-- The command in a function's window. -/
def State.window? (s : State) (f : Nat) : Option Nat :=
  let t := tget 0 s.ctl.blk.tasks f
  if t = 0 then none else some (t - 1)

/-- A window's command completes, and the window is empty. -/
def taskDone (id st : Nat) (writes : List (Nat × List Byte)) : Prog := withWork id fun w => doAll [
  modBlk fun b => { b with tasks := nset 0 b.tasks w.fn 0 }, int Pg.blkf 0 2, blockCpl id st 0 writes []]

/-- A block command whose scatter list or descriptor fails completes (R160, R374). -/
def blockFails (id : Nat) (w : Work) (st : Nat) : Prog := get fun s =>
  if s.window? w.fn = some id then taskDone id st [] else blockCpl id st 0 [] []

/-- Whether an SSD's state suits an activity (R392). -/
def State.suits (s : State) (i op : Nat) : Bool :=
  if op = 1 ∨ op = 2 then decide (s.ssd i = ssdFree) else decide (op = 3) && decide (s.ssd i = ssdMember)

/-- The maintenance activity of an OP (R91, R392). -/
def ssdActivity (op : Nat) : Nat := if op = 1 then MA.SANITISE else if op = 2 then MA.FORMAT else MA.SSD_SCRUB

/-- What a start of an SSD's activity carries to the arbiter: its ARG, as it is when the start is asked for, and the TASK that asks,
plus 1, or 0 (R392). -/
def actRef (arg task : Nat) : Nat := 8 * task + arg % 8

/-- VOL_INFO (R390): 64 bytes of the volume's information, whose places the spec leaves open. -/
def volInfo (id : Nat) (w : Work) : Prog := get fun s =>
  let v := w.vol
  taskDone id ST.OK (scatter w.pieces (slice (Config.layout 2 [s.volBs v, s.volExts v, s.volMode v, b2n (s.volPair v),
    b2n (s.vol v).solo, s.setState (s.volSet v)]) 0 64))

/-- ERR_READ (R386, R390): the 32 bytes of the deferred-error record, which stays. -/
def errRead (id : Nat) (w : Work) : Prog := get fun s =>
  let d := s.vol w.vol
  taskDone id ST.OK (scatter w.pieces (slice (Config.layout 3 [b2n d.pend, b2n d.multi, d.tag, d.status, d.lba]) 0 32))

/-- SSD_ACT (R390, R392): as SSDs_CMD; it completes when the arbiter has decided. -/
def ssdActTask (id : Nat) (w : Work) : Prog := get fun s =>
  let i := w.lba % 16
  let op := field w.lba 5 4
  if !s.suits i op then taskDone id ST.BAD_FIELD []
  else mstart (ssdActivity op) i .ring (actRef (field w.lba 10 8) (id + 1))

/-- A window's command runs (R390): VOL_MODE waits for its volume's commit boundary. -/
def startTask (id : Nat) (w : Work) : Prog := doAll [
  modWork id fun x => { x with aux := 6, stage := 3 },
  if w.taskOp = 1 then volInfo id w
  else if w.taskOp = 2 then errRead id w
  else if w.taskOp = 3 then modVol w.vol fun v => { v with mode := some (w.lba % 4) }
  else ssdActTask id w]

/-! ## WRITE, ZERO, FLUSH -/

/-- A WRITE reads its data into staging; a ZERO has none to read (R17). -/
def gatherBlock (id : Nat) (w : Work) : Prog := doAll [
  modWork id fun x => { x with aux := 2, stage := 3 },
  Prog.when (decide (w.typ = btWrite)) (gather id w.fn w.pieces 0)]

/-- A command passes R373 and R376: it starts. A ZERO that dirties nothing waits for no room (R380). -/
def startBlock (id : Nat) (w : Work) : Prog := get fun s =>
  if w.typ = btRead then startReadCmd id w
  else if w.typ = btTask then startTask id w
  else if w.typ = btFlush then doAll [
    modWork id fun x => { x with aux := 5, stage := 3 },
    wantPieces (s.ctl.blk.pieces.filter fun p => decide (p.vol = w.vol) &&
      (s.ctl.blk.recs.any fun r => decide (r.seq = p.seq) && decide (r.ack ≠ 0) && decide (r.ack ≤ w.res))),
    endFlushes]
  else if decide (s.needs w = 0) || s.dirtyWaiters.isEmpty && s.ctl.pair.held.isEmpty && s.dirtyFits w then gatherBlock id w
  else doAll [modWork id fun x => { x with aux := 3, stage := 3 }, inc BLKF.DIRTY_WAIT_CNT, int Pg.blkf 0 1]

/-- A command that has passed R373, with its scatter list if it has one, is held or started (R376). -/
def blockReady (id : Nat) : Prog := withWork id fun w => get fun s =>
  if s.blockHeld id w then doAll [modWork id fun x => { x with aux := 1 }, inc BLKF.HAZARD_WAIT_CNT]
  else startBlock id w

/-- A command has passed R373: its scatter list is read, if it has one. -/
def blockPassed (id : Nat) (w : Work) : Prog :=
  if w.listed then doAll [modWork id fun x => { x with aux := 7, stage := 1 }, readSgl id w 0] else blockReady id

/-- A confirmed command reaches the front-end (R373): refused, or on its way. -/
def blockArrives (id : Nat) (w : Work) : Prog := get fun s =>
  let st := s.blockCheck w
  if st ≠ ST.OK then refuseBlock id w st else blockPassed id w

/-- Act on a BLOCK command of a TYPE that is new. -/
def newBlock (id t : Nat) (k : Work → Prog) : Prog := get fun s => withWork id fun w =>
  Prog.when (decide (w.typ = t) && decide (s.ringConsumer w.ring = 3) && decide (w.aux = 0) && decide (w.stage ≠ 1)) (k w)

/-- BLOCK_READ (R371, R373, R376, R377, R20, R21): `e` is what the memory read finds. -/
def execBlockRead (id : Nat) (e : MemErr) (s : State) : Res := live 4 (newBlock id btRead fun w =>
  match e with
  | .none => blockArrives id w
  | .ce m => doAll [memCE m.val, blockArrives id w]
  | .ue m addr => get fun t => doAll [ueSeen m.val addr false,
      if t.blockCheck w ≠ ST.OK then refuseBlock id w (t.blockCheck w) else doAll [
        Prog.when (decide (4 ≤ m.val)) (doAll [inc MAP.MAP_UE_CNT, int Pg.map 0 1]),
        inc BLKF.READ_CNT, blockCpl id ST.UNCORRECTABLE 0 [] []]]) s

/-- BLOCK_WRITE (R371, R373, R376, R380). -/
def execBlockWrite (id : Nat) (s : State) : Res := live 4 (newBlock id btWrite (blockArrives id)) s

/-- BLOCK_FLUSH (R371, R373, R376). -/
def execBlockFlush (id : Nat) (s : State) : Res := live 4 (newBlock id btFlush (blockArrives id)) s

/-- ZERO (R371, R373, R376, R380). -/
def execZero (id : Nat) (s : State) : Res := live 4 (newBlock id btZero (blockArrives id)) s

/-- BLOCK_COMMAND_START (R376): a held command that nothing holds any longer starts. -/
def execBlockCommandStart (id : Nat) (s : State) : Res := live 4 (get fun s => withWork id fun w =>
  Prog.when (decide (w.aux = 1) && decide (s.ringConsumer w.ring = 3) && !s.blockHeld id w) (startBlock id w)) s

/-- The first command that waits at the limit proceeds once its data fits (R380). -/
def releaseDirty : Prog := get fun s =>
  match s.dirtyWaiters with
  | (id, w) :: _ => Prog.when (s.dirtyFits w) (gatherBlock id w)
  | [] => .skip

/-- A recorded write of a paired volume goes to the peer (R472, R476). -/
def mirrorRec (q : Nat) (w : Work) (len : Nat) : Prog := get fun s =>
  Prog.when (s.volPair w.vol && s.ownsVol w.vol && s.mirrors)
    (sendMsg clsStage (.stage ⟨q, w.vol, w.tag, w.lba, len, decide (w.typ = btZero), if w.typ = btZero then [] else w.buf⟩))

/-- STAGING_RECORD (R378, R381 to R383, R472): all data of a write is in staging; its record is written, and it is
acknowledged at the first moment that R382 allows. -/
def execStagingRecord (id : Nat) (s : State) : Res := live 4 (get fun s => withWork id fun w =>
  Prog.when (decide (w.typ ∈ [btWrite, btZero]) && decide (s.ringConsumer w.ring = 3) && decide (w.aux = 2) &&
      decide (w.reads = 0)) (
    if w.status ≠ ST.OK then blockCpl id w.status 0 [] [] else
    let v := w.vol
    let len := s.blockLen w
    let wait := s.volPair v && decide (s.pairState = prPaired)
    doAll [
      modWork id fun x => { x with aux := 4 },
      record v w.tag (some id) w.lba len (decide (w.typ = btZero)) w.placed wait none w.buf fun q => doAll [
        mirrorRec q w len,
        if w.placed then get fun t => wantPieces (t.ctl.blk.pieces.filter fun p => decide (p.seq = q))
        else Prog.when (!wait) (ackRec q (s.volPair v))],
      placeHigh])) s

/-! ## Commands of task windows (R390, R391) -/

/-- A TASK reaches its window (R373, R376, R390): refused, refused with TASK_BUSY, or in the window, and then held or run. -/
def taskArrives (id op : Nat) : Prog := newBlock id btTask fun w => get fun s =>
  let st := s.blockCheck w
  Prog.when (decide (w.taskOp = op) || decide (op = 1) && (decide (w.taskOp = 0) || decide (4 < w.taskOp))) (
    if st ≠ ST.OK then blockCpl id st 0 [] []
    else if (s.window? w.fn).isSome then doAll [inc BLKF.TASK_BUSY_CNT, blockCpl id ST.TASK_BUSY 0 [] []]
    else doAll [modBlk fun b => { b with tasks := nset 0 b.tasks w.fn (id + 1) }, blockPassed id w])

/-- VOL_INFO (R390). -/
def execVolInfo (id : Nat) (s : State) : Res := live 4 (taskArrives id 1) s

/-- ERR_READ (R386, R390). -/
def execErrRead (id : Nat) (s : State) : Res := live 4 (taskArrives id 2) s

/-- VOL_MODE (R390): MODE applies at the volume's next commit boundary, and the command completes then. -/
def execVolMode (id : Nat) (s : State) : Res := live 4 (taskArrives id 3) s

/-- SSD_ACT (R390, R392). -/
def execSsdAct (id : Nat) (s : State) : Res := live 4 (taskArrives id 4) s

/-- What a window's command still waits for is taken back: a VOL_MODE's boundary, a start that the arbiter has not decided (R391). -/
def windowLeaves (id : Nat) : Prog := doAll [
  withWork id fun w => Prog.when (decide (w.taskOp = 3)) (modVol w.vol fun x => { x with mode := none }),
  ctl fun c => { c with maint.waiting := c.maint.waiting.filter fun m =>
    !(decide (m.act ∈ [MA.SSD_SCRUB, MA.SANITISE, MA.FORMAT]) && decide (m.ref / 8 = id + 1)) }]

/-- TASK_ABORT (R391): the window's command completes with ABORTED; what it has started runs on. -/
def execTaskAbort (a : Accessor) (v : Word) (s : State) : Res := done (byWriter a Pg.blkf 0x14C (get fun s =>
  Prog.when (tbit v.toNat 0) (match s.window? (s.sel a 29 0x140 % 2048) with
    | some id => doAll [windowLeaves id, dropReads fun p => (sglPlace id p).isSome, taskDone id ST.ABORTED []]
    | none => .skip))) s

/-- A function's reset empties its window at step 7 of R143 (R391). -/
def blockReset (f : Nat) : Prog := get fun s => doAll [
  match s.window? f with
  | some id => windowLeaves id
  | none => .skip,
  modBlk fun b => { b with tasks := nset 0 b.tasks f 0 }]

/-- A mode takes effect on a volume: the committed copy and, when it is the volume pending, the pending one. -/
def setMode (v m : Nat) : Prog := get fun s => doAll [
  setCopy .committed (BLKF.VOL_CTL.of v) (setField (s.cfg (BLKF.VOL_CTL.of v)) 2 1 m),
  Prog.when (s.bit (HDR.PAGE_STATUS Pg.blkf) 0 && decide (tget 0 s.ctl.pendObj Pg.blkf = v))
    (setCopy .pending (BLKF.VOL_CTL.of v) (setField (s.copy .pending (BLKF.VOL_CTL.of v)) 2 1 m))]

/-- A volume's commit boundary with a VOL_MODE waiting (R390). -/
def applyMode (v : Nat) : Prog := get fun s =>
  match (s.vol v).mode with
  | none => .skip
  | some m => doAll [
      setMode v m, modVol v fun x => { x with mode := none },
      Prog.each (s.ctl.blk.tasks.map fun e => e.2 - 1) fun id => withWork id fun w =>
        Prog.when (decide (w.typ = btTask) && decide (w.taskOp = 3) && decide (w.vol = v)) (taskDone id ST.OK [])]

end Sys2Proof.Machine
end

