-- ==== Sys2Proof/Machine/Drives.lean ====
section
/-! DEFINITION. SSD faults (R387 to R389), sanitise, format and scrub (R392 to R395), rebuild (R397, R415, R416). -/

namespace Sys2Proof.Machine

/-! ## Non-volatile writes under the guard -/

/-- The guard (R401). -/
def State.guarded (s : State) : Bool := s.bit SUPPLY.GUARD_STATUS 0

/-- Start a non-volatile write, or let it wait under the guard (R402); once PF_STATE has left NORMAL it is abandoned. -/
def nvStart (x : NvWrite) (go : Prog) : Prog := get fun s =>
  if s.pf ≠ 0 then .skip
  else if s.guarded then doAll [inc SUPPLY.NV_BLOCK_CNT,
    ctl fun c => { c with lsio := { c.lsio with nvWait := c.lsio.nvWait ++ [x] } }]
  else go

/-- The activity of an SSD. -/
def State.act? (s : State) (i : Nat) : Option SsdAct := tget none s.ctl.blk.acts i

/-- Put an SSD's activity. -/
def setAct (i : Nat) (a : Option SsdAct) : Prog := modBlk fun b => { b with acts := nset none b.acts i a }

/-- Send the command of a SANITISE or FORMAT (R392), when the unit may write. -/
def sendAct (i : Nat) : Prog := get fun s =>
  match s.act? i with
  | some a => Prog.when (decide (a.stage = 0) && s.beWrites) (doAll [
      setAct i (some { a with stage := 1 }), if a.act = 1 then nvme i 5 a.arg 0 [] .activity else nvme i 4 0 4096 [] .activity])
  | none => .skip

/-- Write an SSD's progress record: PHASE 1 STARTED, 2 DONE, 3 FAILED (R393). It lies in the flash's sector for it; its
bytes' places are free. -/
def writeProgress (i phase : Nat) : Prog := fresh fun v => get fun s =>
  let old := (tget none s.ctl.lsio.progress i).getD ⟨0, 0, 0, 0, 0⟩
  let new : Progress := match s.act? i with
    | some a => ⟨a.act, a.arg, phase, old.seq + 1, a.pct⟩
    | none => { old with phase := phase, seq := old.seq + 1 }
  doAll [
    ctl fun c => { c with lsio := { c.lsio with progress := nset none c.lsio.progress i (some new) } },
    poke 14 0 (0x20000 + 64 * i) (leBytes 64 v),
    Prog.when (decide (phase = 1)) (sendAct i)]

/-- A progress record, under the guard. -/
def progressRecord (i phase : Nat) : Prog := nvStart (.progress i phase) (writeProgress i phase)

/-! ## Scrubs -/

/-- The chunk of a physical extent that an SSD holds (R364). -/
def State.chunkOn (s : State) (i pext : Nat) : Nat :=
  let c := s.cfg (BLKB.SSD_CFG i)
  if s.layoutOf (field c 6 3) = 2 then (field c 10 7 + 10 - pext % 10) % 10 else field c 10 7

/-- Progress of a scrub. -/
def showScrub (i : Nat) : Prog := get fun s =>
  match s.act? i with
  | some a => wrF (BLKB.SSD_STATUS i) 15 8 (if a.total = 0 then 100 else 100 * (a.total - a.todo.length) / a.total)
  | none => .skip

/-- A repair's rebuilt extent is written to the SSD (R392). -/
def repairChunk (i : Nat) (r : ExtRd) (data : List Byte) : Prog := get fun s =>
  let l := s.layoutOf r.set
  Prog.when s.beWrites (nvme i 2 (s.pextLba r.set r.pext) (layoutLbas l) (chunkOf l (s.chunkOn i r.pext) data) (.repair i))

/-- The extent that lies at a physical extent of a set is placed again, at another one (R369, R388). -/
def replaceExt (set pext : Nat) : Prog := get fun s =>
  match (s.mappedOn set).find? fun e => decide (e.2 = pext) with
  | some e => match s.volOfExt e.1 with
    | some v => modBlk fun b => { b with
        rewrite := (b.rewrite ++ [(v, e.1)]).dedup
        wanted := (b.wanted ++ [(v, (e.1 - s.volFirst v) / 4)]).dedup }
    | none => .skip
  | none => .skip

/-- What an extent read does when it ends, whoever asked (R377, R388). An extent rebuilt after a read error is placed again; a merge's
is placed anyway. A scrub's next extent is asked for by `scrubNext`, which the caller runs. -/
def extEnd (r : ExtRd) (d : Option (List Byte)) : Prog := get fun s => doAll [
  Prog.when (r.err && d.isSome && (match r.job with | .merge _ _ => false | _ => true)) (replaceExt r.set r.pext),
  match r.job with
  | .work _ _ => readEnd r d
  | .merge _ _ => mergeEnd r d
  | .verify i => match s.act? i with
    | some a => setAct i (some { a with todo := a.todo.tail, stage := if d.isNone then 4 else a.stage })
    | none => .skip
  | .repair i _ => match d with
    | some b => repairChunk i r b
    | none => match s.act? i with
      | some a => setAct i (some { a with todo := a.todo.tail, stage := 4 })
      | none => .skip
  | .resync g => match s.volOfExt g, d with
    | some v, some b => decipher none v g b fun x =>
        sendMsg clsResync (.resync g (x.map fun y => slice (layOver y (s.staged v g).1) 0 65536))
    | _, _ => sendMsg clsResync (.resync g none)]

/-- Ask for a scrub's next extent, when none is under way. -/
def scrubNext (i : Nat) : Prog := get fun s =>
  match s.act? i with
  | some a => Prog.when (decide (a.act = 3) && !(s.ctl.blk.reads.any fun r => match r.job with
      | .verify j => decide (j = i)
      | .repair j _ => decide (j = i)
      | _ => false) && !(s.ctl.blk.cmds.any fun c => decide (c.job = .repair i)))
      (doAll [showScrub i, match a.todo with
        | (k, p) :: _ => startRead k p (if a.arg = 1 then .repair i (s.chunkOn i p) else .verify i) extEnd
        | [] => .skip])
  | none => .skip

/-- The leader's copy of mapped extents goes on, one extent at a time (R476). -/
def resyncNext : Prog := get fun s =>
  Prog.when (s.ctl.pair.resyncing && !(s.ctl.blk.reads.any fun r => match r.job with | .resync _ => true | _ => false)) (
    match s.ctl.pair.resync with
    | g :: t => Prog.when (!(s.storeWaits && ((s.volOfExt g).map s.volCipher).getD false)) <| doAll [modPair fun p => { p with resync := t },
        wrF PAIR.RESYNC_STATUS 7 0 (100 * (s.ctl.pair.resyncTotal - t.length) / (s.ctl.pair.resyncTotal + 1)),
        match s.volOfExt g with
        | some v => startRead (s.volSet v) (ePext (s.entry g)) (.resync g) extEnd
        | none => .skip]
    | [] => .skip)

/-- Every scrub, and the leader's copy, go on. -/
def scrubAll : Prog := .seq (Prog.each (List.range 16) scrubNext) resyncNext

/-- Placements, reads and copies of encrypted volumes go on (R442). -/
def resumeStore : Prog := doAll [
  kickPlace, get fun s => Prog.each (s.ctl.blk.jobs.map (·.work)) goRead, resyncNext]

/-- MASK_RESEED (R442): served by the DRBG, or from the reserve; once the masks are back, what waited for them goes on. -/
def execMaskReseed (s : State) : Res := live 4 (get fun s =>
  if s.rngState = 1 then doAll [drbgRequest 32 false, wr CIPH.MASK_STATUS 128, Prog.when s.maskStopped resumeStore]
  else if s.maskStopped then .skip
  else doAll [
    Prog.when (!s.bit CIPH.MASK_STATUS 8) (doAll [wrB CIPH.MASK_STATUS 8 true, int Pg.ciph 0 4]),
    wrF CIPH.MASK_STATUS 7 0 (s.fd CIPH.MASK_STATUS 7 0 - 1),
    Prog.when (decide (s.fd CIPH.MASK_STATUS 7 0 ≤ 1)) maskStop]) s

/-! ## Faults -/

/-- A journal copy's write has ended (R385, R396): a record of which no copy could be written fails its placement; one that is durable on
one SSD alone sets JRNL_SOLO. -/
def journalEnd (q : Nat) (good : Bool) : Prog := get fun s =>
  match s.ctl.blk.jrecs.find? fun r => decide (r.seq = q) with
  | none => .skip
  | some r =>
    let left := r.left - 1
    let ok := r.good || good
    if left = 0 ∧ ok = false then doAll [
      modBlk fun b => { b with jrecs := b.jrecs.filter fun x => !decide (x.seq = q) },
      wrF MAP.JRNL_USE 23 0 (s.ctl.blk.jrecs.length - 1),
      match r.pl with
      | some id => failPlace id ST.MEDIA_ERROR
      | none => .skip]
    else doAll [
      modBlk fun b => { b with jrecs := b.jrecs.map fun x => if x.seq = q then { x with left := left, good := ok, lost := x.lost || !good } else x },
      Prog.when (decide (left = 0) && (r.lost || !good)) (int Pg.map 0 3)]

/-- A checkpoint copy's write has ended, or is lost with its SSD: the page is in the checkpoint while the other SSD still takes it
(R396). -/
def ckptEnd (q : Nat) (good : Bool) : Prog := get fun s => Prog.when (good || !s.jrnlSsds.isEmpty) (doAll [
  modBlk fun b => { b with jrecs := b.jrecs.map fun x => if x.seq = q then { x with ckLeft := x.ckLeft - 1 } else x },
  freeRecords q])

/-- An activity's command has failed. -/
def actFails (i : Nat) : Prog := get fun s =>
  match s.act? i with
  | some a => setAct i (some { a with stage := 4 })
  | none => .skip

/-- A command of an SSD that has FAILED: what waits for it goes on without that SSD (R388, R389). -/
def lostCmd (c : NCmd) : Prog := match c.job with
  | .ext rd ch => doAll [modRd rd fun r => { r with bad := r.bad ++ [ch] }, tryRead rd extEnd]
  | .place pl i _ => chunkWritten pl i
  | .journal q => journalEnd q false
  | .ckpt q => ckptEnd q false
  | .measure => modBlk fun b => { b with measuring := b.measuring - 1 }
  | _ => .skip

/-- A set has FAILED: its volumes go OFFLINE in both copies and everything staged for them becomes a deferred error
(R385, R389). -/
def failSet (k : Nat) : Prog := get fun s => doAll [
  int Pg.blkb 0 2,
  Prog.each (s.volsOn.filter fun v => decide (s.volSet v = k)) fun v => doAll [
    setMode v 2,
    Prog.when ((List.range 50).any fun c => decide (s.copy .selector ⟨29, 0x40, c⟩ = v))
      (get fun t => setCopy .staged BLKF.VOL_CTL (setField (t.copy .staged BLKF.VOL_CTL) 2 1 2)),
    Prog.each (s.ctl.blk.placings.filter fun p => decide (p.vol = v) && decide (p.stage ≠ 4)) (fun p => failPlace p.id ST.MEDIA_ERROR),
    get fun t => Prog.each (t.ctl.blk.recs.filter fun r => decide (r.vol = v)) (fun r => deferRec r.seq ST.MEDIA_ERROR)],
  endFlushes]

/-- The lowest SPARE takes a failed member's position, if no other SSD has it, and is repaired (R389). -/
def takeSpare (i : Nat) : Prog := get fun s =>
  let c := s.cfg (BLKB.SSD_CFG i)
  Prog.when (s.bit BLKB.BE_CFG 1 && decide (s.ssd i = ssdDead) && decide (s.memberAt (field c 6 3) (field c 10 7) = some i)) (
    match (List.range 16).find? fun j => decide (s.ssd j = ssdSpare) with
    | some j =>
      let cfg := setField (setField c 2 1 1) 0 0 1
      doAll [setCopy .staged (BLKB.SSD_CFG j) cfg, setCopy .committed (BLKB.SSD_CFG j) cfg, setSsd j ssdMember,
        modBlk fun b => { b with stale := fset b.stale j true },
        mstart MA.SSD_SCRUB j .register (actRef 1 0)]
    | none => .skip)

/-- Every failed member whose position is free gets a SPARE, also one that comes later (R389). -/
def spareAll : Prog := get fun s => Prog.when (s.bit BLKB.BE_CFG 1) (
  Prog.each ((List.range 16).filter fun i => decide (s.ssd i = ssdDead)) takeSpare)

/-- An SSD is declared FAILED (R387 to R389): one in use, or one under identification. -/
def failSsd (i : Nat) : Prog := get fun s =>
  Prog.when (decide (s.ssd i ∈ [ssdFree, ssdMember, ssdSpare]) || (s.ctl.blk.cmds.any fun c => decide (c.ssd = i) && decide (c.job = .identify))) (
    let k := s.cfd (BLKB.SSD_CFG i) 6 3
    let mine := fun c : NCmd => decide (c.ssd = i) && (match c.job with | .dump _ _ => false | .closing => false | _ => true)
    doAll [
      setSsd i ssdDead, int Pg.blkb 0 0, lifeAdd 21 1, actFails i,
      modBlk fun b => { b with cmds := b.cmds.filter fun c => !mine c },
      Prog.when (decide (s.ssd i = ssdMember)) (doAll [
        get fun t => if t.setState k = 2 then int Pg.blkb 0 1 else Prog.when (decide (t.setState k = 3)) (failSet k),
        takeSpare i]),
      Prog.each (s.ctl.blk.cmds.filter mine) lostCmd,
      scrubAll, kickPlace])

/-- An SSD reports that a command failed (R388). A data write or closing block of a dump that failed never counts as done. A journal or
checkpoint write is made once more, unless the supply has failed (R409). A repair's extent goes to another physical extent. -/
def badCmd (c : NCmd) : Prog := get fun s => match c.job with
  | .ext rd ch => doAll [inc (BLKB.SSD_MEDIA_ERR_CNT c.ssd),
      modRd rd fun r => { r with bad := r.bad ++ [ch], err := true }, tryRead rd extEnd, scrubAll]
  | .place pl i _ => doAll [inc (BLKB.SSD_MEDIA_ERR_CNT c.ssd),
      match s.placing? pl with
      | some p => match p.exts[i]? with
        | some e =>
          if e.tries < 3 then doAll [
            modBlk fun b => { b with cmds := b.cmds.filter fun x => match x.job with
              | .place a j _ => !(decide (a = pl) && decide (j = i))
              | _ => true },
            modPlExt pl i fun x => { x with tries := x.tries + 1 }, placeExt pl i]
          else doAll [failSsd c.ssd, chunkWritten pl i]
        | none => .skip
      | none => .skip]
  | .journal q => doAll [inc (BLKB.SSD_MEDIA_ERR_CNT c.ssd), Prog.when (decide (s.pf = 0)) (
      if c.again then doAll [failSsd c.ssd, journalEnd q false] else doAll [
        modBlk fun b => { b with cmds := b.cmds ++ [{ c with again := true }] }, c.send])]
  | .ckpt q => doAll [inc (BLKB.SSD_MEDIA_ERR_CNT c.ssd), Prog.when (decide (s.pf = 0)) (
      if c.again then doAll [failSsd c.ssd, ckptEnd q false] else doAll [
        modBlk fun b => { b with cmds := b.cmds ++ [{ c with again := true }] }, c.send])]
  | .repair i => doAll [inc (BLKB.SSD_MEDIA_ERR_CNT c.ssd), match s.act? i with
      | some a => doAll [setAct i (some { a with todo := a.todo.tail }), match a.todo with
          | (k, p) :: _ => replaceExt k p
          | [] => .skip]
      | none => .skip]
  | .activity => actFails c.ssd
  | .follow => actFails c.ssd
  | .dump _ false => modBlk fun b => { b with cmds := b.cmds ++ [c] }
  | .closing => modBlk fun b => { b with cmds := b.cmds ++ [c] }
  | .measure => modBlk fun b => { b with measuring := b.measuring - 1 }
  | _ => .skip

/-- An NVMe command has done its work. -/
def goodCmd (c : NCmd) (data : List Byte) : Prog := get fun s => match c.job with
  | .ext rd ch => doAll [modRd rd fun r => { r with got := r.got ++ [(ch, slice data 0 (4096 * c.n))] }, tryRead rd extEnd]
  | .place pl i _ => chunkWritten pl i
  | .journal q => journalEnd q true
  | .ckpt q => ckptEnd q true
  | .repair i => match s.act? i with
    | some a => setAct i (some { a with todo := a.todo.tail })
    | none => .skip
  | .activity => match s.act? c.ssd with
    | some a => Prog.when (decide (a.act = 2)) (doAll [setAct c.ssd (some { a with stage := 2 }),
        nvme c.ssd 2 0 1 (slice (Config.layout 4 [c.ssd]) 0 4096) .follow])
    | none => .skip
  | .follow => match s.act? c.ssd with
    | some a => setAct c.ssd (some { a with stage := 3 })
    | none => .skip
  | .dump k true => modBlk fun b => { b with dump := b.dump.map fun d => if k = d.next then { d with records := d.records + 1 } else d }
  | .measure => modBlk fun b => { b with measuring := b.measuring - 1 }
  | _ => .skip

/-- Whether an SSD's DMA address lies in the staging region (R362, R380). -/
def State.inStaging (s : State) (a : Nat) : Bool :=
  decide (s.stageBase ≤ a) && decide (a < s.stageBase + (s.dirtyMiB + 128) * 1048576)

/-- NVME_COMPLETION (R361, R362, R388): a command completes, with its data if it read some; `dma` are the addresses the SSD
reached for, of which those outside staging have been answered with Unsupported Request. -/
def execNvmeCompletion (id : Nat) (st : NvStatus) (data : List Byte) (dma : List Nat) (s : State) : Res := board (get fun s =>
  match s.ctl.blk.cmds.find? fun c => decide (c.id = id) with
  | none => .skip
  | some c => doAll [
      incBy BLKB.INBOUND_DENY_CNT (dma.filter fun a => !s.inStaging a).length,
      Prog.each (dma.filter fun a => !s.inStaging a) fun a => emit (.ssdRefused c.ssd a),
      dropCmd id, peep 7 1 c.ssd,
      match st with
      | .ok => goodCmd c data
      | _ => badCmd c,
      deallocNext, scrubAll, kickPlace]) s

/-- NVME_TIMEOUT (R387): the command's Abort is sent. -/
def execNvmeTimeout (id : Nat) (s : State) : Res := board (get fun s =>
  match s.ctl.blk.cmds.find? fun c => decide (c.id = id) with
  | none => .skip
  | some c => Prog.when (!c.aborting) (doAll [
      modBlk fun b => { b with cmds := b.cmds.map fun x => if x.id = id then { x with aborting := true } else x },
      sendNvme c.ssd 7 id 0 [], inc (BLKB.SSD_TIMEOUT_CNT c.ssd), int Pg.blkb 0 3, peep 7 2 c.ssd])) s

/-- CONTROLLER_RESET (R387): a command outlived its Abort by 1 s; `ok` says whether the controller came back. -/
def execControllerReset (i : Fin 16) (ok : Bool) (s : State) : Res := board (get fun s =>
  Prog.when (s.ctl.blk.cmds.any fun c => decide (c.ssd = i.val) && c.aborting) (
    let now := s.ctl.health.sysSec
    let times := ((tget [] s.ctl.blk.resets i.val).filter fun t => decide (now ≤ t + 60)) ++ [now]
    let mine := s.ctl.blk.cmds.filter fun c => decide (c.ssd = i.val)
    doAll [
      sendNvme i.val 8 0 0 [],
      modBlk fun b => { b with resets := nset [] b.resets i.val times },
      if ok = false ∨ 3 ≤ times.length then failSsd i.val else doAll [
        modBlk fun b => { b with cmds := (b.cmds.filter fun c => !(decide (c.ssd = i.val) && c.again)).map fun c =>
          if c.ssd = i.val then { c with aborting := false, again := true } else c },
        Prog.each (mine.filter fun c => !c.again) NCmd.send,
        Prog.each (mine.filter fun c => c.again) badCmd]])) s

/-- SSD_LINK_DOWN (R363, R387, R395): an SSD in use or under identification is declared FAILED; an activity of one that is absent
fails. -/
def execSsdLinkDown (i : Fin 16) (s : State) : Res := board (doAll [wrB (BLKB.SSD_STATUS i.val) 3 false, failSsd i.val, actFails i.val]) s

/-- SSD_CRITICAL_WARNING (R387). -/
def execSsdCriticalWarning (i : Fin 16) (s : State) : Res := board (failSsd i.val) s

/-- SSD_LINK_UP (R363, R395, R399): an enabled ABSENT SSD is identified, and one whose activity resumes. -/
def execSsdLinkUp (i : Fin 16) (s : State) : Res := board (get fun s =>
  Prog.when (s.ssdEn i.val || (s.act? i.val).isSome) (doAll [wrB (BLKB.SSD_STATUS i.val) 3 true,
    Prog.when ((decide (s.ssd i.val = ssdAbsent) || !s.ssdEn i.val) &&
        !(s.ctl.blk.cmds.any fun c => decide (c.ssd = i.val) && decide (c.job = .identify))) (nvme i.val 0 0 0 [] .identify)])) s

/-- The state of an identified SSD by its ROLE (R363, R399). -/
def roleState (role : Nat) : Nat := if role = 1 then ssdMember else if role = 2 then ssdSpare else ssdFree

/-- SSD_IDENTIFY (R361, R363): whether the namespace offers 4,096-byte LBAs and the SSD supports FUA, and its LBAs. The number of queues,
16, is asked for with Set Features and read back; when these go out the spec leaves open (DESIGN CHOICE, log entry 155). -/
def execSsdIdentify (i : Fin 16) (ok : Bool) (lbas : Nat) (s : State) : Res := board (get fun s =>
  Prog.when (s.ctl.blk.cmds.any fun c => decide (c.ssd = i.val) && decide (c.job = .identify)) (doAll [
    modBlk fun b => { b with cmds := b.cmds.filter fun c => !(decide (c.ssd = i.val) && decide (c.job = .identify)) },
    if ok then doAll [modBlk fun b => { b with caps := nset 0 b.caps i.val lbas },
      sendNvme i.val 9 7 16 [], sendNvme i.val 10 7 0 [],
      Prog.when (s.ssdEn i.val) (setSsd i.val (roleState (s.cfd (BLKB.SSD_CFG i.val) 2 1))), kickPlace]
    else doAll [setSsd i.val ssdDead, wrF (BLKB.SSD_STATUS i.val) 31 16 ST.BAD_FIELD, int Pg.blkb 0 0, lifeAdd 21 1, actFails i.val]])) s

/-- A BLKB commit takes effect on the SSDs (R363): `old` are the SSDs' words before it. Only SSDs whose word has changed are touched. -/
def drivesCommitted (old : List Nat) : Prog := Prog.each (old.zipIdx) fun e => get fun s =>
  let c := s.cfg (BLKB.SSD_CFG e.2)
  if tbit e.1 0 ∧ !tbit c 0 then doAll [setSsd e.2 ssdDisabled, wrB (BLKB.SSD_STATUS e.2) 3 false, actFails e.2,
    modBlk fun b => { b with cmds := b.cmds.filter fun x => !decide (x.ssd = e.2), stale := fset b.stale e.2 false }]
  else if !tbit e.1 0 ∧ tbit c 0 then setSsd e.2 ssdAbsent
  else Prog.when (tbit c 0 && decide (s.ssd e.2 ∈ [ssdFree, ssdMember, ssdSpare])) (setSsd e.2 (roleState (field c 2 1)))

/-! ## Activities -/

/-- The arbiter accepts an SSD's activity of OP (R392, R393); `ref` as `actRef` gives it. -/
def ssdActAccepted (op i ref : Nat) : Prog := get fun s =>
  let k := s.cfd (BLKB.SSD_CFG i) 6 3
  let todo := if op = 3 then
      ((if ref % 8 = 1 then s.pextsUsed k else (s.mappedOn k).map (·.2)).dedup).map fun p => (k, p)
    else []
  doAll [
    setAct i (some ⟨op, ref % 8, 0, 0, todo, todo.length⟩),
    wrF (BLKB.SSD_STATUS i) 15 4 op, wrF (BLKB.SSD_STATUS i) 31 16 ST.OK,
    if op = 3 then scrubNext i else progressRecord i 1,
    Prog.when (decide (8 ≤ ref)) (taskDone (ref / 8 - 1) ST.OK [])]

/-- The arbiter refuses it (R392). -/
def ssdActRefused (i ref : Nat) : Prog :=
  if ref < 8 then wrF (BLKB.SSD_STATUS i) 31 16 ST.CONFLICT else taskDone (ref / 8 - 1) ST.CONFLICT []

/-- A write of SSDs_CMD with GO and an OP (R392). -/
def ssdCmd (a : Accessor) (i op : Nat) (v : Word) : Prog := byWriter a Pg.blkb (0x10C + 32 * i) (get fun s => doAll [
  wr (BLKB.SSD_CMD i) (v.toNat % 2 ^ 31),
  Prog.when (tbit v.toNat 31 && decide (field v.toNat 1 0 = op)) (
    if !s.suits i op then wrF (BLKB.SSD_STATUS i) 31 16 ST.BAD_FIELD
    else mstart (ssdActivity op) i .register (actRef (field v.toNat 10 8) 0))])

/-- SANITISE (R392). -/
def execSanitise (a : Accessor) (i : Fin 16) (v : Word) (s : State) : Res := done (ssdCmd a i.val 1 v) s

/-- FORMAT (R392). -/
def execFormat (a : Accessor) (i : Fin 16) (v : Word) (s : State) : Res := done (ssdCmd a i.val 2 v) s

/-- SSD_SCRUB (R392). -/
def execSsdScrub (a : Accessor) (i : Fin 16) (v : Word) (s : State) : Res := done (ssdCmd a i.val 3 v) s

/-- SANITIZE_POLL (R393 to R395, R440): each second the SSD's log is read; each 10 % makes a progress record; at its end the
verify begins, on 256 LBAs of the namespace that the entropy source chooses: once the SSD's identification has told their number, and
once the source serves; a source that has FAILED ends the activity. -/
def execSanitizePoll (i : Fin 16) (r : SanReport) (s : State) : Res := board (get fun s =>
  match s.act? i.val with
  | none => .skip
  | some a => Prog.when (decide (a.act = 1) && decide (a.stage = 1)) (doAll [
      sendNvme i.val 6 0 0 [],
      match r with
      | .running p => doAll [
          setAct i.val (some { a with pct := min 100 p }), wrF (BLKB.SSD_STATUS i.val) 15 8 (min 100 p),
          Prog.when (decide (a.pct / 10 < min 100 p / 10)) (progressRecord i.val 1)]
      | .completed =>
        let lbas := tget 0 s.ctl.blk.caps i.val
        if s.rngState = 2 then setAct i.val (some { a with stage := 2, pct := 100 })
        else Prog.when (decide (s.rngState = 1) && decide (0 < lbas)) (doAll [
          setAct i.val (some { a with stage := 2, pct := 100 }), wrF (BLKB.SSD_STATUS i.val) 15 8 100,
          Prog.each (List.range 256) fun _ => fresh fun n => sendNvme i.val 1 (n % lbas) 1 []])
      | .none => Prog.when s.beWrites (nvme i.val 5 a.arg 0 [] .activity)])) s

/-- Whether one verify read shows a sanitised block (R394). -/
def sanitised (action : Nat) (r : Option (List Byte)) : Bool :=
  match r with
  | none => decide (action ≠ 3)
  | some b =>
    if action = 3 then decide (b = slice ((List.range 1024).flatMap fun _ => slice Config.overwrite 0 4) 0 4096)
    else decide (b = List.replicate 4096 0)

/-- The end of an SSD's activity with a STATUS (R393, R394). -/
def endAct (i : Nat) (a : SsdAct) (st : Nat) : Prog := doAll [
  Prog.when (decide (a.act ≠ 3)) (progressRecord i (if st = ST.OK then 2 else 3)),
  setAct i none, wrF (BLKB.SSD_STATUS i) 5 4 0, wrF (BLKB.SSD_STATUS i) 31 16 st,
  Prog.when (decide (a.act = 3) && decide (a.arg = 1) && decide (st = ST.OK))
    (modBlk fun b => { b with stale := fset b.stale i false }),
  int Pg.blkb 0 4, mend (ssdActivity a.act) i]

/-- SSD_ACTIVITY_END (R394): `failed` is the SSD's own report, `reads` what the verify of a sanitise found, none for a
deallocated block. -/
def execSsdActivityEnd (i : Fin 16) (failed : Bool) (reads : List (Option (List Byte))) (s : State) : Res := board (get fun s =>
  match s.act? i.val with
  | none => .skip
  | some a =>
    if failed || decide (a.stage = 4) then endAct i.val a ST.MEDIA_ERROR
    else if a.act = 1 then Prog.when (decide (a.stage = 2)) (
      if s.rngState = 2 then endAct i.val a ST.ENTROPY_FAILED
      else Prog.when (decide (reads.length = 256))
        (endAct i.val a (if reads.all (sanitised a.arg) then ST.OK else ST.MEDIA_ERROR)))
    else if a.act = 2 then Prog.when (decide (a.stage = 3)) (endAct i.val a ST.OK)
    else Prog.when a.todo.isEmpty (endAct i.val a ST.OK)) s

/-- At power-up the STARTED records resume before any other start (R95, R395, R417). -/
def resumeActs : Prog := get fun s => Prog.each (s.ctl.lsio.progress) fun e =>
  match e.2 with
  | some p => Prog.when (decide (p.phase = 1)) (doAll [
      ctl fun c => { c with maint.running := c.maint.running ++ [⟨ssdActivity p.act, e.1, .register, 0, 0⟩] }, showRunning,
      setAct e.1 (some ⟨p.act, p.action, if p.act = 1 then 1 else 0, p.pct, [], 0⟩),
      wrF (BLKB.SSD_STATUS e.1) 5 4 p.act,
      Prog.when (decide (p.act = 2)) (sendAct e.1)])
  | none => .skip

/-! ## Rebuild -/

/-- REBUILD (R397, R400): GO asks the arbiter; `d` is what the SSDs hold. -/
def execRebuild (a : Accessor) (v : Word) (d : RebuildData) (s : State) : Res := done (byWriter a Pg.map 0x70 (get fun s =>
  Prog.when (tbit v.toNat 0) (doAll [
    Prog.when (!s.bit MAP.REBUILD_STATUS 8) (modBlk fun b => { b with rebuild := some d }),
    mstart MA.MAP_REBUILD 0xFF .register 0]))) s

/-- A REBUILD ends (R397). -/
def endRebuild (st : Nat) : Prog := doAll [
  modBlk fun b => { b with rebuild := none, restored := [] },
  wrB MAP.REBUILD_STATUS 8 false, wrF MAP.REBUILD_STATUS 31 16 st, mend MA.MAP_REBUILD 0xFF]

/-- One record of a dump is put back in staging, or dropped (R415, R416). -/
def restoreRec (m : StageMsg) : Prog := get fun s =>
  if !s.volEn m.vol || decide (s.volExts m.vol * 65536 < m.lba * s.volBs m.vol + m.len) then inc SUPPLY.DUMP_ORPHAN_CNT
  else record m.vol m.tag none m.lba m.len m.zero false false none m.data fun q => doAll [
    get fun t => modRec q fun r => { r with ack := t.ctl.blk.acks + 1 },
    modBlk fun b => { b with acks := b.acks + 1, restored := b.restored ++ [q] }]

/-- The batches of a dump that a REBUILD restores (R415): those before the first that is not good, of a dump newer than the marker. -/
def RebuildData.good (d : RebuildData) : List (List StageMsg) :=
  if d.marker < d.dumpId then (d.batches.takeWhile (·.1)).map (·.2) else []

/-- Insert a journal record where its sequence number belongs. -/
def intoSeq (r : Nat × List (Nat × Nat)) : List (Nat × List (Nat × Nat)) → List (Nat × List (Nat × Nat))
  | [] => [r]
  | x :: t => if r.1 < x.1 then r :: x :: t else x :: intoSeq r t

/-- The arbiter accepts MAP_REBUILD (R397, R415): checkpoint, journal in sequence order, dump. -/
def rebuildAccepted : Prog := get fun s =>
  match s.ctl.blk.rebuild with
  | none => mend MA.MAP_REBUILD 0xFF
  | some d =>
    if !d.readable then endRebuild ST.MEDIA_ERROR
    else if !d.ddrOk then endRebuild ST.UNCORRECTABLE
    else
      let newer := decide (d.marker < d.dumpId)
      doAll [
        wr MAP.REBUILD_STATUS 256,
        Prog.each (s.usedEntries 2 0 (s.mapAddr 0) (8 * 2 ^ s.mapLog) 8) (fun g => setEntry g 0),
        ctl fun c => { c with health.poison := c.health.poison.filter fun e =>
          !(decide (memKey 2 0 (s.mapAddr 0) ≤ e.1) && decide (e.1 < memKey 2 0 (s.mapAddr 0) + 8 * 2 ^ s.mapLog)) },
        Prog.each d.ckpt (fun e => setEntry e.1 e.2),
        Prog.each (d.journal.foldl (fun l r => intoSeq r l) []) (fun r => doAll [Prog.each r.2 (fun e => setEntry e.1 e.2), wrW MAP.JRNL_SEQ r.1]),
        modBlk fun b => { b with lastDump := max b.lastDump (max d.dumpId d.marker), unrestored := newer },
        Prog.each d.good.flatten restoreRec,
        wrF MAP.REBUILD_STATUS 7 0 99,
        get fun t => wantPieces t.ctl.blk.pieces]

/-- The arbiter refuses MAP_REBUILD. -/
def rebuildRefused : Prog := get fun s => doAll [
  wrF MAP.REBUILD_STATUS 31 16 ST.CONFLICT,
  Prog.when (!s.bit MAP.REBUILD_STATUS 8) (modBlk fun b => { b with rebuild := none })]

/-- What LAST_DUMP_STATUS reports of a restore (R415, R418). -/
def dumpStatus (d : RebuildData) : Prog := Prog.when (decide (d.marker < d.dumpId)) (
  wr SUPPLY.LAST_DUMP_STATUS ((if d.good.length = d.batches.length then 1 else 2) + 256 * (d.good.length % 256) + 65536 * (d.dumpId % 65536)))

/-- REBUILD_DONE (R397, R415): the placement of what was restored is durable; the outcome shows, the marker is written at the start of the
dump areas, of each SSD in DUMP_MASK, and the volumes come online. -/
def execRebuildDone (s : State) : Res := board (get fun s =>
  Prog.when (s.bit MAP.REBUILD_STATUS 8 && s.ctl.blk.rebuild.isSome && s.ctl.blk.restored.isEmpty && decide (s.pf = 0)) (doAll [
    match s.ctl.blk.rebuild with
    | some d => dumpStatus d
    | none => .skip,
    Prog.when s.ctl.blk.unrestored (Prog.each ((List.range 16).filter fun i => s.bit SUPPLY.DUMP_MASK i) fun i =>
      nvme i 2 (s.rdW SUPPLY.DUMP_LBA % 2 ^ 48) 1 (slice (Config.layout 5 [s.ctl.blk.lastDump]) 0 4096) .dealloc),
    modBlk fun b => { b with rebuilt := true, unrestored := false },
    endRebuild ST.OK, wrF MAP.REBUILD_STATUS 7 0 100, int Pg.map 0 2])) s

end Sys2Proof.Machine
end

