-- ==== Sys2Proof/Machine/Parse.lean ====
section
/-! DEFINITION. The parser and the classification key (R214 to R228). -/

namespace Sys2Proof.Machine

/-- A parse record when parsing starts (R215). -/
def ParseRec.start (prof : Nat) : ParseRec := ⟨List.replicate 64 0, [], 0, 0, 0, prof, none, none, none, 0, 0, false⟩

/-- Stake `n` of a pipeline's committed graph (R216). -/
def State.stake (s : State) (pipe n : Nat) : List Byte := s.bytes 4 pipe (128 * n) 128

/-- A frame byte as the parser reads it: 0 at offset 512 and beyond, and beyond the frame's end (R220). -/
def parseByte (f : List Byte) (o : Nat) : Byte := if o < 512 then byteAt f o else 0

/-- Length of the header at `h` by a stake's LEN rule (R217). -/
def stakeLen (st f : List Byte) (h : Nat) : Nat :=
  let w := leAt st 4 4
  field w 7 0 + (parseByte f (h + field w 15 8)).toNat / 2 ^ field w 18 16 % 2 ^ min 8 (field w 22 19) * 2 ^ field w 24 23

/-- The extractions of a stake (R220). -/
def extract (st f : List Byte) (h : Nat) (fv : List Byte) : List Byte :=
  (List.range 4).foldl (fun v k =>
    let e := leAt st (16 + 4 * k) 4
    let n := min 16 (field e 18 14)
    (splice v (field e 13 8) ((List.range n).map fun i => parseByte f (h + field e 7 0 + i))).take 64) fv

/-- The next stake (R219): the first enabled transition that matches, then an enabled default. -/
def nextStake (st f : List Byte) (h : Nat) : Option Nat :=
  let sel := leAt st 8 4
  let b := parseByte f (h + field sel 7 0)
  let v := if tbit sel 8 then b.toNat * 256 + (parseByte f (h + field sel 7 0 + 1)).toNat else b.toNat
  let hit := (List.range 8).find? fun k =>
    let m := leAt st (34 + 6 * k) 2
    tbit (leAt st (36 + 6 * k) 2) 15 && decide (v &&& m = leAt st (32 + 6 * k) 2 &&& m)
  match hit with
  | some k => some (field (leAt st (36 + 6 * k) 2) 9 0)
  | none => if tbit (leAt st 80 2) 15 then some (field (leAt st 80 2) 9 0) else none

/-- The checksum and PTP rule of a visited stake (R221). -/
def stakeMarks (ctl h : Nat) (r : ParseRec) : ParseRec :=
  let cs := field ctl 12 10
  let l3 := if (cs = 1 ∨ cs = 2) ∧ r.l3 = none then some (h, decide (cs = 2)) else r.l3
  let l4 := if (cs = 3 ∨ cs = 4) ∧ r.l3 ≠ none ∧ r.l4 = none then some (h, decide (cs = 4)) else r.l4
  { r with l3 := l3, l4 := l4, ptp := if tbit ctl 13 ∧ r.ptp = none then some h else r.ptp }

/-- One visit of the walk (R218): the record after it, and the header offset and stake to go on with. -/
def visit (s : State) (pipe : Nat) (f : List Byte) (maxTags maxTun : Nat) (h n : Nat) (r : ParseRec) :
    ParseRec × Option (Nat × Nat) :=
  let st := s.stake pipe n
  let ctl := leAt st 0 4
  let r1 := if tbit ctl 9 then { r with tags := r.tags + 1 } else r
  if tbit ctl 9 ∧ maxTags < r1.tags then ({ r1 with pstatus := 0x08 }, none) else
  let r2 := if tbit ctl 8 then { r1 with tunnels := r1.tunnels + 1 } else r1
  if tbit ctl 8 ∧ maxTun < r2.tunnels then ({ r2 with pstatus := 0x10 }, none) else
  let len := stakeLen st f h
  if len = 0 then ({ r2 with pstatus := 0x40 }, none)
  else if 512 < h + len then ({ r2 with pstatus := 0x01 }, none)
  else if f.length < h + len then ({ r2 with pstatus := 0x02 }, none)
  else
    let slot := field ctl 5 2
    let r3 := if tbit ctl 6 && (tbit ctl 7 || decide ((r2.slots.find? fun e => decide (e.1 = slot)) = none)) then
      { r2 with slots := tins natLt slot h (tdel r2.slots slot) } else r2
    let r4 := stakeMarks ctl h { r3 with fv := extract st f h r3.fv, flags := r3.flags ||| leAt st 12 4 }
    let r5 := { r4 with prof := if tbit ctl 14 then field ctl 18 15 else r4.prof, payload := h + len }
    if tbit ctl 1 then (r5, none)
    else match nextStake st f h with
      | none => ({ r5 with pstatus := 0x20 }, none)
      | some m => (r5, some (h + len, m))

/-- The walk (R218); `fuel` is the visits left. A poisoned stake ends it (R486). -/
def walk (s : State) (pipe : Nat) (f : List Byte) (maxTags maxTun : Nat) : Nat → Nat → Nat → ParseRec → ParseRec
  | fuel, h, n, r =>
    if s.poisoned 4 pipe (128 * n) 128 then { r with bad := true } else
    if !tbit (leAt (s.stake pipe n) 0 4) 0 then { r with pstatus := 0x20 } else
    match fuel with
    | 0 => { r with pstatus := 0x04 }
    | k + 1 =>
      match visit s pipe f maxTags maxTun h n r with
      | (r', none) => r'
      | (r', some (h', n')) => walk s pipe f maxTags maxTun k h' n' r'

/-- The parse of a frame of a source kind on a pipeline (R214, R218). -/
def State.parse (s : State) (pipe kind : Nat) (f : List Byte) : ParseRec :=
  let lim := s.cfg (PARSE.LIMITS.of pipe)
  let start := if kind = 0 then s.cfd (PARSE.START.of pipe) 9 0 else if kind = 1 then s.cfd (PARSE.START.of pipe) 25 16
    else s.cfd (PARSE.START_RECIRC.of pipe) 9 0
  walk s pipe f (min 8 (field lim 3 0)) (min 4 (field lim 6 4)) (max 1 (min 32 (field lim 13 8))) 0 start
    (ParseRec.start (s.cfd (PARSE.START_RECIRC.of pipe) 19 16))

/-- The 48-byte classification key (R227, R228). -/
def State.classKey (s : State) (pipe kind src inCls steer : Nat) (r : ParseRec) : List Byte :=
  let sel := (List.range 32).map fun j =>
    let v := field (s.cfg ((CLASS.KPROF_SEL r.prof (j / 4)).of pipe)) (8 * (j % 4) + 6) (8 * (j % 4))
    if v < 64 then byteAt r.fv v else 0
  beBytes 2 (src % 2048) ++ beBytes 1 (kind + (if kind = 0 then inCls * 16 else 0)) ++
    beBytes 1 (if kind = 0 then steer else 0) ++ beBytes 4 r.flags ++ beBytes 1 r.pstatus ++
    beBytes 1 (r.tags + 16 * r.tunnels) ++ beBytes 1 r.prof ++ [0] ++ sel ++ beBytes 2 r.payload ++ [0, 0]

/-- Counters of a parsed frame, at its confirmation (R242). -/
def parseCount (pipe : Nat) (r : ParseRec) : Prog := doAll [
  inc (PARSE.FRAMES_CNT.of pipe),
  Prog.when (decide (r.pstatus = 1)) (inc (PARSE.DEPTH_CNT.of pipe)),
  Prog.when (decide (r.pstatus = 2)) (inc (PARSE.SHORT_CNT.of pipe)),
  Prog.when (decide (r.pstatus = 4)) (inc (PARSE.VISIT_CNT.of pipe)),
  Prog.when (decide (r.pstatus = 8)) (inc (PARSE.TAG_CNT.of pipe)),
  Prog.when (decide (r.pstatus = 16)) (inc (PARSE.TUNNEL_CNT.of pipe)),
  Prog.when (decide (r.pstatus = 32)) (inc (PARSE.UNKNOWN_CNT.of pipe)),
  Prog.when (decide (r.pstatus = 64)) (inc (PARSE.LEN_CNT.of pipe)),
  Prog.when (decide (r.pstatus ≠ 0)) (int Pg.parse pipe 0)]

end Sys2Proof.Machine
end

