-- ==== Sys2Proof/Machine/Classify.lean ====
section
/-! DEFINITION. The classifier and the forwarding lookup (R228 to R239, R244 to R252, R263 to R267): pure searches of the
committed tables, whose visible effects wait for the frame's confirmation. -/

namespace Sys2Proof.Machine

/-! ## Rules and actions -/

/-- Bytewise AND. -/
def andBytes (a b : List Byte) : List Byte := a.zipWith (· &&& ·) b

/-- Range comparator `n` of a pipeline on a key (R231). KEY_OFF/2 of 24 to 31 names bytes that the key does not have: DESIGN CHOICE, they
read 0 (log entry 145). -/
def State.comparator (s : State) (pipe n : Nat) (key : List Byte) : Bool :=
  let e := s.bytes 6 pipe (8 * n) 8
  let c := leAt e 4 1
  let v := beAt key (2 * field c 5 1) 2
  tbit c 7 && ((decide (leAt e 0 2 ≤ v) && decide (v ≤ leAt e 2 2)) != tbit c 6)

/-- Whether rule `n` of a pipeline matches a key (R229, R230). -/
def State.ruleMatches (s : State) (pipe n : Nat) (key : List Byte) : Bool :=
  let e := s.bytes 5 pipe (128 * n) 128
  let rg := leAt e 96 4
  let m := slice e 48 48
  tbit (leAt e 100 4) 0 && decide (andBytes key m = andBytes (slice e 0 48) m) &&
    (!tbit rg 10 || s.comparator pipe (field rg 9 0) key) && (!tbit rg 26 || s.comparator pipe (field rg 25 16) key)

/-- The default action of a source kind (R232). -/
def State.defaultAct (s : State) (pipe kind : Nat) : List Byte :=
  (List.range 6).flatMap fun j => leBytes 4 (s.cfg ((CLASS.DEFAULT_ACT_W kind j).of pipe))

/-- The rules of a pipeline that hold anything, in ascending index. -/
def State.rulesUsed (s : State) (pipe : Nat) : List Nat := s.usedEntries 5 pipe 0 (65536 * 128) 128

/-- The lowest matching rule for a key (R230). -/
def State.ruleHit (s : State) (pipe : Nat) (key : List Byte) : Option Nat :=
  if s.cbit (CLASS.CLASS_CTL.of pipe) 0 then (s.rulesUsed pipe).find? fun n => s.ruleMatches pipe n key else none

/-- The action for a key: that of the lowest matching rule, or the default of the source kind; and whether the default
applied (R230). -/
def State.actionFor (s : State) (pipe kind : Nat) (key : List Byte) : List Byte × Bool :=
  match s.ruleHit pipe key with
  | some n => (s.bytes 5 pipe (128 * n + 104) 24, false)
  | none => (s.defaultAct pipe kind, true)

/-- Whether an index is among those that an ascending search reads which ends at `hit`, or finds nothing. -/
def reads (hit : Option Nat) (n : Nat) : Bool := match hit with
  | some h => decide (n ≤ h)
  | none => true

/-- Whether the classification of a key reads a poisoned rule or comparator (R486): rules are read in ascending index down to the one
that matches. -/
def State.rulesBad (s : State) (pipe : Nat) (key : List Byte) : Bool :=
  let hit := s.ruleHit pipe key
  let cmps := s.badItems 6 pipe 0 8192 8
  s.cbit (CLASS.CLASS_CTL.of pipe) 0 && ((s.badItems 5 pipe 0 (65536 * 128) 128).any (reads hit) ||
    !cmps.isEmpty && (s.rulesUsed pipe).any fun n =>
      let rg := leAt (s.bytes 5 pipe (128 * n) 128) 96 4
      reads hit n && ((tbit rg 10 && decide (field rg 9 0 ∈ cmps)) || (tbit rg 26 && decide (field rg 25 16 ∈ cmps))))

/-! Fields of an action (R232). -/
def actVerdict (a : List Byte) : Nat := leAt a 0 1 % 8
def actFlag (a : List Byte) (i : Nat) : Bool := tbit (leAt a 1 1) i
def actTarget (a : List Byte) : Nat := leAt a 4 2
def actCopyCtrl : Nat := 0
def actMirror : Nat := 1
def actPolice : Nat := 2
def actSa : Nat := 3
def actClassSet : Nat := 4
def actHash : Nat := 5
def actNoCut : Nat := 6
def actCount : Nat := 7

/-! ## Hashing and indirection -/

/-- The key bytes a hash profile takes (R238). -/
def State.hashInput (s : State) (pipe h : Nat) (key : List Byte) : List Byte :=
  let mask := s.cfgW ((CLASS.HPROF_MASK h).of pipe)
  ((List.range 48).filter fun i => tbit mask i).map (byteAt key)

/-- Toeplitz hash with a 52-byte key read as one number, most significant byte first (R238). -/
def toeplitz (key : Nat) (inp : List Byte) : Nat :=
  (List.range (8 * inp.length)).foldl (fun acc b =>
    if (byteAt inp (b / 8)).getLsbD (7 - b % 8) then acc ^^^ (key / 2 ^ (416 - 32 - b) % 2 ^ 32) else acc) 0

/-- Hash of a frame (R238); 0 without HASH_EN. -/
def State.frameHash (s : State) (pipe : Nat) (act key : List Byte) : Nat :=
  if !actFlag act actHash then 0 else
  let h := leAt act 10 1 % 16
  let inp := s.hashInput pipe h key
  if s.cbit ((CLASS.HPROF_CTL h).of pipe) 0 then crc32c inp
  else toeplitz ((List.range 13).foldl (fun a j => a * 2 ^ 32 + s.cfg ((CLASS.HPROF_KEY h j).of pipe)) 0) inp

/-- Committed indirection entry of a pipeline (R239, R240). -/
def State.indir (s : State) (pipe t e : Nat) : Nat := tget 0 s.ctl.net.indir ((pipe * 128 + t) * 256 + e)

/-! ## The tables -/

/-- Bits [18:16] of a result word: its KIND (R247). -/
def resKind (r : Nat) : Nat := field r 18 16

/-- Lookup profile fields (R244). -/
def State.lprof (s : State) (pipe p : Nat) : Nat := s.cfg ((FWD.LPROF_CTL p).of pipe)

/-- The exact-match search (R248): index of the hit. -/
def State.emSearch (s : State) (pipe p : Nat) (key : List Byte) : Option Nat :=
  let mask := s.cfg ((FWD.LPROF_EM_MASK p).of pipe)
  let want := (List.range 32).map fun j => if tbit mask j then byteAt key (12 + j) else 0
  (s.usedEntries 7 pipe 0 (16384 * 64) 64).find? fun n =>
    let e := s.bytes 7 pipe (64 * n) 64
    tbit (leAt e 32 1) 7 && decide (leAt e 32 1 % 16 = p) && decide (slice e 0 32 = want)

/-- A basket or hamper entry of a pipeline by its FWD_HASH index (R23, R252): memory space, copy, address. -/
def hashPlace (pipe i : Nat) : Nat × Nat × Nat :=
  if i < 4194304 then (1, 0, 0x08000000 + pipe * 0x04000000 + 16 * i) else (8, pipe, 16 * (i - 4194304))

/-- The bytes of a FWD_HASH entry. -/
def State.hashEntry (s : State) (pipe i : Nat) : List Byte :=
  let (sp, k, a) := hashPlace pipe i
  s.bytes sp k a 16

/-- Write a FWD_HASH entry. -/
def putHash (pipe i : Nat) (e : List Byte) : Prog :=
  let (sp, k, a) := hashPlace pipe i
  doAll [poke sp k a e, cleanse sp k a 16]

/-- Hash of a key (R250). -/
def l2Hash (seed : Nat) (mac : List Byte) (dom : Nat) : Nat := crc32cFrom seed (mac ++ beBytes 2 (dom % 4096))

/-- FWD_HASH indexes where a key may lie: the ways of its basket, then of its hamper set (R250). -/
def l2Places (log2 seed : Nat) (mac : List Byte) (dom : Nat) : List Nat :=
  let h := l2Hash seed mac dom
  ((List.range 4).map (h % 2 ^ log2 * 4 + ·)) ++ (List.range 16).map (4194304 + h / 2 ^ 20 % 4096 * 16 + ·)

/-- BASKETS_LOG2 and seed of a pipeline. -/
def State.hashCfg (s : State) (pipe : Nat) : Nat × Nat := (s.fd (FWD.HASH_CFG.of pipe) 4 0, s.rd (FWD.HASH_SEED.of pipe))

/-- The layouts in which a lookup searches: while a resize runs, the new one after the old (R262). -/
def State.hashLayouts (s : State) (pipe : Nat) : List (Nat × Nat) :=
  s.hashCfg pipe :: ((s.ctl.maint.running.filter fun m => decide (m.act = MA.TABLE_RESIZE) && decide (m.scope = pipe)).map
    fun m => (m.ref % 32, m.ref / 32))

/-- FWD_HASH indexes that a search for a key reads: in each layout its basket, then its hamper set (R250, R252, R262). -/
def State.l2Reads (s : State) (pipe : Nat) (mac : List Byte) (dom : Nat) : List Nat :=
  (s.hashLayouts pipe).flatMap fun c => l2Places c.1 c.2 mac dom

/-- Whether a FWD_HASH entry is valid and holds a key. -/
def entryHolds (e mac : List Byte) (dom : Nat) : Bool :=
  decide (slice e 0 6 = mac) && tbit (leAt e 6 2) 12 && decide (leAt e 6 2 % 4096 = dom % 4096)

/-- The entry of a key: in its basket first, then its hamper set (R250, R252). -/
def State.l2Search (s : State) (pipe : Nat) (mac : List Byte) (dom : Nat) : Option Nat :=
  (s.l2Reads pipe mac dom).find? fun i => entryHolds (s.hashEntry pipe i) mac dom

/-- Whether the search for a key reads poisoned content (R486). -/
def State.l2Poisoned (s : State) (pipe : Nat) (mac : List Byte) (dom : Nat) : Bool :=
  !s.ctl.health.poison.isEmpty && (s.l2Reads pipe mac dom).any fun i =>
    let (sp, k, a) := hashPlace pipe i
    s.poisoned sp k a 16

/-! ### Longest prefix match (R263 to R265) -/

/-- The bytes of LPM entry `i`. -/
def State.lpmEntry (s : State) (pipe i : Nat) : List Byte := s.bytes 1 0 (0x18000000 + pipe * 0x04000000 + 32 * i) 32

/-- LPM entries of a pipeline that hold anything. -/
def State.lpmUsed (s : State) (pipe : Nat) : List Nat :=
  s.usedEntries 1 0 (0x18000000 + pipe * 0x04000000) 0x04000000 32

/-- An address with the bits beyond `len` cleared, as 16 bytes (R263). -/
def maskPrefix (v6 : Bool) (len : Nat) (a : List Byte) : List Byte :=
  let w := if v6 then 128 else 32
  let v := beAt a 0 (w / 8)
  beBytes (w / 8) (v / 2 ^ (w - len) * 2 ^ (w - len)) ++ List.replicate (16 - w / 8) 0

/-- The two buckets of a prefix (R264). -/
def lpmBuckets (vrf len : Nat) (v6 : Bool) (pfx : List Byte) : Nat × Nat :=
  let g := crc32c (beBytes 2 vrf ++ beBytes 1 len ++ beBytes 1 (b2n v6) ++ pfx)
  (g % 2 ^ 19, g / 2 ^ 13)

/-- Entry indexes where a prefix may lie. -/
def lpmPlaces (vrf len : Nat) (v6 : Bool) (pfx : List Byte) : List Nat :=
  let (a, b) := lpmBuckets vrf len v6 pfx
  ((List.range 4).map (4 * a + ·)) ++ (List.range 4).map (4 * b + ·)

/-- Whether an LPM entry is valid and holds a prefix. -/
def lpmHolds (e : List Byte) (vrf len : Nat) (v6 : Bool) (pfx : List Byte) : Bool :=
  tbit (leAt e 17 1) 0 && (tbit (leAt e 17 1) 1 == v6) && decide (leAt e 16 1 = len) && decide (leAt e 18 2 % 4096 = vrf) &&
    decide (slice e 0 16 = pfx)

/-- The entry of a prefix. -/
def State.lpmFind (s : State) (pipe vrf len : Nat) (v6 : Bool) (pfx : List Byte) : Option Nat :=
  (lpmPlaces vrf len v6 pfx).find? fun i => lpmHolds (s.lpmEntry pipe i) vrf len v6 pfx

/-- Whether a valid entry of a family and length exists (R265). -/
def State.lenUsed (s : State) (pipe : Nat) (v6 : Bool) (len : Nat) : Bool :=
  (s.lpmUsed pipe).any fun i =>
    let e := s.lpmEntry pipe i
    tbit (leAt e 17 1) 0 && (tbit (leAt e 17 1) 1 == v6) && decide (leAt e 16 1 = len)

/-- Whether a probe for a prefix reads a poisoned bucket (R486). -/
def State.lpmPoisoned (s : State) (pipe vrf len : Nat) (v6 : Bool) (pfx : List Byte) : Bool :=
  !s.ctl.health.poison.isEmpty && (lpmPlaces vrf len v6 pfx).any fun i =>
    s.poisoned 1 0 (0x18000000 + pipe * 0x04000000 + 32 * i) 32

/-- The search from length `n` down (R265): probes made, the entry hit, and whether a probe met poisoned content, which ends it. The
membership filter of a length admits every present prefix; whether it admits an absent one is free. -/
def lpmWalk (s : State) (pipe vrf : Nat) (v6 : Bool) (a : List Byte) : Nat → Nat → Nat × Option Nat × Bool
  | 0, probes => step 0 probes fun p => (p, none, false)
  | n + 1, probes => step (n + 1) probes fun p => lpmWalk s pipe vrf v6 a n p
where
  /-- one length -/
  step (len probes : Nat) (go : Nat → Nat × Option Nat × Bool) : Nat × Option Nat × Bool :=
    if 32 ≤ probes then (probes, none, false)
    else if !s.lenUsed pipe v6 len then go probes
    else
      let pfx := maskPrefix v6 len a
      let admits := Config.filterAdmits (beVal (beBytes 2 vrf ++ beBytes 1 len ++ beBytes 1 (b2n v6) ++ pfx))
      let hit := s.lpmFind pipe vrf len v6 pfx
      if !admits && hit.isNone then go probes
      else if s.lpmPoisoned pipe vrf len v6 pfx then (probes + 1, none, true)
      else match hit with
        | some i => (probes + 1, some i, false)
        | none => go (probes + 1)

/-- The LPM search of a frame (R244, R265). -/
def State.lpmSearch (s : State) (pipe p : Nat) (key : List Byte) : Nat × Option Nat × Bool :=
  let l3 := s.cfg ((FWD.LPROF_L3 p).of pipe)
  let v6 := tbit l3 8
  lpmWalk s pipe (field l3 27 16) v6 (slice key (field l3 7 0) (if v6 then 16 else 4)) (if v6 then 128 else 32) 0

/-! ## The lookup (R244 to R247, R267) -/

/-- What a lookup found: the result word or an invalid target, what its counters will show, and the page of a poisoned item it
read. -/
structure Found where
  res : Option Nat
  em : Option Nat
  l2 : Bool
  miss : Bool
  lpm : Option (Nat × Bool)
  nh : Option Nat
  poison : Option Nat
deriving DecidableEq, Repr

/-- NH fields of an entry word: the next-hop entry when NH_EN is set. -/
def nhOf (v : Nat) : Option Nat := if tbit v 15 then some (field v 14 0) else none

/-- The lookup of a key under a profile (R244, R245, R248). -/
def State.lookup (s : State) (pipe p : Nat) (key : List Byte) : Found :=
  let c := s.lprof pipe p
  let em := if tbit c 0 then s.emSearch pipe p key else none
  let emE := (em.map fun n => s.bytes 7 pipe (64 * n) 64).getD []
  let da := slice key (field c 15 8) 6
  let dom := beAt key (field c 31 24) 2 % 4096
  let l2 := if em = none ∧ tbit c 1 = true then s.l2Search pipe da dom else none
  let badEm := tbit c 0 && (s.badItems 7 pipe 0 (16384 * 64) 64).any (reads em)
  let badL2 := decide (em = none) && tbit c 1 && s.l2Poisoned pipe da dom
  let r0 : Option Nat := if em.isSome then some (leAt emE 36 4) else l2.map fun i => leAt (s.hashEntry pipe i) 8 4
  let route := (r0.map resKind) = some 7
  let doL3 := tbit c 2 && ((decide (r0 = none) && !tbit c 1) || route)
  let l3 := if doL3 then some (s.lpmSearch pipe p key) else none
  let badL3 := (l3.map (·.2.2)).getD false
  let l3E := (l3.bind (·.2.1)).map fun i => s.lpmEntry pipe i
  let r1 : Option Nat := if doL3 then l3E.map fun e => leAt e 20 4 else r0
  let miss := decide (r1 = none) || (route && !tbit c 2)
  let mw := s.cfg ((FWD.LPROF_MISS p).of pipe)
  let mres := if tbit c 4 ∧ resKind mw = 3 then setField mw 15 0 dom else mw
  let r2 : Option Nat := if miss then (if resKind mres = 7 then none else some mres)
    else if doL3 ∧ (r1.map resKind) = some 7 then none else r1
  ⟨r2, em, l2.isSome, miss, l3.map fun x => (x.1, x.2.1.isSome),
    if miss then none else if doL3 then (l3E.bind fun e => nhOf (leAt e 24 2)) else if em.isSome then nhOf (leAt emE 40 2) else none,
    if badEm || badL2 then some Pg.fwd else if badL3 then some Pg.lpm else none⟩

/-- Whether a network port is enabled: its PORT entry in the committed calendar (R190, R212). -/
def State.portEnabled (s : State) (p : Nat) : Bool := s.cbit (CAL.PORT p) 0

/-- Whether a ring is an ACTIVE NET_RX ring of a pipeline (R233). -/
def State.rxRing (s : State) (pipe r : Nat) : Bool :=
  decide ((s.ring r).st = .active) && decide (s.ringConsumer r = 2) && decide (s.cfd (RING.CTX_CTL.of r) 3 2 = pipe)

/-- Whether an engine takes work (R305, R331): EN, no service microcode, no error state. -/
def State.engineOk (s : State) (e : Nat) : Bool :=
  s.bit (FLOW.ENG_CTL.of e) 0 && !s.bit (FLOW.ENG_CTL.of e) 1 && !s.bit (FLOW.ENG_STATUS.of e) 1

/-- Ports of a replication group, the ingress port left out where the group says so (R280). -/
def State.replPorts (s : State) (g : Nat) (src : Option Nat) : List Nat :=
  let r := tget ⟨false, 0⟩ s.ctl.net.repl g
  (List.range 512).filter fun p => tbit r.mask p && s.portEnabled p && !(r.excl && decide (src = some p))

/-- The member of its path group that a result word of KIND PATH takes for a hash (R267). -/
def State.memberOf (s : State) (pipe hash r : Nat) : Nat :=
  let g := s.cfg ((FWD.PGRP (field r 11 0)).of pipe)
  field g 15 0 + hash % 2 ^ min 8 (field g 19 16)

/-- The destination of a result word (R247, R267, R280): with the class it leaves. -/
def State.resDest (s : State) (pipe : Nat) (src : Option Nat) (hash cls r : Nat) : Dest × Nat × Bool :=
  let setc := fun (w c : Nat) => if tbit w 19 then field w 23 20 else c
  let c1 := setc r cls
  let port := fun (w c : Nat) => if s.portEnabled (field w 8 0) then Dest.ports [(field w 8 0, c)] else Dest.noTarget
  let ring := fun w : Nat => if s.rxRing pipe (field w 15 0) then Dest.ring (field w 15 0) else Dest.noTarget
  match resKind r with
  | 0 => (.drop, c1, false)
  | 1 => (port r c1, c1, false)
  | 2 =>
    let m := s.memberOf pipe hash r
    let w := tget 0 s.ctl.net.members (pipe * 65536 + m)
    let c2 := setc w c1
    if 65535 < m then (.noTarget, c1, false)
    else if resKind w = 1 then (port w c2, c2, false)
    else if resKind w = 4 then (ring w, c2, false)
    else (.noTarget, c1, false)
  | 3 => (.ports ((s.replPorts (field r 11 0) src).map fun p => (p, c1)), c1, true)
  | 4 => (ring r, c1, false)
  | 5 => (.control, c1, false)
  | 6 => (if s.engineOk (field r 5 0) then .flow (field r 5 0) else .noTarget, c1, false)
  | _ => (.noTarget, c1, false)

/-- TTL or hop limit of a frame at its checked L3 offset (R266). -/
def ttlOf (f : List Byte) (l3 : Nat × Bool) : Nat := (byteAt f (l3.1 + (if l3.2 then 7 else 8))).toNat

/-- A next-hop entry: W0 to W3 (R270). -/
def State.nhEntry (s : State) (pipe n : Nat) : Nat := tget 0 s.ctl.net.nh (pipe * 32768 + n)

/-- A decision that goes nowhere and has no effect. -/
def Decision.nothing : Decision :=
  ⟨[], false, false, false, .drop, 0, 0, false, none, false, false, false, none, none, false, false, (0, 0), 0⟩

/-- Classification and lookup of a frame (R230 to R239, R244 to R247, R266). A frame that reads a poisoned item goes no further
(R486). -/
def State.decideFrame (s : State) (pipe kind src inCls : Nat) (f key : List Byte) (r : ParseRec) : Decision :=
  let (act, miss) := s.actionFor pipe kind key
  let hash := s.frameHash pipe act key
  let cls0 := if actFlag act actClassSet then leAt act 2 1 % 16 else if kind = 0 then inCls else 0
  let t := leAt act 11 1 % 128
  let indirEn := tbit (leAt act 11 1) 7
  let place := hash % 2 ^ min 8 (s.cfd ((CLASS.INDIR_CFG t).of pipe) 3 0)
  let ent := s.indir pipe t place
  let ek := field ent 31 30
  let m := leAt act 3 1 % 16
  let base : Decision := ⟨act, true, miss, false, .drop, cls0, hash, false, none, false, false, false, none, none, false, false,
    (s.cfg ((CLASS.MIRR_CTL m).of pipe), s.cfg ((CLASS.MIRR_SAMPLE m).of pipe)), s.cfd (CLASS.CTRL_LIMIT.of pipe) 15 0⟩
  if r.bad then { Decision.nothing with dest := .poison Pg.parse }
  else if s.rulesBad pipe key then { Decision.nothing with dest := .poison Pg.cls }
  else if indirEn && decide (2 ≤ actVerdict act) && decide (actVerdict act ≤ 4) && s.itemBad spIndir pipe (t * 256 + place) then
    { Decision.nothing with dest := .poison Pg.cls }
  else match actVerdict act with
  | 0 => base
  | 1 =>
    let fd := s.lookup pipe r.prof key
    let d := { base with looked := true, emHit := fd.em, l2Hit := fd.l2, tblMiss := fd.miss, lpm := fd.lpm }
    match fd.poison, fd.res with
    | some pg, _ => { base with looked := true, dest := .poison pg }
    | none, none => { d with dest := .noTarget }
    | none, some w =>
      if resKind w = 2 ∧ s.itemBad spMember pipe (s.memberOf pipe hash w) = true then { base with looked := true, dest := .poison Pg.fwd } else
      let (dest, cls, repl) := s.resDest pipe (if kind = 0 then some src else none) hash cls0 w
      let d := { d with dest := dest, cls := cls, repl := repl, dropRes := decide (resKind w = 0) }
      match fd.nh with
      | none => d
      | some n =>
        let e := s.nhEntry pipe n
        if s.itemBad spNh pipe n then { base with looked := true, dest := .poison Pg.lpm }
        else if !tbit e 127 then { d with dest := .noTarget }
        else match r.l3 with
          | some l => if tbit e 109 ∧ ttlOf f l ≤ 1 then { d with dest := .control, ttlExp := true } else { d with nh := some e }
          | none => { d with nh := some e }
  | 2 =>
    let p := if indirEn then field ent 8 0 else actTarget act % 512
    let c := if indirEn then field ent 19 16 else cls0
    if (indirEn = true ∧ ek ≠ 2) ∨ s.portEnabled p = false then { base with dest := .noTarget }
    else { base with dest := .ports [(p, c)], cls := c }
  | 3 =>
    let q := if indirEn then field ent 15 0 else actTarget act
    if (indirEn = true ∧ ek ≠ 1) ∨ s.rxRing pipe q = false then { base with dest := .noTarget } else { base with dest := .ring q }
  | 4 =>
    let e := if indirEn then field ent 5 0 else actTarget act % 64
    if (indirEn = true ∧ ek ≠ 3) ∨ s.engineOk e = false then { base with dest := .noTarget } else { base with dest := .flow e }
  | 5 => { base with dest := .control }
  | _ => { base with badAct := true }

/-- A frame rewritten by a next-hop entry (R266): DA, SA, VLAN ID of a tagged frame, TTL with the IPv4 checksum. The entry
is W3 W2 W1 W0 as one number. -/
def rewriteNh (e : Nat) (l3 : Option (Nat × Bool)) (f : List Byte) : List Byte :=
  let w := fun i => e / 2 ^ (32 * i) % 2 ^ 32
  let f1 := beBytes 4 (w 0) ++ beBytes 2 (w 1 / 65536) ++ beBytes 2 (w 1 % 65536) ++ beBytes 4 (w 2) ++ f.drop 12
  let tagged := decide (beAt f 12 2 = 0x8100) || decide (beAt f 12 2 = 0x88A8)
  let f2 := if tbit (w 3) 12 && tagged then splice f1 14 (beBytes 2 (beAt f1 14 2 / 4096 * 4096 + field (w 3) 11 0)) else f1
  match l3 with
  | some (o, v6) =>
    if tbit (w 3) 13 then
      let t := ttlOf f2 (o, v6) - 1
      if v6 then splice f2 (o + 7) (beBytes 1 t) else fixIPv4 (splice f2 (o + 8) (beBytes 1 t)) o
    else f2
  | none => f2

end Sys2Proof.Machine
end

