-- ==== Sys2Proof/Machine/Ports.lean ====
section
/-! DEFINITION. Host links, shutters, AER, configuration requests, vectors and function resets (R100 to R147). -/

namespace Sys2Proof.Machine

/-- Functions of a host port that exist (R135). -/
def State.portFns (s : State) (h : Nat) : List Nat :=
  ((List.range 8).map (1024 * h + ·)) ++ (List.range 8).flatMap fun k =>
    let pf := s.fnCfg (1024 * h + k)
    if pf.vfEn then (List.range pf.numVFs).map (1024 * h + s.firstVF h k + ·) else []

/-- Functions of a link that exist (R101). -/
def State.linkFns (s : State) (l : Nat) : List Nat := (s.portFns (l / 2)).filter fun f => decide (s.linkOf f = l)

/-- The virtual functions of a physical function that exist. -/
def State.vfsOf (s : State) (f : Nat) : List Nat :=
  let pf := s.fnCfg f
  if f % 1024 < 8 ∧ pf.vfEn = true then (List.range pf.numVFs).map (f / 1024 * 1024 + s.firstVF (f / 1024) (f % 1024) + ·)
  else []

/-- Rings of a function. -/
def State.ringsOf (s : State) (f : Nat) : List Nat :=
  (s.ctl.rings.rings.map (·.1)).filter fun r => decide (s.ringOwner r = f)

/-- Rings of a function stop fetching and confirming; their unconfirmed prefetches go (R124, R143). -/
def freezeRings (f : Nat) : Prog := get fun s => Prog.each (s.ringsOf f) fun r => doAll [dropHeld r,
  modRing r fun x => { x with scanning := false, rescan := false, st := if x.st = .active then .frozen else x.st }]

/-- Whether a request is a read for a consumer, not a Translation Request. -/
def HostReq.isRead (r : HostReq) : Bool := match r.purpose with | .ats _ _ _ => false | _ => true

/-- Every read of a function ends with HOST_ABORT; those with a tag keep it until their completion or timeout (R124,
R143 step 2). At a link that is not open each one still queued is a discarded DMA (R122, R124). -/
def abortReads (f : Nat) : Prog := get fun s => doAll [
  Prog.when (!s.linkOpen (s.linkOf f)) (incBy (HOST.SHUT_DISCARD_CNT (f / 1024))
    (s.ctl.host.reqs.filter fun r => decide (r.fn = f) && r.tag.isNone && r.isRead).length),
  Prog.each (s.ctl.host.reqs.filter fun r => decide (r.fn = f) && !r.discard) (fun r => endRead r.purpose ST.HOST_ABORT []),
  ctl fun c =>
    let orphan := fun r : HostReq => if r.fn = f then { r with discard := true } else r
    { c with host.reqs := (c.host.reqs.filter fun r => !(decide (r.fn = f) && r.tag.isNone)).map orphan }]

/-! ## Function resets (R143, R144) -/

/-- Step 1 and the start of step 2 for one function. -/
def beginReset (f : Nat) (vf : Bool) : Prog := doAll [
  modFn f fun x => { x with busy := true, step := 2, vfGoing := x.vfGoing || vf },
  abortReads f, freezeRings f, retryPosts]

/-- A reset of one function begins; of a physical one, with its VF Enable, that of its virtual functions. A function in
reset goes on as it is. -/
def resetFn (f : Nat) : Prog := get fun s =>
  Prog.when (!(s.fnSt f).busy) (doAll [
    Prog.each (s.vfsOf f) (fun v => get fun t => Prog.when (!(t.fnSt v).busy) (beginReset v true)),
    ctl fun c => { c with host.cfg := nmod FnCfg.init c.host.cfg f fun x => { x with vfEn := false } },
    beginReset f false])

/-- A port-level reset of the functions of a link (R143). -/
def portReset (l : Nat) : Prog := get fun s => Prog.each (s.linkFns l) resetFn

/-- A function-level reset (R143, R144): requested while RESET_BUSY it only steps RESET_CNT. -/
def flr (f : Nat) : Prog := get fun s =>
  if (s.fnSt f).busy then inc (FUNC.RESET_CNT.of f) else resetFn f

/-- Clearing VF Enable of a physical function (R143). -/
def vfDisable (f : Nat) : Prog := get fun s => doAll [
  Prog.each (s.vfsOf f) (fun v => get fun t => if (t.fnSt v).busy then modFn v fun x => { x with vfGoing := true }
    else beginReset v true),
  ctl fun c => { c with host.cfg := nmod FnCfg.init c.host.cfg f fun x => { x with vfEn := false } }]

/-- VF_DISABLE (R143). -/
def execVfDisable (h : Fin 2) (k : Fin 8) (s : State) : Res := board (vfDisable (1024 * h.val + k.val)) s

/-- Whether confirmed work runs on inside the device for which step 2 of R143 waits. Not that of a queue pair, which step 7 takes to
RESET (R344), nor a TASK, whose window step 7 empties (R391); nor a NET_RX buffer, which waits for a frame: step 7, which disables its
ring, ends it without a completion (DESIGN CHOICE, log entry 149). -/
def Work.holdsReset (w : Work) : Bool := !decide (w.typ / 16 ∈ [2, 4, 5]) && !decide (w.typ = 0x3E)

/-- Whether the confirmed work of a function has ended (R143 step 2). -/
def State.fnDrained (s : State) (f : Nat) : Bool :=
  !(s.ctl.rings.works.any fun e => decide (e.2.fn = f) && e.2.holdsReset) && !(s.ctl.rings.posts.any fun p => decide (p.fn = f))

/-- Steps 3 to 8 for one function (R143). LTR Mechanism Enable of a link stands in the configuration space of the first function
on it. The interrupt bucket is empty after it, a DESIGN CHOICE (log entry 122). `owned` is what the transport and the block service do
at step 7; whatever work is left then ends without a completion. -/
def finishReset (f : Nat) (owned : Prog) : Prog := get fun s => doAll [
  breakLatches fun o => decide (o = ownerFn f),
  ctl fun c =>
    let mine := fun src : Nat => decide (s.cfd (FUNC.ERT_W0 src) 2 1 = 1) && decide (s.cfd (FUNC.ERT_W0 src) 26 16 = f)
    let base := s.fd (FUNC.VEC_BASE.of f) 13 0
    let n := s.fd (FUNC.VEC_COUNT.of f) 11 0
    { c with host := { c.host with
      xl := c.host.xl.filter fun x => !decide (x.fn = f)
      reqs := c.host.reqs.map fun r => if r.fn = f then { r with freed := true } else r
      vecs := c.host.vecs.filter fun e => !(decide (base ≤ e.1) && decide (e.1 < base + n))
      modCnt := c.host.modCnt.filter fun e => !mine e.1
      cfg := nset FnCfg.init c.host.cfg f FnCfg.init } },
  owned,
  ctl fun c => { c with rings := { c.rings with
    works := c.rings.works.filter fun e => !decide (e.2.fn = f)
    posts := c.rings.posts.filter fun p => !decide (p.fn = f) } },
  Prog.each (s.ringsOf f) fun r => doAll [
    modRing r fun _ => RingSt.init,
    setCopy .committed (RING.CTX_CTL.of r) (s.cfg (RING.CTX_CTL.of r) / 2 * 2),
    stopPeriodic (.ringPoll r)],
  Prog.when (decide (f % 1024 = 0) || (tget false s.ctl.host.formed2 (f / 1024) && decide (f % 1024 = 4)))
    (ctl fun c => { c with host.links := nmod Link.init c.host.links (s.linkOf f) fun k => { k with ltrEn := false } }),
  inc (FUNC.RESET_CNT.of f),
  modFn f fun _ => { FnSt.init with step := 8 },
  int Pg.func 0 0]

/-! ## Links and shutters (R121 to R129) -/

/-- Fields of a link in LINK_STATUS (R132): speed, width, flit mode, up. -/
def setLinkStatus (l speed width : Nat) (flit up : Bool) : Prog :=
  let o := if l % 2 = 0 then 0 else 10
  wrF (HOST.LINK_STATUS (l / 2)) (o + 9) o (speed % 8 + width % 32 * 8 + b2n flit * 256 + b2n up * 512)

/-- The shutter of a link closes (R124 steps 1 to 3). DEDUCED: a further condition of R121 while it is SHUT is one more closure,
with its CAUSE and count (log entry 123). -/
def shutterClose (l cause : Nat) : Prog := get fun s => doAll [
  wr (shutReg l) ((s.rd (shutReg l) &&& 4) + 1 + cause * 16 + (s.fd (shutReg l) 31 16 + 1) % 65536 * 65536),
  int (11 + l / 2) 0 (if l % 2 = 0 then 0 else 2), lifeAdd 20 1,
  Prog.each (s.linkFns l) (fun f => doAll [abortReads f, freezeRings f, breakLatches fun o => decide (o = ownerFn f)]),
  retryPosts, peep 1 4 (1024 * (l / 2))]

/-- Release of a shutter starts (R127). -/
def shutterRelease (l : Nat) : Prog := doAll [wrF (shutReg l) 1 0 3, portReset l]

/-- Whether the unit is FENCED in its pair (R466, R477). -/
def State.fenced (s : State) : Bool := decide (s.fd PAIR.STATUS 2 0 = 5)

/-- Whether a link of a host port exists as the port is formed: sub-link 1 only in 2 × x8 mode (R101). -/
def State.linkFormed (s : State) (l : Nat) : Bool := decide (l % 2 = 0) || tget false s.ctl.host.formed2 (l / 2)

/-- A step of a closed shutter whose link is in L0: READY, and release at once where AUTO_RELEASE allows (R124 step 4). -/
def shutterReady (l : Nat) : Prog := get fun s =>
  let cause := s.fd (shutReg l) 7 4
  Prog.when (decide (s.shut l = 1) && s.linkUp l && !s.fenced) (doAll [
    wrF (shutReg l) 1 0 2, int (11 + l / 2) 0 (if l % 2 = 0 then 1 else 3),
    Prog.when (s.bit (HOST.CTL (l / 2)) 0 && decide (cause = 1 ∨ cause = 4)) (shutterRelease l)])

/-- SHUTTER_READY (R124, R477). -/
def execShutterReady (l : Fin 4) (s : State) : Res := board (shutterReady l.val) s

/-- A release written to one link (R127, R477). -/
def releaseWrite (l : Nat) : Prog := get fun s =>
  if s.shut l = 2 ∧ s.fenced = false then shutterRelease l else wrB (shutReg l) 2 true

/-- SHUTTER_RELEASE (R127): a write of RELn. -/
def execShutterRelease (a : Accessor) (h : Fin 2) (v : Word) (s : State) : Res := done (
  byWriter a (11 + h.val) 0x50 (doAll [Prog.when (tbit v.toNat 0) (releaseWrite (2 * h.val)),
    Prog.when (tbit v.toNat 1) (releaseWrite (2 * h.val + 1))])) s

/-- SHUTTER_OPEN (R127): the release's reset has ended. -/
def execShutterOpen (l : Fin 4) (s : State) : Res := board (get fun s =>
  Prog.when (decide (s.shut l.val = 3) && !(s.ctl.host.fns.any fun e => e.2.busy && decide (s.linkOf e.1 = l.val)))
    (wrF (shutReg l.val) 1 0 0)) s

/-- The highest link rate of a port, as MAX_SPEED caps it: 6 is 64 GT/s (R100, R132). -/
def State.topSpeed (s : State) (h : Nat) : Nat :=
  let top := s.fd (HOST.LINK_CFG h) 3 1
  if 1 ≤ top ∧ top ≤ 6 then top else 6

/-- HOST_LINK_UP (R100, R101, R122): training ends in L0 at a speed and width, within MAX_SPEED and FLIT_DIS, while PERST_N
is high and LINK_OFF clear. -/
def execHostLinkUp (l : Fin 4) (speed : Fin 8) (width : Fin 17) (flit : Bool) (s : State) : Res := board (get fun s =>
  let h := l.val / 2
  let noFlit := s.bit (HOST.LINK_CFG h) 4
  let sp := min speed.val (if noFlit then min (s.topSpeed h) 5 else s.topSpeed h)
  Prog.when (s.linkFormed l.val && tget false s.ctl.host.perst l.val && !s.bit (HOST.CTL h) 1 && s.clockRuns (5 + h)) (doAll [
    setLinkStatus l.val sp (if tget false s.ctl.host.formed2 h then min width.val 8 else width.val)
      ((flit || decide (sp = 6)) && !noFlit) true,
    modLink l.val fun k => { k with
      expectDown := false
      l1 := false
      trained := if tget false s.ctl.host.formed2 h then min width.val 8 else width.val }])) s

/-- A link goes down (R122): as a surprise it closes the shutter, otherwise its functions are reset. A shutter that waits for its
release is SHUT again without a link (R123). -/
def linkDown (l : Nat) (expected : Bool) : Prog := get fun s => doAll [
  setLinkStatus l 0 0 false false, int (11 + l / 2) 0 6,
  modLink l fun k => { k with l1 := false, expectDown := expected },
  if expected then doAll [Prog.when (decide (s.shut l = 2)) (wrF (shutReg l) 1 0 1), portReset l, retryPosts]
  else shutterClose l 1]

/-- HOST_LINK_DOWN (R122). -/
def execHostLinkDown (l : Fin 4) (s : State) : Res := board (get fun s =>
  Prog.when (s.linkUp l.val) (linkDown l.val (s.link l.val).expectDown)) s

/-- HOT_RESET (R122, R143): the reset of the link's functions; the link-down that follows is no surprise. -/
def execHotReset (l : Fin 4) (s : State) : Res := board (doAll [
  modLink l.val fun k => { k with expectDown := true }, portReset l.val]) s

/-- LINK_DISABLE (R122, R143). -/
def execLinkDisable (l : Fin 4) (s : State) : Res := board (linkDown l.val true) s

/-- LINK_OFF (R122, R132): a write of HOSTn.CTL; setting LINK_OFF takes both links down. -/
def execLinkOff (a : Accessor) (h : Fin 2) (v : Word) (s : State) : Res := done (
  byWriter a (11 + h.val) 0x54 (doAll [wr (HOST.CTL h.val) v.toNat,
    Prog.when (tbit v.toNat 1) (Prog.each [2 * h.val, 2 * h.val + 1] fun l => get fun s =>
      if s.linkUp l then linkDown l true else modLink l fun k => { k with expectDown := true })])) s

/-- L0P_WIDTH_CHANGE (R103): utilisations of the last 100 µs in percent; the width asked for stands at once; full width is the
one the link trained at (log entry 16). -/
def execL0pWidthChange (l : Fin 4) (tx rx : Fin 101) (s : State) : Res := board (get fun s =>
  let h := l.val / 2
  let o := if l.val % 2 = 0 then 0 else 10
  let width := s.fd (HOST.LINK_STATUS h) (o + 7) (o + 3)
  let full := (s.link l.val).trained
  let ask := fun w : Nat => Prog.when (decide (w ≠ width)) (doAll [wrF (HOST.LINK_STATUS h) (o + 7) (o + 3) w,
    emit (.linkAsk l.val 1 w)])
  Prog.when (s.linkUp l.val && s.bit (HOST.LINK_STATUS h) (o + 8) && !s.bit (HOST.L0P_CFG h) 31) (
    if s.fd (HOST.L0P_CFG h) 23 16 < max tx.val rx.val then ask full
    else if max tx.val rx.val < s.fd (HOST.L0P_CFG h) 7 0 ∧ 2 < width then ask (width / 2)
    else .skip)) s

/-- ASPM_L1_ENTRY (R103). -/
def execAspmL1Entry (l : Fin 4) (s : State) : Res := board (get fun s =>
  let h := l.val / 2
  Prog.when (s.linkUp l.val && !(s.ctl.host.reqs.any fun r => decide (r.port = h)) &&
      !(s.ctl.rings.posts.any fun p => decide (p.fn / 1024 = h)) && decide (40000 ≤ (s.link l.val).ltrSent))
    (modLink l.val fun k => { k with l1 := true })) s

/-- ASPM_L1_EXIT (R103). -/
def execAspmL1Exit (l : Fin 4) (s : State) : Res := board (modLink l.val fun k => { k with l1 := false }) s

/-- Reads, frames and copies that wait for a translation end with a STATUS: it failed (R106, R107), or granted no right (R116).
A read that is refused is recorded as a denial. -/
def endWaiting (f pas page st : Nat) : Prog := get fun s => doAll [
  Prog.each (s.ctl.host.reqs.filter fun r => decide (r.fn = f) && decide (r.pasid = pas) && r.tag.isNone && !r.discard &&
      decide (page ∈ pagesOf r.addr r.len) && r.isRead) (fun r =>
    doAll [dropReq r.id, Prog.when (decide (st = ST.ACCESS_DENIED)) (deny f r.addr r.len false true), endRead r.purpose st []]),
  ctl fun c => { c with host.xlWait := c.host.xlWait.map fun x =>
    if x.fn = f ∧ x.pasid = pas ∧ x.page = page then { x with res := some st } else x }]

/-- Posts that wait for the translation of a page whose request failed end with HOST_ABORT (R106, R107). -/
def abortPosts (f page : Nat) : Prog := get fun s =>
  let needs := fun (a n : Nat) => decide (page ∈ pagesOf a n)
  doAll [
    ctl fun c => { c with rings.posts := [] },
    Prog.each s.ctl.rings.posts fun p =>
      if p.fn ≠ f then post p else
      match p.writes with
      | (a, b) :: t => if needs a b.length then
          post { p with writes := t, status := if p.status = ST.OK then ST.HOST_ABORT else p.status, length := if p.status = ST.OK then 0 else p.length }
        else post p
      | [] => match p.work with
        | none => .skip
        | some id => withWork id fun w =>
          if needs (s.ringBase w.cpl + 32 * (s.ring w.cpl).widx) 32 then endWork id w else post p]

/-- A request of the device that fails ends with HOST_ABORT (R106, R107, R121): a read so for its consumer, a Translation Request
for every access that waits for it; one marked for discard is asked again (R112). -/
def failReq (r : HostReq) : Prog :=
  match r.purpose with
  | .ats f pas page => if r.discard then retryPosts else doAll [
      endWaiting f pas page ST.HOST_ABORT, if pas = 0 then abortPosts f page else .skip]
  | p => Prog.when (!r.discard) (endRead p ST.HOST_ABORT [])

/-- A completion for a tag in quarantine or not in use (R107). Of the two sub-links of a port the tag does not say which it came
on: that is open where both are up. -/
def unexpectedCpl (h : Nat) : Prog := get fun s => doAll [
  inc (HOST.UNEXP_CPL_CNT h),
  if !s.linkUp (2 * h + 1) then aerCor (2 * h) 13
  else if !s.linkUp (2 * h) then aerCor (2 * h + 1) 13
  else fresh fun v => aerCor (2 * h + v % 2) 13]

/-- HOST_COMPLETION (R106, R107): data of an outstanding read; with the last completion it ends, with HOST_ABORT when any
completion of it carried UR or CA; a Translation Request ends by such a completion too. A completion for a tag not in use or in
quarantine is unexpected. -/
def execHostCompletion (h : Fin 2) (tag : Nat) (kind : CplKind) (last : Bool) (data : List Byte) (s : State) : Res := board (
  get fun s =>
  match s.ctl.host.reqs.find? (fun r => decide (r.port = h.val) && decide (r.tag = some tag) && r.isRead) with
  | none =>
    match s.ctl.host.reqs.find? (fun r => decide (r.port = h.val) && decide (r.tag = some tag)) with
    | some r => Prog.when (last && !cplGood kind) (doAll [dropReq r.id, showTags h.val, showAts h.val, failReq r])
    | none => unexpectedCpl h.val
  | some r =>
    let got := if cplGood kind then r.got ++ data else r.got
    let bad := r.bad || !cplGood kind
    if last then doAll [dropReq r.id, showTags h.val,
      Prog.when (!r.discard) (endRead r.purpose (if bad then ST.HOST_ABORT else ST.OK) (if bad then [] else slice got 0 r.len))]
    else modReq r.id fun q => { q with got := got, bad := bad }) s

/-- A fatal uncorrectable error closes the link's shutter, masked or not (R121). -/
def fatalClose (l b : Nat) : Prog := get fun s => Prog.when ((s.link l).uncSev.getLsbD b) (shutterClose l 2)

/-- AER_ERROR (R120, R121): logged and counted; a fatal one, or one in the port's buffers, closes the shutter; a non-fatal
one ends the request it concerns with HOST_ABORT, whose tag is held until its last completion or timeout (R104). `hdr`: the 16
bytes of the TLP's header, then its prefixes. -/
def execAerError (l : Fin 4) (k : AerKind) (hdr : List Byte) (s : State) : Res := board (
  match k with
  | .cor b => aerCor l.val b.val
  | .buffer => doAll [aerUnc l.val 22 hdr, shutterClose l.val 3]
  | .unc b tag => doAll [aerUnc l.val b.val hdr, get fun s =>
      if (s.link l.val).uncSev.getLsbD b.val then shutterClose l.val 2 else
      match tag.bind (fun t => s.ctl.host.reqs.find? fun r => decide (r.port = l.val / 2) && decide (r.tag = some t)) with
      | some r => doAll [modReq r.id (fun q => { q with discard := true }), failReq r]
      | none => .skip]) s

/-- COMPLETION_TIMEOUT (R106): an outstanding request ends with HOST_ABORT and its tag is quarantined; the error is
Completion Timeout in AER, fatal or not (R121). -/
def execCompletionTimeout (h : Fin 2) (tag : Nat) (s : State) : Res := board (get fun s =>
  match s.ctl.host.reqs.find? (fun r => decide (r.port = h.val) && decide (r.tag = some tag)) with
  | none => .skip
  | some r => Prog.when (!(s.fnCfg r.fn).ctoDis) (doAll [
      dropReq r.id,
      ctl fun c => { c with host.quar := c.host.quar ++ [(h.val, tag, r.resvTag)] },
      showTags h.val, showAts h.val, inc (HOST.CPL_TIMEOUT_CNT h.val), int (11 + h.val) 0 5,
      failReq r,
      aerUnc (s.linkOf r.fn) 14 [], fatalClose (s.linkOf r.fn) 14])) s

/-- TRANSLATION_COMPLETION (R107, R108, R112, R116). A completion without any right refuses the accesses that wait for it and
leaves no entry; one that no Translation Request of that tag waits for is unexpected. -/
def execTranslationCompletion (h : Fin 2) (tag out : Nat) (logSize : Fin 64) (rd wrt : Bool) (s : State) : Res := board (
  get fun s =>
  match s.ctl.host.reqs.find? (fun r => decide (r.port = h.val) && decide (r.tag = some tag)) with
  | none => unexpectedCpl h.val
  | some r =>
    match r.purpose with
    | .ats f p page => doAll [dropReq r.id, showTags h.val, showAts h.val,
        if r.discard then retryPosts else doAll [
          fillXl (Xl.clip ⟨h.val, f, p, page, out, logSize.val, rd, wrt, 0, true⟩), peep 1 3 f,
          Prog.when (!rd && !wrt) (endWaiting f p page ST.ACCESS_DENIED), retryPosts,
          Prog.when (!rd && !wrt) (ctl fun c => { c with host.xl := c.host.xl.filter fun x => x.rd || x.wr })]]
    | _ => .skip) s

/-! ## Configuration requests (R84, R126, R144, R447) -/

/-- The boot lock sets (R84); VF_ALLOC is checked then (R102). -/
def setBootLock : Prog := get fun s => Prog.when (!s.bit CHIP.BOOT_LOCK 0) (doAll [
  wrB CHIP.BOOT_LOCK 0 true,
  Prog.each [0, 1] fun h => Prog.when (decide (1016 < ((List.range 8).map fun k => s.fd (HOST.VF_ALLOC h k) 10 0).sum))
    (doAll [wrB (HOST.LINK_STATUS h) 20 true, err (11 + h) 0 EC.CONFIG RS.VALUE_REJ (bar0 (11 + h) 0x80)])])

/-- Completion codes of the answers to hosts (PCIe's): success, Unsupported Request, retry. -/
def replyOk : Nat := 0
def replyUR : Nat := 1
def replyRetry : Nat := 2

/-- Change a function's configuration. -/
def modCfg (f : Nat) (g : FnCfg → FnCfg) : Prog :=
  ctl fun c => { c with host.cfg := nmod FnCfg.init c.host.cfg f g }

/-- Vectors of a function with a Pending Bit that may be sent now are raised (R139). -/
def releasePending (f : Nat) : Prog := get fun s =>
  Prog.when (!(s.fnCfg f).fnMask) (Prog.each (List.range (s.fd (FUNC.VEC_COUNT.of f) 11 0)) fun i =>
    modVec (s.fd (FUNC.VEC_BASE.of f) 13 0 + i) fun x =>
      if x.pend && !x.masked then { x with pend := false, raised := true } else x)

/-- A word of which the spec gives the bits in `mask`; the others are free. -/
def capWord (mask v : Nat) (k : Nat → Prog) : Prog := fresh fun w => k ((w % 2 ^ 32 &&& notN 32 mask) ||| v)

/-- TotalVFs of a physical function: its VF_ALLOC, or 127 where the sum was rejected (R100, R102). -/
def State.totalVFs (s : State) (f : Nat) : Nat :=
  if s.bit (HOST.LINK_STATUS (f / 1024)) 20 then 127 else s.fd (HOST.VF_ALLOC (f / 1024) (f % 1024)) 10 0

/-- One word of a 64-bit, non-prefetchable memory BAR at an address (R70, R162). -/
def barWord (addr : Nat) (hi : Bool) : Nat := if hi then addr / 2 ^ 32 else addr % 2 ^ 32 + 4

/-- A 64-bit BAR of `size` bytes takes a write of one of its words. -/
def setBar (addr size : Nat) (hi : Bool) (v : Nat) : Nat :=
  (if hi then addr % 2 ^ 32 + 2 ^ 32 * v else addr / 2 ^ 32 * 2 ^ 32 + v) / size * size

/-- The value a configuration read answers: what the device keeps, in PCIe's places, and the values R100 and R134 give the
capabilities; a bit that neither gives is free (log entry 15). The Table Size of a function without vectors reads 0, a DESIGN
CHOICE (log entry 124): PCIe has no code for none. SR-IOV stands in physical functions only. -/
def cfgRead (f : Nat) (r : CfgReg) (k : Nat → Prog) : Prog := get fun s =>
  let c := s.fnCfg f
  let l := s.link (s.linkOf f)
  let pf := decide (f % 1024 < 8)
  match r with
  | .busMaster => k (4 * b2n c.bme)
  | .msixCtl => k (b2n c.msixEn * 32768 + b2n c.fnMask * 16384 + (s.fd (FUNC.VEC_COUNT.of f) 11 0 - 1))
  | .vfEnable => k (b2n c.vfEn + 65536 * c.numVFs)
  | .ats => k (32768 * b2n c.atsEn)
  | .ctoDisable => capWord 0x131F (16 * b2n c.ctoDis + c.devCtl2) k
  | .ltr => k (1024 * b2n l.ltrEn)
  | .aerUncStat => k l.uncStat.toNat
  | .aerUncMask => k l.uncMask.toNat
  | .aerUncSev => k l.uncSev.toNat
  | .aerCorStat => k l.corStat.toNat
  | .aerCorMask => k l.corMask.toNat
  | .aerCap => capWord 0x200 0 k
  | .hdrLog i => match l.hdrLog with
    | some e => k (beAt e.2 (4 * i.val) 4)
    | none => fresh fun v => k (v % 2 ^ 32)
  | .tlpLog i => match l.hdrLog with
    | some e => k (beAt e.2 (16 + 4 * i.val) 4)
    | none => fresh fun v => k (v % 2 ^ 32)
  | .bar0 hi => k (if f % 1024 = 0 then barWord c.bar0 hi else 0)
  | .bar2 hi => k (barWord c.bar2 hi)
  | .devCtl => if pf then capWord 0xF0F0 c.devCtl k else capWord 0x8000 0 k
  | .pcieCap => capWord 0x80F0 0x8000 k
  | .ariCap => if pf then capWord 0xFFFF 0x000E k else fresh fun v => k (v % 2 ^ 32)
  | .devCap => capWord 0x10000007 0x10000002 k
  | .devCap2 => capWord 0x20810 0x20810 k
  | .devCap3 => capWord 0xC 0xC k
  | .linkCap => capWord 0xFFF (s.topSpeed (f / 1024) + 16 * (if tget false s.ctl.host.formed2 (f / 1024) then 8 else 16) + 0x800) k
  | .l1Cap => capWord 0xFBFF1C (0x1C + 10 * 2 ^ 8 + 10 * 2 ^ 19) k
  | .totalVFs => k (if pf then s.totalVFs f + 65536 * s.totalVFs f else 0)
  | .vfOffset => k (if pf then s.firstVF (f / 1024) (f % 1024) - f % 1024 + 65536 else 0)
  | .atsCap => capWord 0x3F 0x20 k
  | .pasidCap => capWord 0x1F06 0x1400 k
  | .other => fresh fun v => k (v % 2 ^ 32)

/-- A configuration write. AER status bits are cleared by writing 1; the logs are free once the status bit of the error they
hold is cleared (R120). Initiate Function Level Reset starts one (R144). -/
def cfgWrite (f : Nat) (r : CfgReg) (v : Nat) : Prog := get fun s =>
  let l := s.linkOf f
  match r with
  | .busMaster => modCfg f fun c => { c with bme := tbit v 2 }
  | .msixCtl => doAll [modCfg f fun c => { c with msixEn := tbit v 15, fnMask := tbit v 14 }, releasePending f]
  | .vfEnable =>
    if f % 1024 < 8 then
      if tbit v 0 then
        if (s.fnCfg f).vfEn then .skip
        else modCfg f fun c => { c with
          vfEn := true
          numVFs := min (v / 65536) (s.totalVFs f) }
      else Prog.when (s.fnCfg f).vfEn (vfDisable f)
    else .skip
  | .ats => modCfg f fun c => { c with atsEn := tbit v 15 }
  | .ctoDisable => modCfg f fun c => { c with ctoDis := tbit v 4, devCtl2 := v &&& 0x130F }
  | .ltr => modLink l fun k => { k with ltrEn := tbit v 10 }
  | .aerUncStat => modLink l fun k =>
      let st := k.uncStat &&& ~~~ BitVec.ofNat 32 v
      { k with uncStat := st, hdrLog := k.hdrLog.filter fun e => st.getLsbD e.1 }
  | .aerUncMask => modLink l fun k => { k with uncMask := BitVec.ofNat 32 v }
  | .aerUncSev => modLink l fun k => { k with uncSev := BitVec.ofNat 32 v }
  | .aerCorStat => modLink l fun k => { k with corStat := k.corStat &&& ~~~ BitVec.ofNat 32 v }
  | .aerCorMask => modLink l fun k => { k with corMask := BitVec.ofNat 32 v }
  | .bar0 hi => Prog.when (decide (f % 1024 = 0)) (modCfg f fun c => { c with bar0 := setBar c.bar0 (2 ^ 22) hi v })
  | .bar2 hi => modCfg f fun c => { c with bar2 := setBar c.bar2 (2 ^ 16) hi v }
  | .devCtl => doAll [Prog.when (decide (f % 1024 < 8)) (modCfg f fun c => { c with devCtl := v &&& 0x70F0 }), Prog.when (tbit v 15) (flr f)]
  | .aerCap | .hdrLog _ | .tlpLog _ | .pcieCap | .ariCap | .devCap | .devCap2 | .devCap3 | .linkCap | .l1Cap | .totalVFs | .vfOffset | .atsCap | .pasidCap
  | .other => .skip

/-- Whether a configuration request is a write that sets Initiate Function Level Reset (R144). -/
def CfgOp.initiatesFlr : CfgOp → Bool
  | .write .devCtl v => v.getLsbD 15
  | _ => false

/-- A configuration request (R84, R126, R135, R144, R447): retry status until R447 ends it and during the function's reset, but for
a write that sets Initiate Function Level Reset; then the answer, the first of which on either port sets the boot lock. After a
dump every answer is retry status (R412). -/
def cfgRequest (f : Nat) (op : CfgOp) : Prog := get fun s =>
  let h := f / 1024
  let ok := fun v : Nat => doAll [answer v, emit (.hostReply h f replyOk (leBytes 4 v)), setBootLock]
  if !s.linkUp (s.linkOf f) then .skip
  else if !s.ctl.host.retryEnded || ((s.fnSt f).busy && !op.initiatesFlr) || decide (s.pf = 2) then
    emit (.hostReply h f replyRetry [])
  else if !s.fnExists f && !(s.fnSt f).busy then doAll [dropFor f, emit (.hostReply h f replyUR [])]
  else match op with
  | .read r => cfgRead f r ok
  | .write r v => doAll [cfgWrite f r v.toNat, ok 0]
  | .msixEntry i addr data masked => doAll [
      Prog.when (decide (i.val < s.fd (FUNC.VEC_COUNT.of f) 11 0)) (doAll [
        modVec (s.fd (FUNC.VEC_BASE.of f) 13 0 + i.val) fun x =>
          { x with addr := addr.toNat, data := data.toNat, masked := masked }, releasePending f]), ok 0]

/-- CONFIG_REQUEST (R84, R126, R135, R144, R447). -/
def execConfigRequest (f : Fin 2048) (op : CfgOp) (s : State) : Res := board (cfgRequest f.val op) s

/-- FUNCTION_LEVEL_RESET (R143, R144): the configuration write that sets Initiate Function Level Reset, bit 15 of Device Control, and
leaves the rest of it. -/
def execFunctionLevelReset (f : Fin 2048) (s : State) : Res :=
  board (cfgRequest f.val (.write .devCtl (BitVec.ofNat 32 (0x8000 ||| (s.fnCfg f.val).devCtl)))) s

/-! ## Vectors, routing, interrupts (R136 to R142) -/

/-- Whether a vector range meets another function's (R136): functions with a range are those whose VEC_COUNT is listed. -/
def State.vecOverlap (s : State) (f base n : Nat) : Bool :=
  s.reg.any fun e => decide (e.1.bank = .live) && decide (e.1.page = 13) && decide (e.1.off = 0x4C) &&
    !decide (e.1.inst = f) &&
    (let b := s.fd (FUNC.VEC_BASE.of e.1.inst) 13 0
     let m := s.fd (FUNC.VEC_COUNT.of e.1.inst) 11 0
     decide (0 < n) && decide (0 < m) && decide (base < b + m) && decide (b < base + n))

/-- VECTOR_RANGE_WRITE (R136): of VEC_BASE (`count` false) or VEC_COUNT. -/
def execVectorRangeWrite (a : Accessor) (count : Bool) (v : Word) (s : State) : Res := done (
  let off := if count then 0x4C else 0x48
  byWriter a Pg.func off (get fun s =>
    let f := s.sel a 13 0x40 % 2048
    let base := if count then s.fd (FUNC.VEC_BASE.of f) 13 0 else v.toNat % 16384
    let n := if count then v.toNat % 4096 else s.fd (FUNC.VEC_COUNT.of f) 11 0
    if (s.fnCfg f).msixEn then err Pg.func 0 EC.ACCESS RS.WRONG_STATE (bar0 Pg.func off)
    else if s.vecOverlap f base n || decide (16384 < base + n) || decide ((if f % 1024 < 8 then 2048 else 256) < n) then
      err Pg.func 0 EC.CONFIG RS.VALUE_REJ (bar0 Pg.func off)
    else if count then wr (FUNC.VEC_COUNT.of f) n else wr (FUNC.VEC_BASE.of f) base)) s

/-- ERT_COMMIT (R137): word 1 of an entry commits both words. -/
def execErtCommit (a : Accessor) (src : Fin 4096) (v : Word) (s : State) : Res := done (
  byWriter a Pg.func (0x1004 + 8 * src.val) (get fun s => doAll [
    wr (FUNC.ERT_W1 src.val) v.toNat,
    setCopy .committed (FUNC.ERT_W0 src.val) (s.rd (FUNC.ERT_W0 src.val)),
    setCopy .committed (FUNC.ERT_W1 src.val) v.toNat])) s

/-- MODERATION_TIMEOUT (R138). -/
def execModerationTimeout (src : Fin 4096) (s : State) : Res := board (get fun s =>
  Prog.when (decide (0 < tget 0 s.ctl.host.modCnt src.val) && decide (s.cfd (FUNC.ERT_W1 src.val) 23 16 ≠ 0)) (doAll [
    ctl fun c => { c with host.modCnt := nset 0 c.host.modCnt src.val 0 }, chain 24 (.raise src.val)])) s

/-- MSIX_SEND (R115, R122, R139, R142): vector `i` of a function. -/
def execMsixSend (f i : Fin 2048) (s : State) : Res := live 4 (get fun s =>
  let v := s.fd (FUNC.VEC_BASE.of f.val) 13 0 + i.val
  let x := s.vec v
  let c := s.fnCfg f.val
  if s.fd (FUNC.VEC_COUNT.of f.val) 11 0 ≤ i.val ∨ x.raised = false then .skip
  else if (s.fnSt f.val).busy && s.linkOpen (s.linkOf f.val) then modVec v fun x => { x with raised := false, throttled := false }
  else if (s.fnSt f.val).busy then
    doAll [modVec v fun x => { x with raised := false, throttled := false }, inc (HOST.SHUT_DISCARD_CNT (f.val / 1024))]
  else if !(c.bme && c.msixEn) then .skip
  else if x.masked || c.fnMask then modVec v fun x => { x with raised := false, pend := true, throttled := false }
  else if !s.linkOpen (s.linkOf f.val) then
    doAll [modVec v fun x => { x with raised := false, throttled := false }, inc (HOST.SHUT_DISCARD_CNT (f.val / 1024))]
  else if s.cfd (FUNC.INT_SHARE.of f.val) 15 0 ≠ 0 ∧ (s.fnSt f.val).tokens = 0 then
    Prog.when (!x.throttled) (doAll [inc (FUNC.INT_THROTTLE_CNT.of f.val), modVec v fun x => { x with throttled := true }])
  else doAll [
    modVec v fun x => { x with raised := false, throttled := false },
    Prog.when (decide (s.cfd (FUNC.INT_SHARE.of f.val) 15 0 ≠ 0)) (modFn f.val fun x => { x with tokens := x.tokens - 1 }),
    emit (.msix f.val i.val x.addr x.data)]) s

/-- What a refill adds to a bucket, in 1/500,000 of a token: INT_RATE × 1,000 tokens per second over the 2 ns ticks of its period,
with what the refills before left over (R142). -/
def State.gained (s : State) (f : Nat) : Nat :=
  let rate := s.cfd (FUNC.INT_SHARE.of f) 15 0
  (s.fnSt f).frac + 500000 / max 1 rate * rate

/-- A refill of a function's interrupt bucket (R142): its tokens, up to INT_BURST; while the function is held at its DMA_CAP, only
every second refill gives any. -/
def refill (f : Nat) : Prog := get fun s =>
  let top := max 1 (s.cfd (FUNC.INT_SHARE.of f) 23 16)
  let t := (s.fnSt f).tokens + s.gained f / 500000
  if s.dmaHeld f && !(s.fnSt f).half then modFn f fun x => { x with half := true }
  else modFn f fun x => { x with
    tokens := min top t
    half := false
    frac := if t < top then s.gained f % 500000 else 0 }

/-- INT_BUCKET_REFILL (R56, R142): the next event is a refill of a function's bucket. -/
def execIntBucketRefill (s : State) : Res := board (
  dispatch (fun c => match c with | .intBucket _ => true | _ => false) fun e stepped =>
    match e.consumer with
    | .intBucket f => doAll [Prog.when (!stepped) (refill f), nextPeriod e stepped]
    | _ => .skip) s

end Sys2Proof.Machine
end

