-- ==== Sys2Proof/Machine/Tm.lean ====
section
/-! DEFINITION. The traffic manager (R271 to R298): admission, egress queues, the scheduler, shapers, gates, launch times,
pauses, preemption and the end of a transmission. -/

namespace Sys2Proof.Machine

/-! ## Objects and ports -/

/-- Contexts of the TM page: queue `q`, node `n` and port `p`, as OBJ_SEL names them (R298). -/
def objQ (q : Nat) : Nat := q
def objN (n : Nat) : Nat := 8192 + n
def objP (p : Nat) : Nat := 16384 + p

/-- The domain of a port. -/
def State.portDom (s : State) (p : Nat) : Nat := s.fd (TIME.PORT_DOM (p / 8)) (4 * (p % 8) + 2) (4 * (p % 8))

/-- Rate of a port in Gb/s: its calendar slots times 25 (R187, R190). -/
def State.portRate (s : State) (p : Nat) : Nat := 25 * s.cfd (CAL.PORT p) 8 2

/-- Whether a port's MAC has a link. -/
def State.portUp (s : State) (p : Nat) : Bool := s.bit (MAC.MAC_STATUS.of p) 0

/-- A committed MAC register of a port. -/
def State.macBit (s : State) (p i : Nat) : Bool := s.cbit (MAC.MAC_CTL.of p) i

/-- Whether a class of a port is preemptable now (R202). -/
def State.preemptable (s : State) (p c : Nat) : Bool :=
  s.macBit p 7 && s.cbit (MAC.PREEMPT_MAP.of p) c && (s.macBit p 10 || decide (s.fd (MAC.MAC_STATUS.of p) 4 3 = 2))

/-- Shortest non-final fragment (R202). -/
def State.fragMin (s : State) (p : Nat) : Nat := 64 * (1 + s.cfd (MAC.MAC_CTL.of p) 9 8)

/-- An egress queue. -/
def State.queue (s : State) (q : Nat) : List Copy := tget [] s.ctl.net.queues q

/-- What a port sends (key: the port) or holds preempted (key: 512 + port). -/
def State.sending (s : State) (k : Nat) : Option Sending := tget none s.ctl.net.sending k

/-- Set what a port sends. -/
def setSending (k : Nat) (x : Option Sending) : Prog := ctl fun c => { c with net.sending := nset none c.net.sending k x }

/-- Change a queue. -/
def setQueue (q : Nat) (l : List Copy) : Prog := ctl fun c => { c with net.queues := nset [] c.net.queues q l }

/-- The queue of a copy (R271). -/
def Copy.queue (c : Copy) : Nat := 16 * c.port + c.cls

/-- Every copy the traffic manager holds. -/
def State.copies (s : State) : List Copy :=
  s.ctl.net.queues.flatMap (·.2) ++ s.ctl.net.sending.filterMap fun e => e.2.map (·.copy)

/-- Bytes in a queue (R273); with `shown` only what confirmed frames hold (R274). -/
def State.qDepth (s : State) (shown : Bool) (q : Nat) : Nat :=
  (((s.queue q).filter fun c => !shown || c.confirmed).map (·.len)).sum

/-- SRAM cells of a copy (R273). -/
def Copy.cells (c : Copy) : Nat := ceilDiv c.len 256

/-- Free SRAM cells; with `shown` unconfirmed frames hold none (R274). -/
def State.freeCells (s : State) (shown : Bool) : Nat :=
  786432 - ((s.copies.filter fun c => !c.spill && (!shown || c.confirmed)).map (·.cells)).sum

/-- Bytes of the spill region in use. -/
def State.spillBytes (s : State) (shown : Bool) : Nat :=
  ((s.copies.filter fun c => c.spill && (!shown || c.confirmed)).map (·.len)).sum

/-- Whether the spill region has room for a frame (R275). -/
def State.spillRoom (s : State) (n : Nat) : Bool := decide (s.spillBytes false + n ≤ s.fd TM.SPILL_SIZE 15 0 * 2 ^ 20)

/-! ## Lossless priorities (R277) -/

/-- The lossless group of an ingress port and priority: the priority under PFC, 8 for the one group of PAUSE. -/
def State.lossGroup (s : State) (p prio : Nat) : Option Nat :=
  if s.macBit p 4 then (if s.cbit (TM.PFC_CFG.of (objP p)) (16 + prio) then some prio else none)
  else if s.macBit p 5 then some 8 else none

/-- Usage of a lossless group in bytes. -/
def State.usage (s : State) (shown : Bool) (p g : Nat) : Nat :=
  ((s.copies.filter fun c => (!shown || c.confirmed) &&
    (match c.inPort with
    | some (x, k) => decide (x = p) && (decide (g = 8) || decide (k = g))
    | none => false)).map (·.len)).sum

/-- PFC_XOFF, PFC_XON and PFC_HEADROOM of a port in bytes. -/
def State.xoff (s : State) (p : Nat) : Nat := 1024 * s.cfd (TM.PFC_THRESH.of (objP p)) 15 0
def State.xon (s : State) (p : Nat) : Nat := 1024 * s.cfd (TM.PFC_THRESH.of (objP p)) 31 16
def State.headroom (s : State) (p : Nat) : Nat := 1024 * s.cfd (TM.PFC_CFG.of (objP p)) 15 0

/-- Bin of a length in ten (R213). -/
def lenBin (n : Nat) : Nat :=
  if n ≤ 64 then 0 else if n ≤ 127 then 1 else if n ≤ 255 then 2 else if n ≤ 511 then 3 else if n ≤ 1023 then 4
  else if n ≤ 1518 then 5 else if n ≤ 2047 then 6 else if n ≤ 4095 then 7 else if n ≤ 9216 then 8 else 9

/-- A port has sent a frame of `n` bytes with its FCS, a good one or not (R213). -/
def sentOctets (p n : Nat) : Prog := doAll [incW (MAC.TX_OCTETS.of p) n, incW ((MAC.TX_BIN (lenBin n)).of p) 1]

/-- A port has received a good frame of `n` bytes with its FCS (R213). -/
def gotOctets (p n : Nat) : Prog := doAll [incW (MAC.RX_OK.of p) 1, incW (MAC.RX_OCTETS.of p) n, incW ((MAC.RX_BIN (lenBin n)).of p) 1]

/-- The MAC sends a pause frame for a group, from its station address (R199, R213, R277): a MAC control frame, of 64 bytes (IEEE 802.3
Annex 31). -/
def sendPause (p g quanta : Nat) : Prog := get fun s => Prog.when (s.portUp p && s.macBit p 1) (doAll [
  emit (.pause p g quanta (decide (g < 8)) (s.cfgW (MAC.STATION.of p) % 2 ^ 48)), if g < 8 then incW ((MAC.TX_PFC g).of p) 1 else incW (MAC.TX_PAUSE.of p) 1,
  incW (MAC.TX_OK.of p) 1, sentOctets p 64])

/-- Whether a group is one of a port's lossless ones. -/
def State.lossless (s : State) (p g : Nat) : Bool := decide (s.lossGroup p (g % 8) = some g)

/-- Pause or release a group as its usage asks (R277): only a lossless one is paused, and a paused one is released. -/
def pauseCheck (p g : Nat) : Prog := get fun s =>
  let sent := tget false s.ctl.net.pfcSent (16 * p + g)
  let u := s.usage true p g
  if s.lossless p g && !sent && decide (s.xoff p ≤ u) then doAll [
    ctl fun c => { c with net.pfcSent := fset c.net.pfcSent (16 * p + g) true }, sendPause p g 0xFFFF]
  else if sent && decide (u < s.xon p) then doAll [
    ctl fun c => { c with net.pfcSent := fset c.net.pfcSent (16 * p + g) false }, sendPause p g 0]
  else .skip

/-- The pause check of the groups that a copy may count in: its priority's, and the one of PAUSE. -/
def pauseOf (c : Copy) : Prog :=
  match c.inPort with
  | some (p, k) => .seq (pauseCheck p k) (pauseCheck p 8)
  | none => .skip

/-! ## Admission (R273, R274) -/

/-- What admission decides. -/
inductive Admission where
  | sram
  | spill
  | refused (head spillFull : Bool)
deriving DecidableEq, Repr

/-- Whether a queue is ordered by launch WT (R293). -/
def State.qSorted (s : State) (q : Nat) : Bool := s.cbit (TM.SCHED.of (objQ q)) 16 && s.cbit (TM.SCHED.of (objQ q)) 17

/-- Admission of `n` bytes with FCS to a queue, from an ingress port and priority if it came from the network. -/
def State.admitTo (s : State) (q n : Nat) (inn : Option (Nat × Nat)) : Admission :=
  let cells := ceilDiv n 256
  let free := s.freeCells false
  let adm := s.cfg (TM.ADMIT.of (objQ q))
  let depth := s.qDepth false q
  if s.qSorted q = true ∧ 1024 ≤ (s.queue q).length then .refused false false else
  match inn.bind fun x => (s.lossGroup x.1 x.2).map fun g => (x.1, g) with
  | some (p, g) =>
    if s.xoff p + s.headroom p < s.usage false p g + n then .refused true false
    else if cells ≤ free then .sram
    else if s.spillRoom n then .spill
    else .refused false true
  | none =>
    if depth + n ≤ 1024 * field adm 14 0 then (if cells ≤ free then .sram else .refused false false)
    else if 1024 * field adm 30 16 < depth + n then .refused false false
    else if s.fd TM.BUF_RESV 19 0 + cells ≤ free then .sram
    else if tbit adm 31 then (if s.spillRoom n then .spill else .refused false true)
    else .refused false false

/-- Whether a copy goes before another in a sorted queue: launch WT, or confirmation WT without one; ties in arrival order (R293). -/
def Copy.sortsBefore (a b : Copy) : Bool :=
  let d := wtDiff (a.launch.getD a.confWT) (b.launch.getD b.confWT)
  decide (d < 0) || (decide (d = 0) && decide (a.id < b.id))

/-- A queue with one more copy (R293): in a sorted one, those not confirmed, which have no place in its order yet, stand behind. -/
def State.queueWith (s : State) (c : Copy) : List Copy :=
  let l := s.queue c.queue
  if s.qSorted c.queue && c.confirmed then ordIns Copy.sortsBefore c (l.filter (·.confirmed)) ++ l.filter (!·.confirmed) else l ++ [c]

/-- A queue put in the order its settings ask: confirmed copies by launch WT, or all as they arrived (R293). -/
def State.queueOrdered (s : State) (q : Nat) : List Copy :=
  if s.qSorted q then inOrder Copy.sortsBefore ((s.queue q).filter (·.confirmed)) ++ (s.queue q).filter (!·.confirmed)
  else inOrder (fun a b => decide (a.id < b.id)) (s.queue q)

/-- The highest depth of a queue (R274). -/
def noteDepth (q : Nat) : Prog := get fun s =>
  ctl fun c => { c with net.qHwm := nmod 0 c.net.qHwm q fun v => max v (s.qDepth true q) }

/-- Put an admitted copy into its queue. -/
def enqueue (c : Copy) : Prog := get fun s => doAll [setQueue c.queue (s.queueWith c),
  Prog.when c.confirmed (doAll [noteDepth c.queue, peep 4 0 c.queue, pauseOf c])]

/-- Count refused copies (R274, R277). -/
def countDrops (q n head spill : Nat) : Prog := doAll [
  Prog.when (decide (n ≠ 0)) (doAll [incBy TM.TM_DROP_CNT n, int Pg.tm 0 0, peep 4 1 q]),
  Prog.when (decide (head ≠ 0)) (incBy TM.HEADROOM_DROP_CNT head),
  Prog.when (decide (spill ≠ 0)) (int Pg.tm 0 4)]

/-- Admit a copy (R273, R293): `k` gets OK, TM_DROP with the two refusal marks, or the STATUS of a refused launch (R61). -/
def admitCopy (c : Copy) (k : Nat → Bool → Bool → Prog) : Prog := get fun s =>
  match s.admitTo c.queue c.len c.inPort with
  | .refused h f => k ST.TM_DROP h f
  | a =>
    let c := { c with spill := decide (a = Admission.spill) }
    match c.launch with
    | none => doAll [enqueue c, k ST.OK false false]
    | some w => request (s.portDom c.port) 0 (.abs w) (.frameLaunch c.id) fun st _ =>
      if st = ST.OK then doAll [enqueue c, k ST.OK false false] else k st false false

/-! ## Send completions (R16, R208, R280) -/

/-- A copy of a ring frame has gone: sent with a port, timestamp, TSX and length, or ended with a STATUS. -/
def copyGone (c : Copy) (st : Nat) (sent : Option (Nat × Nat × Option Nat × Nat)) : Prog :=
  match c.work with
  | none => .skip
  | some w => get fun s =>
    let x := tget ⟨1, false, none⟩ s.ctl.net.copySets w
    let best := match x.best, sent with
      | none, b => b
      | a, none => a
      | some a, some b => if b.1 < a.1 then some b else some a
    if 1 < x.left then ctl fun k => { k with net.copySets := nset ⟨1, false, none⟩ k.net.copySets w { x with left := x.left - 1, best := best } }
    else doAll [
      ctl fun k => { k with net.copySets := nset ⟨1, false, none⟩ k.net.copySets w ⟨1, false, none⟩ },
      match best with
      | some (p, wt, tsx, n) => completeWith w ST.OK n [] (some (wt, tsx)) [(20, leBytes 2 p)]
      | none => completeWith w (if x.many then ST.TM_DROP else st) 0 [] none [(20, leBytes 2 c.port)]]

/-- A copy leaves the traffic manager unsent. -/
def dropCopy (c : Copy) (st : Nat) : Prog := doAll [
  cancelFor (fun k => decide (k = .frameLaunch c.id)), copyGone c st none, pauseOf c]

/-- Remove a copy from its queue. -/
def unqueue (c : Copy) : Prog := get fun s => setQueue c.queue ((s.queue c.queue).filter fun x => !decide (x.id = c.id))

/-! ## Louvre lists (R288 to R291) -/

/-- A port's louvre list. -/
def State.louvre (s : State) (p : Nat) : Louvre := tget Louvre.init s.ctl.net.louvres p

/-- Set a port's louvre list. -/
def setLouvre (p : Nat) (l : Louvre) : Prog := ctl fun c => { c with net.louvres := nset Louvre.init c.net.louvres p l }

/-- Entry of a louvre bank: GATES with HOLD, and INTERVAL (R288). -/
def State.lvEntry (s : State) (p bank e : Nat) : Nat × Nat := tget (0, 0) s.ctl.net.lvEntry ((2 * p + bank) * 256 + e)

/-- The entries of a cycle from `j` on that start at `acc`: each with its word, start and end (R289 steps 2 and 3). -/
def lvSegs (ent : Nat → Nat × Nat) (cycle : Nat) : Nat → Nat → Nat → List (Nat × Nat × Nat)
  | 0, _, _ => []
  | n + 1, j, acc =>
    if cycle ≤ acc then [] else
    let stop := if n = 0 then cycle else min cycle (acc + (ent j).2)
    ((ent j).1, acc, stop) :: lvSegs ent cycle n (j + 1) stop

/-- The cycle of a list. -/
def State.lvCycle (s : State) (p bank count cycle : Nat) : List (Nat × Nat × Nat) :=
  lvSegs (fun j => s.lvEntry p bank j) cycle count 0 0

/-- The committed list of a port: bank, count, cycle. -/
def State.lvCommitted (s : State) (p : Nat) : Nat × Nat × Nat :=
  let r := objP p
  (s.cfd (TM.PORT_CTL.of r) 1 1, s.cfd (TM.LV_COUNT.of r) 8 0, s.cfg (TM.LV_CYCLE_NS.of r))

/-- The word of the entry that applies: gates [15:0] and HOLD [16]; LV_FALLBACK while no list runs. -/
def State.gateWord (s : State) (p : Nat) : Nat :=
  let l := s.louvre p
  if l.run then (s.lvEntry p l.bank l.entry).1 else s.cfd (TM.LV_FALLBACK.of (objP p)) 15 0

/-- Start of the first segment of a cycle at which the gate of a class is closed. -/
def firstClosed (c : Nat) (l : List (Nat × Nat × Nat)) : Option Nat := (l.find? fun x => !tbit x.1 c).map (·.2.1)

/-- When the gate of a class next closes, in ns of domain time; none when it never does (R290). -/
def State.gateCloses (s : State) (p c : Nat) : Option Nat :=
  let l := s.louvre p
  let (b, n, cy) := s.lvCommitted p
  let next := l.pendingAt.map fun t => (t, firstClosed c (s.lvCycle p b n cy))
  let cyc := s.lvCycle p l.bank l.count l.cycle
  let now : Option Nat := if l.run then
      match firstClosed c (cyc.drop (l.entry + 1)) with
      | some x => some (l.cycleAt + x)
      | none => (firstClosed c cyc).map (l.cycleAt + l.cycle + ·)
    else none
  match now, next with
  | some u, none => some u
  | none, none => none
  | some u, some (t, x) => if u < t then some u else x.map (t + ·)
  | none, some (t, x) => x.map (t + ·)

/-- Longest unbroken span a class's gate is open in a running list; none when it never closes (R291). -/
def State.gateSpan (s : State) (p c : Nat) : Option Nat :=
  let l := s.louvre p
  let cyc := s.lvCycle p l.bank l.count l.cycle
  if (firstClosed c cyc).isNone then none else
  some (((cyc ++ cyc).foldl (fun (a : Nat × Nat) x =>
    let cur := if tbit x.1 c then a.1 + (x.2.2 - x.2.1) else 0
    (cur, max a.2 cur)) (0, 0)).2)

/-- Bytes on the wire that the gate rule counts for a copy: all of it, or a first fragment (R290, R292). -/
def State.gateBytes (s : State) (c : Copy) : Nat :=
  (if s.preemptable c.port c.cls then min c.len (s.fragMin c.port) else c.len) + 20

/-- Time a copy needs, with the guard band, in 1/rate ns: 8 bits a byte at the port's rate (R290). -/
def State.gateNeed (s : State) (c : Copy) : Nat :=
  s.gateBytes c * 8 + s.cfd (TM.GUARD_NS.of (objP c.port)) 15 0 * s.portRate c.port

/-- The gate rule now (R290, R292). -/
def State.gateOpen (s : State) (c : Copy) : Bool :=
  let w := s.gateWord c.port
  let d := s.dom (s.portDom c.port)
  tbit w c.cls && !(s.preemptable c.port c.cls && (s.louvre c.port).run && tbit w 16) &&
    match s.gateCloses c.port c.cls with
    | none => true
    | some u => decide ((d.nanos * 2 ^ 40 + d.frac) * s.portRate c.port + s.gateNeed c * 2 ^ 40 ≤ u * 2 ^ 40 * s.portRate c.port)

/-- Whether an express frame never fits its gate (R291). -/
def State.gateOversize (s : State) (c : Copy) : Bool :=
  (s.louvre c.port).run && !s.preemptable c.port c.cls &&
    match s.gateSpan c.port c.cls with
    | none => false
    | some n => decide (n * s.portRate c.port < s.gateNeed c)

/-! ## Shapers (R281 to R283) -/

/-- The shaper number of an object: queues, then nodes, then ports. -/
def shQ (q : Nat) : Nat := q
def shN (n : Nat) : Nat := 8192 + n
def shP (p : Nat) : Nat := 10240 + p

/-- The TM context of a shaper. -/
def shObj (i : Nat) : Nat := if i < 10240 then i else 16384 + (i - 10240)

/-- Credit of a shaper in 1/256 byte. -/
def State.credit (s : State) (i : Nat) : Int := tget 0 s.ctl.net.credit i

/-- Whether a shaper lets its object send (R278, R281). -/
def State.shaperOk (s : State) (i : Nat) : Bool := decide (s.cfg (TM.SHAPE_RATE.of (shObj i)) = 0) || decide (0 < s.credit i)

/-- Set a shaper's credit. -/
def setCredit (i : Nat) (v : Int) : Prog := ctl fun c => { c with net.credit := nset 0 c.net.credit i v }

/-- One refill of a shaper (R281). -/
def refillShaper (i : Nat) : Prog := get fun s =>
  let rate := s.cfg (TM.SHAPE_RATE.of (shObj i))
  Prog.when (decide (rate ≠ 0)) (setCredit i (min (s.cfd (TM.SHAPE_BURST.of (shObj i)) 23 0 * 256 : Nat) (s.credit i + rate)))

/-- A frame's start takes its bytes with FCS and 20 more from a shaper (R281). -/
def debit (i n : Nat) : Prog := get fun s =>
  Prog.when (decide (s.cfg (TM.SHAPE_RATE.of (shObj i)) ≠ 0)) (setCredit i (s.credit i - ((n + 20) * 256 : Nat)))

/-! ## The scheduler (R278) -/

/-- The node of a queue. -/
def State.nodeOf (s : State) (q : Nat) : Nat := q / 16 * 4 + s.cfd (TM.SCHED.of (objQ q)) 1 0

/-- Whether the partner has paused a class of a port (R199). -/
def State.isPaused (s : State) (p c : Nat) : Bool :=
  tget false s.ctl.net.paused (16 * p + c % 8) || tget false s.ctl.net.paused (16 * p + 8)

/-- The head of a queue when the queue is eligible (R278); `cut` is an unconfirmed copy that may start cut-through. -/
def State.eligible (s : State) (cut : Option Nat) (q : Nat) : Option Copy :=
  match s.queue q with
  | [] => none
  | c :: _ =>
    if (c.confirmed || decide (cut = some c.id)) && s.shaperOk (shQ q) && s.shaperOk (shN (s.nodeOf q)) &&
      s.shaperOk (shP (q / 16)) && c.eligible && !s.isPaused (q / 16) (q % 16) && s.gateOpen c &&
      !(s.preemptable c.port c.cls && (s.sending (512 + c.port)).isSome)
    then some c else none

/-- One pass of deficit round robin: each queue in turn gets its quantum until one can send. -/
def drrPass (quantum cost : Nat → Nat) : List Nat → Tbl Nat → Option Nat × Tbl Nat
  | [], d => (none, d)
  | x :: t, d =>
    let v := tget 0 d x + quantum x
    if cost x ≤ v then (some x, nset 0 d x (v - cost x)) else drrPass quantum cost t (nset 0 d x v)

/-- Passes until one can send; the longest frame needs 64 of the smallest quantum. -/
def drrRun (quantum cost : Nat → Nat) (order : List Nat) : Nat → Tbl Nat → Option Nat × Tbl Nat
  | 0, d => (none, d)
  | n + 1, d =>
    match drrPass quantum cost order d with
    | (some x, d') => (some x, d')
    | (none, d') => drrRun quantum cost order n d'

/-- Deficit round robin among `ids`: the current one goes on while its deficit lasts. -/
def drr (quantum cost : Nat → Nat) (cur : Nat) (ids : List Nat) (d : Tbl Nat) : Option Nat × Tbl Nat :=
  if cur ∈ ids ∧ cost cur ≤ tget 0 d cur then (some cur, nset 0 d cur (tget 0 d cur - cost cur))
  else drrRun quantum cost ((ids.filter fun x => decide (cur < x)) ++ ids.filter fun x => decide (x ≤ cur)) 64 d

/-- Those of `ids` with the lowest PRIO of their contexts (R278). -/
def State.topPrio (s : State) (obj : Nat → Nat) (ids : List Nat) : List Nat :=
  let prio := fun x => s.cfd (TM.SCHED.of (obj x)) 4 2
  ids.filter fun x => ids.all fun y => decide (prio x ≤ prio y)

/-- Quantum of an object (R278, R298). -/
def State.quantum (s : State) (obj x : Nat) : Nat := 256 * max 1 (s.cfd (TM.SCHED.of (obj + x)) 15 8)

/-- The choice: the copy, its node, and the deficits after it (R278), of the nodes and then of the chosen node's queues: one that is
passed over keeps the quanta it got. -/
def State.pick (s : State) (p : Nat) (cut : Option Nat) : Option (Copy × Nat × Tbl Nat) :=
  let qs := (List.range 16).map (16 * p + ·)
  let el := qs.filter fun q => (s.eligible cut q).isSome
  let cost := fun q => ((s.eligible cut q).map (·.len)).getD 0
  let nodes := (List.range 4).map (4 * p + ·)
  let mine := fun n => s.topPrio objQ (el.filter fun q => decide (s.nodeOf q = n))
  let best := fun n d => drr (s.quantum 0) cost (tget 0 s.ctl.net.lastQ n) (mine n) d
  let el4 := s.topPrio objN (nodes.filter fun n => !(mine n).isEmpty)
  let ncost := fun n => (((best (n - 8192) s.ctl.net.deficit).1).map cost).getD 0
  match drr (fun n => s.quantum 0 n) ncost (tget 0 s.ctl.net.lastQ (1000000 + p)) (el4.map objN) s.ctl.net.deficit with
  | (some n, d) =>
    match best (n - 8192) d with
    | (some q, d') => (s.eligible cut q).map fun c => (c, n - 8192, d')
    | (none, _) => none
  | (none, _) => none

/-- Record a choice: current queue and node, deficits, those of an emptied queue and node gone. -/
def notePick (p : Nat) (c : Copy) (n : Nat) (d : Tbl Nat) : Prog := get fun s =>
  let last := nset 0 (nset 0 s.ctl.net.lastQ n c.queue) (1000000 + p) (objN n)
  let last1 := decide ((s.queue c.queue).length ≤ 1)
  let d1 := if last1 then nset 0 d c.queue 0 else d
  let others := (List.range 16).any fun k => decide (16 * p + k ≠ c.queue) && decide (s.nodeOf (16 * p + k) = n) && !(s.queue (16 * p + k)).isEmpty
  let d' := if last1 && !others then nset 0 d1 (objN n) 0 else d1
  ctl fun k => { k with net := { k.net with lastQ := last, deficit := d' } }

/-! ## Transmission -/

/-- A MAC timestamp in the domain of a port after its latency compensation (R63, R213): WT and the TSX field. -/
def macStamp (d : Dom) (comp : Nat) : Nat × Nat :=
  let v := ((d.nanos * 2 ^ 40 + d.frac : Nat) + toSigned 32 comp * 2 ^ 32).toNat
  (v / 2 ^ 41 % 2 ^ 48, v / 2 ^ 22 % 2 ^ 18 + v / 2 ^ 40 % 2 * 2 ^ 18)

/-- Ones' complement checksum of an L4 segment with its pseudo-header (R200). -/
def l4Sum (f : List Byte) (v6 : Bool) (o o4 proto n : Nat) : Nat :=
  let addrs := if v6 then slice f (o + 8) 32 else slice f (o + 12) 8
  inetSum (addrs ++ beBytes 4 n ++ beBytes 4 proto ++ slice f o4 n)

/-- The checksums a send asks for, inserted (R200, R207). L4_CSUM with L4_TYPE 0, and L3_CSUM for IPv6, insert none: the spec names no
checksum for them (DESIGN CHOICE, log entry 145). -/
def insertSums (w : Work) (f : List Byte) : List Byte :=
  let o := w.at 28 1
  let o4 := w.at 29 1
  let t := w.at 30 1
  let v6 := tbit t 2
  let f1 := if w.flag 9 && !v6 then fixIPv4 f o else f
  if !w.flag 10 || decide (t % 4 = 0) || decide (t % 4 = 3) then f1 else
  let at4 := o4 + (if t % 4 = 1 then 16 else 6)
  let n := if v6 then beAt f1 (o + 4) 2 + 40 - (o4 - o) else beAt f1 (o + 2) 2 - (o4 - o)
  let f2 := splice f1 at4 [0, 0]
  let v := l4Sum f2 v6 o o4 (if t % 4 = 1 then 6 else 17) n
  splice f2 at4 (beBytes 2 (if t % 4 = 2 ∧ v = 0 then 0xFFFF else v))

/-- Frame bytes as the MAC sends them: checksums, then padding to 60 bytes (R200, R207). -/
def State.wireBytes (s : State) (c : Copy) : List Byte :=
  let f := match c.work.bind s.work? with
    | some w => if w.typ = 0x10 then insertSums w c.bytes else c.bytes
    | none => c.bytes
  f ++ List.replicate (60 - f.length) 0

/-- A domain time after a MAC's latency compensation (R63, R213). -/
def Dom.comp (d : Dom) (c : Nat) : Dom :=
  let v := ((d.nanos * 2 ^ 40 + d.frac : Nat) + toSigned 32 c * 2 ^ 32).toNat
  { d with sec := v / 2 ^ 40 / 1000000000, ns := v / 2 ^ 40 % 1000000000, frac := v % 2 ^ 40 }

/-- A domain time in 2^-40 ns. -/
def Dom.fine (d : Dom) : Nat := d.nanos * 2 ^ 40 + d.frac

/-- A frame after one-step PTP at its egress (R64), its fields where IEEE 1588 has them: a Sync of the device's own whose twoStepFlag
is clear takes originTimestamp; an event message from the network adds its residence time, between the two timestamps of its MACs, to
correctionField. The UDP checksum of a changed frame is computed anew. That every such frame is changed is a DESIGN CHOICE (log entry
59): no register selects it. -/
def oneStep (m : OneStep) (tx : Dom) (f : List Byte) : List Byte :=
  let typ := beAt f m.off 1 % 16
  let g := match m.rx with
    | none => if typ = 0 ∧ tbit (beAt f (m.off + 6) 1) 1 = false ∧ m.off + 44 ≤ f.length then
        splice f (m.off + 34) (beBytes 6 (tx.sec % 2 ^ 48) ++ beBytes 4 tx.ns) else f
    | some r => if typ < 4 ∧ m.off + 16 ≤ f.length then
        splice f (m.off + 8) (beBytes 8 (((beAt f (m.off + 8) 8 : Int) + ((tx.fine : Int) - r.fine) / 2 ^ 24) % 2 ^ 64).toNat) else f
  match m.l3, m.udp with
  | some (o, v6), some o4 =>
    if g = f then g else
    let n := if v6 then beAt g (o + 4) 2 + 40 - (o4 - o) else beAt g (o + 2) 2 - (o4 - o)
    let z := splice g (o4 + 6) [0, 0]
    let v := l4Sum z v6 o o4 17 n
    splice z (o4 + 6) (beBytes 2 (if v = 0 then 0xFFFF else v))
  | _, _ => g

/-- Bin of a delay or depth (R297): `unit` 64 for depth bytes, 256 for delay ns. -/
def histBin (unit v : Nat) : Nat :=
  if v < (if unit = 64 then 1 else unit) then 0
  else ((List.range 16).filter fun k => decide (k = 1) || (decide (2 ≤ k) && decide (unit * 2 ^ (k - 1) ≤ v))).length

/-- Step a histogram bin of a queue. -/
def histStep (q kind bin : Nat) : Prog :=
  ctl fun c => { c with net.hist := nmod 0 c.net.hist (q * 32 + kind * 16 + bin) fun v => satAdd 32 v 1 }

/-- A copy starts on its port, read back from the spill region first: timestamp, debits, delay histogram (R60, R63, R203, R275,
R281, R296). -/
def startCopy (c : Copy) (cut : Bool) : Prog := get fun s =>
  let d := s.dom (s.portDom c.port)
  let (wt, tsx) := macStamp d (s.cfg (MAC.TX_LAT_COMP.of c.port))
  let b := s.wireBytes c
  let b' := (c.step1.map fun m => oneStep m (d.comp (s.cfg (MAC.TX_LAT_COMP.of c.port))) b).getD b
  doAll [
    unqueue c,
    setSending c.port (some ⟨{ c with bytes := b', cut := cut, spill := false }, wt, if c.ptp then some tsx else none, false, 0, false, 0, 0⟩),
    debit (shQ c.queue) c.len, debit (shN (s.nodeOf c.queue)) c.len, debit (shP c.port) c.len,
    Prog.when c.confirmed (histStep c.queue 1
      (histBin 256 ((2 * wtDiff d.wt c.confWT).toNat))),
    Prog.when c.confirmed (peep 4 2 c.queue)]

/-- Whether a MAC can start a frame or fragment (R278): it sends nothing, transmits, and is not in LPI. -/
def State.macReady (s : State) (p : Nat) : Bool :=
  (s.sending p).isNone && s.macBit p 1 && !tget false s.ctl.net.lpiTx p

/-- How late a launch is, in ns (R294). -/
def State.lateness (s : State) (c : Copy) : Int :=
  match c.launch with
  | some w => let d := s.dom (s.portDom c.port); 2 * wtDiff d.wt w + (d.ns % 2 : Nat)
  | none => 0

/-- Heads that never fit their gate are dropped (R291). -/
def dropOversize (q : Nat) : Prog := get fun s =>
  Prog.each ((s.queue q).takeWhile fun c => c.confirmed && s.gateOversize c) fun c => doAll [unqueue c,
    inc TM.GATE_OVERSIZE_CNT, inc TM.TM_DROP_CNT, int Pg.tm 0 2, peep 4 1 q, dropCopy c ST.TM_DROP]

/-- The check of a frame failed that has a started copy on a port (R31, R206, R213). -/
def stompSeen (p : Nat) : Prog := doAll [incW (MAC.TX_STOMPED.of p) 1, int Pg.mac p 2, peep 3 2 p]

/-- A started copy of a frame whose check failed ends with the inverse FCS (R206, R203). -/
def stomp (x : Sending) (key : Nat) : Prog := doAll [
  emit (.frame x.copy.port x.copy.bytes false), sentOctets x.copy.port (x.copy.bytes.length + 4), setSending key none]

/-- SCHEDULER_SELECT (R278, R279, R291, R294, R208): the next frame of a port starts, or is dropped where it would be
chosen; with no express choice a preempted frame goes on (R292), or ends stomped (R203). -/
def execSchedulerSelect (p : Fin 512) (s : State) : Res := live 3 (doAll [
  Prog.each (List.range 16) (fun k => dropOversize (16 * p.val + k)),
  get fun s =>
    match s.pick p.val none with
    | some (c, n, d) =>
      if !s.portUp p.val then doAll [notePick p.val c n d, unqueue c, inc TM.PORT_DOWN_CNT, peep 4 1 c.queue, dropCopy c ST.PORT_DOWN]
      else if !s.macReady p.val then .skip
      else
        let lim := s.cfg (TM.LATE_LIMIT.of (objQ c.queue))
        if lim ≠ 0 ∧ (lim : Int) < s.lateness c then doAll [notePick p.val c n d, unqueue c, inc TM.LATE_DROP_CNT, int Pg.tm 0 1,
          peep 4 1 c.queue, dropCopy c ST.LATE_DROP]
        else if s.cfd (MAC.MAX_FRAME.of p.val) 13 0 - 4 < c.bytes.length then doAll [notePick p.val c n d, unqueue c, peep 4 1 c.queue,
          dropCopy c ST.ABORTED]
        else doAll [notePick p.val c n d, startCopy c false]
    | none =>
      match s.sending (512 + p.val) with
      | some x =>
        let w := s.gateWord p.val
        Prog.when (s.portUp p.val && s.macReady p.val && tbit w x.copy.cls && !((s.louvre p.val).run && tbit w 16) &&
          !s.isPaused p.val x.copy.cls) (if x.bad then stomp x (512 + p.val) else doAll [setSending (512 + p.val) none, setSending p.val (some x)])
      | none => Prog.each ((List.range 16).map (16 * p.val + ·)) fun q =>
          match s.queue q with
          | c :: _ => Prog.when (c.confirmed && !s.gateOpen c) (peep 4 3 q)
          | [] => .skip]) s

/-- Count what a read finds, and poison what an uncorrectable error spoils (R20, R21, R25). -/
def MemErr.note : MemErr → Prog
  | .none => .skip
  | .ce m => memCE m.val
  | .ue m a => ueSeen m.val a false

/-- A frame has left the MAC: counters (R213) and its completion (R16, R208). -/
def txDone (x : Sending) : Prog :=
  let c := x.copy
  let n := c.bytes.length + 4
  doAll [emit (.frame c.port c.bytes true), incW (MAC.TX_OK.of c.port) 1, sentOctets c.port n, setSending c.port none,
    match c.rdma with
    | some (q, psn) => ctl fun k => { k with rdma.left := k.rdma.left ++ [(q, psn, x.wt)] }
    | none => .skip,
    copyGone c ST.OK (some (c.port, x.wt, x.tsx, c.bytes.length)), pauseOf c]

/-! ## Pause, preemption, LPI (R199, R202, R204, R277, R292) -/

/-- PAUSE_RECEIVED (R199, R213): a PFC frame names priorities with their quanta, a PAUSE frame all of them; quanta 0 releases. It is a
good frame of 64 bytes. -/
def execPauseReceived (p : Fin 512) (pfc : Bool) (quanta : List (Fin 8 × BitVec 16)) (s : State) : Res := live 3 (get fun u => Prog.when (u.portUp p.val && u.macBit p.val 0) (doAll [
  gotOctets p.val 64,
  if pfc then Prog.each quanta fun e => incW ((MAC.RX_PFC e.1.val).of p.val) 1 else incW (MAC.RX_PAUSE.of p.val) 1,
  get fun s =>
    if pfc then Prog.when (s.macBit p.val 4) (Prog.each quanta fun e =>
      ctl fun c => { c with net.paused := fset c.net.paused (16 * p.val + e.1.val) (decide (e.2 ≠ 0)) })
    else Prog.when (s.macBit p.val 5 && !s.macBit p.val 4)
      (ctl fun c => { c with net.paused := fset c.net.paused (16 * p.val + 8) (quanta.any fun e => decide (e.2 ≠ 0)) })])) s

/-- PAUSE_EXPIRED (R199): the pause of a priority, or of the whole port (8), runs out. -/
def execPauseExpired (p : Fin 512) (g : Fin 9) (s : State) : Res :=
  done (ctl fun c => { c with net.paused := fset c.net.paused (16 * p.val + g.val) false }) s

/-- PFC_REPEAT (R277): of a lossless group that is paused. -/
def execPfcRepeat (p : Fin 512) (g : Fin 9) (s : State) : Res := live 3 (get fun s =>
  Prog.when (s.lossless p.val g.val && tget false s.ctl.net.pfcSent (16 * p.val + g.val) && decide (s.xon p.val ≤ s.usage true p.val g.val))
    (sendPause p.val g.val 0xFFFF)) s

/-- PREEMPT_VERIFY (R202): a verify attempt succeeds, or its verifyTime ends; the third that fails is the last. -/
def execPreemptVerify (p : Fin 512) (ok : Bool) (s : State) : Res := live 3 (get fun s =>
  if !s.macBit p.val 7 || s.macBit p.val 10 || decide (2 ≤ s.fd (MAC.MAC_STATUS.of p.val) 4 3) then .skip else
  let n := tget 0 s.ctl.net.verify p.val + 1
  doAll [
    ctl fun c => { c with net.verify := nset 0 c.net.verify p.val (if ok then 0 else n % 3) },
    if ok then wrF (MAC.MAC_STATUS.of p.val) 4 3 2
    else if 3 ≤ n then doAll [wrF (MAC.MAC_STATUS.of p.val) 4 3 3, int Pg.mac p.val 1]
    else wrF (MAC.MAC_STATUS.of p.val) 4 3 1]) s

/-- MAC_PREEMPT (R202, R292, R295): the preemptable frame on a port is cut after so many more of its bytes, before its gate closes, a HOLD
applies or an express frame starts. The fragment has its least length, mCRC included, and leaves some of the frame. The counters of
a frame whose check is not done wait for it (R30). -/
def execMacPreempt (c : FrameCut) (s : State) : Res := live 3 (get fun s =>
  let p := c.port.val
  let n := c.bytes
  match s.sending p with
  | some x =>
    let hold := (s.louvre p).run && tbit (s.gateWord p) 16
    let late := !x.copy.confirmed
    Prog.when (s.preemptable p x.copy.cls && decide (s.fragMin p ≤ n + 4) && decide (x.sent + n < x.copy.bytes.length)) (doAll [
      setSending p none,
      setSending (512 + p) (some { x with cutOff := true, sent := x.sent + n, frags := x.frags + b2n late, holds := x.holds + b2n (late && hold) }),
      Prog.when (!late) (doAll [incW (MAC.MM_FRAG_TX.of p) 1, Prog.when hold (incW (MAC.MM_HOLD.of p) 1)]),
      emit (.fragment p x.copy.frame (slice x.copy.bytes x.sent n))])
  | none => .skip) s

/-- Whether a port may use LPI (R204): native, its first lane in L100 or L50. -/
def State.lpiPort (s : State) (p : Nat) : Bool :=
  s.macBit p 6 && !s.cbit (CAL.PORT p) 1 && decide (2 ≤ s.fd (LANE.LANE_CTL (p / 8)) 1 0)

/-- Whether a launch or a louvre change of a port is due within `us` µs (R204). -/
def State.dueSoon (s : State) (p us : Nat) : Bool :=
  s.ctl.time.events.any fun e =>
    let mine := match e.consumer with
      | .louvre x => decide (x = p)
      | .frameLaunch id => ((List.range 16).flatMap fun k => s.queue (16 * p + k)).any fun c => decide (c.id = id)
      | _ => false
    mine && decide (wtDiff e.target (s.wt e.dom) ≤ (us * 500 : Nat))

/-- LPI_ENTER (R204): the queues have been empty for LPI_IDLE µs and nothing is due. -/
def execLpiEnter (p : Fin 512) (s : State) : Res := live 3 (get fun s =>
  Prog.when (s.lpiPort p.val && s.portUp p.val && (s.sending p.val).isNone && !tget false s.ctl.net.lpiTx p.val &&
    (List.range 16).all (fun k => (s.queue (16 * p.val + k)).isEmpty) &&
    !s.dueSoon p.val (s.cfd (MAC.LPI_TW.of p.val) 15 0 + s.cfd (MAC.LPI_IDLE.of p.val) 15 0)) (doAll [
      ctl fun c => { c with net.lpiTx := fset c.net.lpiTx p.val true }, wrB (MAC.MAC_STATUS.of p.val) 1 true,
      incW (MAC.LPI_TX_ENTRIES.of p.val) 1, emit (.lpi p.val true)])) s

/-- LPI_WAKE (R204): a frame is queued, or a launch or gate change comes within TW_TX µs. -/
def execLpiWake (p : Fin 512) (s : State) : Res := live 3 (get fun s =>
  Prog.when (tget false s.ctl.net.lpiTx p.val && ((List.range 16).any (fun k => !(s.queue (16 * p.val + k)).isEmpty) ||
    s.dueSoon p.val (s.cfd (MAC.LPI_TW.of p.val) 15 0))) (doAll [
      ctl fun c => { c with net.lpiTx := fset c.net.lpiTx p.val false }, wrB (MAC.MAC_STATUS.of p.val) 1 false,
      emit (.lpi p.val false)])) s

end Sys2Proof.Machine
end

