-- ==== Sys2Proof/Machine/Shape.lean ====
section
/-! DEFINITION. Rows of the traffic manager's timers and tables: refills (R282, R284), policers (R284 to R287), louvre lists
(R288, R289), launches (R56, R62, R293), telemetry (R296), replication groups (R280), latency reports (R130, R131). -/

namespace Sys2Proof.Machine

/-! ## Refills and policers -/

/-- SHAPER_REFILL (R281, R282): the next event credits one block of 64 shapers; with STEPPED it adds nothing. -/
def execShaperRefill (s : State) : Res := live 3 (
  dispatch (fun c => match c with | .shaperRefill _ => true | _ => false) fun e stepped =>
    match e.consumer with
    | .shaperRefill b => doAll [Prog.when (!stepped) (Prog.each (List.range 64) fun k => refillShaper (64 * b + k)), nextPeriod e stepped]
    | _ => .skip) s

/-- A policer after one refill: srTCM spills its full first bucket into the second (RFC 2697), trTCM fills both (RFC 2698). -/
def Policer.refill (p : Policer) : Policer :=
  let cbs := p.cbs * 256
  let ebs := p.ebs * 256
  if p.w0 % 4 = 1 then { p with c := min cbs (p.c + p.cir), e := min ebs (p.e + (p.c + p.cir - cbs)) }
  else if p.w0 % 4 = 2 then { p with c := min cbs (p.c + p.cir), e := min ebs (p.e + p.pir) }
  else p

/-- POLICER_REFILL (R284, R287). -/
def execPolicerRefill (s : State) : Res := live 3 (
  dispatch (fun c => match c with | .polBlock _ => true | _ => false) fun e stepped =>
    match e.consumer with
    | .polBlock b => doAll [
        Prog.when (!stepped) (ctl fun c => { c with net.policers := c.net.policers.map fun x =>
          if x.1 / 256 = b then (x.1, x.2.refill) else x }),
        nextPeriod e stepped]
    | _ => .skip) s

/-- Colours of a policer. -/
def cGreen : Nat := 0
def cYellow : Nat := 1
def cRed : Nat := 2

/-- What a policer makes of `n` bytes that enter in colour `pre`: the colour and the buckets left (R284). -/
def Policer.meter (p : Policer) (pre n : Nat) : Nat × Policer :=
  let b := n * 256
  let pre := if tbit p.w0 2 then pre else cGreen
  if p.w0 % 4 = 1 then
    if pre = cGreen ∧ b ≤ p.c then (cGreen, { p with c := p.c - b })
    else if pre ≠ cRed ∧ b ≤ p.e then (cYellow, { p with e := p.e - b })
    else (cRed, p)
  else if p.w0 % 4 = 2 then
    if pre = cRed ∨ p.e < b then (cRed, p)
    else if pre = cYellow ∨ p.c < b then (cYellow, { p with e := p.e - b })
    else (cGreen, { p with c := p.c - b, e := p.e - b })
  else (cGreen, p)

/-- A policer's count of a colour. -/
def Policer.count (p : Policer) (col : Nat) : Policer :=
  if col = cGreen then { p with green := satAdd 32 p.green 1 }
  else if col = cYellow then { p with yellow := satAdd 32 p.yellow 1 }
  else { p with red := satAdd 32 p.red 1 }

/-- The policer decides on a frame (R284 to R286): `k` gets the frame's class, or nothing when it drops it. The colour under
the reserved MODE 3 is free. -/
def police (idx pipe cls n : Nat) (k : Option Nat → Prog) : Prog := fresh fun v => get fun s =>
  let p := tget Policer.init s.ctl.net.policers idx
  let pc := s.rd (TM.PCOLOUR pipe)
  let pre := if tbit pc (16 + cls) then cRed else if tbit pc cls then cYellow else cGreen
  let (col, p') := if p.w0 % 4 = 3 then (v % 3, p) else p.meter pre n
  let act := if col = cYellow then field p.w0 9 8 else if col = cRed then field p.w0 11 10 else 0
  doAll [ctl fun c => { c with net.policers := nset Policer.init c.net.policers idx (p'.count col) },
    if act = 0 then k (some cls)
    else if act = 1 then k (some (if col = cYellow then field p.w0 19 16 else field p.w0 23 20))
    else doAll [countDrops 0 1 0 0, k none]]

/-- POL_W4_WRITE (R287): W0 to W4 become the selected policer's entry; its buckets fill or empty. -/
def execPolW4Write (a : Accessor) (v : Word) (s : State) : Res := done (byWriter a Pg.tm 0x214 (doAll [
  wr TM.POL_W4 v.toNat,
  get fun s =>
    let i := s.sel a Pg.tm 0x200 % 2 ^ 18
    let w0 := s.rd TM.POL_W0
    let cbs := s.fd TM.POL_W2 23 0
    let ebs := s.fd TM.POL_W4 23 0
    let full := tbit w0 3
    let p := tget Policer.init s.ctl.net.policers i
    ctl fun c => { c with net.policers := nset Policer.init c.net.policers i { p with
      w0 := w0, cir := s.rd TM.POL_W1, cbs := cbs, pir := s.rd TM.POL_W3, ebs := ebs
      c := if full then cbs * 256 else 0
      e := if full then ebs * 256 else 0 } }])) s

/-- REPL_CTL_WRITE (R280, R298). -/
def execReplCtlWrite (a : Accessor) (v : Word) (s : State) : Res := done (byWriter a Pg.tm 0x304 (doAll [
  wr TM.REPL_CTL v.toNat,
  get fun s =>
    let mask := ((List.range 16).map fun w => s.rd (TM.REPL_MASK w) * 2 ^ (32 * w)).sum
    ctl fun c => { c with net.repl := nset ⟨false, 0⟩ c.net.repl (s.sel a Pg.tm 0x300 % 4096) ⟨v.getLsbD 0, mask⟩ }])) s

/-! ## Louvre lists -/

/-- LV_W1_WRITE (R288): an entry of the selected bank, unless the port runs that bank. -/
def execLvW1Write (a : Accessor) (v : Word) (s : State) : Res := done (byWriter a Pg.tm 0x288 (get fun s =>
  let sel := s.sel a Pg.tm 0x280
  let p := field sel 8 0
  let bank := field sel 24 24
  if (s.louvre p).run = true ∧ (s.louvre p).bank = bank then err Pg.tm 0 EC.ACCESS RS.WRONG_STATE (bar0 Pg.tm 0x288)
  else
    let i := (2 * p + bank) * 256 + field sel 23 16
    let e := (s.fd TM.LV_W0 16 0, v.toNat)
    doAll [wr TM.LV_W1 v.toNat, ctl fun c => { c with net.lvEntry := nset (0, 0) c.net.lvEntry i e }])) s

/-- When a port's gates next change, in ns of domain time (R289). -/
def State.louvreNext (s : State) (p : Nat) : Option Nat :=
  let l := s.louvre p
  let own := if !l.run then none else
    match (s.lvCycle p l.bank l.count l.cycle)[l.entry + 1]? with
    | some x => some (l.cycleAt + x.2.1)
    | none => some (l.cycleAt + l.cycle)
  match own, l.pendingAt with
  | some a, some b => some (min a b)
  | some a, none => some a
  | none, b => b

/-- The list of a port stops; its gates take LV_FALLBACK (R289). -/
def louvreStop (p : Nat) : Prog := doAll [cancelFor (fun c => decide (c = .louvre p)),
  get fun s => setLouvre p { s.louvre p with run := false, entry := 0, pendingAt := none }]

/-- Schedule the next gate change of a port. A refused request stops the list, reported as R57 says. -/
def louvreArm (p : Nat) : Prog := .seq (cancelFor fun c => decide (c = .louvre p)) (get fun s =>
  match s.louvreNext p with
  | none => .skip
  | some t => request (s.portDom p) 0 (.full (ceilDiv t 2) ((s.dom (s.portDom p)).nanos / 2)) (.louvre p) fun st _ =>
    Prog.when (decide (st ≠ ST.OK)) (doAll [
      err Pg.tm 0 EC.NET RS.RESCHED_REFUSED (p + st * 2 ^ 32), louvreStop p, int Pg.tm 0 3]))

/-- First cycle start at or after `lim` (R289 step 1). -/
def firstCycle (base cycle lim : Nat) : Nat := if lim ≤ base then base else base + ceilDiv (lim - base) cycle * cycle

/-- First cycle start of the list that a port context asks for, from `lim` on; `c` reads the context. -/
def lvFirst (c : Reg → Nat) (p lim : Nat) : Nat :=
  let r := objP p
  let sec := c (TM.LV_BASE_SEC.of r) + 2 ^ 32 * (c (TM.LV_BASE_SEC.of r).hi % 65536)
  firstCycle (sec * 1000000000 + c (TM.LV_BASE_NS.of r) % 2 ^ 30) (max 1 (c (TM.LV_CYCLE_NS.of r))) lim

/-- The least domain time 1 µs after now, in whole ns (R289). -/
def State.lvLimit (s : State) (p : Nat) : Nat :=
  let d := s.dom (s.portDom p)
  d.nanos + (if d.frac = 0 then 0 else 1) + 1000

/-- From when on a new list may start: 1 µs from now, and no earlier than the end of the running list's cycle (R289). -/
def State.lvFrom (s : State) (p : Nat) : Nat :=
  let l := s.louvre p
  if l.run then max (s.lvLimit p) (l.cycleAt + l.cycle) else s.lvLimit p

/-- A port commit's effect on its list (R289 steps 1, 4, 5). -/
def louvreCommit (p : Nat) : Prog := get fun s =>
  if !s.cbit (TM.PORT_CTL.of (objP p)) 0 then louvreStop p else
  doAll [setLouvre p { s.louvre p with pendingAt := some (lvFirst s.cfg p (s.lvFrom p)) }, louvreArm p]

/-- Whether a port's next change starts a cycle. -/
def State.louvreStarts (s : State) (p : Nat) : Bool :=
  let l := s.louvre p
  !l.run || decide (s.louvreNext p = l.pendingAt) ||
    decide ((s.lvCycle p l.bank l.count l.cycle).length ≤ l.entry + 1)

/-- A gate event that fires with OK (R289 steps 2 to 4). -/
def louvreFire (p : Nat) : Prog := get fun s =>
  let l := s.louvre p
  let (b, n, cy) := s.lvCommitted p
  let l' := match l.pendingAt with
    | some t => if s.louvreNext p = some t then
        { l with run := true, bank := b, entry := 0, cycleAt := t, pendingAt := none, count := n, cycle := cy }
      else if s.louvreStarts p then { l with entry := 0, cycleAt := l.cycleAt + l.cycle } else { l with entry := l.entry + 1 }
    | none => if s.louvreStarts p then { l with entry := 0, cycleAt := l.cycleAt + l.cycle } else { l with entry := l.entry + 1 }
  doAll [setLouvre p l', louvreArm p]

/-- The next event when it is a gate event: its port, and whether it fires with STEPPED. -/
def State.louvreDue (s : State) : Option (Nat × Bool) :=
  s.nextEvent.bind fun e => match e.1.consumer with
    | .louvre p => some (p, e.2)
    | _ => none

/-- Dispatch a gate event. -/
def louvreEvent (p : Nat) : Prog := dispatch (fun c => decide (c = .louvre p)) fun _ stepped =>
  if stepped then doAll [louvreStop p, int Pg.tm 0 3] else louvreFire p

/-- LOUVRE_CYCLE_START (R289): the next event starts a cycle of a port's list. -/
def execLouvreCycleStart (s : State) : Res := live 3 (get fun s =>
  match s.louvreDue with
  | some (p, false) => Prog.when (s.louvreStarts p) (louvreEvent p)
  | _ => .skip) s

/-- LOUVRE_LIST_CHANGE (R56, R289): the next event applies the next entry, or with STEPPED stops the list. -/
def execLouvreListChange (s : State) : Res := live 3 (get fun s =>
  match s.louvreDue with
  | some (p, true) => louvreEvent p
  | some (p, false) => Prog.when (!s.louvreStarts p) (louvreEvent p)
  | none => .skip) s

/-! ## Launches, telemetry, latency -/

/-- Change a queued copy. -/
def modCopy (id : Nat) (f : Copy → Copy) : Prog := ctl fun c => { c with net.queues := c.net.queues.map fun e =>
  (e.1, e.2.map fun x => if x.id = id then f x else x) }

/-- LAUNCH_DUE (R56, R293): the next event makes a frame eligible, or with STEPPED withdraws it. -/
def execLaunchDue (s : State) : Res := live 3 (
  dispatch (fun c => match c with | .frameLaunch _ => true | _ => false) fun e stepped =>
    match e.consumer with
    | .frameLaunch id => if stepped then get fun s =>
        match s.copies.find? (fun c => decide (c.id = id)) with
        | some c => doAll [unqueue c, dropCopy c ST.STEPPED]
        | none => .skip
      else modCopy id fun c => { c with eligible := true }
    | _ => .skip) s

/-- PORT_DOM_WRITE (R62, R69): of the eight ports 8k to 8k + 7; a changed domain withdraws a port's launch-time frames with
STEPPED. -/
def execPortDomWrite (a : Accessor) (k : Fin 64) (v : Word) (s : State) : Res := done (
  byWriter a Pg.time (0x300 + 4 * k.val) (get fun s => doAll [
    Prog.each ((List.range 8).filter fun j => decide (field v.toNat (4 * j + 2) (4 * j) ≠ s.portDom (8 * k.val + j))) (fun j =>
      Prog.each (((List.range 16).flatMap fun q => s.queue (16 * (8 * k.val + j) + q)).filter fun c => c.launch.isSome) fun c =>
        doAll [unqueue c, dropCopy c ST.STEPPED]),
    wr (TIME.PORT_DOM k.val) v.toNat])) s

/-- TELEMETRY_SAMPLE (R296, R297): every queue's depth goes into its histogram. -/
def execTelemetrySample (s : State) : Res := live 3 (
  dispatch (fun c => match c with | .telemetry => true | _ => false) fun e stepped => doAll [
    get fun s => Prog.when (!stepped && s.bit TM.TEL_CFG 0)
      (Prog.each (List.range 8192) fun q => histStep q 0 (histBin 64 (s.qDepth true q))),
    nextPeriod e stepped]) s

/-- A latency in ns as PCIe encodes it, rounded down: [9:0] value, [12:10] scale, [15] requirement (R131). -/
def ltrField (t : Nat) : Nat :=
  let k := ((List.range 6).find? fun k => decide (t / 32 ^ k < 1024)).getD 5
  min 1023 (t / 32 ^ k) + 1024 * k + 32768

/-- The ns a latency field stands for. -/
def ltrNs (f : Nat) : Nat := f % 1024 * 32 ^ (f / 1024 % 8)

/-- Bytes waiting in a host-bound allowance (R276). -/
def State.hostBoundUse (s : State) (k : Nat) : Nat :=
  ((s.ctl.net.hostBound.filter fun e => decide (e.1 = k)).map fun e => e.2.frame.bytes.length).sum

/-- Confirmed empty receive buffers of a ring, oldest first (R209). -/
def State.rxBufs (s : State) (r : Nat) : List (Nat × Work) := (s.worksOf r).filter fun e => decide (e.2.typ = 0x20 ∧ e.2.stage = 0)

/-- The latency that a link can bear, in ns (R130): within LTR_CFG's limits, the time until its buffer fills or a ring runs out of buffers at
the rate of the last 10 µs, in which `bytes` came for the link and `frames` per ring. -/
def State.ltrTarget (s : State) (l bytes : Nat) (frames : List (Fin 65536 × Nat)) : Nat :=
  let cfg := s.rd (HOST.LTR_CFG (l / 2))
  let lo := field cfg 15 0 * 1000
  let hi := field cfg 31 16 * 1000
  let free := s.fd (TM.HOSTBUF l) 19 0 * 1024 - s.hostBoundUse l
  let tBuf := if bytes = 0 then hi else free * 10000 / bytes
  let tRing := (frames.filter fun e => decide (e.2 ≠ 0) && decide ((s.ring e.1.val).st = .active) &&
    decide (s.ringConsumer e.1.val = 2) && decide (s.linkOf (s.ringOwner e.1.val) = l)).foldl
      (fun a e => min a ((s.rxBufs e.1.val).length * 10000 / e.2)) hi
  max lo (min hi (min tBuf tRing))

/-- LTR_UPDATE (R130, R131): every 10 µs; `bytes` and `frames` arrived for the link and per ring in the last 10 µs. Before the first
message the value last sent is taken as 0, a DESIGN CHOICE (log entry 127). A MAX above 33,554 is taken as it is (DESIGN CHOICE, log
entry 145). -/
def execLtrUpdate (l : Fin 4) (bytes : Nat) (frames : List (Fin 65536 × Nat)) (s : State) : Res := live 3 (get fun s =>
  let h := l.val / 2
  let k := s.link l.val
  let t := s.ltrTarget l.val bytes frames
  let high := if 2 * k.ltrSent < t then k.ltrHigh + 1 else 0
  let send := decide (4 * t < 3 * k.ltrSent) || (decide (2 * k.ltrSent < t) && decide (s.fd (HOST.LTR_HOLD h) 15 0 ≤ 10 * high))
  let f := ltrField t
  Prog.when (k.ltrEn && s.linkUp l.val) (
    if send then doAll [modLink l.val fun x => { x with ltrSent := ltrNs f, ltrHigh := 0 },
      wr (HOST.LTR_LAST h) (f + 65536 * f), emit (.ltr l.val (f + 65536 * f))]
    else modLink l.val fun x => { x with ltrHigh := high })) s

end Sys2Proof.Machine
end

