-- ==== Sys2Proof/Machine/Control.lean ====
section
/-! DEFINITION. Deliveries to control cores (R235, R236, R306, R334) and to flow engines' work queues (R305). -/

namespace Sys2Proof.Machine

/-! ## Work records -/

/-- FLOW_ENTRY and META of a frame's action (R232). -/
def Frame.flowEntry (f : Frame) : Nat := leAt f.dec.act 14 2
def Frame.meta32 (f : Frame) : Nat := leAt f.dec.act 16 4

/-- The work record of a frame item, bytes 0 to 447 (R306). -/
def Frame.record (f : Frame) : List Byte :=
  let slots := (List.range 16).flatMap fun k => leBytes 2 (((f.parsed.slots.find? fun e => decide (e.1 = k)).map (·.2)).getD 0xFFFF)
  slice f.key 0 48 ++ slice f.parsed.fv 0 64 ++ slots ++ leBytes 2 f.parsed.payload ++ leBytes 2 f.bytes.length ++
    leBytes 4 f.meta32 ++ leBytes 2 f.flowEntry ++ leBytes 6 (if f.kind = 1 then 0 else f.ts.wt) ++ leBytes 32 0 ++ slice f.bytes 0 256

/-- The work record of a ring item (R306). -/
def Work.record (w : Work) : List Byte := slice w.desc 0 64 ++ leBytes 4 w.ring ++ leBytes 2 w.fn ++ leBytes 378 0

/-! ## Control-receive rings (R334) -/

/-- A core's control-receive ring. -/
def State.ctrlRing (s : State) (c : Nat) : CtrlRing := tget CtrlRing.init s.ctl.flow.ctrlRings c

/-- Change a core's control-receive ring. -/
def modCtrl (c : Nat) (f : CtrlRing → CtrlRing) : Prog :=
  ctl fun x => { x with flow.ctrlRings := nmod CtrlRing.init x.flow.ctrlRings c f }

/-- Entries of a core's rings: 2^6 to 2^16. -/
def State.ctrlSize (s : State) (c : Nat) : Nat := 2 ^ max 6 (min 16 (s.fd (CORE.CTRLQ_CTL.of c) 5 1))

/-- Write one completion of a core's ring (R170, R172, R174 to R176). -/
def ctrlCpl (c tag st typ len : Nat) (ts : Option (Nat × Option Nat)) (extra : List (Nat × List Byte)) : Prog := get fun s =>
  let g := s.ctrlRing c
  let n := s.ctrlSize c
  let w : Work := { ring := 0, fn := 0, cpl := 0, srcNo := 0, desc := [0, BitVec.ofNat 8 typ, 0, 0] ++ leBytes 4 tag }
  let last := decide (g.widx + 1 = n)
  doAll [
    poke 2 0 (s.rdW (CORE.CTRLQ_CBASE.of c) / 4096 * 4096 + 32 * g.widx)
      (cplBytes w st len (s.wt 0) (cplPhase g.wpass) ts extra),
    modCtrl c fun x => { x with
      widx := if last then 0 else g.widx + 1
      wpass := if last then g.wpass + 1 else g.wpass
      armed := false },
    Prog.when g.armed (evt (s.fd (CORE.CTRLQ_CTL.of c) 27 16))]

/-- Confirm the descriptors at the head of a core's ring while they hold this pass's OWN bytes and a completion slot is left
(R156, R165, R174, R209); a bad one completes with its STATUS. -/
def ctrlScan (c : Nat) : Nat → Prog
  | 0 => .skip
  | k + 1 => get fun s =>
    let g := s.ctrlRing c
    let n := s.ctrlSize c
    let d := s.bytes 2 0 (s.rdW (CORE.CTRLQ_WBASE.of c) / 4096 * 4096 + 64 * g.head) 64
    let own := expectedOwn g.pass g.head
    let len := leAt d 16 4
    let st := if leAt d 1 1 ≠ 0x20 then ST.BAD_TYPE else if len < 256 ∨ 16384 < len then ST.BAD_LENGTH
      else if tbit (leAt d 2 2) 0 then ST.BAD_FIELD else ST.OK
    if !g.scanning then .skip
    else if leAt d 0 1 ≠ own ∨ leAt d 63 1 ≠ own then modCtrl c fun x => { x with scanning := false }
    else if n - 1 ≤ (g.widx + n - g.swHead) % n + g.bufs.length then .skip
    else doAll [
      modCtrl c fun x => { x with
        head := if g.head + 1 = n then 0 else g.head + 1
        pass := if g.head + 1 = n then g.pass + 1 else g.pass
        bufs := if st = ST.OK then x.bufs ++ [(leAt d 4 4, leAt d 8 8, len)] else x.bufs },
      Prog.when (decide (st ≠ ST.OK)) (ctrlCpl c (leAt d 4 4) st (leAt d 1 1) 0 none []),
      ctrlScan c k]

/-- The buffers a frame of `n` bytes takes from the front of a list. -/
def takeBufs : List (Nat × Nat × Nat) → Nat → Option (List (Nat × Nat × Nat))
  | [], n => if n = 0 then some [] else none
  | b :: t, n => if n = 0 then some [] else (takeBufs t (n - b.2.2)).map (b :: ·)

/-- Fill buffers in turn, one completion each (R209); `k` writes one buffer's bytes and completion: its place, bytes, whether
it is the first and whether more follow. -/
def fillBufs {β : Type} (size : β → Nat) (k : β → List Byte → Bool → Bool → Prog) : List β → List Byte → Bool → Prog
  | [], _, _ => .skip
  | b :: t, data, first => doAll [k b (data.take (size b)) first (!t.isEmpty), fillBufs size k t (data.drop (size b)) false]

/-- Bytes 20 to 27 of a receive completion (R209). -/
def rxExtra (f : Frame) (csum : Nat) (first more : Bool) : List (Nat × List Byte) :=
  [(20, leBytes 2 ((if f.kind = 0 then f.src else 0) + 4096 * f.dec.cls) ++ leBytes 1 csum ++ leBytes 1 (b2n first + 2 * b2n more) ++
    leBytes 4 f.dec.hash)]

/-- The timestamp in a receive completion: of the first buffer of a network frame, with the TSX field for a PTP event (R63, R201, R209). -/
def rxStamp (f : Frame) (first : Bool) : Option (Nat × Option Nat) :=
  let st := macStamp f.ts 0
  if first && decide (f.kind = 0) then some (st.1, if f.parsed.ptp.isSome then some st.2 else none) else none

/-- Under what number frames wait for a core's ring in the host-bound allowance of the control cores (R276): past those of the rings. -/
def ctrlWait (c : Nat) : Nat := 131072 + c

/-- What a frame brings to a core's buffers (R334). -/
def Frame.coreBytes (f : Frame) : List Byte := slice f.record 0 192 ++ leBytes 64 0 ++ f.bytes

/-- The frames that wait for a core's ring go into its confirmed buffers, oldest first, while these suffice (R276, R334). -/
def ctrlFlush (c : Nat) : Nat → Prog
  | 0 => .skip
  | k + 1 => get fun s =>
    match s.ctl.net.hostBound.find? (fun x => decide (x.2.ring = ctrlWait c)) with
    | none => .skip
    | some x =>
      let f := x.2.frame
      match takeBufs (s.ctrlRing c).bufs f.coreBytes.length with
      | none => .skip
      | some l => doAll [
          ctl fun k => { k with net.hostBound := k.net.hostBound.erase x },
          modCtrl c fun x => { x with bufs := x.bufs.drop l.length },
          fillBufs (fun b => b.2.2) (fun b d first more => doAll [poke 2 0 b.2.1 d,
            ctrlCpl c b.1 ST.OK 0x20 d.length (rxStamp f first) (rxExtra f f.csum first more)])
            l f.coreBytes true,
          ctrlFlush c k]

/-- Serve what waits for a core's ring. -/
def ctrlServe (c : Nat) : Prog := get fun s => ctrlFlush c s.ctl.net.hostBound.length

/-- Deliver a frame to the control cores (R276, R334): to the (hash mod N)-th core whose ring is enabled, where it waits in HOSTBUF4 for
confirmed buffers. One that the allowance has no room for, or that no enabled core takes, is dropped (R210); with none enabled the
spec names no core whose counter steps: it is free. -/
def toCores (f : Frame) : Prog := get fun s =>
  let on := (List.range 48).filter fun c => s.bit (CORE.CTRLQ_CTL.of c) 0
  let gone := fun c => doAll [inc (CORE.CTRLQ_DROP_CNT.of c), Prog.when (decide (f.kind = 0)) (incW (MAC.RX_NOBUF.of f.src) 1)]
  match on[f.dec.hash % max 1 on.length]? with
  | none => fresh fun v => gone (v % 48)
  | some c =>
    if s.fd (TM.HOSTBUF 4) 19 0 * 1024 < s.hostBoundUse 4 + f.bytes.length then gone c
    else .seq (ctl fun k => { k with net.hostBound := k.net.hostBound ++ [(4, ⟨ctrlWait c, f⟩)] }) (ctrlServe c)

/-- A frame of the device's own making, of no network port or ring; of what its work record would hold, `b` gives the key, the action
and the field vector. -/
def State.ownFrame (s : State) (pipe src : Nat) (d : Dom) (b bytes : List Byte) (hash : Nat) : Frame :=
  ⟨s.ctl.net.nextFrame, pipe, 2, src, none, bytes, 0, false, false, 0, 0, false, false, 0, d, { ParseRec.start 0 with fv := slice b 72 64 },
    slice b 24 48, { Decision.nothing with act := b.take 24, hash := hash % 2 ^ 32 }, false, 0, 0, 0, 0, 0, (0, 0)⟩

/-- A copy to the cores by COPY_CTRL or TO_CONTROL, when the pipeline's bucket has a token (R236). -/
def limitedToCores (f : Frame) : Prog := get fun s =>
  let lim := f.dec.ctrlLim
  let tok := tget 0 s.ctl.net.ctrlTok f.pipe
  if lim = 0 then toCores f
  else if tok = 0 then doAll [inc (CLASS.CTRL_LIMIT_DROP_CNT.of f.pipe), int Pg.cls f.pipe 2]
  else doAll [ctl fun c => { c with net.ctrlTok := nset 0 c.net.ctrlTok f.pipe (tok - 1) }, toCores f]

/-- CTRL_LIMIT_REFILL (R236). -/
def execCtrlLimitRefill (s : State) : Res := live 3 (
  dispatch (fun c => match c with | .ctrlLimit _ => true | _ => false) fun e stepped =>
    match e.consumer with
    | .ctrlLimit p => doAll [
        Prog.when (!stepped) (get fun s => ctl fun c => { c with
          net.ctrlTok := nset 0 c.net.ctrlTok p (s.cfd (CLASS.CTRL_LIMIT.of p) 15 0) }),
        nextPeriod e stepped]
    | _ => .skip) s

/-- CTRLQ_DB (R334): a doorbell of a core's descriptor ring. -/
def execCtrlqDb (a : Accessor) (s : State) : Res := done (byWriter a Pg.core 0x134 (get fun s =>
  let c := s.instSel a Pg.core
  Prog.when (s.bit (CORE.CTRLQ_CTL.of c) 0) (doAll [modCtrl c fun x => { x with scanning := true }, ctrlScan c 65536, ctrlServe c]))) s

/-- CTRLQ_HEAD_WRITE (R175, R334). -/
def execCtrlqHeadWrite (a : Accessor) (v : Word) (s : State) : Res := done (byWriter a Pg.core 0x138 (get fun s =>
  let c := s.instSel a Pg.core
  let g := s.ctrlRing c
  let n := s.ctrlSize c
  let h := field v.toNat 15 0
  if h < n ∧ (h + n - g.swHead) % n ≤ (g.widx + n - g.swHead) % n then doAll [
    modCtrl c fun x => { x with swHead := h },
    Prog.when (v.getLsbD 31) (if g.widx = h then modCtrl c fun x => { x with armed := true }
      else doAll [modCtrl c fun x => { x with armed := false }, evt (s.fd (CORE.CTRLQ_CTL.of c) 27 16)]),
    ctrlScan c 65536, ctrlServe c]
  else doAll [inc RING.HEAD_REJ_CNT, int Pg.ring 0 1])) s

/-! ## Engine work queues (R305) -/

/-- An engine's work queue. -/
def State.workQueue (s : State) (e : Nat) : List FlowItem := tget [] s.ctl.flow.queues e

/-- Set an engine's work queue, showing its length. -/
def setWorkQueue (e : Nat) (l : List FlowItem) : Prog := doAll [
  ctl fun c => { c with flow.queues := nset [] c.flow.queues e l }, wr (FLOW.WQ_STATUS.of e) l.length, keepMax (FLOW.WQ_HWM.of e) l.length]

/-- A frame item for an engine (R305). -/
def toEngine (e : Nat) (f : Frame) : Prog := get fun s =>
  if 256 ≤ (s.workQueue e).length then doAll [inc (FLOW.WORK_DROP_CNT.of e), int Pg.flow e 2]
  else setWorkQueue e (s.workQueue e ++ [.frame f])

/-- A confirmed copy of bytes for a port and class, with nothing asked of it. -/
def Copy.plain (id frame port cls : Nat) (b : List Byte) (now : Nat) : Copy where
  id := id
  frame := frame
  port := port
  cls := cls
  bytes := b
  len := b.length + 4
  work := none
  inPort := none
  spill := false
  launch := none
  eligible := true
  confirmed := true
  confWT := now
  cut := false
  ptp := false
  step1 := none
  noCut := false
  rdma := none

/-- What one-step PTP needs of a frame that the parser marks as a PTP event message, unless a cipher covers it. -/
def Frame.oneStep (f : Frame) : Option OneStep :=
  if f.dec.classified && actFlag f.dec.act actSa then none
  else f.parsed.ptp.map fun o => ⟨o, f.parsed.l3, f.parsed.l4.bind fun e => if e.2 then some e.1 else none, if f.kind = 0 then some f.ts else none⟩

/-- Mirror copy of a frame as received (R237). -/
def mirror (f : Frame) : Prog := get fun s =>
  let m := leAt f.dec.act 3 1 % 16
  let c := f.dec.mirr.1
  let port := field c 9 1
  let every := max 1 (field f.dec.mirr.2 15 0)
  let k := tget 0 s.ctl.net.mirrorN (f.pipe * 16 + m) + 1
  let trunc := field c 29 16
  let b := if trunc = 0 then f.bytes else f.bytes.take (max 64 trunc)
  let count := fun n => ctl fun x => { x with net.mirrorN := nset 0 x.net.mirrorN (f.pipe * 16 + m) n }
  if k < every then count k
  else if !tbit c 0 || !s.portEnabled port then doAll [count 0, inc (CLASS.NO_TARGET_CNT.of f.pipe), int Pg.cls f.pipe 1]
  else
    let inn := if f.kind = 0 then some (f.src, f.inCls % 8) else none
    let cp := { Copy.plain s.ctl.net.nextFrame f.id port (field c 13 10) b (s.wt (s.portDom port)) with inPort := inn, noCut := true }
    doAll [
      count 0, ctl fun x => { x with net.nextFrame := x.net.nextFrame + 1 },
      inc (CLASS.MIRROR_CNT.of f.pipe),
      admitCopy cp fun st h sp => Prog.when (decide (st ≠ ST.OK)) (countDrops cp.queue 1 (b2n h) (b2n sp))]

end Sys2Proof.Machine
end

