-- ==== Sys2Proof/Machine/Learn.lean ====
section
/-! DEFINITION. Learning, aging, resizing, software table commands (R250 to R270), member, next-hop and indirection entries,
rule counters (R240, R241). -/

namespace Sys2Proof.Machine

/-- A MAC address number as 6 bytes in network order. -/
def macBytes (m : Nat) : List Byte := beBytes 6 m

/-- The bytes of a basket or hamper entry (R249). -/
def hashBytes (mac dom flags res state flaps : Nat) : List Byte :=
  macBytes mac ++ leBytes 2 (dom % 4096 + 4096 + flags) ++ leBytes 4 res ++ leBytes 1 state ++ leBytes 1 flaps ++ [0, 0]

/-! Fields of an entry (R249). -/
def entDctl (e : List Byte) : Nat := leAt e 6 2
def entRes (e : List Byte) : Nat := leAt e 8 4
def entState (e : List Byte) : Nat := leAt e 12 1
def entFlaps (e : List Byte) : Nat := leAt e 13 1
def entValid (e : List Byte) : Bool := tbit (entDctl e) 12
def entMac (e : List Byte) : Nat := beAt e 0 6
def entDom (e : List Byte) : Nat := entDctl e % 4096

/-- Lowest free place for a key (R251): its basket, then its hamper set. -/
def State.freePlace (s : State) (pipe log2 seed : Nat) (mac dom : Nat) : Option Nat :=
  (l2Places log2 seed (macBytes mac) dom).find? fun i => !entValid (s.hashEntry pipe i)

/-- FWD_HASH indexes of a pipeline that hold anything: baskets, then hamper. -/
def State.hashUsed (s : State) (pipe : Nat) : List Nat :=
  s.usedEntries 1 0 (0x08000000 + pipe * 0x04000000) 0x04000000 16 ++ (s.usedEntries 8 pipe 0 (65536 * 16) 16).map (4194304 + ·)

/-- Valid entries of a pipeline, by index. -/
def State.hashValid (s : State) (pipe : Nat) : List Nat := (s.hashUsed pipe).filter fun i => entValid (s.hashEntry pipe i)

/-! ## Notifications (R259) -/

/-- A notification ring. -/
def State.notifyRing (s : State) (p : Nat) : NRing := tget NRing.init s.ctl.net.notify p

/-- Change a notification ring. -/
def modNotify (p : Nat) (f : NRing → NRing) : Prog := ctl fun c => { c with net.notify := nmod NRing.init c.net.notify p f }

/-- A 32-byte notification goes into a pipeline's ring, with the ring's own TAG and phase, or is dropped (R259). -/
def putNotify (pipe : Nat) (b : List Byte) : Prog := get fun s =>
  let ctlr := s.rd (FWD.NOTIFY_CTL.of pipe)
  let n := 2 ^ max 6 (min 16 (field ctlr 5 1))
  let g := s.notifyRing pipe
  if n - 1 ≤ (g.widx + n - g.head) % n then doAll [inc (FWD.NOTIFY_DROP_CNT.of pipe), int Pg.fwd pipe 3]
  else
    let last := decide (g.widx + 1 = n)
    let own := splice (splice b 0 (leBytes 4 g.seq)) 31 (leBytes 1 (cplPhase g.wpass + leAt b 31 1 % 128))
    doAll [poke 2 0 (s.rdW (FWD.NOTIFY_BASE.of pipe) / 4096 * 4096 + 32 * g.widx) own,
      modNotify pipe fun x => { x with
        widx := if last then 0 else g.widx + 1
        wpass := if last then g.wpass + 1 else g.wpass
        armed := false
        seq := (x.seq + 1) % 2 ^ 32 },
      Prog.when g.armed (evt (field ctlr 27 16))]

/-- Notify (R259), and with FWD_EN tell the peer what was written (R475). What has no entry or no old result has free fields
there. -/
def notify (pipe typ res : Nat) (old : Option Nat) (wt mac dom : Nat) (at? : Option (Nat × Nat)) : Prog :=
  fresh fun v => get fun s =>
    let ctlr := s.rd (FWD.NOTIFY_CTL.of pipe)
    let n := 2 ^ max 6 (min 16 (field ctlr 5 1))
    let g := s.notifyRing pipe
    if !tbit ctlr 0 || !tbit ctlr (7 + (typ - 0xF1)) then .skip
    else
      let o := old.getD (v % 2 ^ 19)
      let (idx, flaps) := at?.getD (v / 2 ^ 19 % 2 ^ 23, v / 2 ^ 42 % 128)
      let b := leBytes 4 g.seq ++ leBytes 2 ST.OK ++ [0] ++ leBytes 1 typ ++
        leBytes 4 (res % 2 ^ 19 + o % 512 * 2 ^ 19 + field o 18 16 * 2 ^ 28) ++ leBytes 6 wt ++ leBytes 2 pipe ++ leBytes 6 mac ++
        leBytes 2 (dom % 4096) ++ leBytes 3 idx ++ leBytes 1 (min 127 flaps)
      doAll [putNotify pipe b,
        Prog.when (s.cbit PAIR.MIRROR_CFG 8 && decide ((g.widx + n - g.head) % n < n - 1)) (sendMsg clsMgmt (.notify pipe b))]

/-- NOTIFY_HEAD_WRITE (R175, R259). -/
def execNotifyHeadWrite (a : Accessor) (v : Word) (s : State) : Res := done (byWriter a Pg.fwd 0x28C (get fun s =>
  let p := s.instSel a Pg.fwd
  let g := s.notifyRing p
  let n := 2 ^ max 6 (min 16 (s.fd (FWD.NOTIFY_CTL.of p) 5 1))
  let h := field v.toNat 15 0
  if h < n ∧ (h + n - g.head) % n ≤ (g.widx + n - g.head) % n then doAll [
    modNotify p fun x => { x with head := h },
    Prog.when (v.getLsbD 31) (if g.widx = h then modNotify p fun x => { x with armed := true }
      else doAll [modNotify p fun x => { x with armed := false }, evt (s.fd (FWD.NOTIFY_CTL.of p) 27 16)])]
  else doAll [inc RING.HEAD_REJ_CNT, int Pg.ring 0 1])) s

/-! ## Learning (R254 to R258) -/

/-- The domain of a pipeline's learning. -/
def State.fwdDom (s : State) (pipe : Nat) : Nat := s.cfd (FWD.TIME_CFG.of pipe) 2 0

/-- MOVE_HOLD in WT ticks. -/
def State.moveHold (s : State) (pipe : Nat) : Nat := min 1000000 (s.fd (FWD.MOVE_HOLD.of pipe) 19 0) * 500

/-- The hold list of a pipeline, oldest first: key and start. -/
def State.holds (s : State) (pipe : Nat) : List (Nat × Nat) := tget [] s.ctl.net.holds pipe

/-- Set a hold list. -/
def setHolds (pipe : Nat) (l : List (Nat × Nat)) : Prog := ctl fun c => { c with net.holds := nset [] c.net.holds pipe l }

/-- A key's hold starts (R257). -/
def startHold (pipe key t : Nat) : Prog := get fun s =>
  let l := (s.holds pipe).filter fun e => !decide (e.1 = key)
  if 8192 ≤ l.length then doAll [inc (FWD.HOLD_EVICT_CNT.of pipe), setHolds pipe (l.drop 1 ++ [(key, t)])]
  else setHolds pipe (l ++ [(key, t)])

/-- Whether a key's hold is running at `t` (R256). -/
def State.holdRuns (s : State) (pipe key t : Nat) : Bool :=
  decide (s.moveHold pipe ≠ 0) && (s.holds pipe).any fun e => decide (e.1 = key) && decide (wtDiff t e.2 < s.moveHold pipe)

/-- The learn engine's work on one event (R256). -/
def learn (pipe mac dom res t : Nat) : Prog := get fun s =>
  let key := mac * 4096 + dom
  let (n, seed) := s.hashCfg pipe
  match s.l2Search pipe (macBytes mac) dom with
  | none =>
    match s.freePlace pipe n seed mac dom with
    | some i => doAll [putHash pipe i (hashBytes mac dom 0x8000 res 2 0), inc (FWD.LEARN_CNT.of pipe), startHold pipe key t,
        notify pipe 0xF1 res none t mac dom (some (i, 0))]
    | none => doAll [inc (FWD.FULL_CNT.of pipe), int Pg.fwd pipe 0, notify pipe 0xF4 res none t mac dom none]
  | some i =>
    let e := s.hashEntry pipe i
    let d := entDctl e
    if entRes e = res then putHash pipe i (splice e 6 (leBytes 2 (d ||| 0x8000)))
    else if tbit d 14 then doAll [inc (FWD.LOCKED_CNT.of pipe),
      notify pipe 0xF5 res (some (entRes e)) t mac dom (some (i, entFlaps e))]
    else if s.holdRuns pipe key t then
      let f := min 255 (entFlaps e + 1)
      doAll [putHash pipe i (splice e 13 (leBytes 1 f)), inc (FWD.FLAP_CNT.of pipe), int Pg.fwd pipe 1,
        notify pipe 0xF3 res (some (entRes e)) t mac dom (some (i, f))]
    else doAll [putHash pipe i (splice (splice e 6 (leBytes 2 (d ||| 0x8000))) 8 (leBytes 4 res ++ [2])),
      inc (FWD.MOVE_CNT.of pipe), startHold pipe key t, notify pipe 0xF2 res (some (entRes e)) t mac dom (some (i, entFlaps e))]

/-- A software command ends: its outcome and entry (R253). -/
def swDone (pipe result : Nat) (idx : Option Nat) : Prog := doAll [
  wr (FWD.SW_STATUS.of pipe) result,
  match idx with
  | some i => wr (FWD.SW_WHERE.of pipe) i
  | none => .skip]

/-- A software command at the learn engine (R251, R253). `flags`: DCTL bits STATIC and LOCK. -/
def swCommand (pipe op mac dom res flags : Nat) : Prog := get fun s =>
  let (n, seed) := s.hashCfg pipe
  let hit := s.l2Search pipe (macBytes mac) dom
  let e := (hit.map (s.hashEntry pipe)).getD []
  if op = 0 then
    match hit with
    | some i => doAll [putHash pipe i (hashBytes mac dom flags res 0 0), swDone pipe 0 (some i)]
    | none =>
      match s.freePlace pipe n seed mac dom with
      | some i => doAll [putHash pipe i (hashBytes mac dom flags res 0 0), swDone pipe 0 (some i)]
      | none => swDone pipe 2 none
  else match hit with
    | none => swDone pipe 1 none
    | some i =>
      if op = 1 then doAll [putHash pipe i (List.replicate 16 0), swDone pipe 0 (some i)]
      else doAll [wr (FWD.SW_RESULT.of pipe) (entRes e), wrF (FWD.SW_CTL.of pipe) 3 2 (field (entDctl e) 14 13), swDone pipe 0 (some i)]

/-- A pipeline's learn queue. -/
def State.learnQ (s : State) (pipe : Nat) : List LearnItem := tget [] s.ctl.net.learnQ pipe

/-- Set a learn queue, showing its use. -/
def setLearnQ (pipe : Nat) (l : List LearnItem) : Prog := doAll [
  ctl fun c => { c with net.learnQ := nset [] c.net.learnQ pipe l }, wr (FWD.LEARN_Q.of pipe) l.length,
  keepMax (FWD.LEARN_Q_HWM.of pipe) l.length]

/-- One item at the learn engine. -/
def learnItem (pipe : Nat) : LearnItem → Prog
  | .event mac dom res wt => learn pipe mac dom res wt
  | .command op mac dom res flags => swCommand pipe op mac dom res flags

/-- LEARN_EVENT (R256): the learn engine takes the oldest event or command, unless a resize runs (R262). -/
def execLearnEvent (p : Fin 4) (s : State) : Res := live 3 (get fun s =>
  if tget false s.ctl.net.resizing p.val then .skip else
  match s.learnQ p.val with
  | [] => .skip
  | i :: t => doAll [setLearnQ p.val t, learnItem p.val i]) s

/-- Whether an item is an event. -/
def LearnItem.isEvent : LearnItem → Bool
  | .event _ _ _ _ => true
  | .command _ _ _ _ _ => false

/-- The search and event of a confirmed network frame's source (R254, R255), by the settings it began parsing with (R71). -/
def noteSource (f : Frame) : Prog := get fun s =>
  let (c, pl) := f.learn
  let sa := slice f.key (field c 23 16) 6
  let dom := beAt f.key (field c 31 24) 2 % 4096
  if !(tbit c 1 && tbit c 3 && tbit pl 0) || (byteAt sa 0).getLsbD 0 || sa.all (fun b => decide (b = 0)) ||
      s.l2Poisoned f.pipe sa dom then .skip else
  let res := if tbit pl 1 then field pl 27 16 + 2 * 2 ^ 16 else f.src + 2 ^ 16
  match (s.l2Search f.pipe sa dom).filter fun i => decide (entRes (s.hashEntry f.pipe i) = res) with
  | some i => putHash f.pipe i (splice (s.hashEntry f.pipe i) 6 (leBytes 2 (entDctl (s.hashEntry f.pipe i) ||| 0x8000)))
  | none =>
    if 4032 ≤ ((s.learnQ f.pipe).filter (·.isEvent)).length then doAll [inc (FWD.LEARN_DROP_CNT.of f.pipe), int Pg.fwd f.pipe 2]
    else doAll [setLearnQ f.pipe (s.learnQ f.pipe ++ [.event (beVal sa) dom res (s.wt (s.fwdDom f.pipe))]), peep 3 3 f.src]

/-- A GO write of SW_CTL with an operation (R253): its fields take the write (R7, R269); refused while BUSY, otherwise it waits behind
the queue, and is executed at once when nothing waits. -/
def swGo (a : Accessor) (op : Nat) (v : Word) : Prog := byWriter a Pg.fwd 0x250 (get fun s =>
  let p := s.instSel a Pg.fwd
  let item := LearnItem.command op (s.rdW (FWD.SW_MAC.of p) % 2 ^ 48) (s.fd (FWD.SW_DOM.of p) 11 0) (s.rd (FWD.SW_RESULT.of p))
    (field v.toNat 3 2 * 2 ^ 13)
  doAll [wr (FWD.SW_CTL.of p) (op + 4 * field v.toNat 3 2),
    if s.bit (FWD.SW_STATUS.of p) 16 then wrF (FWD.SW_STATUS.of p) 1 0 3 else doAll [wr (FWD.SW_STATUS.of p) 0x10000,
    if (s.learnQ p).isEmpty && !tget false s.ctl.net.resizing p then learnItem p item
    else setLearnQ p (s.learnQ p ++ [item])]])

/-- INSERT (R251, R253). -/
def execInsert (a : Accessor) (v : Word) (s : State) : Res := done (swGo a 0 v) s

/-- DELETE (R251, R253). -/
def execDelete (a : Accessor) (v : Word) (s : State) : Res := done (swGo a 1 v) s

/-- FIND (R253). -/
def execFind (a : Accessor) (v : Word) (s : State) : Res := done (swGo a 2 v) s

/-- HOLD_EXPIRY (R257): keys whose hold and 64,000 ns more have passed leave the list. -/
def execHoldExpiry (p : Fin 4) (s : State) : Res := live 3 (get fun s =>
  setHolds p.val ((s.holds p.val).filter fun e => decide (wtDiff (s.wt (s.fwdDom p.val)) e.2 < s.moveHold p.val + 32000))) s

/-! ## Aging and resizing (R261, R262) -/

/-- AGING_SWEEP (R56, R261): the next event, a sweep's, asks the arbiter to start it. -/
def execAgingSweep (s : State) : Res := live 3 (
  dispatch (fun c => match c with | .aging p => decide (p < 4) | _ => false) fun e stepped =>
    match e.consumer with
    | .aging p => doAll [Prog.when (!stepped) (mstart MA.AGING_SWEEP p .periodic 0), nextPeriod e stepped]
    | _ => .skip) s

/-- A sweep's visit of one entry. -/
def ageEntry (pipe i : Nat) : Prog := get fun s =>
  let e := s.hashEntry pipe i
  let d := entDctl e
  if tbit d 13 then .skip
  else if tbit d 15 then putHash pipe i (splice (splice e 6 (leBytes 2 (d - 0x8000))) 12 (leBytes 1 (entState e / 2 * 2)))
  else if !tbit (entState e) 0 then putHash pipe i (splice e 12 (leBytes 1 (entState e + 1)))
  else doAll [putHash pipe i (List.replicate 16 0), inc (FWD.AGED_CNT.of pipe),
    notify pipe 0xF6 (entRes e) none (s.wt (s.fwdDom pipe)) (entMac e) (entDom e) (some (i, entFlaps e))]

/-- The arbiter accepts a sweep: it visits every valid entry. -/
def agingAccepted (pipe : Nat) : Prog := get fun s => Prog.each (s.hashValid pipe) (ageEntry pipe)

/-- AGING_SWEEP_END (R261). -/
def execAgingSweepEnd (p : Fin 4) (s : State) : Res := live 3 (get fun s =>
  Prog.when (s.mrunning MA.AGING_SWEEP p.val) (doAll [mend MA.AGING_SWEEP p.val, int Pg.fwd p.val 4])) s

/-- RESIZE (R262): GO asks the arbiter for a resize to the LOG2 written and RESIZE_SEED. -/
def execResize (a : Accessor) (v : Word) (s : State) : Res := done (byWriter a Pg.fwd 0x208 (get fun s =>
  let p := s.instSel a Pg.fwd
  let n := field v.toNat 4 0
  doAll [wr (FWD.RESIZE.of p) n, mstart MA.TABLE_RESIZE p .register
    ((if n < 16 ∨ 20 < n then 20 else n) + 32 * s.rd (FWD.RESIZE_SEED.of p))])) s

/-- The arbiter decides on a resize (R262). -/
def resizeAccepted (p : Nat) : Prog := doAll [
  ctl fun c => { c with net.resizing := fset c.net.resizing p true }, wrB (FWD.RESIZE_STATUS.of p) 16 true]

/-- A refused resize. -/
def resizeRefused (p : Nat) : Prog := wrF (FWD.RESIZE_STATUS.of p) 15 0 ST.CONFLICT

/-- Place an entry in the new layout, or lose it: its notification names the index it had (R251, R259, R262). -/
def replace (pipe log2 seed : Nat) (old : Nat) (e : List Byte) : Prog := get fun s =>
  match s.freePlace pipe log2 seed (entMac e) (entDom e) with
  | some i => putHash pipe i e
  | none => doAll [inc (FWD.RESIZE_LOST_CNT.of pipe),
      notify pipe 0xF7 (entRes e) none (s.wt (s.fwdDom pipe)) (entMac e) (entDom e) (some (old, entFlaps e))]

/-- RESIZE_DONE (R262): the entries take their new places, HASH_CFG and HASH_SEED their new values. -/
def execResizeDone (p : Fin 4) (s : State) : Res := live 3 (get fun s =>
  match s.ctl.maint.running.find? (fun m => decide (m.act = MA.TABLE_RESIZE) && decide (m.scope = p.val)) with
  | none => .skip
  | some m =>
    let idx := s.hashValid p.val
    let old := idx.map fun i => (i, s.hashEntry p.val i)
    doAll [
      Prog.each idx (fun i => putHash p.val i (List.replicate 16 0)),
      Prog.each old (fun e => replace p.val (m.ref % 32) (m.ref / 32) e.1 e.2),
      wr (FWD.HASH_CFG.of p.val) (m.ref % 32), wr (FWD.HASH_SEED.of p.val) (m.ref / 32), wr (FWD.RESIZE_STATUS.of p.val) ST.OK,
      ctl fun c => { c with net.resizing := fset c.net.resizing p.val false },
      mend MA.TABLE_RESIZE p.val, int Pg.fwd p.val 5]) s

/-! ## Entries written by register, rule counters -/

/-- MEMB_DATA_WRITE (R267, R268): the reserved bits of the result word are not stored (R5, R247). -/
def execMembDataWrite (a : Accessor) (v : Word) (s : State) : Res := done (byWriter a Pg.fwd 0x604 (get fun s =>
  let i := s.instSel a Pg.fwd * 65536 + s.sel a Pg.fwd 0x600 % 65536
  doAll [ctl fun c => { c with net.members := nset 0 c.net.members i (v.toNat % 2 ^ 24) },
    cleanItem spMember (i / 65536) (i % 65536)])) s

/-- INDIR_DATA_WRITE (R240, R243). -/
def execIndirDataWrite (a : Accessor) (v : Word) (s : State) : Res := done (byWriter a Pg.cls 0x904 (get fun s =>
  let sel := s.sel a Pg.cls 0x900
  let i := (s.instSel a Pg.cls * 128 + field sel 6 0) * 256 + field sel 23 16
  doAll [ctl fun c => { c with net.indir := nset 0 c.net.indir i (v.toNat &&& 0xC00FFFFF) },
    cleanItem spIndir (s.instSel a Pg.cls) (field sel 6 0 * 256 + field sel 23 16)])) s

/-- RULE_COUNTER_READ (R241): CNT_PKT_LO of the selected counter; the other halves are latched and both counts cleared,
unless the reader is the port that does not hold management (R74). -/
def execRuleCounterRead (a : Accessor) (s : State) : Res := done (byReader a Pg.cls (get fun s =>
  let p := s.instSel a Pg.cls
  let k := p * 65536 + s.sel a Pg.cls 0x940 % 65536
  let c := tget (0, 0) s.ctl.net.ruleCnt k
  doAll [answer (c.1 % 2 ^ 32),
    setCopy .hiLatch (CLASS.CNT_PKT.of p) (c.1 / 2 ^ 32), setCopy .hiLatch (CLASS.CNT_BYTE.of p) (c.2 % 2 ^ 32),
    setCopy .hiLatch (CLASS.CNT_BYTE.hi.of p) (c.2 / 2 ^ 32),
    Prog.when (s.owner a) (ctl fun x => { x with net.ruleCnt := nset (0, 0) x.net.ruleCnt k (0, 0) })])) s

/-! ## LPM commands and next hops (R264, R270) -/

/-- The bytes of an LPM entry (R263). -/
def lpmBytes (pfx : List Byte) (len : Nat) (v6 : Bool) (vrf res nh : Nat) : List Byte :=
  pfx ++ leBytes 1 len ++ leBytes 1 (1 + 2 * b2n v6) ++ leBytes 2 vrf ++ leBytes 4 res ++ leBytes 2 nh ++ leBytes 6 0

/-- Write LPM entry `i`. -/
def putLpm (pipe i : Nat) (b : List Byte) : Prog :=
  let a := 0x18000000 + pipe * 0x04000000 + 32 * i
  doAll [poke 1 0 a b, cleanse 1 0 a 32]

/-- A GO write of CMD_CTL: the command's prefix, masked, and what it found. -/
def lpmGo (a : Accessor) (op : Nat) (k : (p vrf len : Nat) → Bool → List Byte → Option Nat → Prog) : Prog :=
  byWriter a Pg.lpm 0x11C (get fun s =>
    let p := s.instSel a Pg.lpm
    let key := s.rd (LPM.CMD_KEY.of p)
    let v6 := tbit key 8
    let len := min (if v6 then 128 else 32) (field key 7 0)
    let raw := (List.range 4).flatMap fun i => beBytes 4 (s.rd ((LPM.CMD_PFX i).of p))
    let pfx := maskPrefix v6 len raw
    doAll [wr (LPM.CMD_CTL.of p) op, k p (field key 27 16) len v6 pfx (s.lpmFind p (field key 27 16) len v6 pfx)])

/-- LPM_INSERT (R264). -/
def execLpmInsert (a : Accessor) (s : State) : Res := done (lpmGo a 0 fun p vrf len v6 pfx hit => get fun s =>
  let b := lpmBytes pfx len v6 vrf (s.rd (LPM.CMD_RESULT.of p)) (s.fd (LPM.CMD_NH.of p) 15 0)
  match hit with
  | some i => doAll [putLpm p i b, wr (LPM.CMD_STATUS.of p) 0]
  | none =>
    match (lpmPlaces vrf len v6 pfx).find? fun i => !tbit (leAt (s.lpmEntry p i) 17 1) 0 with
    | some i => doAll [putLpm p i b, wr (LPM.CMD_STATUS.of p) 0]
    | none => doAll [wr (LPM.CMD_STATUS.of p) 2, int Pg.lpm p 1]) s

/-- LPM_DELETE (R264). -/
def execLpmDelete (a : Accessor) (s : State) : Res := done (lpmGo a 1 fun p _ _ _ _ hit =>
  match hit with
  | some i => doAll [putLpm p i (List.replicate 32 0), wr (LPM.CMD_STATUS.of p) 0]
  | none => wr (LPM.CMD_STATUS.of p) 1) s

/-- LPM_FIND (R270). -/
def execLpmFind (a : Accessor) (s : State) : Res := done (lpmGo a 2 fun p _ _ _ _ hit => get fun s =>
  match hit with
  | some i => doAll [wr (LPM.CMD_RESULT.of p) (leAt (s.lpmEntry p i) 20 4), wr (LPM.CMD_NH.of p) (leAt (s.lpmEntry p i) 24 2),
      wr (LPM.CMD_STATUS.of p) 0]
  | none => wr (LPM.CMD_STATUS.of p) 1) s

/-- NH_Ww reads what is written to it now, no longer the latched entry (R7, R270). -/
def nhUnsee (p w : Nat) : Prog :=
  ctl fun c => { c with net.nhSeen := nmod 0 c.net.nhSeen p fun m => setField m w w 0 }

/-- NH_W3_WRITE (R270): W0 to W3 become the selected next-hop entry. -/
def execNhW3Write (a : Accessor) (v : Word) (s : State) : Res := done (byWriter a Pg.lpm 0x190 (get fun s =>
  let p := s.instSel a Pg.lpm
  let i := p * 32768 + s.sel a Pg.lpm 0x180 % 32768
  let w3 := v.toNat &&& 0x80003FFF
  let e := s.rd (LPM.NH_W0.of p) + s.rd (LPM.NH_W1.of p) * 2 ^ 32 + s.rd (LPM.NH_W2.of p) * 2 ^ 64 + w3 * 2 ^ 96
  doAll [wr (LPM.NH_W3.of p) v.toNat, nhUnsee p 3, ctl fun c => { c with net.nh := nset 0 c.net.nh i e },
    cleanItem spNh p (i % 32768)])) s

/-- NH_W0_READ (R270): the selected entry is latched; its W0 is the answer. -/
def execNhW0Read (a : Accessor) (s : State) : Res := done (byReader a Pg.lpm (get fun s =>
  let p := s.instSel a Pg.lpm
  let e := s.nhEntry p (s.sel a Pg.lpm 0x180 % 32768)
  doAll [ctl fun c => { c with net := { c.net with nhLatch := nset 0 c.net.nhLatch p e, nhSeen := nset 0 c.net.nhSeen p 15 } }, answer (e % 2 ^ 32)])) s

end Sys2Proof.Machine
end

