-- ==== Sys2Proof/Machine/Frames.lean ====
section
/-! DEFINITION. Frames from arrival to their queues (R14 to R16, R30 to R33, R196 to R210, R224, R233 to R237, R274, R276). -/

namespace Sys2Proof.Machine

/-! ## The MAC filter (R196, R197) -/

/-- Whether a frame's outermost tag is a VLAN tag at offset `o`. -/
def isTag (f : List Byte) (o : Nat) : Bool := decide (beAt f o 2 = 0x8100) || decide (beAt f o 2 = 0x88A8)

/-- EtherType after at most two VLAN tags. -/
def etherType (f : List Byte) : Nat :=
  if !isTag f 12 then beAt f 12 2 else if !isTag f 16 then beAt f 16 2 else beAt f 20 2

/-- Whether filter rule `r` of a port matches a frame. -/
def State.filtMatches (s : State) (p r : Nat) (f : List Byte) : Bool :=
  let w0 := s.cfg ((MAC.FILT_W0 r).of p)
  let w1 := s.cfg ((MAC.FILT_W1 r).of p)
  let w2 := s.cfg ((MAC.FILT_W2 r).of p)
  let n := 48 - min 48 (field w2 21 16)
  let tci := beAt f 14 2
  decide ((w0 + field w1 15 0 * 2 ^ 32) / 2 ^ n = beAt f 0 6 / 2 ^ n) &&
    (!tbit w2 22 || (isTag f 12 && decide (field w2 11 0 = tci % 4096))) &&
    (!tbit w2 23 || (isTag f 12 && decide (field w2 14 12 = tci / 8192))) &&
    (!tbit w2 24 || decide (field w1 31 16 = etherType f))

/-- Action, ingress class and STEER of a frame (R196, R197). -/
def State.macFilter (s : State) (p : Nat) (f : List Byte) : Nat × Nat × Nat :=
  let pcp := if isTag f 12 then beAt f 14 2 / 8192 else 0
  let hit := (List.range 64).find? fun r =>
    let w3 := s.cfg ((MAC.FILT_W3 r).of p)
    tbit w3 0 && !(s.macBit p 2 && decide (field w3 2 1 = 1)) && s.filtMatches p r f
  match hit with
  | some r =>
    let w3 := s.cfg ((MAC.FILT_W3 r).of p)
    (field w3 2 1, if tbit w3 7 then field w3 6 3 else pcp, field w3 15 8)
  | none =>
    let d := s.cfg (MAC.FILT_DEFAULT.of p)
    (field d 1 0, if tbit d 8 then field d 7 4 else pcp, field d 23 16)

/-! ## Copies and their admission -/

/-- Change a frame that waits for its confirmation. -/
def modFrame (id : Nat) (g : Frame → Frame) : Prog :=
  ctl fun c => { c with net.frames := c.net.frames.map fun f => if f.id = id then g f else f }

/-- Admit the copies of a frame, each on its own (R280). One that would read a poisoned context of its queue, node or port is dropped
(R486). Refusals of an unconfirmed frame wait on it; those of a confirmed one are counted, and end its copy. -/
def admitCopies (f : Frame) (bytes : List Byte) (confirmed : Bool) (launch : Option Nat) (l : List (Nat × Nat)) : Prog := doAll [
  match f.work with
  | some w => ctl fun c => { c with net.copySets := nset ⟨1, false, none⟩ c.net.copySets w ⟨l.length, f.dec.repl || decide (1 < l.length), none⟩ }
  | none => .skip,
  Prog.each l fun d => get fun s =>
    let inn := if f.kind = 0 then some (f.src, f.inCls % 8) else none
    let c0 := Copy.plain s.ctl.net.nextFrame f.id d.1 d.2 bytes (s.wt (s.portDom d.1))
    let bad := s.itemBad spTm 0 (objQ c0.queue) || s.itemBad spTm 0 (objN (s.nodeOf c0.queue)) || s.itemBad spTm 0 (objP d.1)
    let c := { c0 with work := f.work, inPort := inn, launch := launch, eligible := launch.isNone, confirmed := confirmed, ptp := f.parsed.ptp.isSome, step1 := f.oneStep, noCut := actFlag f.dec.act actNoCut }
    doAll [
      ctl fun x => { x with net.nextFrame := x.net.nextFrame + 1 },
      if bad then (if confirmed then doAll [inc (HDR.ERR_COUNT Pg.tm), copyGone c ST.UNCORRECTABLE none]
        else modFrame f.id fun x => { x with ctxDrops := x.ctxDrops + 1 })
      else admitCopy c fun st h sp =>
        if st = ST.OK then .skip
        else if confirmed then doAll [Prog.when (decide (st = ST.TM_DROP)) (countDrops c.queue 1 (b2n h) (b2n sp)), copyGone c st none]
        else modFrame f.id fun x => { x with
          drops := x.drops + 1
          headDrops := x.headDrops + b2n h
          spillDrops := x.spillDrops + b2n sp }]]

/-- A ring frame that reaches no queue completes; the spec gives such a drop no STATUS of its own, so which of R208's codes
it carries is free. -/
def ringDropped (f : Frame) : Prog :=
  match f.work with
  | some w => fresh fun v => complete w ([ST.TM_DROP, ST.ABORTED, ST.PORT_DOWN, ST.LATE_DROP].getD (v % 4) ST.TM_DROP) 0
  | none => .skip

/-- A ring frame ends with a STATUS. -/
def ringEnds (f : Frame) (st len : Nat) : Prog :=
  match f.work with
  | some w => complete w st len
  | none => .skip

/-- An invalid target (R234). -/
def noTarget (f : Frame) : Prog := doAll [inc (CLASS.NO_TARGET_CNT.of f.pipe), int Pg.cls f.pipe 1, ringDropped f]

/-- The bytes a frame leaves with, before its cipher: rewritten by its next hop (R266). -/
def Frame.rewritten (f : Frame) : List Byte :=
  match f.dec.nh with
  | some e => rewriteNh e f.parsed.l3 f.bytes
  | none => f.bytes

/-- Whether the decision takes a frame no further: it is dropped. -/
def Dest.gone : Dest → Bool
  | .drop | .noTarget | .poison _ => true
  | _ => false

/-- A frame for a NET_RX ring enters the host-bound allowance, or is dropped (R210, R276). -/
def toRing (r : Nat) (f : Frame) : Prog := get fun s =>
  let k := s.linkOf (s.ringOwner r)
  if s.fd (TM.HOSTBUF k) 19 0 * 1024 < s.hostBoundUse k + f.bytes.length then doAll [
    Prog.when (decide (f.kind = 0)) (incW (MAC.RX_NOBUF.of f.src) 1), ringEnds f ST.TM_DROP 0]
  else doAll [ctl fun c => { c with net.hostBound := c.net.hostBound ++ [(k, ⟨r, f⟩)] }, ringEnds f ST.OK f.bytes.length]

/-- The verdict of a confirmed frame (R233 to R235), with the bytes it leaves with. -/
def applyVerdict (f : Frame) (bytes : List Byte) (launch : Option Nat) : Prog :=
  match f.dec.dest with
  | .drop => doAll [
      Prog.when (f.dec.classified && (f.dec.badAct || decide (actVerdict f.dec.act = 0))) (inc (CLASS.DROP_CNT.of f.pipe)), ringDropped f]
  | .noTarget => noTarget f
  | .poison pg => doAll [inc (HDR.ERR_COUNT pg), ringEnds f ST.UNCORRECTABLE 0]
  | .ports l =>
    if l.isEmpty then doAll [countDrops 0 1 0 0, ringEnds f ST.TM_DROP 0]
    else admitCopies f bytes true launch l
  | .ring r => toRing r { f with bytes := bytes }
  | .flow e => doAll [toEngine e { f with bytes := bytes }, ringEnds f ST.OK f.bytes.length]
  | .control => doAll [Prog.when (!actFlag f.dec.act actCopyCtrl) (limitedToCores { f with bytes := bytes }), ringEnds f ST.OK f.bytes.length]

/-- Step the rule counter of an action (R241). -/
def ruleCount (f : Frame) : Prog := Prog.when (f.dec.classified && actFlag f.dec.act actCount) (
  ctl fun c => { c with net.ruleCnt := nmod (0, 0) c.net.ruleCnt (f.pipe * 65536 + leAt f.dec.act 12 2) fun x =>
    (satAdd 64 x.1 1, satAdd 64 x.2 f.bytes.length) })

/-- Step HITS of an exact-match entry (R246, R248). -/
def emStep (pipe n : Nat) : Prog := get fun s =>
  poke 7 pipe (64 * n + 48) (leBytes 8 (satAdd 64 (s.memNat 7 pipe (64 * n + 48) 8) 1))

/-- Counters of a confirmed frame's classification and lookup (R224, R241 to R247, R265, R266, R269, R270). -/
def decisionCount (f : Frame) : Prog :=
  let d := f.dec
  doAll [
    Prog.when (d.classified && d.miss) (inc (CLASS.MISS_CNT.of f.pipe)),
    Prog.when d.badAct (doAll [inc (CLASS.BAD_ACTION_CNT.of f.pipe), int Pg.cls f.pipe 0]),
    ruleCount f,
    match d.emHit with
    | some n => doAll [inc (FWD.EM_HIT_CNT.of f.pipe), emStep f.pipe n]
    | none => .skip,
    Prog.when d.l2Hit (inc (FWD.L2_HIT_CNT.of f.pipe)),
    Prog.when d.tblMiss (doAll [inc (FWD.L2_MISS_CNT.of f.pipe), peep 3 4 f.src]),
    Prog.when d.dropRes (inc (FWD.DROP_CNT.of f.pipe)),
    match d.lpm with
    | some (n, hit) => doAll [inc (LPM.LOOKUP_CNT.of f.pipe), incBy (LPM.PROBE_CNT.of f.pipe) n,
        if hit then inc (LPM.HIT_CNT.of f.pipe)
        else Prog.when (decide (n = 32)) (doAll [inc (LPM.PROBE_LIMIT_CNT.of f.pipe), int Pg.lpm f.pipe 0])]
    | none => .skip,
    Prog.when d.ttlExp (inc (LPM.TTL_EXP_CNT.of f.pipe))]

/-- Copies admitted before the confirmation become visible (R274, R286), and the cut-through starts among them are traced (R492) with
their fragments (R30). A copy started before its confirmation has a delay below 0, in bin 0 (R296, R297). -/
def confirmCopies (f : Frame) : Prog := get fun s => doAll [
  Prog.each (s.copies.filter fun c => decide (c.frame = f.id) && !c.confirmed && c.cut) fun _ => traceConfirmed 3 1 f.src,
  Prog.each (s.copies.filter fun c => decide (c.frame = f.id) && !c.confirmed) fun c => get fun t =>
    let c' := { c with confirmed := true, confWT := t.wt (t.portDom c.port) }
    doAll [
      (if (t.queue c.queue).any fun x => decide (x.id = c.id) then doAll [
          (if t.qSorted c.queue then .seq (unqueue c) (get fun u => setQueue c.queue (u.queueWith c'))
           else modCopy c.id fun _ => c'),
          noteDepth c.queue, peep 4 0 c.queue]
        else doAll [
          ctl fun k => { k with net.sending := k.net.sending.map fun e =>
            (e.1, e.2.map fun x => if x.copy.id = c.id then { x with copy := { x.copy with confirmed := true }, frags := 0, holds := 0 } else x) },
          Prog.each ((t.ctl.net.sending.filterMap (·.2)).filter fun x => decide (x.copy.id = c.id)) (fun x => doAll [
            incW (MAC.MM_FRAG_TX.of c.port) x.frags, incW (MAC.MM_HOLD.of c.port) x.holds]),
          peep 4 0 c.queue, peep 4 2 c.queue, histStep c.queue 1 0]),
      pauseOf c'],
  countDrops 0 f.drops f.headDrops f.spillDrops, Prog.when (decide (f.ctxDrops ≠ 0)) (incBy (HDR.ERR_COUNT Pg.tm) f.ctxDrops)]

/-- Whether a network frame goes to the transport (R340): its parse, bytes and action, whose verdict is not DROP nor acts as it (R233). -/
def State.forTransport (s : State) (r : ParseRec) (b : List Byte) (d : Decision) : Bool :=
  s.bit RDMA.RX_CTL 0 && d.classified && !decide (actVerdict d.act = 0) && !d.badAct &&
    match r.l4, r.l3 with
    | some (o4, true), some (o, v6) => decide (beAt b (o4 + 2) 2 = s.fd RDMA.RX_CTL 31 16) &&
        let dst := if v6 then slice b (o + 24) 16 else slice b (o + 16) 4
        s.ctl.rdma.lips.any fun e => decide (e.2 = some ⟨v6, dst⟩)
    | _, _ => false

/-- The effects of a confirmed frame in their order (R33, R224, R235): counters, mirror copy, control copies, policer, transport
(R340), cipher and verdict. -/
def applyFrame (f : Frame) (launch : Option Nat) : Prog := get fun s =>
  let d := f.dec
  let sa := leAt d.act 8 2 % 32768
  let mode := leAt (s.sa sa) 0 1
  doAll [
    parseCount f.pipe f.parsed, peep 3 0 f.src, decisionCount f,
    Prog.when (d.classified && actFlag d.act actMirror) (mirror f),
    Prog.when f.ctrlCopy (toCores f),
    Prog.when (d.classified && actFlag d.act actCopyCtrl) (limitedToCores f),
    if f.admitted then confirmCopies f
    else
      let go := fun (g : Frame) =>
        if f.kind = 0 ∧ s.forTransport f.parsed f.bytes d = true then ctl fun c => { c with rdma.rx := c.rdma.rx ++ [g] }
        else if d.classified && actFlag d.act actSa && !g.dec.dest.gone then
          if mode = 0 ∨ 4 < mode then noTarget g
          else cipherQueue g.pipe g.rewritten.length (ringEnds g ST.TM_DROP 0) (cipherFrame sa g.rewritten g.parsed.l3 fun r =>
            match r with
            | some b => applyVerdict g b launch
            | none => ringEnds g ST.ABORTED 0)
        else applyVerdict g g.rewritten launch
      if d.classified && actFlag d.act actPolice then
        police (f.pipe * 65536 + leAt d.act 6 2) f.pipe d.cls (f.bytes.length + 4) fun c =>
          match c with
          | none => ringEnds f ST.TM_DROP 0
          | some cls =>
            let dest := match d.dest with
              | .ports l => if cls = d.cls then .ports l else .ports (l.map fun x => (x.1, cls))
              | x => x
            go { f with dec := { d with cls := cls, dest := dest } }
      else go f]

/-- Whether a byte string's ones' complement sum is all ones: a good checksum. -/
def sumsGood (l : List Byte) : Bool := decide (inetSum l = 0)

/-- CSUM of a receive completion: what the MAC finds in a frame as it got it (R201, R209). A UDP checksum of 0 is good whatever the
lengths say. -/
def csumByte (f : List Byte) (r : ParseRec) : Nat :=
  match r.l3 with
  | none => 0
  | some (o, v6) =>
    let ihl := (byteAt f o).toNat % 16 * 4
    let c3 := if v6 then 0 else 1 + 2 * b2n (decide (20 ≤ ihl) && decide (o + ihl ≤ f.length) && sumsGood (slice f o ihl))
    match r.l4 with
    | none => c3
    | some (o4, udp) =>
      let n := if v6 then beAt f (o + 4) 2 + 40 - (o4 - o) else beAt f (o + 2) 2 - ihl
      let addrs := if v6 then slice f (o + 8) 32 else slice f (o + 12) 8
      let none4 := udp && decide (beAt f (o4 + 6) 2 = 0)
      let fits := decide (o4 + n ≤ f.length) && decide ((if udp then 8 else 20) ≤ n)
      let good := none4 || (fits && sumsGood (addrs ++ beBytes 4 n ++ beBytes 4 (if udp then 17 else 6) ++ slice f o4 n))
      c3 + 4 + 8 * b2n good

/-! ## Arrival and confirmation of network frames -/

/-- RX_FRAME (R14, R63, R196 to R198, R218, R224, R228, R244, R273): a frame without its FCS arrives on a port; `cut`: the
link went down under it. A filter ACTION of 3 is undefined: it acts as one of the three, which is free (log entry 146). The MAC filters and truncates it, the port's pipeline parses and classifies it, and the traffic
manager admits it unless its policer or cipher must see it first; all that shows waits for its confirmation. `mm` 1 to 3: it
was reassembled from fragments, or the MAC Merge sublayer found a reassembly or an SMD error and no frame comes of it. -/
def execRxFrame (p : Fin 512) (bytes : List Byte) (cut : Bool) (mm : Fin 4) (s : State) : Res := live 3 (fresh fun v => get fun s =>
  if !s.portUp p.val || !s.macBit p.val 0 then .skip
  else if mm = 2 then incW (MAC.MM_ASSY_ERR.of p.val) 1
  else if mm = 3 then incW (MAC.MM_SMD_ERR.of p.val) 1
  else
    let pipe := p.val / 128
    let lim := s.cfd (MAC.MAX_FRAME.of p.val) 13 0 - 4
    let f := bytes.take lim
    let (act0, cls, steer) := s.macFilter p.val f
    let act := if act0 = 3 then v % 3 else act0
    let filt := if f.length < 60 then 2 else if act = 1 then 1 else 0
    let parsed := s.parse pipe 0 f
    let key := s.classKey pipe 0 p.val cls steer parsed
    let dec := if filt = 0 then s.decideFrame pipe 0 p.val cls f key parsed else .nothing
    let ports := match dec.dest with
      | .ports l => l
      | _ => []
    let early := !ports.isEmpty && !actFlag dec.act actPolice && !actFlag dec.act actSa && !s.forTransport parsed f dec
    let fr : Frame := ⟨s.ctl.net.nextFrame, pipe, 0, p.val, none, f, filt, decide (lim < bytes.length), cut, cls, steer,
      decide (act = 2), decide (mm = 1), csumByte f parsed, (s.dom (s.portDom p.val)).comp (s.cfg (MAC.RX_LAT_COMP.of p.val)), parsed, key, dec, early, 0, 0, 0, 0, 0,
      (s.lprof pipe parsed.prof, s.cfg ((FWD.PORT_LEARN (p.val % 128)).of pipe))⟩
    doAll [
      ctl fun c => { c with net := { c.net with frames := c.net.frames ++ [fr], nextFrame := c.net.nextFrame + 1 } },
      Prog.when early (admitCopies fr fr.rewritten false none ports)]) s

/-- Copies of a frame whose check failed: one being sent is stomped, a preempted one in its last fragment, the others are freed
(R203, R206, R274). -/
def failCopies (f : Frame) : Prog := get fun s => doAll [
  Prog.each s.ctl.net.sending (fun e => match e.2 with
    | some x => Prog.when (decide (x.copy.frame = f.id) && !x.copy.confirmed)
        (doAll [stompSeen x.copy.port, if e.1 < 512 then stomp x e.1 else setSending e.1 (some { x with bad := true })])
    | none => .skip),
  Prog.each ((s.ctl.net.queues.flatMap (·.2)).filter fun c => decide (c.frame = f.id) && !c.confirmed) unqueue]

/-- FRAME_CONFIRM (R30, R31, R33, R197, R198, R213, R224, R274): the FCS check of a frame ends. -/
def execFrameConfirm (id : Nat) (ok : Bool) (s : State) : Res := live 3 (get fun s =>
  match s.ctl.net.frames.find? (fun f => decide (f.id = id)) with
  | none => .skip
  | some f =>
    let p := f.src
    let n := f.bytes.length + 4
    doAll [
      ctl fun c => { c with net.frames := c.net.frames.filter fun x => !decide (x.id = id) },
      Prog.when f.oversize (doAll [incW (MAC.RX_OVERSIZE.of p) 1, int Pg.mac p 3]),
      Prog.when f.trunc (incW (MAC.RX_TRUNC.of p) 1),
      if f.filt = 2 ∧ f.trunc = false then incW (MAC.RX_RUNT.of p) 1
      else if !ok || f.oversize || f.trunc then doAll [incW (MAC.RX_FCS_ERR.of p) 1, failCopies f]
      else doAll [gotOctets p n,
        Prog.when f.assembled (incW (MAC.MM_ASSY_OK.of p) 1),
        if f.filt = 1 then incW (MAC.RX_FILT_DROP.of p) 1
        else doAll [noteSource f, applyFrame f none]]]) s

/-- CUT_THROUGH_START (R31, R32, R206): an egress MAC starts an unconfirmed copy that the scheduler chooses, once CT_START
bytes of it are there. -/
def execCutThroughStart (id : Nat) (s : State) : Res := live 3 (get fun s =>
  match (s.ctl.net.queues.flatMap (·.2)).find? (fun c => decide (c.id = id) && !c.confirmed) with
  | none => .skip
  | some c =>
    match s.ctl.net.frames.find? (fun f => decide (f.id = c.frame)) with
    | none => .skip
    | some f =>
      let start := max 64 (min 512 (s.cfd (MAC.CT_START.of f.src) 9 0))
      if s.macBit f.src 3 && !c.noCut && !c.spill && decide (s.portRate c.port ≤ s.portRate f.src) && s.portUp c.port &&
          s.macReady c.port && decide (start ≤ f.bytes.length + 4) then
        match s.pick c.port (some id) with
        | some (x, n, d) => Prog.when (decide (x.id = id)) (doAll [notePick c.port c n d, peep 3 1 f.src, startCopy c true])
        | none => .skip
      else .skip) s

/-! ## Frames from rings (R15, R207) -/

/-- FRAME_FETCH_DONE (R15, R44, R61, R207, R214): the last byte of a send has arrived; its ring's pipeline processes it. -/
def execFrameFetchDone (w : Nat) (s : State) : Res := live 3 (withWork w fun x => get fun s =>
  if x.typ ≠ 0x10 ∨ x.reads ≠ 0 ∨ x.stage = 1 ∨ x.stage = 3 ∨ (x.status = ST.OK ∧ x.buf.length < x.length) then .skip
  else if x.status ≠ ST.OK then complete w x.status 0
  else
    let pipe := s.cfd (RING.CTX_CTL.of x.ring) 3 2
    let bytes := x.buf.take x.length
    let parsed := s.parse pipe 1 bytes
    let key := s.classKey pipe 1 x.fn 0 0 parsed
    let direct := x.flag 11
    let dec := if direct then { Decision.nothing with dest := .ports [(field (x.at 20 2) 8 0, field (x.at 20 2) 15 12)], cls := field (x.at 20 2) 15 12 }
      else s.decideFrame pipe 1 x.fn 0 bytes key parsed
    let fr : Frame := ⟨s.ctl.net.nextFrame, pipe, 1, x.fn, some w, bytes, 0, false, false, 0, 0, false, false, csumByte bytes parsed, s.dom 0, parsed, key, dec, false,
      0, 0, 0, 0, 0, (0, 0)⟩
    doAll [
      ctl fun c => { c with net.nextFrame := c.net.nextFrame + 1 },
      modWork w fun k => { k with stage := 3 },
      applyFrame fr (if x.flag 8 then some (x.at 22 6) else none)]) s

/-! ## Delivery to receive rings (R201, R209, R210, R276) -/

/-- The buffers from the front of a list that `n` bytes take. -/
def takeWorks : List (Nat × Work) → Nat → Option (List (Nat × Work))
  | [], n => if n = 0 then some [] else none
  | b :: t, n => if n = 0 then some [] else (takeWorks t (n - b.2.length)).map (b :: ·)

/-- The oldest frame waiting for a ring goes into the ring's confirmed buffers when they suffice (R209, R276). One whose
store has an uncorrectable error is not written (R21). -/
def deliverRx (r : Nat) (e : MemErr) : Prog := get fun s =>
  match s.ctl.net.hostBound.find? (fun x => decide (x.2.ring = r)) with
  | none => .skip
  | some x =>
    let f := x.2.frame
    match takeWorks (s.rxBufs r) f.bytes.length with
    | none => .skip
    | some l =>
      doAll [
        e.note, ctl fun c => { c with net.hostBound := c.net.hostBound.erase x },
        Prog.each l fun b => modWork b.1 fun k => { k with stage := 3 },
        match e with
        | .ue _ _ => Prog.each l fun b => complete b.1 ST.UNCORRECTABLE 0
        | _ => fillBufs (fun b => b.2.length) (fun b d first more =>
            completeWith b.1 ST.OK d.length [(b.2.addr, d)]
              (rxStamp f first) (rxExtra f f.csum first more)) l f.bytes true]

/-- RX_DELIVER (R209). -/
def execRxDeliver (r : Fin 65536) (e : MemErr) (s : State) : Res := live 3 (deliverRx r.val e) s

/-- HOST_BOUND_RELEASE (R210, R276). -/
def execHostBoundRelease (r : Fin 65536) (s : State) : Res := live 3 (deliverRx r.val .none) s

end Sys2Proof.Machine
end

