-- ==== Sys2Proof/Machine/Flow.lean ====
section
/-! DEFINITION. What flow-engine threads are made of (R299 to R329): registers, fetch, traps, aborts, channels, the current
frame, the flow cache, host copies. A thread works either instruction by instruction (`upc` none at a boundary) or microword
by microword; `finishOp` and `raise` serve both. -/

namespace Sys2Proof.Machine

/-! ## Threads -/

/-- A thread by its global number. -/
def State.thread (s : State) (t : Nat) : Thread := tget Thread.init s.ctl.flow.threads t

/-- Change a thread. -/
def modThread (t : Nat) (f : Thread → Thread) : Prog :=
  ctl fun c => { c with flow.threads := nmod Thread.init c.flow.threads t f }

/-- Flow register `n`: X0 reads as 0 (R299). -/
def Thread.x (h : Thread) (n : Nat) : Nat := if n = 0 then 0 else tget 0 h.xs n

/-- Whether a thread's own fields hold its predicted path (R323). -/
def Thread.onPath (h : Thread) : Bool := (h.spec.map (·.on)).getD false

/-- Note what the predicted path does, when that is what works. -/
def Thread.noted (h : Thread) (f : Spec → Spec) : Thread := { h with spec := h.spec.map fun p => if p.on then f p else p }

/-- Write a flow register: X0 ignores writes (R299). -/
def setX (t n v : Nat) : Prog := Prog.when (decide (n ≠ 0)) (modThread t fun h =>
  { h.noted fun p => { p with dx := nset 0 p.dx n (v % 2 ^ 64 + 1) } with xs := nset 0 h.xs n (v % 2 ^ 64) })

/-- Write a micro-temporary. -/
def setT (t n v : Nat) : Prog := modThread t fun h =>
  { h.noted fun p => { p with dt := nset 0 p.dt n (v % 2 ^ 64 + 1) } with ts := nset 0 h.ts n (v % 2 ^ 64) }

/-! The predicted path (R323, R324) comes into the thread's own fields and goes out of them. -/

/-- Where a thread stands. -/
def Thread.ctx (h : Thread) : FlowCtx := ⟨h.fpc, h.fpcNext, h.upc, h.instr, h.stack, h.z, h.lt, h.ltu, h.w⟩

/-- A thread put where a context stands. -/
def Thread.withCtx (h : Thread) (c : FlowCtx) : Thread := { h with
  fpc := c.fpc
  fpcNext := c.fpcNext
  upc := c.upc
  instr := c.instr
  stack := c.stack
  z := c.z
  lt := c.lt
  ltu := c.ltu
  w := c.w }

/-- Registers with the writes of a path over them. -/
def withHeld (d regs : Tbl Nat) : Tbl Nat := d.foldl (fun a e => nset 0 a e.1 (e.2 - 1)) regs

/-- A thread with the held writes of a path in its registers, standing where the path stands. -/
def Thread.taken (h : Thread) (p : Spec) : Thread :=
  { h.withCtx (if p.fset then p.ctx else { p.ctx with z := h.z, lt := h.lt, ltu := h.ltu, w := h.w }) with
    xs := withHeld p.dx h.xs
    ts := withHeld p.dt h.ts }

/-- The path comes in. -/
def Thread.pathIn (h : Thread) : Thread :=
  match h.spec with
  | some p => if p.on then h else { h.taken p with spec := some { p with on := true, ctx := h.ctx, xs := h.xs, ts := h.ts } }
  | none => h

/-- The path goes out. -/
def Thread.pathOut (h : Thread) : Thread :=
  match h.spec with
  | some p => if p.on then { h.withCtx p.ctx with
      xs := p.xs
      ts := p.ts
      spec := some { p with on := false, ctx := h.ctx, xs := [], ts := [] } } else h
  | none => h

/-- The path goes out, unless it waits for a flow-cache look-up. -/
def pathRest (t : Nat) : Prog := modThread t fun h => if h.st = 5 then h else h.pathOut

/-! Fields of a flow instruction (R315). -/
def insOp (i : Nat) : Nat := field i 7 0
def insD (i : Nat) : Nat := field i 12 8
def insA (i : Nat) : Nat := field i 17 13
def insB (i : Nat) : Nat := field i 22 18
def insFn (i : Nat) : Nat := field i 31 23
def insImm (i : Nat) : Nat := field i 63 32

/-- IMM sign-extended to 64 bits (R316). -/
def sx32 (v : Nat) : Nat := ofSigned 64 (toSigned 32 v)

/-- Sum modulo 2^64. -/
def add64 (a b : Nat) : Nat := (a + b) % 2 ^ 64

/-- MODE of a thread as committed: 0 OFF, 1 POOL, 2 RESIDENT. -/
def State.thrMode (s : State) (t : Nat) : Nat := s.cfd ((FLOW.THR_CFG (t % 16)).of (t / 16)) 1 0

/-- Wheel-time domain of a thread. -/
def State.thrDom (s : State) (t : Nat) : Nat := s.cfd ((FLOW.THR_CFG (t % 16)).of (t / 16)) 6 4

/-- A committed MODE OFF applies when the thread is IDLE, STOPPED or FAULTED (R302). -/
def settle (t : Nat) : Prog := get fun s =>
  Prog.when (decide (s.thrMode t = 0) && decide ((s.thread t).st ∈ [1, 6, 7])) (modThread t fun h => { h with st := 0 })

/-- A flow-instruction boundary: a STOP that waits is taken, unless the thread is inside a trap routine (R303). -/
def boundary (t : Nat) : Prog := get fun s =>
  Prog.when ((s.thread t).stopPending && !(s.thread t).inTrap && !(s.thread t).onPath) (doAll [
    modThread t fun h => { h with st := 6, stopPending := false, stopMem := false }, settle t])

/-- Where a read's bytes belong in a thread's host copy. -/
def thrPlace (t : Nat) : Purpose → Option Nat
  | .thread g off => if g = t then some off else none
  | _ => none

/-- Whatever a thread waits for is given up: its channel, its wheel event (as WHEEL.CANCEL does, R314), its host reads. -/
def cancelWaits (t : Nat) : Prog := doAll [
  cancelFor (fun k => decide (k = .threadWait t)),
  dropReads fun p => (thrPlace t p).isSome,
  endWait (.thread t),
  ctl fun c =>
    { c with
      flow.chans := c.flow.chans.map fun e => (e.1, { e.2 with waiters := e.2.waiters.filter fun w => !decide (w.1 = t) })
      time.flush := c.time.flush.filter fun e => !decide (e.consumer = .threadWait t) },
  modThread t fun h => { h with wait := .none }]

/-- A thread is aborted (R304): its ring item completes with a STATUS, `upc` is recorded. -/
def abortThread (t st upc : Nat) : Prog := .seq (modThread t Thread.pathOut) (get fun s =>
  let h := s.thread t
  Prog.when (decide (h.st ≠ 0)) (doAll [
    breakLatches (fun o => decide (o = ownerThread t)),
    Prog.when h.frame.isSome (inc (FLOW.FRAME_LEAK_CNT.of (t / 16))),
    match h.item with
    | some w => Prog.when (!h.cplDone) (complete w st 0)
    | none => .skip,
    cancelWaits t,
    modThread t fun x => { x with
      st := 7
      frame := none
      item := none
      spec := none
      recUpc := upc
      stopPending := false
      stopMem := false },
    inc (FLOW.ABORT_CNT.of (t / 16)), int Pg.flow (t / 16) 0, settle t]))

/-- The micro-PC an abort records: where the thread stands, a free value between flow instructions. -/
def withUpc (t : Nat) (k : Nat → Prog) : Prog := get fun s =>
  match (s.thread t).pathOut.upc with
  | some u => k u
  | none => fresh fun v => k (v % 16384)

/-- An engine enters its error state (R331): threads aborted, queued ring items completed, ENG_STATUS.ERROR set. -/
def engineError (e : Nat) : Prog := get fun s => doAll [
  wrB (FLOW.ENG_STATUS.of e) 1 true, int Pg.flow e 4,
  Prog.each (List.range 16) fun k => withUpc (16 * e + k) fun u => abortThread (16 * e + k) ST.ENGINE_FAULT u,
  Prog.each (s.workQueue e) fun q => match q with
    | .ring w => complete w ST.ENGINE_FAULT 0
    | .frame _ => .skip,
  setWorkQueue e []]

/-- Do `k` when a word of an engine's control store, of the dispatch table or a trap vector, is good; an uncorrectable one puts the engine
in its error state (R21, R331). -/
def withStore (e u : Nat) (k : Prog) : Prog := get fun s => if s.poisoned 3 e (4 * u) 4 then engineError e else k

/-- A micro-trap with its SUPC (R325, R326). One of the predicted path is held (R324). Without a valid vector, or inside a trap
routine, it is unresumable. The spec gives no fault address for most causes: it is free. -/
def trapTo (t cause : Nat) (addr : Option Nat) (supc : Nat) : Prog := get fun s =>
  let e := t / 16
  let vec := s.memNat 3 e (4 * (256 + cause)) 4
  let go := fun a : Nat => doAll [
    inc (FLOW.TRAP_CNT.of e), peep 5 3 t,
    modThread t fun h => { h with cause := cause, faultAddr := a % 2 ^ 48 },
    if (s.thread t).inTrap || decide (cause = 14) then abortThread t (if cause = 14 then ST.ABORTED else ST.ENGINE_FAULT) supc
    else withStore e (256 + cause) (
      if !tbit vec 15 then abortThread t ST.ENGINE_FAULT supc
      else modThread t fun h => { h with
        inTrap := true
        shadow := ⟨supc, h.ts, h.z, h.lt, h.ltu, h.w, h.stack⟩
        upc := some (field vec 13 0)
        st := 2
        wait := .none })]
  if (s.thread t).onPath && !decide (cause = 14) then modThread t fun h => { h.noted fun p => { p with trap := some (cause, addr, supc) } with
    st := 2
    wait := .none }
  else match addr with
  | some a => go a
  | none => fresh go

/-- Micro-temporaries and flags after a flow instruction: its micro-routine is not in the spec, so they are free. -/
def clobber (t : Nat) : Prog := doAll [
  Prog.each (List.range 8) fun i => fresh fun v => setT t i v,
  fresh fun v => modThread t fun h => { h with z := tbit v 0, lt := tbit v 1, ltu := tbit v 2, w := tbit v 3 }]

/-- The microword or flow instruction at work raises a micro-trap. -/
def raise (t cause : Nat) (addr : Option Nat) : Prog := get fun s =>
  match (s.thread t).upc with
  | some u => trapTo t cause addr u
  | none => .seq (clobber t) (fresh fun v => trapTo t cause addr (v % 16384))

/-- The flow instruction at work ends: the thread is at the boundary before the instruction at `fpc`. -/
def endInstr (t fpc : Nat) : Prog := doAll [
  clobber t,
  modThread t fun h => { h with fpc := fpc % 2 ^ 32, fpcNext := none, upc := none, st := 2, wait := .none },
  boundary t]

/-! ## Microword operands (R318, R319) -/

/-- The microword at an address of an engine's control store. -/
def State.microAt (s : State) (e u : Nat) : Nat := s.memNat 3 e (4 * u) 4

/-- Whether a selector may be used (R319). -/
def Thread.selOk (h : Thread) (i : Nat) : Bool := decide (i < 16) || (decide (i < 26) && h.inTrap) || decide (i = 26)

/-- The value of an operand selector. -/
def State.sel64 (s : State) (t i : Nat) : Nat :=
  let h := s.thread t
  if i < 8 then tget 0 h.ts i
  else if i = 8 then h.x (insD h.instr)
  else if i = 9 then h.x (insA h.instr)
  else if i = 10 then h.x (insB h.instr)
  else if i = 11 then sx32 (insImm h.instr)
  else if i = 12 then insFn h.instr
  else if i = 13 then h.fpc
  else if i = 15 then s.wt (s.thrDom t)
  else if 16 ≤ i ∧ i < 24 then tget 0 h.shadow.ts (i - 16)
  else if i = 24 then h.shadow.upc
  else if i = 25 then h.cause + h.faultAddr * 2 ^ 16
  else if i = 26 then t % 16 + 16 * (t / 16)
  else 0

/-- Write an operand selector; a write to a read-only one is discarded. -/
def setSel64 (t i v : Nat) : Prog := get fun s =>
  let h := s.thread t
  if i < 8 then setT t i v
  else if i = 8 then setX t (insD h.instr) v
  else if i = 9 then setX t (insA h.instr) v
  else if i = 10 then setX t (insB h.instr) v
  else if i = 13 then modThread t fun x => { x with fpcNext := some (v % 2 ^ 32) }
  else if 16 ≤ i ∧ i < 24 then modThread t fun x => { x with shadow := { x.shadow with ts := nset 0 x.shadow.ts (i - 16) (v % 2 ^ 64) } }
  else .skip

/-- The incremented micro-PC after a microword (R321). -/
def nextUpc (t : Nat) : Prog := modThread t fun h => { h with upc := h.upc.map (· + 1), st := 2, wait := .none }

/-- The operation at work ends with a result or none: a flow instruction writes X[D] and ends, a microword writes its D, sets
Z and LT where SETF asks, and goes on. -/
def finishOp (t : Nat) (r : Option Nat) : Prog := get fun s =>
  let h := s.thread t
  match h.upc with
  | none => doAll [
      match r with
      | some v => setX t (insD h.instr) v
      | none => .skip,
      endInstr t (h.fpc + 8)]
  | some u =>
    let w := s.microAt (t / 16) u
    doAll [
      match r with
      | some v => doAll [setSel64 t (field w 23 19) v,
          Prog.when (tbit w 8 && !decide (field w 31 26 ∈ [0x0C, 0x0E])) (modThread t fun x => { x with
            z := decide (v % 2 ^ 64 = 0)
            lt := tbit v 63 })]
      | none => .skip,
      nextUpc t]

/-- A thread starts to wait in a state. -/
def waitFor (t st : Nat) (w : ThreadWait) : Prog := modThread t fun h => { h with st := st, wait := w }

/-! ## Fetch and dispatch (R315, R322) -/

/-- Dispatch word of an opcode. -/
def State.dispatchWord (s : State) (e op : Nat) : Nat := s.memNat 3 e (4 * op) 4

/-- Instructions that an engine's instruction cache holds: 64 KiB (R299). -/
def icacheSize : Nat := 8192

/-- An instruction (plus one) enters an engine's cache at an FPC; when the cache is full another leaves, which one is free. -/
def icachePut (e fpc v : Nat) : Prog := get fun s =>
  let mine := (s.ctl.flow.icache.map (·.1)).filter fun k => decide (k / 2 ^ 32 = e)
  let key := e * 2 ^ 32 + fpc
  let put := ctl fun c => { c with flow.icache := nset 0 c.flow.icache key v }
  if key ∈ mine ∨ mine.length < icacheSize then put
  else fresh fun u => .seq (ctl fun c => { c with flow.icache := nset 0 c.flow.icache (mine.getD (u % mine.length) 0) 0 }) put

/-- DDR5 address of the instruction at an FPC of an engine's program region (R315). -/
def State.fpcAddr (s : State) (e fpc : Nat) : Nat := s.cfgW (FLOW.PROG_BASE.of e) / 4096 * 4096 % 2 ^ 48 + fpc

/-- Whether an instruction may lie at an FPC (R315). -/
def State.fpcOk (s : State) (e fpc : Nat) : Bool := decide (fpc < 4096 * s.cfd (FLOW.PROG_SIZE.of e) 19 0) && decide (fpc % 8 = 0)

/-- Fetch the instruction at FPC from the instruction cache, and go on when its dispatch word is VALID; otherwise micro-trap FETCH or
UNDEF. One that the cache lacks makes the thread wait for it (R301). A cached word that memory no longer holds may still be fetched until
ICACHE_INV (R335). -/
def fetched (t : Nat) (k : Nat → Prog) : Prog := get fun s =>
  let h := s.thread t
  let e := t / 16
  let use := fun i : Nat => doAll [icachePut e h.fpc (i + 1),
    withStore e (insOp i) (if tbit (s.dispatchWord e (insOp i)) 15 then k i else trapTo t 0 none 0x3FFF)]
  if !s.fpcOk e h.fpc then trapTo t 1 none 0x3FFF
  else
    let m := s.memNat 2 0 (s.fpcAddr e h.fpc) 8
    let c := tget 0 s.ctl.flow.icache (e * 2 ^ 32 + h.fpc)
    if c = 0 then waitFor t 5 .fetch
    else if c = m + 1 then use m else fresh fun v => use (if v % 2 = 0 then m else c - 1)

/-- The instruction that a thread waits for arrives; uncorrectable, it raises FETCH (R325). The thread is at a boundary. -/
def fetchDone (t : Nat) (bad : Bool) : Prog := get fun s =>
  let fpc := (s.thread t).fpc
  let a := s.fpcAddr (t / 16) fpc
  if bad || s.poisoned 2 0 a 8 then trapTo t 1 none 0x3FFF
  else doAll [icachePut (t / 16) fpc (s.memNat 2 0 a 8 + 1), modThread t fun h => { h with st := 2, wait := .none }, boundary t]

/-- The predicted path, in the thread's own fields, dispatches the instruction at its FPC (R323); a second predicted one waits. Its
fetch does not hold the thread up. -/
def pathDispatch (t : Nat) : Prog := get fun s =>
  let e := t / 16
  let fpc := (s.thread t).fpc
  let m := s.memNat 2 0 (s.fpcAddr e fpc) 8
  let c := tget 0 s.ctl.flow.icache (e * 2 ^ 32 + fpc)
  let use := fun i : Nat =>
    let d := s.dispatchWord e (insOp i)
    doAll [icachePut e fpc (i + 1),
      if s.poisoned 3 e (4 * insOp i) 4 then .skip
      else if !tbit d 15 then trapTo t 0 none 0x3FFF
      else Prog.when (!tbit d 14) (modThread t fun h => { h.noted fun p => { p with disp := p.disp + 1 } with
        instr := i
        fpcNext := none
        upc := some (field d 13 0) })]
  if !s.fpcOk e fpc then trapTo t 1 none 0x3FFF
  else if c = 0 then (if s.poisoned 2 0 (s.fpcAddr e fpc) 8 then trapTo t 1 none 0x3FFF else use m)
  else if c = m + 1 then use m else fresh fun v => use (if v % 2 = 0 then m else c - 1)

/-- Note that a flow instruction is dispatched. -/
def dispatched (t i : Nat) : Prog := doAll [modThread t fun h => { h with instr := i, fpcNext := none }, peep 5 0 t]

/-- A flow-instruction row: thread `t` is READY between instructions and the one at FPC has opcode `op`. -/
def flowRow (op : Nat) (t : Fin 1024) (act : Nat → Thread → Prog) : Prog := get fun s =>
  let h := s.thread t.val
  Prog.when (decide (h.st = 2) && h.upc.isNone) (fetched t.val fun i =>
    Prog.when (decide (insOp i = op)) (doAll [dispatched t.val i, act i h]))

/-! ## Local and external memory -/

/-- Whether `n` bytes of LMEM from `a` on exist. -/
def lmemOk (a n : Nat) : Bool := decide (a + n ≤ 0x40000)

/-- Bytes `b` at `pos` laid over the `l` at `a`. -/
def laidOver (a : Nat) (l : List Byte) (pos : Nat) (b : List Byte) : List Byte :=
  (l.zipIdx).map fun e => if pos ≤ a + e.2 then b.getD (a + e.2 - pos) e.1 else e.1

/-- Bytes of an engine's LMEM as a thread reads them: its predicted path sees what it has written (R324). -/
def State.lmem (s : State) (t a n : Nat) : List Byte :=
  let b := s.bytes 13 (t / 16) a n
  match (s.thread t).spec with
  | some p => if p.on then p.stores.foldl (fun l e => laidOver a l e.1 e.2) b else b
  | none => b

/-- Write bytes of an engine's LMEM, which mends what was uncorrectable there. The predicted path's are held (R324). -/
def putLmem (t a : Nat) (b : List Byte) : Prog := get fun s =>
  if (s.thread t).onPath then modThread t fun h => h.noted fun p => { p with stores := p.stores ++ [(a, b)] }
  else .seq (poke 13 (t / 16) a b) (cleanse 13 (t / 16) a b.length)

/-- Do `k` when an LMEM range exists, otherwise micro-trap LMEM_RANGE with its address. -/
def withLmem (t a n : Nat) (k : Prog) : Prog := if lmemOk a n then k else raise t 4 (some a)

/-- Do `k` when an LMEM range that is read holds no uncorrectable word, otherwise micro-trap XMEM: the cause whose data are uncorrectable
(R21, R299, R325; log entry 140). -/
def withGood (t a n : Nat) (k : Prog) : Prog := get fun s => if s.poisoned 13 (t / 16) a n then raise t 5 (some a) else k

/-- Do `k` when an aligned LMEM access of `n` bytes is good (R325). -/
def withLmemAt (t a n : Nat) (k : Prog) : Prog := if lmemOk a n ∧ a % n = 0 then k else raise t 4 (some a)

/-- A loaded value of `n` bytes, sign-extended or not. -/
def extend (signed : Bool) (n v : Nat) : Nat := if signed then ofSigned 64 (toSigned (8 * n) v) else v

/-- Whether an external access may be made (R23, R317). -/
def State.xmemOk (s : State) (ddr wrt : Bool) (a n : Nat) : Bool :=
  decide (a % n = 0) && decide (a + n ≤ (if ddr then s.memGiB true * 2 ^ 30 else 48 * 2 ^ 30)) && !(wrt && !ddr && s.hbmReadOnly a n)

/-- Memory space of an external access: 1 HBM, 2 DDR5. -/
def xspace (ddr : Bool) : Nat := if ddr then 2 else 1

/-- An external load starts (R316, R317). -/
def xload (t : Nat) (ddr : Bool) (a n : Nat) (signed : Bool) : Prog := get fun s =>
  if s.xmemOk ddr false a n then waitFor t 5 (.load (xspace ddr) a n signed) else raise t 5 (some a)

/-- An external store (R317). -/
def xstore (t : Nat) (ddr : Bool) (a n v : Nat) : Prog := get fun s =>
  if s.xmemOk ddr true a n then doAll [poke (xspace ddr) 0 a (leBytes n v), cleanse (xspace ddr) 0 a n, finishOp t none]
  else raise t 5 (some a)

/-! ## Host copies (R309, R316) -/

/-- The function a thread's host accesses are made for; none refuses them (R309). -/
def State.thrFn (s : State) (t : Nat) : Option Nat :=
  let h := s.thread t
  let c := s.cfg ((FLOW.THR_CFG (t % 16)).of (t / 16))
  match h.item with
  | some _ => some h.itemFn
  | none => if tbit c 7 then some (field c 18 8) else none

/-- A host copy starts (R316). -/
def hcopy (t : Nat) (toHost : Bool) (host lmem n : Nat) : Prog := get fun s =>
  if n = 0 ∨ 4096 < n then raise t 2 none
  else withLmem t lmem n (
    match s.thrFn t with
    | none => finishOp t (some ST.ACCESS_DENIED)
    | some f => doAll [waitFor t 5 (.host (!toHost) host lmem n),
        Prog.when (!toHost) (hostRead f host n (.thread t 0))])

/-- A host copy that waits gets its answer, if there is one (R116, R122). -/
def hcopyDone (t : Nat) (toLmem : Bool) (host lmem n : Nat) : Prog := get fun s =>
  let f := (s.thrFn t).getD 0
  if toLmem then
    match s.gathered (thrPlace t) n with
    | none => .skip
    | some (st, b) => doAll [
        dropReads fun p => (thrPlace t p).isSome,
        Prog.when (decide (st = ST.OK)) (putLmem t lmem (slice b 0 n)),
        finishOp t (some st)]
  else if !s.linkOpen (s.linkOf f) then doAll [inc (HOST.SHUT_DISCARD_CNT (f / 1024)), finishOp t (some ST.HOST_ABORT)]
  else if s.dmaHeld f then .skip
  else match s.waitRes (.thread t), s.check f host n true with
    | some st, _ => doAll [endWait (.thread t), Prog.when (decide (st = ST.ACCESS_DENIED)) (deny f host n true true), finishOp t (some st)]
    | none, .denied x => doAll [deny f host n true x, finishOp t (some ST.ACCESS_DENIED)]
    | none, .miss p => waitXlat (.thread t) f 0 p
    | none, .pass => .seq (endWait (.thread t)) (if s.poisoned 13 (t / 16) lmem n then finishOp t (some ST.UNCORRECTABLE)
        else doAll [putOut f 0 host (s.lmem t lmem n), finishOp t (some ST.OK)])

/-! ## Channels (R311 to R313) -/

/-- A channel. -/
def State.chan (s : State) (c : Nat) : Chan := tget Chan.init s.ctl.flow.chans c

/-- Change a channel. -/
def modChan (c : Nat) (f : Chan → Chan) : Prog := ctl fun x => { x with flow.chans := nmod Chan.init x.flow.chans c f }

/-- Whether a channel is enabled. -/
def State.chanOn (s : State) (c : Nat) : Bool := s.cbit ((CHAN.CH_CTL (c % 32)).of (c / 32)) 0

/-- Threads that wait to put (true) or to get (false). -/
def Chan.waiting (c : Chan) (put : Bool) : Nat := (c.waiters.filter fun w => w.2.isSome == put).length

/-- Whether a newcomer can put, or get: a place or a word is left by those who waited before (R312). -/
def Chan.canPut (c : Chan) : Bool := decide (c.words.length + c.waiting true < 4)
def Chan.canGet (c : Chan) : Bool := decide (c.waiting false < c.words.length)

/-- A word enters a channel. -/
def chanPush (c v : Nat) : Prog := modChan c fun x => { x with words := x.words ++ [v % 2 ^ 64] }

/-- The head word leaves; a pending event enters with COALESCED (R313). -/
def chanPop (c : Nat) : Prog := modChan c fun x => { x with
  words := x.words.tail ++ (match x.evt with | some src => [2 ^ 63 + 2 ^ 62 + src] | none => [])
  evt := none }

/-- W after a channel operation (R320). -/
def setW (t : Nat) (w : Bool) : Prog := modThread t fun h => { h with w := w }

/-- A put by a thread (R311, R312). `noWait` puts that cannot complete set W and change nothing. -/
def chanPut (t c v : Nat) (noWait : Bool) : Prog := get fun s =>
  if !s.chanOn c then raise t 8 none
  else if (s.chan c).canPut then doAll [chanPush c v, finishOp t none, setW t false]
  else if noWait then doAll [finishOp t none, setW t true]
  else doAll [modChan c fun x => { x with waiters := x.waiters ++ [(t, some (v % 2 ^ 64))] }, waitFor t 3 (.chan c (some (v % 2 ^ 64)))]

/-- A get by a thread. A NOWAIT get of the instruction CHGET also writes X[B] (R316). -/
def chanGet (t c : Nat) (noWait : Bool) : Prog := get fun s =>
  let h := s.thread t
  let note := fun empty : Bool => Prog.when (noWait && h.upc.isNone) (setX t (insB h.instr) (b2n empty))
  if !s.chanOn c then raise t 8 none
  else match (s.chan c).canGet, (s.chan c).words with
    | true, v :: _ => doAll [chanPop c, finishOp t (some v), note false, setW t false]
    | _, _ =>
      if noWait then doAll [finishOp t none, note true, setW t true]
      else doAll [modChan c fun x => { x with waiters := x.waiters ++ [(t, none)] }, waitFor t 3 (.chan c none)]

/-! ## Waiting on wheel time (R314) -/

/-- A thread asks for a wheel event. -/
def timeWait (t : Nat) (tgt : Target) : Prog := get fun s =>
  request (s.thrDom t) 1 tgt (.threadWait t) fun st _ =>
    if st = ST.OK then waitFor t 4 .time else finishOp t (some st)

/-! ## The current frame (R310, R316) -/

/-- Act on the thread's current frame, or raise FRAME. -/
def withFrame (t : Nat) (k : Frame → Prog) : Prog := get fun s =>
  match (s.thread t).frame with
  | some f => k f
  | none => raise t 10 none

/-- Set the thread's current frame. -/
def setFrame (t : Nat) (f : Option Frame) : Prog := modThread t fun h => { h with frame := f }

/-- Largest frame of an engine. -/
def maxFrame : Nat := 16124

/-- Frame read: bytes of the current frame to LMEM. -/
def frameRead (t off lm n : Nat) : Prog := withFrame t fun f => withLmem t lm n (
  let b := (f.bytes.drop off).take n
  doAll [putLmem t lm b, finishOp t (some b.length)])

/-- The current frame's bytes with others written at `off`; bytes it gains in between are free. -/
def extendTo (f : Frame) (off : Nat) (k : List Byte → Prog) : Prog :=
  if off ≤ f.bytes.length then k f.bytes else freeBytes (off - f.bytes.length) fun g => k (f.bytes ++ g)

/-- Frame write: LMEM bytes into the current frame. -/
def frameWrite (t off lm n : Nat) : Prog := withFrame t fun f =>
  if maxFrame < off + n then raise t 10 none
  else withLmem t lm n (withGood t lm n (extendTo f off fun b => get fun s => doAll [
    setFrame t (some { f with bytes := splice b off (s.lmem t lm n) }), finishOp t none]))

/-- Frame length: read (`fn` bit 0 clear) or set. -/
def frameLen (t fn a : Nat) : Prog := withFrame t fun f =>
  if fn % 2 = 0 then finishOp t (some f.bytes.length)
  else if maxFrame < a then raise t 10 none
  else extendTo f a fun b => doAll [setFrame t (some { f with bytes := b.take a }), finishOp t none]

/-- A frame from an engine goes to a port and class, with a launch WT or none; `k` gets the STATUS of its admission. -/
def frameToPort (f : Frame) (port cls : Nat) (launch : Option Nat) (k : Nat → Prog) : Prog := get fun s =>
  if !s.portEnabled port || !s.portUp port then k ST.PORT_DOWN
  else
    let inn := if f.kind = 0 then some (f.src, f.inCls % 8) else none
    let c0 := Copy.plain s.ctl.net.nextFrame f.id port cls f.bytes (s.wt (s.portDom port))
    let c := { c0 with inPort := inn, launch := launch, eligible := launch.isNone, ptp := f.parsed.ptp.isSome, step1 := f.oneStep, noCut := true }
    doAll [
      ctl fun x => { x with net.nextFrame := x.net.nextFrame + 1 },
      admitCopy c fun st h sp => doAll [
        Prog.when (decide (st = ST.TM_DROP)) (countDrops c.queue 1 (b2n h) (b2n sp)), k st]]

/-- A frame from an engine goes to a receive ring; `k` gets its STATUS. A ring that is no ACTIVE NET_RX ring is an invalid
target (R234), for which the spec names no STATUS: it is one of R316's, free. -/
def frameToRing (f : Frame) (r : Nat) (k : Nat → Prog) : Prog := get fun s =>
  let l := s.linkOf (s.ringOwner r)
  if !((List.range 4).any fun p => s.rxRing p r) then doAll [inc (CLASS.NO_TARGET_CNT.of f.pipe), int Pg.cls f.pipe 1,
    fresh fun v => k ([ST.OK, ST.TM_DROP, ST.PORT_DOWN, ST.OUT_OF_HORIZON, ST.WHEEL_FULL].getD (v % 5) ST.OK)]
  else doAll [toRing r { f with work := none },
    k (if s.fd (TM.HOSTBUF l) 19 0 * 1024 < s.hostBoundUse l + f.bytes.length then ST.TM_DROP else ST.OK)]

/-- A frame re-injected into a pipeline (R228, R310, R316): the eighth time drops it. -/
def reinject (t pipe : Nat) (f : Frame) : Prog := get fun s =>
  if 8 ≤ f.recirc + 1 then inc (FLOW.REINJ_DROP_CNT.of (t / 16))
  else
    let parsed := s.parse pipe 2 f.bytes
    let key := s.classKey pipe 2 t 0 0 parsed
    let dec := s.decideFrame pipe 2 t 0 f.bytes key parsed
    applyFrame { f with pipe := pipe, kind := 2, src := t, work := none, parsed := parsed, key := key, dec := dec, recirc := f.recirc + 1, ctrlCopy := false, admitted := false } none

/-- FOUT (R310, R316): the current frame is disposed of. -/
def frameOut (t fn a b : Nat) : Prog := withFrame t fun f =>
  let out := fun st : Nat => doAll [setFrame t none, finishOp t (some st)]
  match fn % 8 with
  | 0 => out ST.OK
  | 1 => frameToPort f (field a 8 0) (field a 15 12) (if tbit fn 3 then some (b % 2 ^ 48) else none) out
  | 2 => frameToRing f (field a 15 0) out
  | 3 => doAll [reinject t (a % 4) f, out ST.OK]
  | 4 => doAll [toCores f, out ST.OK]
  | _ => raise t 2 none

/-- FNEW (R310, R316): a new empty frame, unless the frame store refuses it; when it does the spec does not say. What the new
frame's work record would hold is free. An older current frame is dropped and counted. -/
def frameNew (t : Nat) : Prog := freeBytes 136 fun b => fresh fun h => fresh fun v => get fun s =>
  let f := s.ownFrame (v % 4) t (s.dom (s.thrDom t)) b [] h
  if tbit v 2 then finishOp t (some ST.TM_DROP)
  else doAll [
    Prog.when (s.thread t).frame.isSome (inc (FLOW.FRAME_LEAK_CNT.of (t / 16))),
    ctl fun c => { c with net.nextFrame := c.net.nextFrame + 1 },
    setFrame t (some f), finishOp t (some ST.OK)]

/-- A frame operation that a thread waits for is done. -/
def frameOp (t op a b n fn : Nat) : Prog :=
  match op with
  | 0 => frameRead t a b n
  | 1 => frameWrite t a b n
  | 2 => frameLen t fn a
  | 3 => frameOut t fn a b
  | _ => frameNew t

/-- A frame operation starts (R301): all but the last need a current frame. -/
def frameStart (t op a b n fn : Nat) : Prog :=
  if op < 4 then withFrame t fun _ => waitFor t 5 (.frame op a b n fn) else waitFor t 5 (.frame op a b n fn)

/-- The current frame's store has an uncorrectable error: the frame is dropped and counted (R21), and there is none any longer. -/
def frameLost (t : Nat) : Prog := doAll [
  inc (FLOW.FRAME_LEAK_CNT.of (t / 16)), setFrame t none, raise t 10 none]

/-! ## Completions and the end of work (R302, R309, R310) -/

/-- CPL: completes the ring item once; without a ring item there is nothing to complete. A completion that waits for a translation makes
the thread wait, for its effects come in program order (R317). -/
def cplItem (t st len extra : Nat) : Prog := get fun s =>
  let h := s.thread t
  doAll [
    match h.item with
    | none => .skip
    | some w =>
      if h.cplDone then inc (FLOW.CPL_DUP_CNT.of (t / 16))
      else doAll [completeWith w (st % 65536) (len % 2 ^ 32) [] none [(20, leBytes 8 extra)], modThread t fun x => { x with cplDone := true }],
    get fun u => match h.item with
      | some w => if u.postWaits w then waitFor t 5 (.cpl w) else finishOp t none
      | none => finishOp t none]

/-- DONE: the work ends (R302, R309, R310); `fpc` is the FPC after it. -/
def doneWork (t fpc : Nat) : Prog := get fun s =>
  let h := s.thread t
  doAll [
    Prog.when h.frame.isSome (inc (FLOW.FRAME_LEAK_CNT.of (t / 16))),
    match h.item with
    | some w => Prog.when (!h.cplDone) (complete w ST.OK 0)
    | none => .skip,
    clobber t,
    modThread t fun x => { x with
      st := if s.thrMode t = 2 then 6 else 1
      fpc := fpc % 2 ^ 32
      fpcNext := none
      upc := none
      spec := none
      inTrap := false
      frame := none
      item := none
      cplDone := false
      stopPending := false
      stopMem := false },
    settle t]

/-- HALT: the thread stops after the instruction (R302). -/
def haltThread (t fpc : Nat) : Prog := doAll [
  clobber t,
  modThread t fun x => { x with st := 6, fpc := fpc % 2 ^ 32, fpcNext := none, upc := none, spec := none, stopPending := false, stopMem := false },
  int Pg.flow (t / 16) 1, settle t]

/-! ## The flow cache (R328, R329) -/

/-- Address of way `w` of a key's bucket. -/
def State.fcWay (s : State) (key : List Byte) (w : Nat) : Nat := s.fcBase + crc32c key % 2 ^ s.fcLog2 * 256 + 64 * w

/-- The way of a key's bucket that holds the key. -/
def State.fcFind (s : State) (key : List Byte) : Option Nat := (List.range 4).find? fun w =>
  tbit (s.memNat 1 0 (s.fcWay key w + 56) 1) 0 && decide (s.bytes 1 0 (s.fcWay key w) 32 = key)

/-- An engine's near copy of a key. -/
def State.fcNear (s : State) (e : Nat) (key : List Byte) : Option (List Byte) :=
  (s.ctl.flow.near.find? fun n => decide (n.engine = e) && decide (n.key = key)).map (·.value)

/-- Near copies that an engine holds (R329). -/
def nearSize : Nat := 1024

/-- Put a near copy of an engine in place of an older one of the same key, or take it away. When the engine holds as many as it can
another leaves; which one, the spec does not say: it is free (R329, log entry 147). -/
def setNear (e : Nat) (key : List Byte) (v : Option (List Byte)) : Prog := get fun s =>
  let rest := s.ctl.flow.near.filter fun n => !(decide (n.engine = e) && decide (n.key = key))
  let mine := rest.filter fun n => decide (n.engine = e)
  let put := fun l : List NearCopy => ctl fun c => { c with flow.near := l }
  match v with
  | none => put rest
  | some b =>
    let new := ⟨e, key, b, s.ctl.flow.sweeps⟩
    if mine.length < nearSize then put (rest ++ [new])
    else fresh fun u => put ((rest.filter fun n => decide (some n ≠ mine[u % mine.length]?)) ++ [new])

/-- HIT of the entry at an address is set (R328). -/
def fcHit (a : Nat) : Prog := get fun s => poke 1 0 (a + 56) [BitVec.ofNat 8 (s.memNat 1 0 (a + 56) 1 ||| 2)]

/-- FCLOOK: from HBM or from a near copy that may be old; which one serves is free. What a predicted path's look-up shows waits (R324). -/
def fcLook (t keyA valA : Nat) : Prog := get fun s =>
  let key := s.lmem t keyA 32
  let way := s.fcFind key
  let far := way.map fun w => s.bytes 1 0 (s.fcWay key w + 32) 24
  let near := s.fcNear (t / 16) key
  let hit := match way with
    | some w => if (s.thread t).onPath then modThread t fun h => h.noted fun p => { p with hits := p.hits ++ [s.fcWay key w] }
        else fcHit (s.fcWay key w)
    | none => .skip
  let serve := fun v : Option (List Byte) =>
    match v with
    | some b => doAll [hit, putLmem t valA b, finishOp t (some 1)]
    | none => finishOp t (some 0)
  let fill := match far with
    | some b => doAll [setNear (t / 16) key (some b), peep 5 4 t,
        if (s.thread t).onPath then modThread t fun h => h.noted fun p => { p with fills := p.fills + 1 } else traceConfirmed 5 4 t]
    | none => .skip
  withLmem t valA 24 (
    match near with
    | none => doAll [fill, serve far]
    | some b => if far = some b then serve far else fresh fun v => if v % 2 = 0 then serve (some b) else doAll [fill, serve far])

/-- FCPUT: into the key's entry, or the lowest free way of its bucket. -/
def fcPut (t keyA valA : Nat) : Prog := get fun s => withLmem t valA 24 (withGood t valA 24 (
  let key := s.lmem t keyA 32
  let val := s.lmem t valA 24
  let free := (List.range 4).find? fun w => !tbit (s.memNat 1 0 (s.fcWay key w + 56) 1) 0
  let put := fun w : Nat => doAll [
    poke 1 0 (s.fcWay key w) (key ++ val ++ [1, 0, 0, 0, 0, 0, 0, 0]), cleanse 1 0 (s.fcWay key w) 64,
    setNear (t / 16) key (some val), finishOp t (some 0)]
  match s.fcFind key, free with
  | some w, _ => doAll [
      poke 1 0 (s.fcWay key w + 32) val, setNear (t / 16) key (some val), finishOp t (some 0)]
  | none, some w => put w
  | none, none => doAll [inc FLOW.FC_FULL_CNT, int Pg.flow 0 5, finishOp t (some 2)]))

/-- FCDEL. -/
def fcDel (t keyA : Nat) : Prog := get fun s =>
  let key := s.lmem t keyA 32
  match s.fcFind key with
  | some w => doAll [poke 1 0 (s.fcWay key w + 56) [0], setNear (t / 16) key none, finishOp t (some 0)]
  | none => doAll [setNear (t / 16) key none, finishOp t (some 1)]

/-- A flow-cache operation that waits is done (R328): 0 look, 1 put, 2 delete. With FC_EN clear there is no table: the result
is free. A poisoned bucket is refused. -/
def fcOp (t op keyA valA : Nat) : Prog := get fun s =>
  let key := s.lmem t keyA 32
  if !s.bit FLOW.FC_CFG 31 then fresh fun v => finishOp t (some (v % 3))
  else if s.poisoned 1 0 (s.fcWay key 0) 256 then raise t 5 (some (s.fcWay key 0))
  else if op = 0 then fcLook t keyA valA
  else if op = 1 then fcPut t keyA valA
  else fcDel t keyA

/-- A flow-cache operation starts. -/
def fcStart (t op keyA valA : Nat) : Prog := withLmem t keyA 32 (withGood t keyA 32 (waitFor t 5 (.cache op keyA valA)))

/-- CRC-32C over LMEM bytes with an initial value (R316). -/
def hashOp (t a n init : Nat) : Prog := withLmem t a n (withGood t a n (get fun s => finishOp t (some (crc32cFrom (init % 2 ^ 32) (s.lmem t a n)))))

/-- A latch operation starts (R88, R301, R316). -/
def latchStart (t n fn : Nat) : Prog := if fn % 4 = 3 then raise t 2 none else waitFor t 5 (.latch n fn)

/-- A latch operation that a thread waits for is done: 0 acquire, 1 release, 2 CLR_BROKEN. -/
def latchOp (t n fn : Nat) : Prog :=
  match fn % 4 with
  | 0 => acquireLatch n (ownerThread t) fun w => finishOp t (some (w % 65536))
  | 1 => doAll [releaseLatch n (ownerThread t), finishOp t none]
  | 2 => doAll [clrBrokenLatch n (ownerThread t), finishOp t none]
  | _ => raise t 2 none

end Sys2Proof.Machine
end

