-- ==== Sys2Proof/Machine/Staged.lean ====
section
/-! DEFINITION. The three copies of staged registers (R77 to R82): staged, pending, committed. For pages whose staged set
belongs to one object, the pending and committed copies lie under the object's number (R151, R272). -/

namespace Sys2Proof.Machine

/-- Offsets of a page's listed copies in a bank. -/
def State.bankOffs (s : State) (b : Bank) (page inst : Nat) : List Nat :=
  s.reg.filterMap fun e => if e.1.bank = b ∧ e.1.page = page ∧ e.1.inst = inst then some e.1.off else none

/-- Whether a COMMIT of a page concerns the word at an offset: it holds staged bits (R7, R77). The event routing table of the FUNC
page, which is RW, is in use as ERT_COMMIT left it (R137). -/
def stagedOff (page o : Nat) : Bool :=
  match rowAt page o with
  | some (r, _) => decide (r.st ≠ 0)
  | none => false

/-- One bank's copy becomes another's: all staged registers together. -/
def copyBank (page : Nat) (from_ : Bank) (fi : Nat) (to_ : Bank) (ti : Nat) : Prog := get fun s =>
  Prog.each (((s.bankOffs from_ page fi ++ s.bankOffs to_ page ti).dedup).filter (stagedOff page)) fun o =>
    setCopy to_ ⟨page, o, ti⟩ (s.copy from_ ⟨page, o, fi⟩)

/-- PENDING of a page's copy. -/
def State.isPending (s : State) (page inst : Nat) : Bool := s.bit ((HDR.PAGE_STATUS page).of inst) 0

/-- Where a page's pending and committed copies lie: the object, or the windowed copy. -/
def State.pendKey (s : State) (page inst : Nat) : Nat := if objectPage page then tget 0 s.ctl.pendObj page else inst

/-- COMMIT is accepted: the staged set becomes the pending set (R77). -/
def beginCommit (page inst obj : Nat) : Prog := doAll [
  copyBank page .staged inst .pending (if objectPage page then obj else inst),
  ctl fun c => { c with pendObj := nset 0 c.pendObj page obj },
  wrB ((HDR.PAGE_STATUS page).of inst) 0 true]

/-- COMMIT_SEQ steps (R77). -/
def stepSeq (page inst : Nat) : Prog := get fun s =>
  wrF ((HDR.PAGE_STATUS page).of inst) 31 16 (s.fd ((HDR.PAGE_STATUS page).of inst) 31 16 + 1)

/-- The boundary: the pending set replaces the committed set, PENDING clears and COMMIT_SEQ steps (R77). -/
def endCommit (page inst : Nat) : Prog := get fun s => doAll [
  copyBank page .pending (s.pendKey page inst) .committed (s.pendKey page inst),
  wrB ((HDR.PAGE_STATUS page).of inst) 0 false, stepSeq page inst]

end Sys2Proof.Machine
end

