-- ==== Sys2Proof/Machine/Lsio.lean ====
section
/-! DEFINITION. Pads and low-speed controllers (R515 to R525): pad switching, GPIO edges, I2C and its recovery, UARTs, the
octal-SPI controllers and MDIO. -/

namespace Sys2Proof.Machine

/-- Change the state of the low-speed controllers. -/
def modLsio (f : LsioSt → LsioSt) : Prog := ctl fun c => { c with lsio := f c.lsio }

/-- Something goes out on a low-speed bus: 16 I2C, 17 UART, 18 octal SPI, 19 MDIO. -/
def bus (what i : Nat) (l : List Byte) : Prog := emit (.ctrlBus (16 + what) i l)

/-! ## Pads (R515 to R517) -/

/-- FUNC of a pad, as committed. -/
def State.padFunc (s : State) (p : Nat) : Nat := s.cfd (PAD.PAD_CFG p) 1 0

/-- Whether a pad's function drives it: GPIO by GPIO_OE, FUNC 1 by its direction (R515). -/
def State.padOut (s : State) (p f : Nat) : Bool :=
  if f = 0 then s.bit ⟨4, 0x518 + 4 * (p / 32), 0⟩ (p % 32)
  else decide ((4 ≤ p ∧ p < 8) ∨ (24 ≤ p ∧ p < 40))

/-- The pads whose function a set of committed copies would change. -/
def State.funcChanges (s : State) (b : Bank) : List Nat :=
  (List.range 64).filter fun p => !decide (field (s.copy b (PAD.PAD_CFG p)) 1 0 = s.padFunc p)

/-- Whether a PAD commit is refused (R516). -/
def State.padRefused (s : State) : Bool :=
  (List.range 64).any fun p =>
    let f := field (s.copy .staged (PAD.PAD_CFG p)) 1 0
    decide (2 ≤ f) || (decide (f = 1) && decide (40 ≤ p))

/-- What drives a pad that the low-speed controllers drive: a GPIO level, a copy of PPS_OUT with its POL, and during a switch between two
outputs the keeper, at the last level (R515, R516). None: high impedance, or a function of another chapter. -/
def State.padDrive (s : State) (p : Nat) : Option Bool :=
  let f := s.padFunc p
  if p ∈ s.ctl.lsio.switching then
    if s.padOut p f && s.padOut p (field (s.copy .pending (PAD.PAD_CFG p)) 1 0) then some (tbit s.ctl.lsio.levels p) else none
  else if f = 0 then (if s.padOut p 0 then some (s.bit ⟨4, 0x500 + 4 * (p / 32), 0⟩ (p % 32)) else none)
  else if 4 ≤ p ∧ p < 8 then some (xor (tget false s.ctl.time.ppsOutLevel (p - 4)) (s.bit (TIME.PPS_OUT_CTL (p - 4)) 8))
  else none

/-- Show the levels sampled in GPIO_IN: the pads' levels, the idle value 0 of GPIO during a switch (R515, R516). -/
def showPads : Prog := get fun s =>
  let v := ((List.range 64).map fun p => if p ∈ s.ctl.lsio.switching then 0 else b2n (tbit s.ctl.lsio.levels p) * 2 ^ p).sum
  wrW LSIO.GPIO_IN v

/-- PAD_SWITCH_DISCONNECT (R516 step 1): at the first pad tick after a COMMIT that changes a function. -/
def execPadSwitchDisconnect (s : State) : Res := board (get fun s =>
  let l := s.funcChanges .pending
  Prog.when (s.isPending Pg.pad 0 && s.ctl.lsio.switching.isEmpty && !l.isEmpty) (doAll [
    modLsio fun x => { x with switching := l },
    wrB PAD.PAD_STATUS 0 true, showPads])) s

/-- PAD_SWITCH_CONNECT (R516 step 2, R517): the commit boundary. The levels sampled at this tick are the reference of later
edges and raise none. -/
def execPadSwitchConnect (levels : DWord) (s : State) : Res := board (get fun s =>
  Prog.when (!s.ctl.lsio.switching.isEmpty) (doAll [
    endCommit Pg.pad 0,
    modLsio fun x => { x with
      switching := []
      levels := levels.toNat },
    wrB PAD.PAD_STATUS 0 false, showPads, int Pg.pad 0 0])) s

/-- GPIO_EDGE (R517, R525): at a GPIO sample a pad's level differs from the sample before. An edge counts only on a pad whose
FUNC is 0. -/
def execGpioEdge (p : Fin 64) (s : State) : Res := board (get fun s =>
  let level := !tbit s.ctl.lsio.levels p.val
  let h := p.val / 32
  let b := p.val % 32
  Prog.when (!decide (p.val ∈ s.ctl.lsio.switching)) (doAll [
    modLsio fun x => { x with levels := setField x.levels p.val p.val (b2n level) },
    showPads,
    Prog.when (decide (s.padFunc p.val = 0) && s.bit ⟨4, (if level then 0x528 else 0x530) + 4 * h, 0⟩ b) (doAll [
      wrB ⟨4, 0x538 + 4 * h, 0⟩ b true, int Pg.lsio 0 14])])) s

/-- GPIO_SET (R523): on each half on its own. -/
def execGpioSet (a : Accessor) (h : Fin 2) (v : Word) (s : State) : Res := done (byWriter a Pg.lsio (0x508 + 4 * h.val) (
  get fun s => wr ⟨4, 0x500 + 4 * h.val, 0⟩ (s.rd ⟨4, 0x500 + 4 * h.val, 0⟩ ||| v.toNat))) s

/-- GPIO_CLR (R523). -/
def execGpioClr (a : Accessor) (h : Fin 2) (v : Word) (s : State) : Res := done (byWriter a Pg.lsio (0x510 + 4 * h.val) (
  get fun s => wr ⟨4, 0x500 + 4 * h.val, 0⟩ (s.rd ⟨4, 0x500 + 4 * h.val, 0⟩ &&& notN 32 v.toNat))) s

/-! ## I2C (R518, R519, R525) -/

/-- STATE of an I2C controller. -/
def State.i2c (s : State) (n : Nat) : Nat := s.fd (LSIO.I2C_STATUS n) 2 0

/-- Recovery starts (R519 step 1). -/
def recoverI2c (n : Nat) : Prog := wrF (LSIO.I2C_STATUS n) 2 0 2

/-- A transfer ends: STATE, RESULT and INT_STAT.I2C_DONE. -/
def endI2c (n st result : Nat) : Prog := doAll [
  wrF (LSIO.I2C_STATUS n) 2 0 st, wrF (LSIO.I2C_STATUS n) 11 8 result, int Pg.lsio 0 n]

/-- A transfer starts: the command, and for a write LEN bytes of the transmit FIFO; a byte it does not hold is free. -/
def startI2c (n : Nat) : Prog := get fun s =>
  let c := s.rd (LSIO.I2C_CMD n)
  let fifo := tget [] s.ctl.lsio.i2cTx n
  let k := if tbit c 7 then 0 else field c 13 8
  freeBytes (k - fifo.length) fun l => doAll [
    bus 0 n (leBytes 4 c ++ fifo.take k ++ l),
    modLsio fun x => { x with i2cTx := nset [] x.i2cTx n (fifo.drop k) },
    wrF (LSIO.I2C_STATUS n) 2 0 1]

/-- GO, by the controller's state (R519). -/
def goI2c (n : Nat) : Prog := get fun s =>
  if s.i2c n = 0 then startI2c n
  else if s.i2c n = 2 then modLsio fun x => { x with i2cGo := fset x.i2cGo n true }
  else if s.i2c n = 3 then endI2c n 3 7
  else .skip

/-- A write of I2Cn_CMD: its fields, then RECOVER, then GO; recovery comes first (R519). -/
def i2cCmd (a : Accessor) (n : Nat) (v : Word) : Prog := byWriter a Pg.lsio (0x104 + 32 * n) (doAll [
  wr (LSIO.I2C_CMD n) (v.toNat % 2 ^ 30),
  get fun s => Prog.when (tbit v.toNat 30 && decide (s.i2c n ≠ 4)) (recoverI2c n),
  Prog.when (tbit v.toNat 31) (goI2c n)])

/-- I2C_GO (R518, R519, R525). -/
def execI2cGo (a : Accessor) (n : Fin 4) (v : Word) (s : State) : Res := done (i2cCmd a n.val v) s

/-- RECOVER (R519, R525). -/
def execRecover (a : Accessor) (n : Fin 4) (v : Word) (s : State) : Res := done (i2cCmd a n.val v) s

/-- I2C_TRANSFER_DONE (R518): the result the bus gave, and the bytes of a read. -/
def execI2cTransferDone (n : Fin 4) (result : Fin 6) (data : List Byte) (s : State) : Res := board (get fun s =>
  Prog.when (decide (s.i2c n.val = 1)) (doAll [
    Prog.when (s.bit (LSIO.I2C_CMD n.val) 7)
      (modLsio fun x => { x with i2cRx := nmod [] x.i2cRx n.val (· ++ data.take (s.fd (LSIO.I2C_CMD n.val) 13 8)) }),
    endI2c n.val 0 result.val])) s

/-- I2C_SCL_TIMEOUT (R518): with SMBUS, SCL has been low for 25 ms. -/
def execI2cSclTimeout (n : Fin 4) (s : State) : Res := board (get fun s =>
  Prog.when (decide (s.i2c n.val = 1) && s.cbit (LSIO.I2C_CTL n.val) 3) (endI2c n.val 0 4)) s

/-- SDA_STUCK_LOW (R519): SDA has read low for 100 µs while IDLE. -/
def execSdaStuckLow (n : Fin 4) (s : State) : Res := board (get fun s =>
  Prog.when (decide (s.i2c n.val = 0)) (recoverI2c n.val)) s

/-- RECOVERY_END (R519 steps 2 and 3): after so many pulses SDA read high, or the bus is stuck. A GO that waited starts or
completes with STUCK. -/
def execRecoveryEnd (n : Fin 4) (pulses : Fin 10) (good : Bool) (s : State) : Res := board (get fun s =>
  let go := tget false s.ctl.lsio.i2cGo n.val
  Prog.when (decide (s.i2c n.val = 2)) (doAll [
    modLsio fun x => { x with i2cGo := fset x.i2cGo n.val false },
    if good then doAll [
      wrF (LSIO.I2C_STATUS n.val) 15 12 pulses.val, inc (LSIO.I2C_RECOV_CNT n.val), wrF (LSIO.I2C_STATUS n.val) 2 0 0,
      Prog.when go (goI2c n.val)]
    else doAll [
      wrF (LSIO.I2C_STATUS n.val) 2 0 3, wrF (LSIO.I2C_STATUS n.val) 11 8 7,
      int Pg.lsio 0 (4 + n.val), err Pg.lsio 0 EC.OTHER (4 + n.val) 0,
      Prog.when go (goI2c n.val)]])) s

/-- Committed CTL values take effect: EN from 0 to 1 recovers, EN to 0 disables (R519). -/
def i2cCommitted (n : Nat) (was : Bool) : Prog := get fun s =>
  let en := s.cbit (LSIO.I2C_CTL n) 0
  if en && !was then recoverI2c n
  else if !en then doAll [wrF (LSIO.I2C_STATUS n) 2 0 4, modLsio fun x => { x with i2cGo := fset x.i2cGo n false }]
  else .skip

/-- The byte a read takes from a receive FIFO, and the rest; a port without management takes nothing (R74). An empty FIFO
answers a free byte. -/
def takeByte (a : Accessor) (l : List Byte) (pop : Prog) (k : Bool → Byte → Prog) : Prog := get fun s =>
  match l with
  | [] => freeBytes 1 fun b => k false (byteAt b 0)
  | b :: _ => doAll [Prog.when (s.owner a) pop, k true b]

/-- I2C_DATA_READ (R525). -/
def execI2cDataRead (a : Accessor) (n : Fin 4) (s : State) : Res := done (byReader a Pg.lsio (get fun s =>
  takeByte a (tget [] s.ctl.lsio.i2cRx n.val) (modLsio fun x => { x with i2cRx := nmod [] x.i2cRx n.val List.tail })
    fun _ b => answer b.toNat)) s

/-- A write of I2Cn_DATA fills the transmit FIFO (R525). -/
def i2cDataWrite (n : Nat) (v : Word) : Prog :=
  modLsio fun x => { x with i2cTx := nmod [] x.i2cTx n (· ++ [BitVec.ofNat 8 v.toNat]) }

/-! ## UARTs (R520) -/

/-- Show the fill of a UART's FIFOs. -/
def showUart (u : Nat) : Prog := get fun s => doAll [
  wrF (LSIO.UART_STATUS u) 6 0 (tget [] s.ctl.lsio.uartRx u).length,
  wrF (LSIO.UART_STATUS u) 14 8 (tget [] s.ctl.lsio.uartTx u).length]

/-- UART_RX_CHAR (R520): a character arrives, with a framing error, a parity error or as a break. -/
def execUartRxChar (u : Fin 2) (b : Byte) (frame parity brk : Bool) (s : State) : Res := board (get fun s =>
  Prog.when (s.cbit (LSIO.UART_CTL u.val) 0) (doAll [
    wrB (LSIO.UART_STATUS u.val) 16 brk,
    Prog.when frame (wrB (LSIO.UART_STATUS u.val) 17 true),
    Prog.when (parity && s.cbit (LSIO.UART_CTL u.val) 1) (wrB (LSIO.UART_STATUS u.val) 18 true),
    if (tget [] s.ctl.lsio.uartRx u.val).length < 64 then doAll [
      modLsio fun x => { x with uartRx := nmod [] x.uartRx u.val (· ++ [b]) },
      showUart u.val, int Pg.lsio 0 (8 + u.val)]
    else inc (LSIO.UART_RX_OVR_CNT u.val)])) s

/-- UART_DATA_WRITE (R520): a character for the transmit FIFO. -/
def execUartDataWrite (a : Accessor) (u : Fin 2) (v : Word) (s : State) : Res :=
  done (byWriter a Pg.lsio (0x208 + 32 * u.val) (get fun s =>
    Prog.when (decide ((tget [] s.ctl.lsio.uartTx u.val).length < 64)) (doAll [
      modLsio fun x => { x with uartTx := nmod [] x.uartTx u.val (· ++ [BitVec.ofNat 8 v.toNat]) },
      showUart u.val]))) s

/-- UART_DATA_READ (R520, R525): a character of the receive FIFO with VALID. -/
def execUartDataRead (a : Accessor) (u : Fin 2) (s : State) : Res := done (byReader a Pg.lsio (get fun s =>
  takeByte a (tget [] s.ctl.lsio.uartRx u.val)
    (doAll [modLsio fun x => { x with uartRx := nmod [] x.uartRx u.val List.tail }, showUart u.val])
    fun valid b => answer (b.toNat + b2n valid * 2 ^ 31))) s

/-- UART_TX_CHAR (R520): the oldest character has been sent. -/
def execUartTxChar (u : Fin 2) (s : State) : Res := board (get fun s =>
  match tget [] s.ctl.lsio.uartTx u.val with
  | b :: t => Prog.when (s.cbit (LSIO.UART_CTL u.val) 0) (doAll [
      bus 1 u.val [b], modLsio fun x => { x with uartTx := nset [] x.uartTx u.val t }, showUart u.val])
  | [] => .skip) s

/-! ## Octal SPI (R402, R521) -/

/-- The buffer register of an octal-SPI controller. -/
def ospiBuf (i k : Nat) : Reg := if i = 0 then LSIO.OSPI0_BUF k else LSIO.OSPI1_BUF k

/-- `n` bytes of the data buffer. -/
def State.ospiBytes (s : State) (i n : Nat) : List Byte :=
  ((List.range ((n + 3) / 4)).flatMap fun k => leBytes 4 (s.rd (ospiBuf i k))).take n

/-- Data bytes of the command. -/
def State.ospiLen (s : State) (i : Nat) : Nat := min 4096 (s.fd (LSIO.OSPI_LEN i) 12 0)

/-- The command under way at a controller. -/
def State.ospiOp (s : State) (i : Nat) : OspiOp := tget OspiOp.none s.ctl.lsio.ospiOp i

/-- The command goes to the flash, as it was at its GO. -/
def sendOspi (i : Nat) : Prog := get fun s =>
  bus 2 i (leBytes 4 (s.ospiOp i).cmd ++ leBytes 4 (s.ospiOp i).addr ++ (s.ospiOp i).data)

/-- Whether a program or erase touches bytes 0x0001_0000 to 0x000F_FFFF of a boot flash (R521). -/
def State.ospiProtected (s : State) (i : Nat) : Bool :=
  decide (i = 0) && decide (s.rd (LSIO.OSPI_ADDR i) < 0x100000) &&
    decide (0x10000 < s.rd (LSIO.OSPI_ADDR i) + max 1 (s.ospiLen i))

/-- A command ends (R521): BUSY and GUARD_WAIT clear, STATUS, INT_STAT.OSPI_DONE. -/
def endOspi (i st : Nat) : Prog := doAll [
  wr (LSIO.OSPI_STATUS i) (st * 2 ^ 16),
  modLsio fun x => { x with
    ospiSt := nset none x.ospiSt i none
    ospiHost := fset x.ospiHost i false
    ospiOp := nset OspiOp.none x.ospiOp i OspiOp.none },
  int Pg.lsio 0 (10 + i)]

/-- A write of OSPIs_CMD: its fields; GO of the KIND meant starts a command while the controller is enabled and idle. It takes command,
address, length and data as they are now: they may be written again while it runs (R521; log entry 162). -/
def ospiCmd (a : Accessor) (i kind : Nat) (v : Word) (go : Prog) : Prog :=
  byWriter a Pg.lsio (0x304 + 64 * i) (get fun s => doAll [
    wr (LSIO.OSPI_CMD i) (v.toNat % 2 ^ 31),
    Prog.when (tbit v.toNat 31 && decide (field v.toNat 23 22 = kind) && s.cbit (LSIO.OSPI_CTL i) 0
        && !s.bit (LSIO.OSPI_STATUS i) 0) (doAll [
      wrB (LSIO.OSPI_STATUS i) 0 true,
      modLsio fun x => { x with
        ospiHost := fset x.ospiHost i a.isPort
        ospiOp := nset OspiOp.none x.ospiOp i ⟨v.toNat % 2 ^ 31, s.rd (LSIO.OSPI_ADDR i), s.ospiLen i,
          if kind = 0 then [] else s.ospiBytes i (s.ospiLen i)⟩ },
      go])])

/-- OSPI_READ (R521). -/
def execOspiRead (a : Accessor) (i : Fin 2) (v : Word) (s : State) : Res := done (ospiCmd a i.val 0 v (sendOspi i.val)) s

/-- OSPI_REGISTER_WRITE (R521). -/
def execOspiRegisterWrite (a : Accessor) (i : Fin 2) (v : Word) (s : State) : Res :=
  done (ospiCmd a i.val 1 v (sendOspi i.val)) s

/-- PROGRAM_OR_ERASE (R402, R521): refused to a host in the protected range; held by the guard; else sent. -/
def execProgramOrErase (a : Accessor) (i : Fin 2) (v : Word) (s : State) : Res :=
  done (ospiCmd a i.val 2 v (get fun s =>
    if a.isPort && s.ospiProtected i.val then
      modLsio fun x => { x with ospiSt := nset none x.ospiSt i.val (some ST.ACCESS_DENIED) }
    else if s.pf ≠ 0 then modLsio fun x => { x with ospiSt := nset none x.ospiSt i.val (some ST.ABORTED) }
    else doAll [Prog.when s.guarded (wrB (LSIO.OSPI_STATUS i.val) 1 true), nvStart (.ospi i.val) (sendOspi i.val)])) s

/-- The guard has cleared: a command that waited starts (R402). -/
def ospiReleased (i : Nat) : Prog := doAll [wrB (LSIO.OSPI_STATUS i) 1 false, sendOspi i]

/-! ## MDIO (R522) -/

/-- A write of MDIOm_CMD: its fields, of which GO reads 0 afterwards, a DESIGN CHOICE (log entry 121); GO of the OP meant sends the frame while the master is enabled and idle. -/
def mdioCmd (a : Accessor) (m op : Nat) (v : Word) : Prog := byWriter a Pg.lsio (0x404 + 16 * m) (get fun s => doAll [
  wr (LSIO.MDIO_CMD m) (v.toNat % 2 ^ 31),
  Prog.when (tbit v.toNat 31 && decide (field v.toNat 12 10 = op) && s.cbit (LSIO.MDIO_CTL m) 0
      && !s.bit (LSIO.MDIO_STATUS m) 0) (doAll [
    wrB (LSIO.MDIO_STATUS m) 0 true,
    modLsio fun x => { x with mdioOp := nset 0 x.mdioOp m op },
    bus 3 m (leBytes 2 (field v.toNat 12 0) ++ leBytes 2 (s.fd (LSIO.MDIO_DATA m) 15 0))])])

/-- C22_WRITE (R522). -/
def execC22Write (a : Accessor) (m : Fin 2) (v : Word) (s : State) : Res := done (mdioCmd a m.val 0 v) s
/-- C22_READ (R522). -/
def execC22Read (a : Accessor) (m : Fin 2) (v : Word) (s : State) : Res := done (mdioCmd a m.val 1 v) s
/-- C45_ADDRESS (R522). -/
def execC45Address (a : Accessor) (m : Fin 2) (v : Word) (s : State) : Res := done (mdioCmd a m.val 2 v) s
/-- C45_WRITE (R522). -/
def execC45Write (a : Accessor) (m : Fin 2) (v : Word) (s : State) : Res := done (mdioCmd a m.val 3 v) s
/-- C45_READ (R522). -/
def execC45Read (a : Accessor) (m : Fin 2) (v : Word) (s : State) : Res := done (mdioCmd a m.val 4 v) s
/-- C45_READ_INCREMENT (R522). -/
def execC45ReadIncrement (a : Accessor) (m : Fin 2) (v : Word) (s : State) : Res := done (mdioCmd a m.val 5 v) s

/-- MDIO_DONE (R522): the frame is over; for a read, the data seen and whether the turnaround bit was driven low. -/
def execMdioDone (m : Fin 2) (data : BitVec 16) (driven : Bool) (s : State) : Res := board (get fun s =>
  let op := tget 0 s.ctl.lsio.mdioOp m.val
  Prog.when (s.bit (LSIO.MDIO_STATUS m.val) 0) (doAll [
    wrB (LSIO.MDIO_STATUS m.val) 0 false,
    Prog.when (decide (op ∈ [1, 4, 5])) (wr (LSIO.MDIO_DATA m.val) data.toNat),
    wrB (LSIO.MDIO_STATUS m.val) 1 (decide (op = 1) && !driven),
    int Pg.lsio 0 (12 + m.val)])) s

end Sys2Proof.Machine
end

