-- ==== Sys2Proof/Machine/FlowInstr.lean ====
section
/-! DEFINITION. The flow instructions (R314 to R317), each as a whole, at a thread whose FPC holds it. -/

namespace Sys2Proof.Machine

/-- B′ of ALU: sext(IMM) when FN[8] = 1, X[B] otherwise (R316). -/
def aluB (i : Nat) (h : Thread) : Nat := if tbit (insFn i) 8 then sx32 (insImm i) else h.x (insB i)

/-- Arithmetic shift right of 64 bits. -/
def sar64 (a n : Nat) : Nat := ofSigned 64 (toSigned 64 a / (2 ^ n : Nat))

/-- The ALU's functions (R316); none is a reserved FN. -/
def aluOp (fn a b : Nat) : Option Nat :=
  match fn with
  | 0 => some ((a + b) % 2 ^ 64)
  | 1 => some ((a + 2 ^ 64 - b) % 2 ^ 64)
  | 2 => some (a &&& b)
  | 3 => some (a ||| b)
  | 4 => some (a ^^^ b)
  | 5 => some (a * 2 ^ (b % 64) % 2 ^ 64)
  | 6 => some (a / 2 ^ (b % 64))
  | 7 => some (sar64 a (b % 64))
  | 8 => some (a * b % 2 ^ 64)
  | 9 => some (b2n (decide (toSigned 64 a < toSigned 64 b)))
  | 10 => some (b2n (decide (a < b)))
  | 11 => some (min a b)
  | 12 => some (max a b)
  | _ => none

/-- BR's conditions (R316); none is a reserved FN. -/
def brCond (fn a b : Nat) : Option Bool :=
  match fn with
  | 0 => some (decide (a = b))
  | 1 => some (!decide (a = b))
  | 2 => some (decide (toSigned 64 a < toSigned 64 b))
  | 3 => some (!decide (toSigned 64 a < toSigned 64 b))
  | 4 => some (decide (a < b))
  | 5 => some (!decide (a < b))
  | _ => none

/-- X[A] + sext(IMM). -/
def addrOf (i : Nat) (h : Thread) : Nat := add64 (h.x (insA i)) (sx32 (insImm i))

/-- Bytes of a load or store by FN[1:0]. -/
def sizeOf2 (fn : Nat) : Nat := 2 ^ (fn % 4)

/-- What the engine predicts of a branch: taken when FN[3] = 1 or IMM is negative (R323). -/
def predicts (i : Nat) : Bool := tbit (insFn i) 3 || tbit (insImm i) 31

/-- A predicted branch is resolved (R324). -/
def resolve (t : Nat) (predicted taken : Bool) : Prog :=
  Prog.when (predicted != taken) (doAll [inc (FLOW.MISPREDICT_CNT.of (t / 16)), peep 5 2 t])

/-- NOP (R316). -/
def execNop (t : Fin 1024) (s : State) : Res := live 2 (flowRow 0x00 t fun _ _ => finishOp t.val none) s

/-- ALU (R316). -/
def execAlu (t : Fin 1024) (s : State) : Res := live 2 (flowRow 0x01 t fun i h =>
  match aluOp (insFn i % 16) (h.x (insA i)) (aluB i h) with
  | some v => finishOp t.val (some v)
  | none => raise t.val 2 none) s

/-- LI (R316). -/
def execLi (t : Fin 1024) (s : State) : Res := live 2 (flowRow 0x02 t fun i h =>
  finishOp t.val (some (if tbit (insFn i) 0 then insImm i * 2 ^ 32 + h.x (insD i) % 2 ^ 32 else sx32 (insImm i)))) s

/-- What a predicted path leaves whether it proves right or not (R31, R323): its first instruction in the cache, and its microwords
counted; how many it issued before the branch was resolved is free, at most eight (R324). -/
def ranAhead (t fpc : Nat) (right : Bool) : Prog := fresh fun v => get fun s => doAll [
  Prog.when (s.fpcOk (t / 16) fpc && !s.poisoned 2 0 (s.fpcAddr (t / 16) fpc) 8 &&
    decide (tget 0 s.ctl.flow.icache (t / 16 * 2 ^ 32 + fpc) = 0)) (icachePut (t / 16) fpc (s.memNat 2 0 (s.fpcAddr (t / 16) fpc) 8 + 1)),
  Prog.each (List.range (v % 9)) fun _ => peep 5 1 t,
  Prog.when right (Prog.each (List.range (v % 9)) fun _ => traceConfirmed 5 1 t)]

/-- BR (R316, R323, R324): predicted where its dispatch word says so. -/
def execBr (t : Fin 1024) (s : State) : Res := live 2 (flowRow 0x03 t fun i h =>
  match brCond (insFn i % 8) (h.x (insA i)) (h.x (insB i)) with
  | some taken => get fun s => doAll [
      Prog.when (tbit (s.dispatchWord (t.val / 16) 0x03) 14) (doAll [
        ranAhead t.val (if predicts i then (h.fpc + sx32 (insImm i)) % 2 ^ 32 else (h.fpc + 8) % 2 ^ 32) (predicts i == taken),
        resolve t.val (predicts i) taken]),
      endInstr t.val (if taken then h.fpc + sx32 (insImm i) else h.fpc + 8)]
  | none => raise t.val 2 none) s

/-- JAL (R316). -/
def execJal (t : Fin 1024) (s : State) : Res := live 2 (flowRow 0x04 t fun i h => doAll [
  setX t.val (insD i) ((h.fpc + 8) % 2 ^ 32), endInstr t.val (h.fpc + sx32 (insImm i))]) s

/-- JR (R315, R316): its operands are read before X[D] is written. -/
def execJr (t : Fin 1024) (s : State) : Res := live 2 (flowRow 0x05 t fun i h =>
  let a := addrOf i h
  if 2 ^ 32 ≤ a then trapTo t.val 1 none 0x3FFF
  else doAll [setX t.val (insD i) ((h.fpc + 8) % 2 ^ 32), endInstr t.val a]) s

/-- LD (R316). -/
def execLd (t : Fin 1024) (s : State) : Res := live 2 (flowRow 0x06 t fun i h =>
  let n := sizeOf2 (insFn i)
  withLmemAt t.val (addrOf i h) n (withGood t.val (addrOf i h) n (get fun s =>
    finishOp t.val (some (extend (tbit (insFn i) 2) n (leVal (s.lmem t.val (addrOf i h) n))))))) s

/-- ST (R316). -/
def execSt (t : Fin 1024) (s : State) : Res := live 2 (flowRow 0x07 t fun i h =>
  let n := sizeOf2 (insFn i)
  withLmemAt t.val (addrOf i h) n (doAll [putLmem t.val (addrOf i h) (leBytes n (h.x (insB i))), finishOp t.val none])) s

/-- XLD (R316, R317). -/
def execXld (t : Fin 1024) (s : State) : Res := live 2 (flowRow 0x08 t fun i h =>
  xload t.val (tbit (insFn i) 3) (addrOf i h) (sizeOf2 (insFn i)) (tbit (insFn i) 2)) s

/-- XST (R316, R317). -/
def execXst (t : Fin 1024) (s : State) : Res := live 2 (flowRow 0x09 t fun i h =>
  xstore t.val (tbit (insFn i) 3) (addrOf i h) (sizeOf2 (insFn i)) (h.x (insB i))) s

/-- HCOPY (R316). -/
def execHcopy (t : Fin 1024) (s : State) : Res := live 2 (flowRow 0x0A t fun i h =>
  hcopy t.val (tbit (insFn i) 0) (h.x (insA i)) (h.x (insB i)) (field (insImm i) 12 0)) s

/-- CHPUT (R311, R312, R316). -/
def execChput (t : Fin 1024) (s : State) : Res := live 2 (flowRow 0x0B t fun i h =>
  chanPut t.val (field (insImm i) 10 0) (h.x (insA i)) (tbit (insFn i) 0)) s

/-- CHGET (R311, R312, R316). -/
def execChget (t : Fin 1024) (s : State) : Res := live 2 (flowRow 0x0C t fun i _ =>
  chanGet t.val (field (insImm i) 10 0) (tbit (insFn i) 0)) s

/-- WAIT (R314): the target is X[A], or X[A] + sext(IMM) ticks from now. -/
def execWait (t : Fin 1024) (s : State) : Res := live 2 (flowRow 0x0D t fun i h =>
  timeWait t.val (if tbit (insFn i) 0 then .rel (addrOf i h) else .abs (h.x (insA i) % 2 ^ 48))) s

/-- LATCH (R88, R316). -/
def execLatch (t : Fin 1024) (s : State) : Res := live 2 (flowRow 0x0E t fun i _ =>
  latchStart t.val (field (insImm i) 9 0) (insFn i)) s

/-- FCLOOK (R316, R328). -/
def execFclook (t : Fin 1024) (s : State) : Res := live 2 (flowRow 0x0F t fun i h =>
  fcStart t.val 0 (h.x (insA i)) (h.x (insB i))) s

/-- FCPUT (R316, R328). -/
def execFcput (t : Fin 1024) (s : State) : Res := live 2 (flowRow 0x10 t fun i h =>
  fcStart t.val 1 (h.x (insA i)) (h.x (insB i))) s

/-- FCDEL (R316, R328). -/
def execFcdel (t : Fin 1024) (s : State) : Res := live 2 (flowRow 0x11 t fun i h =>
  fcStart t.val 2 (h.x (insA i)) (h.x (insB i))) s

/-- HASH (R238, R316). -/
def execHash (t : Fin 1024) (s : State) : Res := live 2 (flowRow 0x12 t fun i h =>
  hashOp t.val (h.x (insA i)) (field (insImm i) 7 0) (h.x (insB i))) s

/-- FRD (R316). -/
def execFrd (t : Fin 1024) (s : State) : Res := live 2 (flowRow 0x13 t fun i h =>
  frameStart t.val 0 (h.x (insA i)) (h.x (insB i)) (field (insImm i) 13 0) (insFn i)) s

/-- FWR (R316). -/
def execFwr (t : Fin 1024) (s : State) : Res := live 2 (flowRow 0x14 t fun i h =>
  frameStart t.val 1 (h.x (insA i)) (h.x (insB i)) (field (insImm i) 13 0) (insFn i)) s

/-- FLEN (R316). -/
def execFlen (t : Fin 1024) (s : State) : Res := live 2 (flowRow 0x15 t fun i h =>
  frameStart t.val 2 (h.x (insA i)) (h.x (insB i)) 0 (insFn i)) s

/-- FOUT (R310, R316). -/
def execFout (t : Fin 1024) (s : State) : Res := live 2 (flowRow 0x16 t fun i h =>
  frameStart t.val 3 (h.x (insA i)) (h.x (insB i)) 0 (insFn i)) s

/-- FNEW (R310, R316). -/
def execFnew (t : Fin 1024) (s : State) : Res := live 2 (flowRow 0x17 t fun i h =>
  frameStart t.val 4 (h.x (insA i)) (h.x (insB i)) 0 (insFn i)) s

/-- CPL (R309): STATUS X[A], LENGTH X[B], bytes 20 to 27 X[D]. -/
def execCpl (t : Fin 1024) (s : State) : Res := live 2 (flowRow 0x18 t fun i h =>
  cplItem t.val (h.x (insA i)) (h.x (insB i)) (h.x (insD i))) s

/-- EVT (R316). -/
def execEvt (t : Fin 1024) (s : State) : Res := live 2 (flowRow 0x19 t fun i _ =>
  doAll [evt (field (insImm i) 11 0), finishOp t.val none]) s

/-- DONE (R302, R309, R310). -/
def execDone (t : Fin 1024) (s : State) : Res := live 2 (flowRow 0x1A t fun _ h => doneWork t.val (h.fpc + 8)) s

/-- HALT (R302): RUN goes on after it. -/
def execHalt (t : Fin 1024) (s : State) : Res := live 2 (flowRow 0x1B t fun _ h => haltThread t.val (h.fpc + 8)) s

/-- TIME (R316). -/
def execTime (t : Fin 1024) (s : State) : Res := live 2 (flowRow 0x1C t fun _ _ => get fun s =>
  finishOp t.val (some (s.wt (s.thrDom t.val)))) s

/-- FENCE (R316): external and host writes are performed in the command that makes them, or keep the thread in WAIT_MEM, so none is
outstanding. -/
def execFence (t : Fin 1024) (s : State) : Res := live 2 (flowRow 0x1D t fun _ _ => finishOp t.val none) s

end Sys2Proof.Machine
end

