-- ==== Sys2Proof/Machine/Micro.lean ====
section
/-! DEFINITION. The microwords (R318 to R327), each at a thread whose micro-PC holds it. -/

namespace Sys2Proof.Machine

/-- Shortest CL of a micro-operation, as CL codes it; none is a reserved MOP (R320, R321). -/
def minCl (mop : Nat) : Option Nat :=
  if mop ≤ 0x08 then some 0
  else if mop = 0x09 then some 2
  else if mop = 0x0A ∨ mop = 0x0B then some 0
  else if mop = 0x0C then some 1
  else if mop = 0x0D then some 0
  else if mop ∈ [0x0E, 0x0F, 0x10] then some 2
  else if mop ∈ [0x11, 0x12, 0x13, 0x14] then some 1
  else if mop ∈ [0x15, 0x16, 0x17, 0x18] then some 2
  else if mop = 0x19 ∨ mop = 0x1A then some 0
  else if 0x20 ≤ mop ∧ mop ≤ 0x28 then some 0
  else none

/-! Fields of a microword (R318). -/
def mwD (w : Nat) : Nat := field w 23 19
def mwA (w : Nat) : Nat := field w 18 14
def mwB (w : Nat) : Nat := field w 13 9
def mwFn (w : Nat) : Nat := field w 7 0
def mwTarget (w : Nat) : Nat := field w 13 0

/-- The microword at the thread's micro-PC issues when it is the row's: reserved MOP, CL and an unusable control store
come first. -/
def issue (mop t : Nat) (act : Nat → Prog) : Prog := get fun s =>
  match (s.thread t).upc with
  | none => .skip
  | some u =>
    let w := s.microAt (t / 16) u
    if s.poisoned 3 (t / 16) (4 * u) 4 then engineError (t / 16)
    else match minCl (field w 31 26) with
      | none => raise t 2 none
      | some c =>
        if field w 31 26 ≠ mop then .skip
        else if field w 25 24 < c then raise t 3 none
        else act w

/-- Whether a microword of a predicted path waits for the branch (R324): one of class E (R320), and the two that leave the routine for
good, which the rule does not name (DEDUCED, log entry 141). -/
def pathWaits (w : Nat) : Bool :=
  let mop := field w 31 26
  decide (mop ∈ [0x0D, 0x0E, 0x0F, 0x10, 0x11, 0x12, 0x13, 0x14, 0x17, 0x18, 0x19, 0x1A, 0x26, 0x27]) ||
    (decide (mop = 0x15) && !decide (mwFn w = 0))

/-- Whether a microword writes the flags (R320). -/
def setsFlags (w : Nat) : Bool := decide (field w 31 26 = 0x0A) || (decide (field w 31 26 ∈ [1, 2, 3, 4, 5, 6, 7, 8, 9, 0x15, 0x16]) && tbit w 8)

/-- The next microword of a thread's predicted path issues, at most its eighth, when it is the row's and need not wait (R323, R324). -/
def pathRow (mop t : Nat) (act : Nat → Prog) : Prog := get fun s =>
  match (s.thread t).spec with
  | none => .skip
  | some p =>
    match p.ctx.upc with
    | none => .skip
    | some u =>
      let w := s.microAt (t / 16) u
      let known := decide (field w 31 26 = mop) || (minCl (field w 31 26)).isNone
      Prog.when (known && !p.resolved && p.trap.isNone && decide (p.n < 8) && !(s.thread t).inTrap && !pathWaits w &&
        !s.poisoned 3 (t / 16) (4 * u) 4) (doAll [
          modThread t fun h => h.pathIn.noted fun q => { q with n := q.n + 1, fset := q.fset || setsFlags w },
          peep 5 1 t, issue mop t act, pathRest t])

/-- The path that is predicted of an instruction dispatched at a thread (R323). -/
def Thread.predicted (h : Thread) (i : Nat) : Spec :=
  let start := (if predicts i then h.fpc + sx32 (insImm i) else h.fpc + 8) % 2 ^ 32
  { taken := predicts i, start := start, ctx := { h.ctx with fpc := start, fpcNext := none, upc := none } }

/-- A microword row: thread `t` is READY with the row's micro-operation at its micro-PC, or else at that of its predicted path; at a
flow-instruction boundary the instruction at FPC is dispatched first, and predicted where its dispatch word says so, the predicted next
one with it (R322, R323). -/
def microRow (mop : Nat) (t : Fin 1024) (act : Nat → Prog) : Prog := get fun s =>
  let h := s.thread t.val
  if h.st ≠ 2 then .skip
  else match h.upc with
    | some u =>
      let m := field (s.microAt (t.val / 16) u) 31 26
      if m = mop ∨ (minCl m).isNone = true ∨ s.poisoned 3 (t.val / 16) (4 * u) 4 = true then issue mop t.val act
      else pathRow mop t.val act
    | none => fetched t.val fun i =>
        let d := s.dispatchWord (t.val / 16) (insOp i)
        let w := s.microAt (t.val / 16) (field d 13 0)
        Prog.when (decide (field w 31 26 = mop) || (minCl (field w 31 26)).isNone) (doAll [
          dispatched t.val i,
          modThread t.val fun x => { x with
            upc := some (field d 13 0)
            spec := if tbit d 14 then some (x.predicted i) else none },
          Prog.when (tbit d 14) (doAll [modThread t.val Thread.pathIn, pathDispatch t.val, modThread t.val Thread.pathOut]),
          issue mop t.val act])

/-- The micro-PC can advance, or UPC_RANGE is raised (R321). -/
def canAdvance (t : Nat) (k : Prog) : Prog := get fun s =>
  if (s.thread t).upc = some 16383 then raise t 7 none else k

/-- A microword's selectors are usable and the micro-PC can advance; `k` gets the values of A and B. -/
def operands (t : Nat) (sels : List Nat) (a b : Nat) (k : Nat → Nat → Prog) : Prog := get fun s =>
  if sels.all (s.thread t).selOk then canAdvance t (k (s.sel64 t a) (s.sel64 t b)) else raise t 2 none

/-- An operate microword with D, A and B. -/
def operate (mop : Nat) (t : Fin 1024) (f : Nat → Nat → Nat) : Prog := microRow mop t fun w =>
  operands t.val [mwD w, mwA w, mwB w] (mwA w) (mwB w) fun a b => finishOp t.val (some (f a b))

/-- Address and size of a memory microword (format M). -/
def memOperand (w a : Nat) : Nat × Nat := (add64 a (ofSigned 64 (toSigned 12 (field w 11 0))), 2 ^ field w 13 12)

/-- COND of a next-address microword (R320); none is a reserved value. -/
def Thread.cond (h : Thread) (n : Nat) : Option Bool :=
  match n with
  | 0 => some true
  | 1 => some h.z
  | 2 => some !h.z
  | 3 => some h.lt
  | 4 => some !h.lt
  | 5 => some h.ltu
  | 6 => some !h.ltu
  | 7 => some h.w
  | 8 => some !h.w
  | _ => none

/-- Go to a micro-PC. -/
def goUpc (t u : Nat) : Prog := modThread t fun h => { h with upc := some u }

/-- UNOP (R320). -/
def execUnop (t : Fin 1024) (s : State) : Res := live 2 (microRow 0x00 t fun _ => canAdvance t.val (nextUpc t.val)) s

/-- UADD (R320). -/
def execUadd (t : Fin 1024) (s : State) : Res := live 2 (operate 0x01 t fun a b => (a + b) % 2 ^ 64) s

/-- USUB (R320). -/
def execUsub (t : Fin 1024) (s : State) : Res := live 2 (operate 0x02 t fun a b => (a + 2 ^ 64 - b) % 2 ^ 64) s

/-- UAND (R320). -/
def execUand (t : Fin 1024) (s : State) : Res := live 2 (operate 0x03 t fun a b => a &&& b) s

/-- UOR (R320). -/
def execUor (t : Fin 1024) (s : State) : Res := live 2 (operate 0x04 t fun a b => a ||| b) s

/-- UXOR (R320). -/
def execUxor (t : Fin 1024) (s : State) : Res := live 2 (operate 0x05 t fun a b => a ^^^ b) s

/-- USHL (R320). -/
def execUshl (t : Fin 1024) (s : State) : Res := live 2 (operate 0x06 t fun a b => a * 2 ^ (b % 64) % 2 ^ 64) s

/-- USHR (R320). -/
def execUshr (t : Fin 1024) (s : State) : Res := live 2 (operate 0x07 t fun a b => a / 2 ^ (b % 64)) s

/-- USAR (R320). -/
def execUsar (t : Fin 1024) (s : State) : Res := live 2 (operate 0x08 t fun a b => sar64 a (b % 64)) s

/-- UMUL (R320). -/
def execUmul (t : Fin 1024) (s : State) : Res := live 2 (operate 0x09 t fun a b => a * b % 2 ^ 64) s

/-- UCMP (R320). -/
def execUcmp (t : Fin 1024) (s : State) : Res := live 2 (microRow 0x0A t fun w =>
  operands t.val [mwA w, mwB w] (mwA w) (mwB w) fun a b => doAll [
    modThread t.val fun h => { h with
      z := decide (a = b)
      lt := decide (toSigned 64 a < toSigned 64 b)
      ltu := decide (a < b) },
    nextUpc t.val]) s

/-- UINS (R320). -/
def execUins (t : Fin 1024) (s : State) : Res := live 2 (microRow 0x0B t fun w =>
  operands t.val [mwD w] (mwD w) (mwD w) fun d _ =>
    let l := 16 * field w 17 16
    doAll [setSel64 t.val (mwD w) (setField (if tbit w 18 then 0 else d) (l + 15) l (field w 15 0)), nextUpc t.val]) s

/-- ULD (R320). -/
def execUld (t : Fin 1024) (s : State) : Res := live 2 (microRow 0x0C t fun w =>
  operands t.val [mwD w, mwA w] (mwA w) (mwA w) fun a _ =>
    let (p, n) := memOperand w a
    withLmemAt t.val p n (withGood t.val p n (get fun s => finishOp t.val (some (leVal (s.lmem t.val p n)))))) s

/-- UST (R320). -/
def execUst (t : Fin 1024) (s : State) : Res := live 2 (microRow 0x0D t fun w =>
  operands t.val [mwD w, mwA w] (mwA w) (mwD w) fun a d =>
    let (p, n) := memOperand w a
    withLmemAt t.val p n (doAll [putLmem t.val p (leBytes n d), nextUpc t.val])) s

/-- UXLD (R320). -/
def execUxld (t : Fin 1024) (s : State) : Res := live 2 (microRow 0x0E t fun w => get fun s =>
  operands t.val [mwD w, mwA w] (mwA w) (mwA w) fun a _ =>
    xload t.val (tbit (insFn (s.thread t.val).instr) 3) (memOperand w a).1 (memOperand w a).2 false) s

/-- UXST (R320). -/
def execUxst (t : Fin 1024) (s : State) : Res := live 2 (microRow 0x0F t fun w => get fun s =>
  operands t.val [mwD w, mwA w] (mwA w) (mwD w) fun a d =>
    xstore t.val (tbit (insFn (s.thread t.val).instr) 3) (memOperand w a).1 (memOperand w a).2 d) s

/-- UHDMA (R320): host address T5, LMEM address T6, length T7[12:0], direction T7[16]. -/
def execUhdma (t : Fin 1024) (s : State) : Res := live 2 (microRow 0x10 t fun w =>
  operands t.val [mwD w] 5 6 fun host lm => get fun s =>
    hcopy t.val (tbit (s.sel64 t.val 7) 16) host lm (field (s.sel64 t.val 7) 12 0)) s

/-- UCHPUT (R320): puts A into channel B. -/
def execUchput (t : Fin 1024) (s : State) : Res := live 2 (microRow 0x11 t fun w =>
  operands t.val [mwA w, mwB w] (mwA w) (mwB w) fun a b => chanPut t.val (field b 10 0) a (tbit (mwFn w) 0)) s

/-- UCHGET (R320): gets from channel B into D. -/
def execUchget (t : Fin 1024) (s : State) : Res := live 2 (microRow 0x12 t fun w =>
  operands t.val [mwD w, mwB w] (mwB w) (mwB w) fun b _ => chanGet t.val (field b 10 0) (tbit (mwFn w) 0)) s

/-- UWAIT (R314, R320): target A in the absolute form. -/
def execUwait (t : Fin 1024) (s : State) : Res := live 2 (microRow 0x13 t fun w =>
  operands t.val [mwD w, mwA w] (mwA w) (mwA w) fun a _ => timeWait t.val (.abs (a % 2 ^ 48))) s

/-- ULATCH (R320): latch B, operation FN[1:0]. -/
def execUlatch (t : Fin 1024) (s : State) : Res := live 2 (microRow 0x14 t fun w =>
  operands t.val [mwD w, mwB w] (mwB w) (mwB w) fun b _ => latchStart t.val (field b 9 0) (mwFn w)) s

/-- UFC (R320): 0 look, 1 put, 2 delete. -/
def execUfc (t : Fin 1024) (s : State) : Res := live 2 (microRow 0x15 t fun w =>
  operands t.val [mwD w, mwA w, mwB w] (mwA w) (mwB w) fun a b =>
    if mwFn w ≤ 2 then fcStart t.val (mwFn w) a b else raise t.val 2 none) s

/-- UHASH (R320): FN bytes at LMEM A, initial value B. -/
def execUhash (t : Fin 1024) (s : State) : Res := live 2 (microRow 0x16 t fun w =>
  operands t.val [mwD w, mwA w, mwB w] (mwA w) (mwB w) fun a b => hashOp t.val a (mwFn w) b) s

/-- UFRAME (R320): 0 read, 1 write, 2 length, 3 out, 4 new. A and B are the matching instruction's X[A] and X[B], T6 its
byte count, T7 its FN (log entry 17). -/
def execUframe (t : Fin 1024) (s : State) : Res := live 2 (microRow 0x17 t fun w =>
  operands t.val [mwD w, mwA w, mwB w] (mwA w) (mwB w) fun a b => get fun s =>
    let n := field (s.sel64 t.val 6) 13 0
    if mwFn w ≤ 4 then frameStart t.val (mwFn w) a b n (s.sel64 t.val 7 % 512) else raise t.val 2 none) s

/-- UCPL (R320): STATUS A, LENGTH B, bytes 20 to 27 from T7. -/
def execUcpl (t : Fin 1024) (s : State) : Res := live 2 (microRow 0x18 t fun w =>
  operands t.val [mwA w, mwB w] (mwA w) (mwB w) fun a b => get fun s => cplItem t.val a b (s.sel64 t.val 7)) s

/-- UEVT (R320): source B[11:0]. -/
def execUevt (t : Fin 1024) (s : State) : Res := live 2 (microRow 0x19 t fun w =>
  operands t.val [mwB w] (mwB w) (mwB w) fun b _ => doAll [evt (field b 11 0), nextUpc t.val]) s

/-- UDONE (R320): DONE, or HALT when FN[0] = 1. -/
def execUdone (t : Fin 1024) (s : State) : Res := live 2 (microRow 0x1A t fun w => get fun s =>
  let h := s.thread t.val
  let next := h.fpcNext.getD (h.fpc + 8)
  if tbit (mwFn w) 0 then haltThread t.val next else doneWork t.val next) s

/-- UJMP (R321). -/
def execUjmp (t : Fin 1024) (s : State) : Res := live 2 (microRow 0x20 t fun w => goUpc t.val (mwTarget w)) s

/-- UBR (R321). -/
def execUbr (t : Fin 1024) (s : State) : Res := live 2 (microRow 0x21 t fun w => get fun s =>
  match (s.thread t.val).cond (field w 23 20) with
  | none => raise t.val 2 none
  | some true => goUpc t.val (mwTarget w)
  | some false => canAdvance t.val (nextUpc t.val)) s

/-- UCALL (R321): a fifth push raises USTACK. -/
def execUcall (t : Fin 1024) (s : State) : Res := live 2 (microRow 0x22 t fun w => get fun s =>
  let h := s.thread t.val
  if 4 ≤ h.stack.length then raise t.val 6 none
  else canAdvance t.val (modThread t.val fun x => { x with stack := (x.upc.getD 0 + 1) :: x.stack, upc := some (mwTarget w) })) s

/-- URET (R321): an empty stack raises USTACK. -/
def execUret (t : Fin 1024) (s : State) : Res := live 2 (microRow 0x23 t fun _ => get fun s =>
  match (s.thread t.val).stack with
  | [] => raise t.val 6 none
  | u :: r => modThread t.val fun x => { x with upc := some u, stack := r }) s

/-- A predicted path that proved right goes on as the thread's own (R33, R324): its writes, what it showed, its held micro-trap. -/
def pathTaken (t : Nat) (p : Spec) : Prog := doAll [
  modThread t fun h => { h.taken p with spec := none },
  Prog.each (List.range p.disp) (fun _ => peep 5 0 t),
  Prog.each (List.range p.n) (fun _ => traceConfirmed 5 1 t),
  Prog.each (List.range p.fills) (fun _ => traceConfirmed 5 4 t),
  Prog.each p.hits fcHit,
  Prog.each p.stores (fun e => putLmem t e.1 e.2),
  match p.trap with
  | some (c, a, u) => trapTo t c a u
  | none => .skip]

/-- Whether a thread takes something at its next boundary (R303): a STOP, or a commit of the FLOW or CHAN page. -/
def State.stopsHere (s : State) (t : Nat) : Bool :=
  ((s.thread t).stopPending && !(s.thread t).inTrap) || s.bit ((HDR.PAGE_STATUS Pg.flow).of (t / 16)) 0 ||
    s.bit ((HDR.PAGE_STATUS Pg.chan).of (t / 16)) 0

/-- UEND (R321): the flow-instruction boundary. A predicted path that proved right follows, unless the thread takes something at this
boundary, and then its instructions are executed anew; one that is unresolved is given up. On the path, the next instruction is
dispatched at once. -/
def execUend (t : Fin 1024) (s : State) : Res := live 2 (microRow 0x24 t fun _ => get fun s =>
  let h := s.thread t.val
  let next := h.fpcNext.getD ((h.fpc + 8) % 2 ^ 32)
  let ends := modThread t.val fun h => { h with fpc := next, fpcNext := none, upc := none }
  let plain := doAll [ends, modThread t.val fun h => { h with spec := none }, boundary t.val]
  if h.onPath then doAll [ends, pathDispatch t.val]
  else match h.spec with
    | some p => if p.resolved && decide (p.start = next) && !s.stopsHere t.val then pathTaken t.val p else plain
    | none => plain) s

/-- UFBR (R321, R323, R324): the branch's FPC, and the resolution of a predicted one: a wrong path is discarded. -/
def execUfbr (t : Fin 1024) (s : State) : Res := live 2 (microRow 0x25 t fun w => get fun s =>
  let h := s.thread t.val
  match h.cond (field w 23 20) with
  | none => raise t.val 2 none
  | some taken => canAdvance t.val (doAll [
      match h.spec with
      | some p => Prog.when (!p.on && !p.resolved) (doAll [resolve t.val p.taken taken,
          modThread t.val fun x => { x with spec := if p.taken = taken then some { p with resolved := true } else none }])
      | none => .skip,
      Prog.when taken (modThread t.val fun x => { x with fpcNext := some ((h.fpc + sx32 (insImm h.instr)) % 2 ^ 32) }),
      nextUpc t.val])) s

/-- URTT (R325, R327): back from the trap; for UNDEF and FETCH the instruction at FPC is dispatched again. -/
def execUrtt (t : Fin 1024) (s : State) : Res := live 2 (microRow 0x26 t fun _ => doAll [
  modThread t.val fun h => { h with
    ts := h.shadow.ts
    z := h.shadow.z
    lt := h.shadow.lt
    ltu := h.shadow.ltu
    w := h.shadow.w
    stack := h.shadow.stack
    inTrap := false
    upc := if h.cause ≤ 1 then none else some h.shadow.upc },
  get fun s => Prog.when (s.thread t.val).upc.isNone (boundary t.val)]) s

/-- UABORT (R304, R321). -/
def execUabort (t : Fin 1024) (s : State) : Res := live 2 (microRow 0x27 t fun _ =>
  withUpc t.val fun u => abortThread t.val ST.ENGINE_FAULT u) s

/-- UTRAP (R321): micro-trap SOFT. -/
def execUtrap (t : Fin 1024) (s : State) : Res := live 2 (microRow 0x28 t fun _ => raise t.val 15 none) s

end Sys2Proof.Machine
end

