-- ==== Sys2Proof/Machine/FlowCtl.lean ====
section
/-! DEFINITION. Control of the flow engines (R302 to R305, R312, R314, R329 to R337): work items, THRt_CTL, waits that end, the
control store, channels and cores through their pages. -/

namespace Sys2Proof.Machine

/-! ## Work and threads -/

/-- WORK_ITEM_TAKE (R302, R305 to R307, R330): the lowest-numbered IDLE thread of an engine that is a
POOL thread takes the oldest queued item. -/
def execWorkItemTake (e : Fin 64) (s : State) : Res := live 2 (get fun s =>
  match (List.range 16).find? (fun k => decide ((s.thread (16 * e.val + k)).st = 1) && decide (s.thrMode (16 * e.val + k) = 1)), s.workQueue e.val with
  | some k, item :: rest =>
    let t := 16 * e.val + k
    let area := 0x3C000 + 0x400 * k
    let start := fun (kind x3 entry : Nat) (record : List Byte) (f : Option Frame) (w : Option Nat) => doAll [
      setWorkQueue e.val rest,
      putLmem t area record,
      setX t 1 kind, setX t 2 area, setX t 3 x3,
      modThread t fun h => { h with
        st := 2
        fpc := s.cfg ((FLOW.ENTRY entry).of e.val)
        fpcNext := none
        upc := none
        spec := none
        inTrap := false
        frame := f
        item := w
        itemFn := ((w.bind s.work?).map (·.fn)).getD 0
        cplDone := false }]
    if s.fd (FLOW.CS_STATUS.of e.val) 1 0 ≠ 0 ∨ s.bit (FLOW.ENG_STATUS.of e.val) 1 = true then .skip
    else match item with
      | .frame f => start 0 f.flowEntry (f.flowEntry % 16) f.record (some f) none
      | .ring w =>
        match s.work? w with
        | some x => start 1 (x.at 20 2) (field (x.at 20 2) 11 8) x.record none (some w)
        | none => setWorkQueue e.val rest
  | _, _ => .skip) s

/-- A write of THRt_CTL by an accessor, at the engine it has selected. -/
def thrCtl (a : Accessor) (k : Fin 16) (act : Nat → Prog) : Prog :=
  byWriter a Pg.flow (0x208 + 32 * k.val) (get fun s => act (16 * s.instSel a Pg.flow + k.val))

/-- THREAD_STOP (R302, R303). -/
def execThreadStop (a : Accessor) (k : Fin 16) (s : State) : Res := done (thrCtl a k fun t => get fun s =>
  let h := s.thread t
  let later := fun m : Bool => modThread t fun x => { x with stopPending := true, stopMem := m }
  if h.st = 5 then later true
  else if h.st ∈ [2, 3, 4] ∧ h.inTrap = true then later false
  else if h.st = 2 then (if h.upc.isNone then doAll [later false, boundary t] else later false)
  else if h.st = 3 ∨ h.st = 4 then doAll [cancelWaits t, clobber t,
    modThread t fun x => { x with st := 6, upc := none, fpcNext := none, spec := none }, settle t]
  else .skip) s

/-- THREAD_RUN (R302). -/
def execThreadRun (a : Accessor) (k : Fin 16) (s : State) : Res := done (thrCtl a k fun t => get fun s =>
  Prog.when (decide ((s.thread t).st = 6)) (modThread t fun x => { x with st := 2 })) s

/-- THREAD_ABORT (R304): micro-trap FORCED, which has no valid vector. -/
def execThreadAbort (a : Accessor) (k : Fin 16) (s : State) : Res := done (thrCtl a k fun t => get fun s =>
  Prog.when (decide ((s.thread t).st ≠ 0)) (withUpc t fun u => trapTo t 14 none u)) s

/-- A thread takes the start state of its mode (R302, R330). -/
def startState (t : Nat) : Prog := get fun s =>
  let m := s.thrMode t
  modThread t fun x => { x with
    st := if m = 1 then 1 else if m = 2 then 2 else 0
    fpc := if m = 2 then s.cfg ((FLOW.THR_START (t % 16)).of (t / 16)) else x.fpc
    upc := none
    fpcNext := none
    spec := none
    inTrap := false }

/-- THREAD_RESTART (R302). -/
def execThreadRestart (a : Accessor) (k : Fin 16) (s : State) : Res := done (thrCtl a k fun t => get fun s =>
  Prog.when (decide ((s.thread t).st = 7)) (startState t)) s

/-- CHANNEL_WAIT_DONE (R312, R313): the thread that has waited longest for its put, or its get, on its channel has it done. -/
def execChannelWaitDone (t : Fin 1024) (s : State) : Res := live 2 (get fun s =>
  let h := s.thread t.val
  match h.wait with
  | .chan c put =>
    let ch := s.chan c
    let first := ch.waiters.find? fun w => w.2.isSome == put.isSome
    let leave := modChan c fun x => { x with waiters := x.waiters.filter fun w => !decide (w.1 = t.val) }
    if h.st ≠ 3 ∨ first.map (·.1) ≠ some t.val then .skip
    else match put, ch.words with
      | some v, l => Prog.when (decide (l.length < 4)) (doAll [leave, chanPush c v, finishOp t.val none, setW t.val false])
      | none, v :: _ => doAll [leave, chanPop c, finishOp t.val (some v), setW t.val false]
      | none, [] => .skip
  | _ => .skip) s

/-- MEMORY_OP_DONE (R301, R302, R316, R317, R325): the operation a thread in WAIT_MEM waits for is done; uncorrectable data raise
micro-trap XMEM, of an instruction FETCH, and of a frame it is lost (R21). -/
def execMemoryOpDone (t : Fin 1024) (e : MemErr) (s : State) : Res := live 2 (get fun s =>
  let h := s.thread t.val
  let bad := match e with | .ue _ _ => true | _ => false
  if h.st ≠ 5 then .skip else .seq (match h.wait with
  | .load sp a n sg => doAll [e.note,
      if bad || s.poisoned sp 0 a n then raise t.val 5 (some a)
      else if s.opaqueAt sp a n then fresh fun v => finishOp t.val (some (extend sg n (v % 2 ^ (8 * n))))
      else finishOp t.val (some (extend sg n (s.memNat sp 0 a n)))]
  | .host toL ad lm n => hcopyDone t.val toL ad lm n
  | .cache op k v => doAll [e.note, if bad then raise t.val 5 none else fcOp t.val op k v]
  | .fetch => doAll [e.note, fetchDone t.val bad]
  | .latch n fn => latchOp t.val n fn
  | .frame op a b n fn => doAll [e.note, if bad && decide (op < 4) then frameLost t.val else frameOp t.val op a b n fn]
  | .cpl w => Prog.when (!s.postWaits w) (finishOp t.val none)
  | _ => .skip) (pathRest t.val)) s

/-- THREAD_WAIT_DONE (R56, R314): the next event, a thread's wait, makes it READY with OK, or STEPPED. -/
def execThreadWaitDone (s : State) : Res := live 2 (
  dispatch (fun c => match c with | .threadWait _ => true | _ => false) fun e stepped =>
    match e.consumer with
    | .threadWait t => get fun s =>
        Prog.when (decide ((s.thread t).st = 4)) (finishOp t (some (if stepped then ST.STEPPED else ST.OK)))
    | _ => .skip) s

/-! ## Control store (R330, R331) -/

/-- CS_STATUS of an engine. -/
def setCs (e phase : Nat) : Prog := wrF (FLOW.CS_STATUS.of e) 1 0 phase
def csStatus (e st : Nat) : Prog := wrF (FLOW.CS_STATUS.of e) 31 16 st

/-- RELOAD (R330): only a control core starts one. -/
def execReload (a : Accessor) (s : State) : Res := done (byWriter a Pg.flow 0x440 (get fun s =>
  let e := s.instSel a Pg.flow
  if a.isPort then csStatus e ST.ACCESS_DENIED else mstart MA.CS_RELOAD e .register 0)) s

/-- The arbiter has accepted a reload, or a self-test: the engine drains (R330, R331). -/
def reloadAccepted (e : Nat) : Prog := setCs e 1
def selftestAccepted (e : Nat) : Prog := doAll [ctl fun c => { c with flow.testing := nset 0 c.flow.testing e 1 }, setCs e 1]

/-- The arbiter has refused one (R93). -/
def csRefused (e : Nat) : Prog := csStatus e ST.CONFLICT

/-- CS_DRAIN_DONE (R302, R330 step 3, R331): every thread rests, or DRAIN_US has passed (`timeout`). A reload makes every thread that is
not OFF FAULTED, as R302 and R304 say, and breaks the latches of all; a self-test aborts those that still run. -/
def execCsDrainDone (e : Fin 64) (timeout : Bool) (s : State) : Res := live 2 (get fun s =>
  let ts := (List.range 16).map (16 * e.val + ·)
  let busy := ts.filter fun t => decide ((s.thread t).st ∈ [2, 3, 4, 5])
  let k := tget 0 s.ctl.flow.testing e.val
  Prog.when (decide (s.fd (FLOW.CS_STATUS.of e.val) 1 0 = 1) && decide (k ≠ 2) && (busy.isEmpty || timeout)) (doAll [
    Prog.each (if k = 1 then busy else ts.filter fun t => !decide ((s.thread t).st ∈ [0, 7])) fun t =>
      withUpc t fun u => abortThread t ST.ABORTED u,
    if k = 1 then ctl fun c => { c with flow.testing := nset 0 c.flow.testing e.val 2 }
    else doAll [breakLatches (fun o => ts.any fun t => decide (o = ownerThread t)), setCs e.val 2]])) s

/-- LOAD_DONE (R330 step 4). -/
def execLoadDone (a : Accessor) (s : State) : Res := done (byWriter a Pg.flow 0x440 (get fun s =>
  let e := s.instSel a Pg.flow
  Prog.when (decide (s.fd (FLOW.CS_STATUS.of e) 1 0 = 2)) (setCs e 3))) s

/-- CRC-32C of an engine's control store. -/
def State.csCrc (s : State) (e : Nat) : Nat := crc32c (s.bytes 3 e 0 65536)

/-- CS_CHECK_DONE (R330 steps 5 and 5′, R331): the engine resumes and leaves its error state, or loads again. -/
def execCsCheckDone (e : Fin 64) (s : State) : Res := live 2 (get fun s =>
  Prog.when (decide (s.fd (FLOW.CS_STATUS.of e.val) 1 0 = 3)) (
    if s.csCrc e.val = s.rd (FLOW.CS_CRC.of e.val) then doAll [
      Prog.each (List.range 16) fun k => startState (16 * e.val + k),
      setCs e.val 0, csStatus e.val ST.OK, wrB (FLOW.ENG_STATUS.of e.val) 1 false, int Pg.flow e.val 3, mend MA.CS_RELOAD e.val]
    else doAll [csStatus e.val ST.BAD_FIELD, setCs e.val 2])) s

/-- SELFTEST (R331). -/
def execSelftest (a : Accessor) (s : State) : Res := done (byWriter a Pg.flow 0x440 (get fun s =>
  mstart MA.ENGINE_SELFTEST (s.instSel a Pg.flow) .register 0)) s

/-- An engine's channels lose their words. -/
def emptyChans (e : Nat) : Prog := Prog.each (List.range 32) fun c => modChan (32 * e + c) fun x => { x with words := [], evt := none }

/-- What a self-test finds of a control store: it is that of CS_CRC, with no uncorrectable word (R331). -/
def State.storeGood (s : State) (e : Nat) : Bool := !s.poisoned 3 e 0 65536 && decide (s.csCrc e = s.rd (FLOW.CS_CRC.of e))

/-- SELFTEST_DONE (R331): `ok` is what the patterns gave, to which the check of the control store comes; the end is OK, or the engine
enters its error state. LMEM holds free values. -/
def execSelftestDone (e : Fin 64) (ok : Bool) (s : State) : Res := live 2 (get fun s =>
  Prog.when (decide (tget 0 s.ctl.flow.testing e.val = 2)) (doAll [
    ctl fun c => { c with flow.testing := nset 0 c.flow.testing e.val 0 },
    freeBytes 0x40000 fun b => poke 13 e.val 0 b, cleanse 13 e.val 0 0x40000,
    emptyChans e.val, setCs e.val 0,
    if ok && s.storeGood e.val then csStatus e.val ST.OK else doAll [csStatus e.val ST.ENGINE_FAULT, engineError e.val],
    mend MA.ENGINE_SELFTEST e.val])) s

/-- ENGINE_RESET (R89, R304, R335): a write of ENG_CTL.RESET. Queued ring items complete with ABORTED; the latches of every thread
break, of one that is OFF too. -/
def execEngineReset (a : Accessor) (s : State) : Res := done (byWriter a Pg.flow 0x100 (get fun s =>
  let e := s.instSel a Pg.flow
  doAll [
    Prog.each (List.range 16) fun k => doAll [
      withUpc (16 * e + k) fun u => abortThread (16 * e + k) ST.ABORTED u,
      modThread (16 * e + k) fun h => { h with xs := [] }],
    breakLatches (fun o => (List.range 16).any fun k => decide (o = ownerThread (16 * e + k))),
    Prog.each (s.workQueue e) fun q => match q with
      | .ring w => complete w ST.ABORTED 0
      | .frame _ => .skip,
    setWorkQueue e [], emptyChans e])) s

/-- ICACHE_INV (R335). -/
def execIcacheInv (a : Accessor) (s : State) : Res := done (byWriter a Pg.flow 0x114 (get fun s =>
  let e := s.instSel a Pg.flow
  ctl fun c => { c with flow.icache := c.flow.icache.filter fun x => !decide (x.1 / 2 ^ 32 = e) })) s

/-! ## Channels through their page (R336) -/

/-- PUT_WRITE: a write of PUTc_HI puts the word. -/
def execPutWrite (a : Accessor) (c : Fin 32) (hi : Word) (s : State) : Res := done (byWriter a Pg.chan (0x10C + 32 * c.val) (get fun s =>
  let e := s.instSel a Pg.chan
  let ch := 32 * e + c.val
  if s.chanOn ch && (s.chan ch).canPut then chanPush ch (s.copy .loHold ((CHAN.PUT c.val).of e) + 2 ^ 32 * hi.toNat)
  else wrB ((CHAN.CH_STATUS c.val).of e) 6 true)) s

/-- GET_READ: a read of GETc_LO takes the head word and latches HI. -/
def execGetRead (a : Accessor) (c : Fin 32) (s : State) : Res := done (byReader a Pg.chan (get fun s =>
  let e := s.instSel a Pg.chan
  let ch := 32 * e + c.val
  match (s.chan ch).canGet, (s.chan ch).words with
  | true, v :: _ => doAll [chanPop ch, setCopy .hiLatch ((CHAN.GET c.val).of e) (v / 2 ^ 32), answer (v % 2 ^ 32)]
  | _, _ => doAll [wrB ((CHAN.CH_STATUS c.val).of e) 7 true, setCopy .hiLatch ((CHAN.GET c.val).of e) 0, answer 0])) s

/-- FLOW_CACHE_SWEEP (R328, R329): the next event, a sweep, ends near copies filled before the previous one, and ages. -/
def execFlowCacheSweep (s : State) : Res := live 2 (
  dispatch (fun c => decide (c = .aging 4)) fun e stepped => doAll [
    Prog.when (!stepped) (get fun s => doAll [
      ctl fun c => { c with flow := { c.flow with
        sweeps := c.flow.sweeps + 1
        near := c.flow.near.filter fun n => decide (c.flow.sweeps ≤ n.sweep) } },
      Prog.when (s.bit FLOW.FC_CFG 8) (Prog.each (s.usedEntries 1 0 s.fcBase (2 ^ s.fcLog2 * 256) 64) fun i => get fun u =>
        let a := s.fcBase + 64 * i + 56
        let v := u.memNat 1 0 a 1
        if !tbit v 0 then .skip
        else if tbit v 1 then poke 1 0 a [BitVec.ofNat 8 (v - 2)]
        else doAll [poke 1 0 a [0], inc FLOW.FC_AGED_CNT])]),
    nextPeriod e stepped]) s

/-! ## What a commit of the FLOW or CHAN page does (R302, R311) -/

/-- A FLOW commit has taken effect for a thread; `old` is its mode before. -/
def thrCommitted (t old : Nat) : Prog := get fun s =>
  if s.thrMode t = 0 then settle t
  else if old = 0 ∧ (s.thread t).st = 0 then startState t
  else .skip

/-- A CHAN commit of an engine has taken effect: disabled channels lose their words and their waiters take CHANNEL. -/
def chanCommitted (e : Nat) : Prog := Prog.each (List.range 32) fun c => get fun s =>
  let ch := 32 * e + c
  Prog.when (!s.chanOn ch && decide (s.chan ch ≠ Chan.init)) (doAll [
    modChan ch fun _ => Chan.init,
    Prog.each (s.chan ch).waiters fun w => doAll [modThread w.1 fun h => { h with wait := .none }, raise w.1 8 none]])

/-! ## Control cores (R333, R337) -/

/-- State of a core: 0 RESET, 1 RUNNING, 2 WFI, 3 FATAL. -/
def State.coreState (s : State) (c : Nat) : Nat := s.fd (CORE.CORE_STATUS.of c) 1 0

/-- CORE_RESET (R337). -/
def execCoreReset (a : Accessor) (s : State) : Res := done (byWriter a Pg.core 0x100 (get fun s =>
  let c := s.instSel a Pg.core
  doAll [wrF (CORE.CORE_STATUS.of c) 1 0 0, breakLatches (fun o => decide (o = ownerCore c))])) s

/-- CORE_RUN (R333): a core in RESET starts at BOOT_ADDR. -/
def execCoreRun (a : Accessor) (s : State) : Res := done (byWriter a Pg.core 0x100 (get fun s =>
  let c := s.instSel a Pg.core
  Prog.when (decide (s.coreState c = 0)) (doAll [wrF (CORE.CORE_STATUS.of c) 1 0 1,
    emit (.ctrlBus 0 c (leBytes 8 (s.rdW (CORE.BOOT_ADDR.of c))))]))) s

/-- NMI (R337): a core that runs or sleeps is interrupted. -/
def execNmi (a : Accessor) (s : State) : Res := done (byWriter a Pg.core 0x100 (get fun s =>
  let c := s.instSel a Pg.core
  Prog.when (decide (s.coreState c ∈ [1, 2])) (doAll [wrF (CORE.CORE_STATUS.of c) 1 0 1, emit (.ctrlBus 1 c [])]))) s

/-- CORE_FATAL (R333): a core halts with its mcause and mepc. -/
def execCoreFatal (c : Fin 48) (cause : Word) (epc : DWord) (s : State) : Res := live 2 (get fun s =>
  Prog.when (decide (s.coreState c.val ∈ [1, 2])) (doAll [
    wrF (CORE.CORE_STATUS.of c.val) 1 0 3,
    wrF (CORE.CORE_STATUS.of c.val) 31 16 (s.fd (CORE.CORE_STATUS.of c.val) 31 16 + 1),
    wr (CORE.FATAL_CAUSE.of c.val) cause.toNat, wrW (CORE.FATAL_EPC.of c.val) epc.toNat,
    breakLatches (fun o => decide (o = ownerCore c.val)), int Pg.core c.val 0])) s

end Sys2Proof.Machine
end

