-- ==== Sys2Proof/Machine/Pair.lean ====
section
/-! DEFINITION. The pair unit (R462 to R478): link, epochs, heartbeats, mirroring, admission, fencing. -/

namespace Sys2Proof.Machine

/-- Put the unit in a state (R466). -/
def setPair (st : Nat) : Prog := wrF PAIR.STATUS 2 0 st

/-- EN of the pair unit. -/
def State.pairEn (s : State) : Bool := s.cbit PAIR.CFG 0

/-- Mirrored writes this unit holds for its peer. -/
def State.mirrored (s : State) : List Staged := s.ctl.blk.recs.filter fun r => r.peer.isSome

/-- Place every mirrored write held, in staging order (R473): the owner's orders are over. -/
def placeMirrored : Prog := get fun s => doAll [
  modPair fun p => { p with orders := [] },
  namePieces (s.ctl.blk.pieces.filter fun p => s.mirrored.any fun r => decide (r.seq = p.seq))]

/-- An admission under way ends without pairing (R476). The joiner that was FENCED is FENCED again, any other unit ALONE; that one waits
for no orders any longer (log entry 100). -/
def endAdmission (st : Nat) : Prog := get fun s => doAll [
  Prog.when (s.bit PAIR.RESYNC_STATUS 8) (mend MA.PAIR_RESYNC 0xFF),
  wrB PAIR.RESYNC_STATUS 8 false, wrF PAIR.RESYNC_STATUS 31 16 st,
  Prog.when (decide (s.pairState = prJoining)) (if s.ctl.pair.wasFenced then setPair prFenced else doAll [setPair prAlone, placeMirrored]),
  modPair fun p => { p with asked := 0, mine := false, theirs := false, resync := [], resyncing := false, admEpoch := none }]

/-- The unit leaves PAIRED for a state: waiting writes are acknowledged and the mirrored ones placed (R470, R473). -/
def leavePaired (st : Nat) : Prog := get fun s => doAll [
  setPair st, Prog.when (decide (s.pairState = prPaired)) (doAll [ackWaiting, Prog.when (decide (st ≠ prFenced)) placeMirrored])]

/-- Restart the dead-peer timer in full (R469). -/
def restartDead : Prog := get fun s =>
  let dom := s.cfd PAIR.CFG 6 4
  doAll [cancelFor fun c => decide (c = .deadPeer),
    request dom 1 (.rel (s.deadUs * 500)) .deadPeer fun st _ =>
      Prog.when (decide (st ≠ ST.OK)) (refused .deadPeer dom ((s.wt dom + s.deadUs * 500) % 2 ^ 48) st)]

/-- The peer is declared dead (R465, R469). A joiner that was FENCED is FENCED again (R476). -/
def declareDead : Prog := get fun s => doAll [
  Prog.when (decide (s.pairState = prJoining)) (endAdmission ST.ABORTED),
  wr PAIR.EPOCH ((s.rd PAIR.EPOCH + 1) % 2 ^ 32), dropStreams,
  leavePaired (if s.pairState = prJoining ∧ s.ctl.pair.wasFenced = true then prFenced else prAlone), wrB PAIR.STATUS 5 true,
  inc PAIR.DECLARE_CNT, lifeAdd 22 1, int Pg.pair 0 0]

/-- The unit becomes FENCED for a REASON (R467, R468, R477): all shutters close with CAUSE 4. -/
def enterFenced (reason : Nat) : Prog := get fun s =>
  Prog.when (s.pairEn && decide (s.pairState ≠ prFenced)) (doAll [
    Prog.when (decide (s.pairState = prJoining)) (endAdmission ST.ABORTED),
    leavePaired prFenced, wrF PAIR.FENCE_INFO 1 0 reason, int Pg.pair 0 1,
    Prog.each (List.range 4) fun l => get fun t => Prog.when (t.linkFormed l) (shutterClose l 4)])

/-- The unit is FENCED no longer (R477): shutters whose link is in L0 become READY, and what waited goes on. -/
def leaveFenced : Prog := doAll [
  wrF PAIR.FENCE_INFO 1 0 0, Prog.each (List.range 4) shutterReady, retryWrites,
  retryJournal, kickPlace, Prog.each (List.range 16) sendAct, pumpStreams]

/-- REFCLK edges in 10 µs, rounded up. -/
def edges10us : Nat := 1563

/-- A message's epoch against this unit's (R467). In JOINING the peer speaks at the epoch it had when the admission was accepted, which
counts as this unit's own (R465, R476; log entry 100). -/
def epochCheck (e : Nat) (k : Prog) : Prog := get fun s =>
  if !s.pairEn then .skip else doAll [
    wr PAIR.PEER_EPOCH e,
    if e = s.rd PAIR.EPOCH ∨ (s.pairState = prJoining ∧ s.ctl.pair.admEpoch = some e) then k
    else if e < s.rd PAIR.EPOCH then doAll [
      inc PAIR.STALE_DROP_CNT,
      Prog.when (match s.ctl.pair.fenceAt with
        | some t => decide (t + edges10us ≤ s.ctl.time.edges)
        | none => true) (doAll [
          modPair fun p => { p with fenceAt := some s.ctl.time.edges }, inc PAIR.FENCE_TX_CNT, sendMsg clsMgmt .fence])]
    else enterFenced 2]

/-- A message of a reliable class arrives (R464): executed when it is the one expected, and acknowledged unless `late`. -/
def rxReliable (c seq : Nat) (late : State → Bool) (k : Prog) : Prog := get fun s =>
  let t := s.stream c
  let d := seqDiff seq t.expect
  doAll [peep 9 1 c,
    if d = 0 then doAll [
      modStream c fun x => { x with expect := (x.expect + 1) % 2 ^ 32, naked := none }, k,
      Prog.when (!late s) (sendPairAck c seq)]
    else if d < 0 then doAll [inc PAIR.DUP_CNT,
      sendPairAck c ((t.expect + 2 ^ 32 - 1 - (if c = clsStage then s.ctl.pair.held.length else 0)) % 2 ^ 32)]
    else Prog.when (decide (t.naked ≠ some t.expect)) (doAll [
      modStream c fun x => { x with naked := some x.expect }, emit (.pairNak c t.expect (s.rd PAIR.EPOCH))])]

/-! ## The link -/

/-- The link goes down (R462, R469, R476). -/
def pairDown : Prog := get fun s => doAll [
  wrB PAIR.STATUS 3 false, inc PAIR.LINK_DOWN_CNT, int Pg.pair 0 2, modPair fun p => { p with outq := [] },
  Prog.when (decide (s.pairState = prPaired)) (doAll [leavePaired prSuspended, int Pg.pair 0 4]),
  Prog.when (decide (s.pairState = prJoining)) (endAdmission ST.ABORTED)]

/-- XINDAORD_LINK_DOWN (R462, R469, R470, R476): the link goes down to retrain, or for want of a whole group. -/
def execXindaordLinkDown (s : State) : Res := board (get fun s => Prog.when s.pairUp pairDown) s

/-- XINDAORD_LINK_UP (R462, R464): the failed lanes decide: all eight, one whole group and NARROW, or no link. The streams go on. -/
def execXindaordLinkUp (bad : Fin 256) (s : State) : Res := board (get fun s =>
  let low := decide (bad.val % 16 = 0)
  let high := decide (bad.val / 16 = 0)
  Prog.when (!s.pairUp && s.clockRuns 3 && (low || high)) (doAll [wrB PAIR.STATUS 3 true, wrB PAIR.STATUS 4 (!(low && high)), pumpStreams])) s

/-- HELLO_SEND (R476): each 100 µs with the link up. -/
def execHelloSend (s : State) : Res := board (get fun s =>
  Prog.when (s.pairUp && s.pairEn) (sendMsg clsMgmt (.hello (s.cfd PAIR.CFG 1 1) s.pairState (s.bit PAIR.STATUS 5)))) s

/-- A staged write is discarded at an admission (R476), with the placement that has a copy of it. A command that has not been acknowledged
completes with ABORTED (log entry 158). -/
def discardRec (r : Staged) : Prog := get fun s => doAll [
  Prog.each (s.ctl.blk.placings.filter fun p => decide (p.stage < 3) &&
      s.ctl.blk.pieces.any fun x => decide (x.seq = r.seq) && decide (x.taken = some p.id)) (fun p => doAll [
    endPlacing p,
    modBlk fun b => { b with pieces := b.pieces.map fun x => if x.taken = some p.id then { x with taken := none } else x }]),
  dropRec r.seq,
  match r.work with
  | some w => blockCpl w ST.ABORTED 0 [] []
  | none => .skip]

/-- Both units have accepted an admission: JOINING (R476 step 3). The joiner drops its mirrored writes, those that wait too, and every
write of a volume that it does not own; the leader starts to copy. -/
def enterJoining : Prog := get fun s =>
  let leader := decide (s.ctl.pair.asked = 1)
  doAll [
    modPair fun p => { p with wasFenced := decide (s.pairState = prFenced), admEpoch := some (s.rd PAIR.PEER_EPOCH) },
    setPair prJoining, restartDead, startPeriodic .hbSend,
    if leader then
      let gs := (s.volsOn.filter fun v => s.volPair v).flatMap fun v =>
        (s.usedEntries 2 0 (s.mapAddr (s.volFirst v)) (8 * s.volExts v) 8).filterMap fun i =>
          if eMapped (s.entry (s.volFirst v + i)) then some (s.volFirst v + i) else none
      doAll [modPair fun p => { p with resync := gs, resyncTotal := gs.length, resyncing := true }, resyncNext]
    else doAll [
      modPair fun p => { p with held := [], orders := [] },
      Prog.each (s.ctl.blk.recs.filter fun r => r.peer.isSome || (s.volPair r.vol && !s.ownsVol r.vol)) discardRec,
      endFlushes]]

/-- Whether a HELLO is taken whatever its epoch: the leader that has asked for an admission hears a joiner that has an older one
yet, and the FENCED joiner that has asked the leader's newer one (R476; log entry 100). -/
def State.admits (s : State) (e : Nat) : Bool :=
  s.pairEn && ((decide (s.ctl.pair.asked = 1) && decide (e < s.rd PAIR.EPOCH)) ||
    (decide (s.ctl.pair.asked = 2) && decide (s.pairState = prFenced) && decide (s.rd PAIR.EPOCH < e)))

/-- What a HELLO with the peer's UNIT_ID and SURVIVOR does (R468, R476): `adm` is the answer of the peer's arbiter when the message
carries one. -/
def helloActs (epoch : Nat) (unit : Nat) (surv : Bool) (adm : Option Bool) : Prog := get fun s =>
  let same := decide (unit = s.cfd PAIR.CFG 1 1)
  doAll [
    wrB PAIR.STATUS 6 surv, modPair fun p => { p with clash := same },
    Prog.when (same && decide (s.ctl.pair.asked ≠ 0)) (doAll [int Pg.pair 0 2, wrF PAIR.RESYNC_STATUS 31 16 ST.BAD_FIELD]),
    if !same && surv && s.bit PAIR.STATUS 5 && decide (epoch = s.rd PAIR.EPOCH) && decide (s.cfd PAIR.CFG 1 1 = 1) then
      enterFenced 3
    else match adm with
      | some true => doAll [modPair fun p => { p with theirs := true },
          Prog.when (s.ctl.pair.mine && decide (s.pairState ≠ prJoining)) enterJoining]
      | some false => Prog.when (decide (s.ctl.pair.asked ≠ 0)) (endAdmission ST.CONFLICT)
      | none => .skip]

/-- HELLO_RX (R467, R468, R476). -/
def execHelloRx (seq epoch : Word) (unit : Fin 2) (_state : Fin 6) (surv : Bool) (adm : Option Bool) (s : State) : Res := board (get fun s =>
  let act := rxReliable clsMgmt seq.toNat (fun _ => false) (helloActs epoch.toNat unit.val surv adm)
  if s.admits epoch.toNat then doAll [wr PAIR.PEER_EPOCH epoch.toNat, act] else epochCheck epoch.toNat act) s

/-- FENCE_ORDER_RX (R464, R467): a newer epoch fences this unit with REASON 1; the order takes its place in the stream. -/
def execFenceOrderRx (seq epoch : Word) (s : State) : Res := board (get fun s =>
  let act := rxReliable clsMgmt seq.toNat (fun _ => false) .skip
  if s.pairEn && decide (s.rd PAIR.EPOCH < epoch.toNat) then doAll [wr PAIR.PEER_EPOCH epoch.toNat, enterFenced 1, act]
  else epochCheck epoch.toNat act) s

/-! ## Heartbeats -/

/-- Whether the unit sends and takes heartbeats (R469). -/
def State.beats (s : State) : Bool := decide (s.pairState = prPaired ∨ s.pairState = prSuspended ∨ s.pairState = prJoining)

/-- HEARTBEAT_SEND (R56, R469). -/
def execHeartbeatSend (s : State) : Res := board (
  dispatch (fun c => decide (c = .hbSend)) fun e stepped => get fun t => doAll [
    Prog.when t.beats (doAll [pairOut clsHb 0 .heartbeat, inc PAIR.HB_TX_CNT]), nextPeriod e stepped]) s

/-- HEARTBEAT_RX (R467, R469). -/
def execHeartbeatRx (epoch : Word) (s : State) : Res := board (epochCheck epoch.toNat (get fun s =>
  Prog.when s.beats (doAll [inc PAIR.HB_RX_CNT, restartDead]))) s

/-- DEAD_PEER_TIMEOUT (R56, R469): OK declares the peer dead or suspends; STEPPED restarts the timer in full at the step. -/
def execDeadPeerTimeout (s : State) : Res := board (
  dispatch (fun c => decide (c = .deadPeer)) fun e stepped => get fun t =>
    if stepped then restartAtStep e
    else Prog.when t.beats (
      if t.cbit PAIR.CFG 3 then declareDead
      else doAll [Prog.when (decide (t.pairState = prJoining)) (endAdmission ST.ABORTED),
        leavePaired prSuspended, int Pg.pair 0 4])) s

/-! ## Mirroring -/

/-- Dirty units of a mirrored write (R380, R472). -/
def State.mirrorNeeds (s : State) (m : StageMsg) : Nat :=
  let off := m.lba * s.volBs m.vol
  if m.zero then zeroDirty off m.len else span4k off m.len

/-- Whether a mirrored write fits under this unit's own limit (R472). -/
def State.mirrorFits (s : State) (m : StageMsg) : Bool :=
  decide (s.mirrorNeeds m = 0) || decide (s.rd BLKF.STAGE_USED + s.promised + s.mirrorNeeds m ≤ s.effMiB * 256)

/-- Whether a STAGE message is recorded as it comes: nothing that came before it waits at the limit, and it fits (R380, R472). One that
needs no room passes this unit's own commands that wait, not the messages of its stream, which are acknowledged in order. -/
def State.mirrorGoes (s : State) (m : StageMsg) : Bool :=
  s.ctl.pair.held.isEmpty && (decide (s.mirrorNeeds m = 0) || s.dirtyWaiters.isEmpty) && s.mirrorFits m

/-- A STAGE message is recorded in this unit's staging (R472). -/
def recordMirror (m : StageMsg) : Prog :=
  record m.vol m.tag none m.lba m.len m.zero false false (some m.seq) m.data fun _ => placeHigh

/-- STAGE_MESSAGE_RX (R464, R467, R472): recorded and acknowledged, or, at the dirty limit, kept for later. -/
def execStageMessageRx (seq epoch : Word) (m : StageMsg) (s : State) : Res := live 4 (epochCheck epoch.toNat (
  rxReliable clsStage seq.toNat (fun s => !s.mirrorGoes m) (get fun s =>
    if s.mirrorGoes m then recordMirror m
    else doAll [
      modPair fun p => { p with held := p.held ++ [(seq.toNat, s.ctl.rings.nextWork, m)] },
      Prog.when (decide (s.mirrorNeeds m ≠ 0)) (doAll [inc BLKF.DIRTY_WAIT_CNT, int Pg.blkf 0 1])]))) s

/-- DIRTY_WAIT_RELEASE (R380, R472): the first that waits at the limit goes on, in one order: a mirrored write is recorded and
acknowledged, a command gathers its data. -/
def execDirtyWaitRelease (s : State) : Res := live 4 (get fun s =>
  match s.ctl.pair.held with
  | (q, next, m) :: t =>
    if s.dirtyWaiters.head?.any fun e => decide (e.1 < next) then releaseDirty
    else Prog.when (s.mirrorFits m) (doAll [modPair fun p => { p with held := t }, recordMirror m, sendPairAck clsStage q])
  | [] => releaseDirty) s

/-- STAGE_ACK_RX (R382, R464, R472): the peer holds record and data of every STAGE message up to `upto`. -/
def execStageAckRx (epoch upto : Word) (s : State) : Res := board (epochCheck epoch.toNat (get fun s => doAll [
  Prog.each ((s.stream clsStage).kept.filter fun e => decide (seqDiff e.1 upto.toNat ≤ 0)) (fun e =>
    match e.2 with
    | .stage m => get fun t => match t.rec? m.seq with
      | some r => doAll [modRec m.seq fun x => { x with waitPeer := false },
          Prog.when (r.waitPeer && !r.placed) (ackRec m.seq false)]
      | none => .skip
    | _ => .skip),
  ackStream clsStage upto.toNat])) s

/-- PAIR_ACK_RX (R464): a cumulative acknowledgement of the MGMT, JOURNAL or RESYNC stream. -/
def execPairAckRx (c : Fin 6) (epoch upto : Word) (s : State) : Res := board (epochCheck epoch.toNat (
  Prog.when (decide (c.val ∈ [clsMgmt, clsJournal, clsResync])) (ackStream c.val upto.toNat))) s

/-- JOURNAL_MESSAGE_RX (R473): the mirrored writes that the owner has placed are placed here, in the same units and order. -/
def execJournalMessageRx (seq epoch : Word) (l : List (Nat × Nat)) (s : State) : Res := board (epochCheck epoch.toNat (
  rxReliable clsJournal seq.toNat (fun _ => false) (doAll [
    modPair fun p => { p with orders := p.orders ++ [l] }, nextOrder]))) s

/-- TIME_EXCHANGE (R467, R474): each 1 ms this unit's stamp of a masked domain goes out, and the peer's message gives the offset, in
2^-8 ns, modulo 2^64. -/
def execTimeExchange (n : Fin 8) (m : TimeMsg) (s : State) : Res := board (get fun s =>
  Prog.when (s.pairUp && decide (s.pairState ≠ prOff) && decide (s.pairState ≠ prFenced) && s.cbit PAIR.MIRROR_CFG n.val) (doAll [
    pairOut clsTime 0 (.stamp n.val),
    epochCheck m.epoch.toNat (doAll [
      wrW (PAIR.TOFF n.val) m.off.toNat,
      Prog.when (decide (s.fd PAIR.TIME_ALARM_NS 19 0 * 256 < (toSigned 64 m.off.toNat).natAbs)) (int Pg.pair 0 5)])])) s

/-- RESYNC_MESSAGE_RX (R476): a copy of one extent; it lies beneath what is mirrored over it, and is placed. An extent that
could not be read stays as it is. -/
def execResyncMessageRx (seq epoch : Word) (g : Nat) (data : Option (List Byte)) (s : State) : Res := board (epochCheck epoch.toNat (
  rxReliable clsResync seq.toNat (fun _ => false) (get fun s =>
    match s.volOfExt g, data with
    | some v, some d =>
      let off := (g - s.volFirst v) * 65536
      let q := s.ctl.blk.seq + 1
      Prog.when (decide (s.pf = 0)) (stageData off (some (slice d 0 65536)) fun room => doAll [
        modBlk fun b => { b with
          seq := q
          recs := ⟨q, v, 0, none, off / s.volBs v, 65536, false, 0, false, false, some 0⟩ :: b.recs
          pieces := ⟨q, v, off / 262144, off, 65536, some (slice d 0 65536), none, room, true⟩ :: b.pieces },
        stageRecord q v 0 (off / s.volBs v) 65536 false, showStage,
        get fun t => wantPieces (t.ctl.blk.pieces.filter fun p => decide (p.seq = q))])
    | _, _ => .skip))) s

/-- NOTIFICATION_MIRROR_RX (R475): a notification of the peer's pipeline goes into this unit's ring with SRC bit 15. -/
def execNotificationMirrorRx (seq epoch : Word) (pipe : Fin 4) (b : List Byte) (s : State) : Res := board (epochCheck epoch.toNat (
  rxReliable clsMgmt seq.toNat (fun _ => false) (get fun s =>
    Prog.when (s.bit (FWD.NOTIFY_CTL.of pipe.val) 0)
      (putNotify pipe.val (slice (splice b 18 (leBytes 2 (leAt b 18 2 % 32768 + 32768))) 0 32))))) s

/-- PAIR_NAK_RX (R464): the stream is sent again from the sequence expected. -/
def execPairNakRx (c : Fin 6) (epoch expected : Word) (s : State) : Res := board (epochCheck epoch.toNat (
  Prog.when (decide (c.val ∈ [clsMgmt, clsStage, clsJournal, clsResync])) (doAll [inc PAIR.RETX_CNT, resendStream c.val expected.toNat]))) s

/-- PAIR_RTO (R464): no progress for RTO_US: resent from the oldest, and after RETRIES in a row the link retrains. -/
def execPairRto (c : Fin 6) (s : State) : Res := board (get fun s =>
  let t := s.stream c.val
  match t.kept with
  | [] => .skip
  | e :: _ => Prog.when (s.mayTalk c.val) (doAll [
      modStream c.val fun x => { x with tries := x.tries + 1 },
      inc PAIR.RETX_CNT, resendStream c.val e.1,
      Prog.when (decide (max 1 (s.cfd PAIR.LINK_CFG 15 8) ≤ t.tries + 1)) (doAll [
        modStream c.val fun x => { x with tries := 0 }, pairDown])])) s

/-! ## Admission -/

/-- A write of PAIR.CTL (R478): run where it may act, otherwise recorded. -/
def pairCtl (a : Accessor) (ok : State → Bool) (p : Prog) : Prog := byWriter a Pg.pair 0x58 (get fun s =>
  if ok s then p else err Pg.pair 0 EC.ACCESS RS.WRONG_STATE (bar0 Pg.pair 0x58))

/-- FORM (R465): in ALONE with epoch 0. -/
def execForm (a : Accessor) (s : State) : Res := done (pairCtl a (fun s => decide (s.pairState = prAlone) && decide (s.rd PAIR.EPOCH = 0))
  (doAll [wr PAIR.EPOCH 1, dropStreams, modPair fun p => { p with formed := true }])) s

/-- Ask for an admission, as leader 1 or joiner 2 (R476). -/
def askAdmission (role : Nat) : Prog := doAll [
  modPair fun p => { p with asked := role, mine := false, theirs := false }, mstart MA.PAIR_RESYNC 0xFF .register role]

/-- JOIN (R476): in ALONE or FENCED. -/
def execJoin (a : Accessor) (s : State) : Res := done (pairCtl a (fun s =>
  s.pairEn && (decide (s.pairState = prAlone) || decide (s.pairState = prFenced)) && decide (s.ctl.pair.asked = 0))
  (askAdmission 2)) s

/-- ADMIT (R476): by the unit that wrote FORM, or the survivor, in ALONE. -/
def execAdmitJoin (a : Accessor) (s : State) : Res := done (pairCtl a (fun s =>
  s.pairEn && decide (s.pairState = prAlone) && (s.bit PAIR.STATUS 5 || s.ctl.pair.formed) && decide (s.ctl.pair.asked = 0))
  (askAdmission 1)) s

/-- DECLARE (R469): by a control core in SUSPENDED. -/
def execDeclare (a : Accessor) (s : State) : Res := done (pairCtl a (fun s => !a.isPort && decide (s.pairState = prSuspended)) declareDead) s

/-- The arbiter accepts PAIR_RESYNC (R476). -/
def resyncAccepted : Prog := get fun s => doAll [
  wr PAIR.RESYNC_STATUS 256, modPair fun p => { p with mine := true }, sendMsg clsMgmt (.admission 1),
  Prog.when s.ctl.pair.theirs enterJoining]

/-- The arbiter refuses it: CONFLICT on both units (R476). -/
def resyncRefused : Prog := doAll [
  wrF PAIR.RESYNC_STATUS 31 16 ST.CONFLICT, modPair fun p => { p with asked := 0, mine := false, theirs := false },
  sendMsg clsMgmt (.admission 0)]

/-- Whether the leader's copies and STAGE messages are all acknowledged (R476 step 4). -/
def State.resyncOver (s : State) : Bool :=
  s.ctl.pair.resync.isEmpty && !(s.ctl.blk.reads.any fun r => match r.job with | .resync _ => true | _ => false) &&
    [clsResync, clsStage].all fun c => (s.stream c).kept.isEmpty && (s.stream c).queue.isEmpty

/-- ADMISSION_COMPLETE (R465, R468, R476, R477): both units are PAIRED, the joiner at the leader's epoch. Two units of one UNIT_ID
never leave JOINING. -/
def execAdmissionComplete (epoch : Word) (s : State) : Res := board (get fun s =>
  let leader := decide (s.ctl.pair.asked = 1)
  Prog.when (decide (s.pairState = prJoining) && !s.ctl.pair.clash && (!leader || s.resyncOver)) (doAll [
    Prog.when (!leader) (doAll [wr PAIR.EPOCH epoch.toNat, dropStreams]),
    setPair prPaired, wrB PAIR.STATUS 5 false,
    modBlk fun b => { b with vols := b.vols.map fun e => if s.volPair e.1 then (e.1, { e.2 with solo := false }) else e },
    wr PAIR.RESYNC_STATUS 100, int Pg.pair 0 3, mend MA.PAIR_RESYNC 0xFF,
    Prog.when s.ctl.pair.wasFenced leaveFenced,
    modPair fun p => { p with asked := 0, mine := false, theirs := false, wasFenced := false, resyncing := false, admEpoch := none }])) s

/-- A commit of the PAIR page takes effect (R466): EN starts the unit ALONE or puts it OFF. A FENCED unit stays FENCED (R477). -/
def pairCommitted (wasOn : Bool) : Prog := get fun s =>
  let timers := cancelFor fun c => decide (c = .deadPeer) || decide (c = .hbSend)
  if s.pairEn && !wasOn then Prog.when (decide (s.pairState ≠ prFenced)) (setPair prAlone)
  else Prog.when (!s.pairEn && wasOn) (doAll [
    Prog.when (decide (s.pairState = prJoining)) (endAdmission ST.ABORTED),
    get fun t => Prog.when (decide (t.pairState ≠ prFenced)) (leavePaired prOff), timers])

end Sys2Proof.Machine
end

