-- ==== Sys2Proof/Machine/Roce.lean ====
section
/-! DEFINITION. Transport packets (R338 to R340) and queue pairs (R344). Opcodes and header layouts are those of the InfiniBand
specification that R338 names (log entry 18). -/

namespace Sys2Proof.Machine

/-! ## Opcodes of the reliable connected service -/

def opSendFirst : Nat := 0x00
def opSendMiddle : Nat := 0x01
def opSendLast : Nat := 0x02
def opSendLastImm : Nat := 0x03
def opSendOnly : Nat := 0x04
def opSendOnlyImm : Nat := 0x05
def opWriteFirst : Nat := 0x06
def opWriteMiddle : Nat := 0x07
def opWriteLast : Nat := 0x08
def opWriteLastImm : Nat := 0x09
def opWriteOnly : Nat := 0x0A
def opWriteOnlyImm : Nat := 0x0B
def opReadReq : Nat := 0x0C
def opRespFirst : Nat := 0x0D
def opRespMiddle : Nat := 0x0E
def opRespLast : Nat := 0x0F
def opRespOnly : Nat := 0x10
def opAck : Nat := 0x11
def opAtomicAck : Nat := 0x12
def opCas : Nat := 0x13
def opFaa : Nat := 0x14
def opFlush : Nat := 0x1C
def opCnp : Nat := 0x81

/-- Whether an opcode is a SEND's, and a WRITE's. -/
def isSendOp (op : Nat) : Bool := decide (op ≤ 0x05)
def isWriteOp (op : Nat) : Bool := decide (0x06 ≤ op) && decide (op ≤ 0x0B)

/-- Whether a packet of a SEND or WRITE begins its message, ends it, or carries immediate data. -/
def opStarts (op : Nat) : Bool := decide (op ∈ [0x00, 0x04, 0x05, 0x06, 0x0A, 0x0B])
def opEnds (op : Nat) : Bool := decide (op ∈ [0x02, 0x03, 0x04, 0x05, 0x08, 0x09, 0x0A, 0x0B])
def opImm (op : Nat) : Bool := decide (op ∈ [0x03, 0x05, 0x09, 0x0B])

/-- Whether an opcode is a request's. -/
def isRequest (op : Nat) : Bool := decide (op ≤ 0x0C) || decide (op ∈ [0x13, 0x14, 0x1C])

/-! Syndromes of an acknowledgement. -/
def synAck : Nat := 0x1F
def synRnr (code : Nat) : Nat := 0x20 + code % 32
def synSeq : Nat := 0x60
def synInvalid : Nat := 0x61
def synAccess : Nat := 0x62
def synOp : Nat := 0x63

/-- The RNR times in 10 µs, by code (R357; PRESUMED: the InfiniBand table). -/
def rnrTime (code : Nat) : Nat :=
  [65536, 1, 2, 3, 4, 6, 8, 12, 16, 24, 32, 48, 64, 96, 128, 192, 256, 384, 512, 768, 1024, 1536, 2048, 3072, 4096, 6144, 8192,
    12288, 16384, 24576, 32768, 49152].getD (code % 32) 65536

/-! ## Queue pairs -/

/-- A queue pair. -/
def State.qp (s : State) (q : Nat) : Qp := tget Qp.init s.ctl.rdma.qps q

/-- Change a queue pair. -/
def modQp (q : Nat) (f : Qp → Qp) : Prog := ctl fun c => { c with rdma.qps := nmod Qp.init c.rdma.qps q f }

/-! Fields of a committed context (R360). -/
def State.qpPort (s : State) (q : Nat) : Nat := s.cfd (RDMA.QP_PORT.of q) 8 0
def State.qpClass (s : State) (q : Nat) : Nat := s.cfd (RDMA.QP_CTL.of q) 7 4
def State.qpDom (s : State) (q : Nat) : Nat := s.cfd (RDMA.QP_CTL.of q) 10 8
def State.qpOwner (s : State) (q : Nat) : Nat := s.cfd (RDMA.QP_CTL.of q) 26 16
def State.qpSq (s : State) (q : Nat) : Nat := s.cfd (RDMA.QP_RINGS.of q) 15 0
def State.qpRq (s : State) (q : Nat) : Nat := s.cfd (RDMA.QP_RINGS.of q) 31 16

/-- Path MTU in bytes. -/
def State.qpMtu (s : State) (q : Nat) : Nat := 128 * 2 ^ max 1 (min 5 (s.cfd (RDMA.QP_CTL.of q) 13 11))

/-- Speed of a queue pair's port in Mb/s. -/
def State.qpSpeed (s : State) (q : Nat) : Nat := 1000 * s.portRate (s.qpPort q)

/-- Rate of a queue pair in Mb/s (R358, R359): before RTS no rate has begun, and it is paced at its port's speed. -/
def State.qpRate (s : State) (q : Nat) : Nat :=
  if s.cbit (RDMA.QP_CC.of q) 0 ∧ (s.qp q).st = 3 then min (s.qp q).rate (s.qpSpeed q) else s.qpSpeed q

/-- PSN arithmetic. -/
def psnAdd (a n : Nat) : Nat := (a + n) % 2 ^ 24

/-- (a − b) modulo 2^24 as a signed number (R354). -/
def psnDiff (a b : Nat) : Int := toSigned 24 (a % 2 ^ 24 + 2 ^ 24 - b % 2 ^ 24)

/-! ## Packets as frames -/

/-- The frame of a packet, without FCS (R339). What neither R339 nor the spec's other words fix (IPv4 identification, UDP
checksum, flow label, hop limit, solicited and migration bits) comes from the free value `v`. -/
def State.roceFrame (s : State) (q op psn : Nat) (ack : Bool) (ext payload : List Byte) (v : Nat) : List Byte :=
  let pad := (4 - payload.length % 4) % 4
  let bth := beBytes 1 op ++ beBytes 1 (v / 2 ^ 60 % 4 * 64 + 16 * pad) ++ beBytes 2 0xFFFF ++
    beBytes 4 (s.cfd (RDMA.QP_DEST.of q) 23 0) ++ beBytes 4 (b2n ack * 2 ^ 31 + psn % 2 ^ 24)
  let body := bth ++ ext ++ payload ++ List.replicate pad 0
  let sp := s.cfd (RDMA.QP_PORT.of q) 31 16
  let sport := if sp = 0 then 0xC000 ||| (crc32c (leBytes 3 q) % 0x4000) else sp
  let udp := beBytes 2 sport ++ beBytes 2 (s.fd RDMA.RX_CTL 31 16) ++ beBytes 2 (8 + body.length + 4) ++ beBytes 2 (v / 2 ^ 16 % 2 ^ 16)
  let tos := s.cfd (RDMA.QP_PORT.of q) 14 9 * 4 + 1
  let ip := fun (r : Nat → Reg) (n : Nat) => (List.range n).flatMap fun k => beBytes 4 (s.cfg ((r k).of q))
  let v6 := s.cbit (RDMA.QP_CTL.of q) 3
  let l3 := if v6 then
      beBytes 4 (6 * 2 ^ 28 + tos * 2 ^ 20 + v / 2 ^ 32 % 2 ^ 20) ++ beBytes 2 (udp.length + body.length + 4) ++ [17, BitVec.ofNat 8 (v / 2 ^ 52)] ++
        ip RDMA.QP_SIP 4 ++ ip RDMA.QP_DIP 4
    else fixIPv4 ([0x45, BitVec.ofNat 8 tos] ++ beBytes 2 (20 + udp.length + body.length + 4) ++ beBytes 2 (v % 2 ^ 16) ++ beBytes 2 0x4000 ++
        [64, 17, 0, 0] ++ ip RDMA.QP_SIP 1 ++ ip RDMA.QP_DIP 1) 0
  let inv := l3 ++ udp ++ body
  beBytes 6 (s.cfgW (RDMA.QP_DMAC.of q) % 2 ^ 48) ++ beBytes 6 (s.cfgW (MAC.STATION.of (s.qpPort q)) % 2 ^ 48) ++
    beBytes 2 (if v6 then 0x86DD else 0x0800) ++ inv ++ slice (Config.icrc inv) 0 4

/-- A received packet: opcode, P_Key, QPN, AckReq, PSN, what follows the BTH without pad and ICRC, and whether the ICRC is
good. -/
structure RPkt where
  op : Nat
  pkey : Nat
  qpn : Nat
  ackReq : Bool
  psn : Nat
  body : List Byte
  icrcOk : Bool
deriving DecidableEq, Repr

/-- The packet in a frame: its BTH lies at the checked L4 offset + 8 (R340). -/
def Frame.rocePkt (f : Frame) : RPkt :=
  match f.parsed.l4, f.parsed.l3 with
  | some (o4, _), some (o3, _) =>
    let stop := o4 + beAt f.bytes (o4 + 4) 2
    let h := o4 + 8
    let pad := beAt f.bytes (h + 1) 1 / 16 % 4
    ⟨beAt f.bytes h 1, beAt f.bytes (h + 2) 2, beAt f.bytes (h + 5) 3, tbit (beAt f.bytes (h + 8) 1) 7, beAt f.bytes (h + 9) 3,
      slice f.bytes (h + 12) (stop - 4 - pad - (h + 12)), decide (slice f.bytes (stop - 4) 4 = slice (Config.icrc (slice f.bytes o3 (stop - 4 - o3))) 0 4)⟩
  | _, _ => ⟨0, 0, 0, false, 0, [], false⟩

/-! Extension headers (RETH, AtomicETH, AETH). -/
def reth (va rkey len : Nat) : List Byte := beBytes 8 va ++ beBytes 4 rkey ++ beBytes 4 len
def atomicEth (va rkey swap cmp : Nat) : List Byte := beBytes 8 va ++ beBytes 4 rkey ++ beBytes 8 swap ++ beBytes 8 cmp
def aeth (syn msn : Nat) : List Byte := beBytes 1 syn ++ beBytes 3 msn

/-- A packet of a queue pair enters the queue of its port and class as a DIRECT frame (R340); `k` gets the WT at which it is
queued. -/
def queuePacket (q op psn : Nat) (ack : Bool) (ext payload : List Byte) (mark : Option (Nat × Nat)) : Prog := fresh fun v => get fun s =>
  let port := s.qpPort q
  let c := { Copy.plain s.ctl.net.nextFrame 0 port (s.qpClass q) (s.roceFrame q op psn ack ext payload v) (s.wt (s.portDom port)) with rdma := mark, noCut := true }
  doAll [
    ctl fun x => { x with net.nextFrame := x.net.nextFrame + 1 },
    inc RDMA.TX_PKT_CNT,
    admitCopy c fun st h sp => Prog.when (decide (st = ST.TM_DROP)) (countDrops c.queue 1 (b2n h) (b2n sp))]

end Sys2Proof.Machine
end

