-- ==== Sys2Proof/Machine/Rdma.lean ====
section
/-! DEFINITION. The requester of the remote memory transport (R344 to R359): work requests, packets, pacing, acknowledgement,
retransmission, errors. -/

namespace Sys2Proof.Machine

/-! ## Work requests and their completions (R346 to R351) -/

/-- Whether a descriptor TYPE is a work request of an RDMA_SQ ring; those outside the table of R347 are, and fail. -/
def isWr (typ : Nat) : Bool := decide (typ / 16 = 4)

/-- Whether a TYPE is a READ or an ATOMIC. -/
def isReadWr (typ : Nat) : Bool := decide (typ ∈ [0x45, 0x46, 0x47])

/-- Confirmed work requests of a queue pair that have not started, in ring order. -/
def State.newWrs (s : State) (q : Nat) : List (Nat × Work) :=
  (s.worksOf (s.qpSq q)).filter fun e => isWr e.2.typ && decide (e.2.qpn = q) && decide (e.2.stage ≠ 3)

/-- Complete a transport work request (R350). -/
def wrDone (q wr st len : Nat) (ts : Option Nat) : Prog :=
  completeWith wr st len [] (ts.map fun t => (t, none)) [(20, leBytes 3 q)]

/-- Write the completions that no earlier work request holds back (R348). -/
def finishWrs (q : Nat) : Nat → Prog
  | 0 => .skip
  | n + 1 => get fun s =>
    match (s.qp q).wrs with
    | ⟨w, some (st, len, ts)⟩ :: t => doAll [modQp q fun x => { x with wrs := t }, wrDone q w st len ts, finishWrs q n]
    | _ => .skip

/-- A started work request ends. -/
def wrEnds (q wr st len : Nat) (ts : Option Nat) : Prog := get fun s => doAll [
  modQp q fun x => { x with wrs := x.wrs.map fun e => if e.wr = wr ∧ e.fin = none then { e with fin := some (st, len, ts) } else e },
  finishWrs q (s.qp q).wrs.length]

/-- Work requests that have failed before they could start, at the head of those that have not, take their place in the order of
completions (R348). -/
def badHeads (q : Nat) : Nat → Prog
  | 0 => .skip
  | n + 1 => get fun s =>
    match s.newWrs q with
    | (w, x) :: _ => Prog.when (decide (x.status ≠ ST.OK) && decide (x.stage ≠ 1) && decide (x.reads = 0)) (doAll [
        modWork w fun y => { y with stage := 3 },
        modQp q fun y => { y with armedWait := false, wrs := y.wrs ++ [⟨w, some (x.status, 0, none)⟩] },
        finishWrs q ((s.qp q).wrs.length + 1), badHeads q n])
    | [] => .skip

/-- The failed work requests next in order. -/
def badHeadsAll (q : Nat) : Prog := get fun s => badHeads q (s.newWrs q).length

/-- A work request fails its validation or its scatter list: it completes in its order, with its QPN (R348, R350). One whose queue pair
does not name its ring is in no order. -/
def failWr (w st : Nat) : Prog := withWork w fun x => get fun s =>
  if s.qpSq x.qpn ≠ x.ring ∨ !isWr x.typ then wrDone x.qpn w st 0 none
  else doAll [modWork w fun y => { y with status := st, stage := 2 }, badHeadsAll x.qpn]

/-! ## The retransmit store (R351) -/

/-- Bytes of payload in the retransmit store. -/
def State.rtxBytes (s : State) : Nat :=
  (s.ctl.rdma.qps.map fun e => ((e.2.out.filter (·.stored)).map fun p => p.payload.length).sum).sum

/-- Show the store's use in whole MiB. -/
def showRtx : Prog := get fun s => wr RDMA.RTX_USE (ceilDiv s.rtxBytes (2 ^ 20))

/-! ## Errors (R346) -/

/-- The wheel events of a queue pair are cancelled. -/
def cancelQp (q : Nat) : Prog := cancelFor fun k => decide (k ∈ [Consumer.retx q, .rnr q, .pacing q])

/-- A queue pair leaves its work: events, packets, what it was receiving; its unfinished work requests end, each with the
STATUS that `stOf` gives its place in their order. -/
def dropQp (q : Nat) (stOf : List Nat → Nat → Nat) : Prog := get fun s =>
  let x := s.qp q
  let all := (x.wrs.map (·.wr)) ++ (s.newWrs q).map (·.1)
  doAll [
    cancelQp q,
    modQp q fun y => { y with
      out := []
      next := 0
      inb := none
      flush := none
      rtxWait := false
      armedWait := false
      again := []
      resp := []
      wrs := [] },
    showRtx,
    match x.inb.bind (·.recv) with
    | some w => completeWith w ST.QP_FLUSHED 0 [] none [(20, leBytes 3 q)]
    | none => .skip,
    Prog.each all fun w => match (x.wrs.find? fun e => decide (e.wr = w)).bind (·.fin) with
      | some (st, len, ts) => wrDone q w st len ts
      | none => wrDone q w (stOf all w) 0 none]

/-- What an unfinished work request of a queue pair completes with at an error (R346, R352): the failing one with the STATUS of the error;
where a SEND or WRITE has completed and is not acknowledged, the first FLUSH and every one after it too; the others with QP_FLUSHED.
`all`: the work requests that have not completed, in order. -/
def State.errorSt (s : State) (q st : Nat) (bad : Option Nat) (all : List Nat) (w : Nat) : Nat :=
  let typ := fun v : Nat => ((s.work? v).map (·.typ)).getD 0
  let moved := (s.qp q).out.any fun p => (isSendOp p.op || isWriteOp p.op) && decide (p.wr ∉ all)
  if bad = some w then st
  else if st ≠ 0 ∧ moved = true ∧ w ∈ all.dropWhile (fun v => typ v != 0x48) then st
  else ST.QP_FLUSHED

/-- A queue pair enters ERROR with a STATUS, 0 for a commit (R346, R352). `bad`: the work request that failed, if one did. -/
def enterError (q st : Nat) (bad : Option Nat) : Prog := get fun s =>
  if (s.qp q).st = 0 ∨ (s.qp q).st = 4 then .skip
  else doAll [
    dropQp q (s.errorSt q st bad),
    modQp q fun y => { y with st := 4, errSt := st },
    inc RDMA.QP_ERR_CNT, int Pg.rdma 0 0]

/-- The work request whose packet carries a PSN, or the first one after it. -/
def State.wrAt (s : State) (q psn : Nat) : Option Nat :=
  ((s.qp q).out.find? fun p => decide (psnDiff psn (psnAdd p.psn (p.n - 1)) ≤ 0)).map (·.wr)

/-! ## Sending -/

/-- Bytes of a packet on the wire, FCS included. -/
def State.pktBytes (s : State) (q : Nat) (ext payload : List Byte) : Nat :=
  14 + (if s.cbit (RDMA.QP_CTL.of q) 3 then 40 else 20) + 20 + ext.length + alignUp 4 payload.length + 8

/-- Units of pacing instants: 2^-20 ns. -/
def paceUnit : Nat := 2 ^ 20

/-- Start the retransmit timer of a queue pair that has unacknowledged packets and no timer or RNR wait (R356, R359). -/
def startTimer (q : Nat) : Prog := get fun s =>
  let t := s.cfd (RDMA.QP_TIMERS.of q) 4 0
  Prog.when (decide (t ≠ 0) && ((s.qp q).out.any (·.sent)) && !s.scheduled (.retx q) && !s.scheduled (.rnr q))
    (request (s.qpDom q) 1 (.rel (2048 * 2 ^ t)) (.retx q) fun st _ =>
      Prog.when (decide (st ≠ ST.OK)) (modQp q fun x => { x with again := x.again ++ [(1, 0)] }))

/-- Ask the wheel for a queue pair's event at a tick; `kind` 2 RNR, 3 pacing. A refused request is made again. -/
def qpEvent (q kind tick : Nat) : Prog := get fun s =>
  let now := s.wt (s.qpDom q)
  let c : Consumer := if kind = 2 then .rnr q else .pacing q
  request (s.qpDom q) 1 (.rel (if wtDiff tick now ≤ 0 then 0 else (wtDiff tick now).toNat)) c fun st _ =>
    Prog.when (decide (st ≠ ST.OK)) (modQp q fun x => { x with again := x.again ++ [(kind, tick)] })

/-- A packet of some bytes that a queue pair sends next (R359): an event holds it where its instant lies more than 64 ns ahead; else it
starts, and `send` gets the instant before which the next may not. -/
def paced (q bytes : Nat) (send : Nat → Prog) : Prog := get fun s =>
  let now := (s.dom (s.qpDom q)).nanos * paceUnit + (s.dom (s.qpDom q)).frac / 2 ^ 20
  let due := (s.qp q).pace.getD 0
  if now + 64 * paceUnit < due then qpEvent q 3 (ceilDiv due (2 * paceUnit) % 2 ^ 48)
  else send ((if now < due + 2 * paceUnit then due else now) + (bytes + 20) * 8000 * paceUnit / max 1 (s.qpRate q))

/-- Send the packets of a queue pair that may start now (R351, R359): answers before requests, which the spec does not order (DESIGN
CHOICE, log entry 153). -/
def pump (q : Nat) : Nat → Prog
  | 0 => .skip
  | n + 1 => get fun s =>
    let x := s.qp q
    if (x.st ≠ 2 ∧ x.st ≠ 3) ∨ s.scheduled (.pacing q) ∨ (x.again.any fun a => decide (a.1 = 3)) then .skip
    else match x.resp with
    | r :: t => paced q (s.pktBytes q r.ext r.payload) fun next => doAll [
        modQp q fun y => { y with pace := some next, resp := t },
        queuePacket q r.op r.psn false r.ext r.payload none,
        match r.err with
        | some st => enterError q st none
        | none => pump q n]
    | [] =>
      if x.st ≠ 3 ∨ s.scheduled (.rnr q) ∨ (x.again.any fun a => decide (a.1 ≠ 1)) then .skip
      else match x.out[x.next]? with
      | none => .skip
      | some p =>
        if !p.stored && decide (s.fd RDMA.RTX_SIZE 15 0 * 2 ^ 20 < s.rtxBytes + p.payload.length) then doAll [
          modQp q fun y => { y with rtxWait := true }, int Pg.rdma 0 1]
        else paced q (s.pktBytes q p.ext p.payload) fun next => doAll [
          queuePacket q p.op p.psn p.ackReq p.ext p.payload (some (q, p.psn)),
          Prog.when p.sent (inc RDMA.RETX_PKT_CNT), peep 8 (if p.sent then 2 else 0) q,
          modQp q fun y => { y with
            pace := some next
            next := y.next + 1
            rtxWait := false
            out := y.out.set x.next { p with sent := true, stored := true } },
          showRtx, startTimer q, pump q n]

/-- Send what may be sent. -/
def pumpAll (q : Nat) : Prog := get fun s => pump q ((s.qp q).out.length + (s.qp q).resp.length)

/-- A response or acknowledgement is to be sent. -/
def respond (q op psn : Nat) (ext payload : List Byte) (err : Option Nat) : Prog := doAll [
  modQp q fun y => { y with resp := y.resp ++ [⟨op, psn, ext, payload, err⟩] }, pumpAll q]

/-- Packets of a SEND or WRITE of `n` packets: the opcode of packet `i` (R338). -/
def msgOp (write imm : Bool) (n i : Nat) : Nat :=
  let b := if write then 6 else 0
  if n = 1 then b + (if imm then 5 else 4)
  else if i = 0 then b
  else if i + 1 = n then b + (if imm then 3 else 2)
  else b + 1

/-- The packets of a started work request (R338, R347, R356). -/
def State.wrPackets (s : State) (q w : Nat) (x : Work) : List TxPkt :=
  let mtu := s.qpMtu q
  let qp := s.qp q
  let rkey := x.at 28 4
  let va := x.at 32 8
  let every := max 1 (s.fd RDMA.ACK_EVERY 5 0)
  let one := fun (op n : Nat) (ext : List Byte) => [(⟨qp.spsn, n, w, op, ext, [], true, true, false, false, none, 0⟩ : TxPkt)]
  match x.typ with
  | 0x45 => one opReadReq (max 1 (ceilDiv x.length mtu)) (reth va rkey x.length)
  | 0x46 => one opCas 1 (atomicEth va rkey (x.at 48 8) (x.at 40 8))
  | 0x47 => one opFaa 1 (atomicEth va rkey (x.at 40 8) 0)
  | 0x48 => one opFlush 1 (beBytes 4 1 ++ reth va rkey (x.at 24 4))
  | _ =>
    let n := max 1 (ceilDiv x.length mtu)
    let wr := decide (x.typ = 0x43)
    (List.range n).map fun i =>
      let op := msgOp wr (x.flag 10) n i
      let ext := (if wr && decide (i = 0) then reth va rkey x.length else []) ++ (if opImm op then beBytes 4 (x.at 24 4) else [])
      ⟨psnAdd qp.spsn i, 1, w, op, ext, (x.buf.drop (i * mtu)).take (min mtu (x.length - i * mtu)), decide (i + 1 = n),
        decide (i + 1 = n) || decide ((qp.sinceAck + i + 1) % every = 0), false, false, none, 0⟩

/-- Whether an armed work request's counter has reached its threshold (R353). -/
def State.triggered (s : State) (x : Work) : Bool :=
  decide (0 ≤ toSigned 32 (tget 0 s.ctl.rdma.trig (x.at 56 2) + 2 ^ 32 - x.at 58 4))

/-- A work request starts, when it is its queue pair's next and nothing holds it (R344, R347, R348, R353). In RESET and ERROR it
completes with QP_FLUSHED. An armed one that its counter releases reads its source first, and starts when that has come. -/
def startWr (w typ : Nat) : Prog := withWork w fun x => get fun s =>
  let q := x.qpn
  let qp := s.qp q
  let started := qp.wrs.filter fun e => e.fin.isNone && isReadWr (((s.work? e.wr).map (·.typ)).getD 0)
  if x.typ ≠ typ then .skip
  else if x.ring ≠ s.qpSq q then wrDone q w ST.BAD_FIELD 0 none
  else if (s.newWrs q).head?.map (·.1) ≠ some w then .skip
  else if qp.st = 0 ∨ qp.st = 4 then doAll [wrDone q w ST.QP_FLUSHED 0 none, badHeadsAll q]
  else if qp.st ≠ 3 then .skip
  else if x.flag 8 && decide (x.aux = 0) && !s.triggered x then modQp q fun y => { y with armedWait := true }
  else if x.stage = 1 ∨ x.reads ≠ 0 then .skip
  else if x.status ≠ ST.OK then badHeadsAll q
  else if x.flag 8 && decide (x.aux = 0) && decide (x.typ ∈ [0x41, 0x43]) && decide (x.length ≠ 0) then doAll [
    modQp q fun y => { y with armedWait := false },
    modWork w fun y => { y with aux := 1 }, gather w x.fn x.pieces 0]
  else if x.flag 9 && !started.isEmpty then .skip
  else if isReadWr x.typ && !started.isEmpty && decide (s.cfd (RDMA.QP_TIMERS.of q) 19 16 ≤ started.length) then .skip
  else
    let l := s.wrPackets q w x
    let every := max 1 (s.fd RDMA.ACK_EVERY 5 0)
    doAll [
      modWork w fun y => { y with stage := 3 },
      modQp q fun y => { y with
        armedWait := false
        wrs := y.wrs ++ [⟨w, none⟩]
        out := y.out ++ l
        spsn := psnAdd y.spsn ((l.map (·.n)).sum)
        sinceAck := (y.sinceAck + l.length) % every },
      pumpAll q, badHeadsAll q]

/-- SEND (R338, R347, R351). -/
def execSend (w : Nat) (s : State) : Res := live 4 (startWr w 0x41) s

/-- WRITE (R338, R347, R351). -/
def execWrite (w : Nat) (s : State) : Res := live 4 (startWr w 0x43) s

/-- READ (R338, R347). -/
def execRead (w : Nat) (s : State) : Res := live 4 (startWr w 0x45) s

/-- CAS (R338, R347). -/
def execCas (w : Nat) (s : State) : Res := live 4 (startWr w 0x46) s

/-- FAA (R338, R347). -/
def execFaa (w : Nat) (s : State) : Res := live 4 (startWr w 0x47) s

/-- FLUSH (R338, R347, R352). -/
def execFlush (w : Nat) (s : State) : Res := live 4 (startWr w 0x48) s

/-- ARMED_WR_TRIGGER (R353): the next work request of a queue pair waits armed, and its counter has reached the threshold. -/
def execArmedWrTrigger (q : Fin 262144) (s : State) : Res := live 4 (get fun s =>
  match s.newWrs q.val with
  | (w, x) :: _ => Prog.when ((s.qp q.val).armedWait && x.flag 8 && s.triggered x) (startWr w x.typ)
  | [] => .skip) s

/-- TRIG_VAL_WRITE (R353). -/
def execTrigValWrite (a : Accessor) (v : Word) (s : State) : Res := done (byWriter a Pg.rdma 0x304 (get fun s =>
  let k := s.sel a Pg.rdma 0x300 % 65536
  ctl fun c => { c with rdma.trig := nset 0 c.rdma.trig k v.toNat })) s

/-- RTX_RESUME (R351): a queue pair that waits for room in the retransmit store goes on when its next packet fits. -/
def execRtxResume (q : Fin 262144) (s : State) : Res := live 4 (get fun s =>
  let x := s.qp q.val
  match x.out[x.next]? with
  | some p => Prog.when (x.rtxWait && decide (s.rtxBytes + p.payload.length ≤ s.fd RDMA.RTX_SIZE 15 0 * 2 ^ 20))
      (doAll [modQp q.val fun y => { y with rtxWait := false }, pumpAll q.val])
  | none => .skip) s

/-- PACING_RELEASE (R56, R359): the next event, a pacing event; an arming fires it as OK, and pacing starts afresh. -/
def execPacingRelease (s : State) : Res := live 4 (
  dispatch (fun c => match c with | .pacing _ => true | _ => false) fun e stepped =>
    match e.consumer with
    | .pacing q => doAll [Prog.when stepped (modQp q fun y => { y with pace := none }), pumpAll q]
    | _ => .skip) s

/-- A packet has left the MAC at a WT: a SEND or WRITE whose last packet it is completes (R350, R351). -/
def packetLeft (q psn wt : Nat) : Prog := get fun s =>
  match (s.qp q).out.find? (fun p => decide (p.psn = psn)) with
  | none => .skip
  | some p => doAll [
      modQp q fun y => { y with out := y.out.map fun r => if r.psn = psn then { r with wt := some wt } else r },
      Prog.when (p.last && (isSendOp p.op || isWriteOp p.op))
        (wrEnds q p.wr ST.OK (((s.work? p.wr).map (·.length)).getD 0) (some wt))]

/-- Serve the packets that have just left. -/
def packetsLeft : Prog := get fun s => doAll [
  ctl fun c => { c with rdma.left := [] }, Prog.each s.ctl.rdma.left fun e => packetLeft e.1 e.2.1 e.2.2]

/-- FRAME_TX_END (R16, R208): the frame on a port has left. An uncorrectable error in its store drops it (R21). -/
def execFrameTxEnd (p : Fin 512) (e : MemErr) (s : State) : Res := live 4 (get fun s =>
  match s.sending p.val with
  | none => .skip
  | some x =>
    if !x.copy.confirmed then .skip else
    .seq e.note (match e with
      | .ue _ _ => doAll [setSending p.val none, copyGone x.copy ST.UNCORRECTABLE none, pauseOf x.copy]
      | _ => doAll [txDone x, packetsLeft])) s

/-! ## Acknowledgement and retransmission (R356 to R358) -/

/-- Whether a packet out is a READ's or an ATOMIC's, which a response ends and no ACK. -/
def TxPkt.needsResp (p : TxPkt) : Bool := decide (p.op ∈ [opReadReq, opCas, opFaa])

/-- The packets an acknowledgement of a PSN frees: the oldest sent ones up to it. -/
def acked (psn : Nat) (l : List TxPkt) : List TxPkt :=
  l.takeWhile fun p => p.sent && !p.needsResp && decide (0 ≤ psnDiff psn (psnAdd p.psn (p.n - 1)))

/-- Free `k` packets from the front; with any, the timer restarts and, on an ACK, the retry counts are reloaded (R356). -/
def freePackets (q k : Nat) (reload : Bool) : Prog := Prog.when (decide (k ≠ 0)) (doAll [
  modQp q fun y => { y with
    out := y.out.drop k
    next := y.next - k
    retries := if reload then 0 else y.retries
    rnrs := if reload then 0 else y.rnrs },
  showRtx, cancelFor (fun c => decide (c = .retx q)), startTimer q])

/-- One RTT sample in ns (R358). -/
def rttSample (q smp now : Nat) : Prog := get fun s =>
  let x := s.qp q
  let k := s.cfd (RDMA.QP_CC.of q) 3 1
  let low := s.rd (RDMA.CC_TLOW k)
  let high := s.rd (RDMA.CC_THIGH k)
  let add := s.fd (RDMA.CC_STEP k) 15 0
  let beta := s.fd (RDMA.CC_STEP k) 23 16
  doAll [
    modQp q fun y => { y with rtt := smp },
    Prog.when (s.cbit (RDMA.QP_CC.of q) 0) (
      if smp < low then modQp q fun y => { y with rate := min (y.rate + add) (s.qpSpeed q) }
      else if high < smp ∧ smp ≤ now - x.lastDec then modQp q fun y => { y with
        rate := max (y.rate - y.rate * beta * (smp - high) / (256 * smp)) (s.rd (RDMA.CC_MIN k))
        lastDec := now }
      else .skip)]

/-- An acknowledgement of a PSN by a frame received: packets freed, FLUSHes completed, an RTT sample where the timestamps lie in
one domain (R352, R356, R358). -/
def ackPsn (q psn : Nat) (f : Frame) (reload : Bool) : Prog := get fun s =>
  let l := acked psn (s.qp q).out
  doAll [
    match (l.reverse.find? fun p => p.ackReq && p.wt.isSome) with
    | some p => Prog.when (reload && decide (s.portDom (s.qpPort q) = s.portDom f.src))
        (rttSample q (2 * (wtDiff f.ts.wt (p.wt.getD 0)).toNat) f.ts.nanos)
    | none => .skip,
    freePackets q l.length reload,
    Prog.each (l.filter fun p => decide (p.op = opFlush)) fun p => wrEnds q p.wr ST.OK 0 (some f.ts.wt),
    pumpAll q]

/-- Send again from a PSN on (R356). -/
def resendFrom (q psn : Nat) : Prog := doAll [
  modQp q fun y =>
    let k := (y.out.takeWhile fun p => decide (psnDiff psn (psnAdd p.psn (p.n - 1)) > 0)).length
    { y with next := min y.next k, out := y.out.take k ++ (y.out.drop k).map fun p => { p with got := 0 } },
  cancelFor (fun c => decide (c = .retx q)), startTimer q, pumpAll q]

/-- Send again from the oldest unacknowledged PSN. -/
def resendOldest (q : Nat) : Prog := get fun s =>
  match (s.qp q).out with
  | p :: _ => resendFrom q p.psn
  | [] => .skip

/-- One retry of RETRY_CNT is used for a work request, or the queue pair enters ERROR when none is left (R356). -/
def useRetry (q : Nat) (bad : Option Nat) (k : Prog) : Prog := get fun s =>
  if s.cfd (RDMA.QP_TIMERS.of q) 7 5 ≤ (s.qp q).retries then enterError q ST.RETRY_EXCEEDED bad
  else doAll [modQp q fun y => { y with retries := y.retries + 1 }, k]

/-- RETRANSMIT_TIMEOUT (R56, R356, R357): the next event, a retransmit timer; an arming fires it as OK. -/
def execRetransmitTimeout (s : State) : Res := live 4 (
  dispatch (fun c => match c with | .retx _ => true | _ => false) fun e _ =>
    match e.consumer with
    | .retx q => doAll [
        inc RDMA.TIMEOUT_CNT,
        get fun s => Prog.when (s.cbit (RDMA.QP_CC.of q) 0) (modQp q fun y => { y with rate := y.rate / 2 }),
        get fun s => useRetry q ((s.qp q).out.head?.map (·.wr)) (resendOldest q)]
    | _ => .skip) s

/-- RNR_WAIT_EXPIRY (R56, R357): the next event, the end of an RNR wait: the queue pair goes on from the PSN of the NAK; an arming
fires it as OK, and the queue pair sends again from its oldest unacknowledged PSN. -/
def execRnrWaitExpiry (s : State) : Res := live 4 (
  dispatch (fun c => match c with | .rnr _ => true | _ => false) fun e stepped =>
    match e.consumer with
    | .rnr q => if stepped then resendOldest q else doAll [startTimer q, pumpAll q]
    | _ => .skip) s

/-- What a queue pair asked of the wheel in vain is asked again (R357). -/
def qpRetry (q : Nat) : Prog := get fun s =>
  match (s.qp q).again with
  | [] => .skip
  | (kind, tick) :: t => doAll [modQp q fun y => { y with again := t }, if kind = 1 then startTimer q else qpEvent q kind tick]

/-- The retry of a timer that is no periodic consumer: only where a request of it was refused (R57, R383). -/
def retryTimer (c : Consumer) : Prog := get fun s =>
  Prog.when (s.ctl.time.retry.any fun r => decide (r.consumer = c)) (retryConsumer c)

/-- RESCHEDULE_RETRY (R57, R357). -/
def execRescheduleRetry (k : PeriodicKind) (i : Nat) (s : State) : Res := live 4 (match k with
  | .shaper => retryConsumer (.shaperRefill (i % 168))
  | .policer => retryConsumer (.polBlock (i % 1024))
  | .control => retryConsumer (.ctrlLimit (i % 4))
  | .bucket => retryConsumer (.intBucket (i % 2048))
  | .aging => retryConsumer (.aging (i % 5))
  | .telemetry => retryConsumer .telemetry
  | .poll => retryConsumer (.ringPoll (i % 65536))
  | .heartbeat => retryConsumer .hbSend
  | .queuePair => qpRetry (i % 262144)
  | .flushTimer => retryTimer (.flushDeadline (i % 16384))
  | .deadPeer => retryTimer .deadPeer) s

end Sys2Proof.Machine
end

