-- ==== Sys2Proof/Machine/RdmaRx.lean ====
section
/-! DEFINITION. The transport's receive side (R340 to R343, R349 to R358): the responder, responses and acknowledgements at the
requester, memory regions, and what commits do to queue pairs. A packet that must wait for host reads or a translation keeps
its place, and the packets of its queue pair behind it. -/

namespace Sys2Proof.Machine

/-! ## Received packets -/

/-- Where a read's bytes belong among those of a transport frame. -/
def rxPlace (id : Nat) : Purpose → Option Nat
  | .qp _ f off => if f = id then some off else none
  | _ => none

/-- A transport frame is done with; its host reads, its wait for a translation and its use of a region too. -/
def dropRx (id : Nat) : Prog := doAll [
  ctl fun c => { c with rdma.rx := c.rdma.rx.filter fun f => !decide (f.id = id) },
  ctl fun c => { c with rdma.uses := nset none c.rdma.uses id none },
  dropReads fun p => (rxPlace id p).isSome, endWait (.frame id)]

/-- A transport frame that would read poisoned content of the transport's tables is dropped and counted (R486). -/
def dropPoisoned (id : Nat) : Prog := doAll [inc (HDR.ERR_COUNT Pg.rdma), dropRx id]

/-- Whether a queue pair's context holds poisoned content: that of QP n lies at n × 512 in HBM (R23). -/
def State.qpBad (s : State) (q : Nat) : Bool := decide (q < 262144) && s.poisoned 1 0 (512 * q) 512

/-- Act on a transport frame that is the oldest of its queue pair. -/
def withRx (id : Nat) (k : Frame → RPkt → Prog) : Prog := get fun s =>
  match s.ctl.rdma.rx.find? (fun f => decide (f.id = id)) with
  | none => .skip
  | some f =>
    let before := s.ctl.rdma.rx.takeWhile fun g => !decide (g.id = id)
    if before.any fun g => decide (g.rocePkt.qpn = f.rocePkt.qpn) then .skip
    else if s.qpBad f.rocePkt.qpn then dropPoisoned id else k f f.rocePkt

/-- A packet is accepted (R360). -/
def acceptRx (id q : Nat) : Prog := doAll [dropRx id, inc RDMA.RX_PKT_CNT, peep 8 1 q]

/-- Whether a packet passes the header checks for a working queue pair (R339, R340). -/
def State.rxGood (s : State) (p : RPkt) : Bool :=
  (decide (p.pkey = 0xFFFF) || decide (p.pkey = 0x7FFF)) && p.icrcOk && decide (2 ≤ p.qpn) && decide (p.qpn < 262144) &&
    decide (p.op ≠ opCnp) && (decide ((s.qp p.qpn).st = 2) || decide ((s.qp p.qpn).st = 3))

/-! ## Memory regions (R341, R342) -/

/-- A memory-region entry. -/
def State.mrEntry (s : State) (i : Nat) : List Byte := s.bytes 2 0 (s.mrAddr i) 32

/-- Whether an rkey names a poisoned entry of the region table. -/
def State.mrBad (s : State) (rkey : Nat) : Bool := decide (rkey / 256 < s.mrCount) && s.poisoned 2 0 (s.mrAddr (rkey / 256)) 32

/-- Owner and PASID under which an rkey grants a right over a range to a queue pair (R342); `right` and `acc` are the RIGHTS
and QP_ACCESS bits. -/
def State.mrGrant (s : State) (q rkey va len right acc : Nat) : Option (Nat × Option Nat) :=
  let e := s.mrEntry (rkey / 256)
  let rights := leAt e 22 1
  if rkey / 256 < s.mrCount ∧ tbit rights 0 = true ∧ leAt e 21 1 = rkey % 256 ∧ leAt e 16 2 % 2048 = s.qpOwner q ∧ tbit rights right = true ∧
      s.cbit (RDMA.QP_ACCESS.of q) acc = true ∧ leAt e 0 8 ≤ va ∧ va + len ≤ leAt e 0 8 + leAt e 8 8 then
    some (leAt e 16 2 % 2048, if tbit (leAt e 18 3) 23 then some (leAt e 18 3 % 2 ^ 20) else none)
  else none

/-- The code of a PASID in the host port's tables: 0 for none. -/
def pasCode (pasid : Option Nat) : Nat := (pasid.map (· + 1)).getD 0

/-- The PASID of a code. -/
def pasOf (code : Nat) : Option Nat := if code = 0 then none else some (code - 1)

/-- Whether an access may still go by the entry under which its checks began: that entry has not been written anew, or at most 1 µs
ago, 156 REFCLK edges (R341). -/
def State.entryHolds (s : State) (stale : Option Nat) : Bool := match stale with
  | none => true
  | some t => decide (s.ctl.time.edges ≤ t + 156)

/-- A transport frame's access goes by the entry under which its checks began, or by the present one where they begin now (R341, R342):
`k` gets the function and the PASID. -/
def withGrant (id q rkey va len right acc : Nat) (refused : Prog) (k : Nat → Option Nat → Prog) : Prog := get fun s =>
  let begun := (tget none s.ctl.rdma.uses id).filter fun u => s.entryHolds u.stale
  match begun with
  | some u => k u.fn (pasOf u.pas)
  | none =>
    match s.mrGrant q rkey va len right acc with
    | none => refused
    | some (f, pasid) => doAll [
        ctl fun c => { c with rdma.uses := nset none c.rdma.uses id (some ⟨rkey, f, pasCode pasid, none⟩) }, k f pasid]

/-- The accesses under way by an entry of the region table that is being written: they now use the old one (R341). -/
def staleUses (i : Nat) : Prog := get fun s =>
  let mark := fun (rkey : Nat) (old : Option Nat) =>
    if rkey / 256 = i ∧ old = none then some s.ctl.time.edges else old
  doAll [
    ctl fun c => { c with rdma.uses := c.rdma.uses.map fun e => (e.1, e.2.map fun u => { u with stale := mark u.rkey u.stale }) },
    ctl fun c => { c with rdma.qps := c.rdma.qps.map fun e => (e.1, { e.2 with
      inb := e.2.inb.map fun m => if m.isWrite then { m with stale := mark m.rkey m.stale } else m }) }]

/-- The host port's checks of an access for a function and a PASID (R115, R116, R342). -/
def State.checkFor (s : State) (f : Nat) (pasid : Option Nat) (addr len : Nat) (wr : Bool) : Check := s.checkP f (pasCode pasid) addr len wr

/-- Checks over several pieces: the first that is not passed. -/
def State.checkAll (s : State) (f : Nat) (pasid : Option Nat) (l : List (Nat × Nat)) (wr : Bool) : Check :=
  match (l.filter fun x => decide (x.2 ≠ 0)).find? (fun x => decide (s.checkFor f pasid x.1 x.2 wr ≠ .pass)) with
  | some x => s.checkFor f pasid x.1 x.2 wr
  | none => .pass

/-- A transport frame's access to host memory (R342): it passes; or it is refused, as after a translation that granted nothing
(R116); or it fails, as its translation has (R107); or it waits for a translation, or for its function's cap (R141). At a link that is
not open nothing is checked: the access is discarded (R122, R124). `l` holds the pieces of each direction. -/
def gateRx (id f : Nat) (pasid : Option Nat) (l : List (Bool × List (Nat × Nat))) (pass failed : Prog) (refused : Bool → Prog) : Prog :=
  get fun s =>
  if !s.linkOpen (s.linkOf f) then doAll [endWait (.frame id), pass]
  else if s.dmaHeld f then .skip
  else match s.waitRes (.frame id) with
  | some st => if st = ST.ACCESS_DENIED then refused true else failed
  | none =>
    match (l.map fun x => s.checkAll f pasid x.2 x.1).find? (· ≠ .pass) with
    | some (.miss pg) => waitXlat (.frame id) f (pasCode pasid) pg
    | some (.denied b) => refused b
    | _ => doAll [endWait (.frame id), pass]

/-- Host writes that have passed their checks; a shut link discards them (R122). -/
def putHost (f : Nat) (pasid : Option Nat) (l : List (Nat × List Byte)) : Prog := Prog.each (l.filter fun x => !x.2.isEmpty) fun x => get fun s =>
  if s.linkOpen (s.linkOf f) then putOut f (pasCode pasid) x.1 x.2 else inc (HOST.SHUT_DISCARD_CNT (f / 1024))

/-- Host reads issued for a transport frame. -/
def State.readsFor (s : State) (id : Nat) : Bool :=
  s.ctl.host.reqs.any (fun r => (rxPlace id r.purpose).isSome) || s.ctl.host.arrived.any (fun a => (rxPlace id a.purpose).isSome)

/-- What the host reads for a transport frame have brought: `none` while `n` bytes are not all there; then their STATUS and the
bytes. -/
def State.readResult (s : State) (id n : Nat) : Option (Nat × List Byte) := s.gathered (rxPlace id) n

/-! ## Answers -/

/-- An acknowledgement packet. -/
def sendAck (q psn syn : Nat) : Prog := get fun s => respond q opAck psn (aeth syn (s.qp q).msn) [] none

/-- A NAK whose sending takes its queue pair into ERROR (R356). -/
def sendLastNak (q psn syn st : Nat) : Prog := get fun s => doAll [
  peep 8 3 q, Prog.when (decide (syn = synAccess)) (inc RDMA.ACCESS_NAK_CNT), respond q opAck psn (aeth syn (s.qp q).msn) [] (some st)]

/-- A sequence-error NAK with the expected PSN (R354). -/
def sendSeqNak (q : Nat) : Prog := get fun s => doAll [sendAck q (s.qp q).rpsn synSeq, inc RDMA.SEQ_NAK_TX_CNT, peep 8 3 q]

/-- A NAK that takes the responder's queue pair into ERROR (R356). -/
def fatalNak (id q psn syn st : Nat) : Prog := doAll [acceptRx id q, sendLastNak q psn syn st]

def invalidNak (id q psn : Nat) : Prog := fatalNak id q psn synInvalid ST.REMOTE_OP
def accessNak (id q psn : Nat) : Prog := fatalNak id q psn synAccess ST.REMOTE_ACCESS

/-- The host side of a request has failed: refused (R342), or aborted. -/
def hostNak (id q psn st : Nat) : Prog :=
  if st = ST.ACCESS_DENIED then accessNak id q psn else fatalNak id q psn synOp ST.REMOTE_OP

/-- A request is executed: the expected PSN moves on by `n`, the message count too where it ends a message (R354). -/
def executed (id q n : Nat) (ends : Bool) : Prog := doAll [
  acceptRx id q,
  modQp q fun y => { y with rpsn := psnAdd y.rpsn n, naked := false, msn := if ends then (y.msn + 1) % 2 ^ 24 else y.msn }]

/-! ## SEND and WRITE at the responder -/

/-- The RECVs of a ring that no message has taken, oldest first (R349). -/
def State.recvs (s : State) (ring : Nat) : List (Nat × Work) :=
  (s.worksOf ring).filter fun e => decide (e.2.typ = 0x51) && decide (e.2.stage ≠ 3)

/-- The next RECV of a queue pair's ring. -/
def State.nextRecv (s : State) (q : Nat) : Option (Nat × Work) := (s.recvs (s.qpRq q)).head?

/-- Whether the next RECV of a queue pair's ring is confirmed and not yet supplied: a message waits for it (R349, R357). -/
def State.recvComing (s : State) (q : Nat) : Bool := (s.nextRecv q).any fun e => decide (e.2.aux ≠ 1)

/-- RECV (R349): the descriptor, with its scatter list if it has one, supplies a receive buffer. -/
def execRecv (w : Nat) (s : State) : Res := live 4 (withWork w fun x =>
  Prog.when (decide (x.typ = 0x51) && decide (x.stage ≠ 1) && decide (x.stage ≠ 3)) (modWork w fun y => { y with aux := 1 })) s

/-- The completion of a RECV, which steps the trigger counter of its queue pair (R350, R353). -/
def recvEnds (q w st len wt : Nat) (imm : Option Nat) (isWrite : Bool) : Prog := get fun s => doAll [
  completeWith w st len [] (if st = ST.OK then some (wt, none) else none)
    [(20, leBytes 3 q ++ leBytes 1 (b2n imm.isSome + 2 * b2n isWrite) ++ leBytes 4 (imm.getD 0))],
  Prog.when (s.cbit (RDMA.QP_CTL.of q) 14) (ctl fun c =>
    { c with rdma.trig := nmod 0 c.rdma.trig (s.cfd (RDMA.QP_ACCESS.of q) 31 16) fun v => (v + 1) % 2 ^ 32 })]

/-- An RNR NAK (R357): the packet is not executed. -/
def rnrNak (id q psn : Nat) : Prog := get fun s => doAll [
  acceptRx id q, sendAck q psn (synRnr (s.cfd (RDMA.QP_TIMERS.of q) 15 11)), inc RDMA.RNR_NAK_TX_CNT, peep 8 3 q]

/-- Whether the lengths of a packet of a message fit (R338): every packet but the last fills the path MTU. -/
def pktFits (mtu : Nat) (op n : Nat) (left : Option Nat) : Bool :=
  (if opEnds op then decide (n ≤ mtu) && (opStarts op || decide (0 < n)) else decide (n = mtu)) &&
    match left with
    | some l => if opEnds op then decide (n = l) else decide (n < l)
    | none => true

/-- One packet of a SEND, in order (R342, R349, R350). -/
def runSend (f : Frame) (p : RPkt) : Prog := get fun s =>
  let q := p.qpn
  let inb := (s.qp q).inb
  let data := if opImm p.op then p.body.drop 4 else p.body
  if opStarts p.op = inb.isSome ∨ (inb.any (·.isWrite)) = true ∨ !pktFits (s.qpMtu q) p.op data.length none ∨
      2 ^ 31 < (inb.map (·.got)).getD 0 + data.length then invalidNak f.id q p.psn
  else if opStarts p.op ∧ s.recvComing q then .skip
  else
    let take := if opStarts p.op then (s.nextRecv q).map (·.1) else inb.bind (·.recv)
    match take.bind fun w => (s.work? w).map fun x => (w, x) with
    | none => rnrNak f.id q p.psn
    | some (w, x) =>
      let m : Inbound := inb.getD ⟨some w, false, 0, x.fn, 0, 0, 0, f.ts.wt, ST.OK, 0, none⟩
      if x.length < m.got + data.length then doAll [
        modQp q fun y => { y with inb := none },
        recvEnds q w ST.BAD_LENGTH m.got m.wt none false,
        fatalNak f.id q p.psn synOp ST.REMOTE_OP]
      else
        let l := piecesFrom x.pieces m.got data.length
        let go := fun (put : Prog) (st : Nat) => doAll [
          put, modWork w fun y => { y with stage := 3 },
          if opEnds p.op then doAll [
            modQp q fun y => { y with inb := none },
            recvEnds q w st (if st = ST.OK then m.got + data.length else 0) m.wt (if opImm p.op then some (beAt p.body 0 4) else none) false]
          else modQp q fun y => { y with inb := some { m with got := m.got + data.length, status := st } },
          executed f.id q 1 (opEnds p.op),
          Prog.when p.ackReq (sendAck q p.psn synAck)]
        gateRx f.id x.fn none [(true, l)] (go (putHost x.fn none (scatter l data)) m.status) (go .skip ST.HOST_ABORT)
          fun b => go (deny x.fn ((l.map (·.1)).headD 0) data.length true b) ST.ACCESS_DENIED

/-- One packet of a WRITE that the region table grants, in order (R349, R350); `m` is its message as it stands before it. -/
def writePacket (f : Frame) (p : RPkt) (m : Inbound) (len ext : Nat) : Prog := get fun s =>
  let q := p.qpn
  let data := p.body.drop ext
  let pasid := pasOf m.pasid
  let closed := modQp q fun y => { y with inb := none }
  let put := putHost m.fn pasid [(m.va, data)]
  let ack := Prog.when p.ackReq (sendAck q p.psn synAck)
  if !pktFits (s.qpMtu q) p.op data.length (some m.left) then invalidNak f.id q p.psn
  else gateRx f.id m.fn pasid [(true, [(m.va, len)])]
    (if !opEnds p.op then doAll [
      put, modQp q fun y => { y with inb := some { m with va := m.va + data.length, got := m.got + data.length, left := m.left - data.length } },
      executed f.id q 1 false, ack]
    else if opImm p.op then
      if s.recvComing q then .skip
      else match s.nextRecv q with
      | none => rnrNak f.id q p.psn
      | some (w, _) => doAll [
          put, modWork w fun y => { y with stage := 3 }, closed,
          recvEnds q w ST.OK (m.got + data.length) m.wt (some (beAt p.body (ext - 4) 4)) true,
          executed f.id q 1 true, ack]
    else doAll [put, closed, executed f.id q 1 true, ack])
    (doAll [closed, hostNak f.id q p.psn ST.HOST_ABORT])
    fun b => doAll [deny m.fn m.va len true b, closed, accessNak f.id q p.psn]

/-- One packet of a WRITE, in order (R341, R342, R349, R350). A message goes on by the entry of its first packet, or where that has been
written anew by the present one. -/
def runWrite (f : Frame) (p : RPkt) : Prog := get fun s =>
  let q := p.qpn
  let inb := (s.qp q).inb
  let st := opStarts p.op
  let ext := (if st then 16 else 0) + (if opImm p.op then 4 else 0)
  let va := beAt p.body 0 8
  let rkey := beAt p.body 8 4
  let len := beAt p.body 12 4
  if st && s.mrBad rkey then dropPoisoned f.id
  else if st = inb.isSome ∨ (inb.any fun m => !m.isWrite) = true ∨ (st = true ∧ 2 ^ 31 < len) then invalidNak f.id q p.psn
  else match inb with
    | none => withGrant f.id q rkey va len 2 1 (accessNak f.id q p.psn) fun fn pasid => get fun t =>
        writePacket f p ⟨none, true, va, fn, pasCode pasid, 0, len, f.ts.wt, ST.OK, rkey,
          (tget none t.ctl.rdma.uses f.id).bind (·.stale)⟩ len ext
    | some m =>
      if s.entryHolds m.stale then writePacket f p m (p.body.length - ext) ext
      else match s.mrGrant q m.rkey m.va m.left 2 1 with
      | some (fn, pasid) => writePacket f p { m with fn := fn, pasid := pasCode pasid, stale := none } (p.body.length - ext) ext
      | none => doAll [modQp q fun y => { y with inb := none }, accessNak f.id q p.psn]

/-! ## READ, ATOMIC and FLUSH at the responder -/

/-- The response packets of a READ from a PSN (R338). -/
def sendResponses (q psn mtu : Nat) (b : List Byte) : Prog :=
  let n := max 1 (ceilDiv b.length mtu)
  Prog.each (List.range n) fun i => get fun s =>
    let op := if n = 1 then opRespOnly else if i = 0 then opRespFirst else if i + 1 = n then opRespLast else opRespMiddle
    respond q op (psnAdd psn i) (if op = opRespMiddle then [] else aeth synAck (s.qp q).msn) ((b.drop (i * mtu)).take mtu) none

/-- Keep an answered READ or ATOMIC in the response cache of 8 (R355). -/
def cacheAdd (q : Nat) (e : CacheEntry) : Prog := modQp q fun y => { y with cache := (y.cache ++ [e]).drop (y.cache.length + 1 - 8) }

/-- A READ (R342, R355): its data are read, then sent. `replay`: a duplicate, whose data are read again as the request that the
response cache holds asks: address, rkey, length. -/
def runRead (f : Frame) (p : RPkt) (replay : Option (Nat × Nat × Nat)) : Prog := get fun s =>
  let q := p.qpn
  let (va, rkey, len) := replay.getD (beAt p.body 0 8, beAt p.body 8 4, beAt p.body 12 4)
  let mtu := s.qpMtu q
  let ends := fun k : Prog => doAll [Prog.when replay.isSome (inc RDMA.DUP_CNT), k]
  let answer := fun b : List Byte => ends (
    if replay.isSome then doAll [acceptRx f.id q, inc RDMA.REPLAY_CNT, sendResponses q p.psn mtu b]
    else doAll [executed f.id q (max 1 (ceilDiv len mtu)) true, sendResponses q p.psn mtu b, cacheAdd q (.read p.psn va rkey len)])
  if s.readsFor f.id then
    match s.readResult f.id len with
    | none => .skip
    | some (st, b) => if st = ST.OK then answer (slice b 0 len) else ends (hostNak f.id q p.psn st)
  else if s.mrBad rkey then ends (dropPoisoned f.id)
  else withGrant f.id q rkey va len 1 0 (ends (accessNak f.id q p.psn)) fun fn pasid =>
    if 2 ^ 31 < len then ends (invalidNak f.id q p.psn)
    else if len = 0 then answer []
    else gateRx f.id fn pasid [(false, [(va, len)])] (hostReadP fn (pasCode pasid) va len (.qp q f.id 0))
      (ends (hostNak f.id q p.psn ST.HOST_ABORT)) fun b => ends (doAll [deny fn va len false b, accessNak f.id q p.psn])

/-- Whether an atomic on an address has arrived before a frame and has not been executed (R343). -/
def State.atomicBusy (s : State) (f : Frame) (va : Nat) : Bool :=
  (s.ctl.rdma.rx.takeWhile fun g => !decide (g.id = f.id)).any fun g =>
    decide (g.rocePkt.op = opCas ∨ g.rocePkt.op = opFaa) && decide (beAt g.rocePkt.body 0 8 = va)

/-- An ATOMIC (R342, R343): one read and one write of 8 bytes, then the original value. -/
def runAtomic (f : Frame) (p : RPkt) : Prog := get fun s =>
  let q := p.qpn
  let va := beAt p.body 0 8
  let swap := beAt p.body 12 8
  let cmp := beAt p.body 20 8
  if !s.readsFor f.id && s.mrBad (beAt p.body 8 4) then dropPoisoned f.id
  else withGrant f.id q (beAt p.body 8 4) va 8 3 2 (accessNak f.id q p.psn) fun fn pasid =>
    if va % 8 ≠ 0 then invalidNak f.id q p.psn
    else if s.readsFor f.id then
      match s.readResult f.id 8 with
      | none => .skip
      | some (st, b) =>
        let v := leVal (slice b 0 8)
        let new := if p.op = opFaa then (v + swap) % 2 ^ 64 else if v = cmp then swap else v
        if st ≠ ST.OK then hostNak f.id q p.psn st else gateRx f.id fn pasid [(true, [(va, 8)])] (doAll [
          putHost fn pasid [(va, leBytes 8 new)],
          executed f.id q 1 true, cacheAdd q (.atomic p.psn v),
          get fun s => respond q opAtomicAck p.psn (aeth synAck (s.qp q).msn ++ beBytes 8 v) [] none])
          (hostNak f.id q p.psn ST.HOST_ABORT) fun b => doAll [deny fn va 8 true b, accessNak f.id q p.psn]
    else if s.atomicBusy f va then .skip
    else gateRx f.id fn pasid [(false, [(va, 8)]), (true, [(va, 8)])] (hostReadP fn (pasCode pasid) va 8 (.qp q f.id 0))
      (hostNak f.id q p.psn ST.HOST_ABORT)
      fun b => doAll [deny fn va 8 (decide (s.checkFor fn pasid va 8 false = .pass)) b, accessNak f.id q p.psn]

/-- A FLUSH (R338, R342, R352): its 4-byte read is made after the writes before it; RESPONDER_FLUSH_ACK answers. The host port checks
the range as a read, the one access that a flush makes (DEDUCED, log entry 143). -/
def runFlush (f : Frame) (p : RPkt) : Prog := get fun s =>
  let q := p.qpn
  let va := beAt p.body 4 8
  let len := beAt p.body 16 4
  if s.mrBad (beAt p.body 12 4) then dropPoisoned f.id
  else withGrant f.id q (beAt p.body 12 4) va len 4 3 (accessNak f.id q p.psn) fun fn pasid =>
    if tbit (beAt p.body 0 4) 1 then invalidNak f.id q p.psn
    else gateRx f.id fn pasid [(false, [(va, max 4 len)])]
      (doAll [executed f.id q 1 true, modQp q fun y => { y with flush := some (p.psn, f.id) }, hostReadP fn (pasCode pasid) va 4 (.qp q f.id 0)])
      (hostNak f.id q p.psn ST.HOST_ABORT) fun b => doAll [deny fn va len false b, accessNak f.id q p.psn]

/-- RESPONDER_FLUSH_ACK (R352): the flush-range read of a queue pair has completed. -/
def execResponderFlushAck (q : Fin 262144) (s : State) : Res := live 4 (get fun s =>
  match (s.qp q.val).flush with
  | none => .skip
  | some (psn, id) =>
    match s.readResult id 4 with
    | none => .skip
    | some r => doAll [
        dropRx id, modQp q.val fun y => { y with flush := none },
        if r.1 = ST.OK then sendAck q.val psn synAck
        else if r.1 = ST.ACCESS_DENIED then sendLastNak q.val psn synAccess ST.REMOTE_ACCESS
        else sendLastNak q.val psn synOp ST.REMOTE_OP]) s

/-- A duplicate request (R355). -/
def runDuplicate (f : Frame) (p : RPkt) : Prog := get fun s =>
  let q := p.qpn
  let x := s.qp q
  let miss := doAll [inc RDMA.DUP_CNT, acceptRx f.id q, inc RDMA.CACHE_NAK_CNT, sendSeqNak q]
  if p.op = opReadReq then
    match x.cache.findSome? fun e => match e with | .read psn va rkey len => if psn = p.psn then some (va, rkey, len) else none | _ => none with
    | some r => runRead f p (some r)
    | none => miss
  else if p.op = opCas ∨ p.op = opFaa then
    match x.cache.findSome? fun e => match e with | .atomic psn v => if psn = p.psn then some v else none | _ => none with
    | some v => doAll [inc RDMA.DUP_CNT, acceptRx f.id q, inc RDMA.REPLAY_CNT,
        respond q opAtomicAck p.psn (aeth synAck x.msn ++ beBytes 8 v) [] none]
    | none => miss
  else doAll [inc RDMA.DUP_CNT, acceptRx f.id q, sendAck q (psnAdd x.rpsn (2 ^ 24 - 1)) synAck]

/-- RDMA_PACKET_RX (R339, R340, R354 to R357): a frame that the transport holds is dropped for its headers, delivered to the
cores, or a request that is executed, answered from the cache, or NAKed. -/
def execRdmaPacketRx (id : Nat) (s : State) : Res := live 4 (withRx id fun f p => get fun s =>
  let x := s.qp p.qpn
  if p.pkey ≠ 0xFFFF ∧ p.pkey ≠ 0x7FFF then doAll [dropRx id, inc RDMA.BAD_HDR_CNT]
  else if !p.icrcOk then doAll [dropRx id, inc RDMA.ICRC_ERR_CNT, int Pg.rdma 0 2]
  else if p.op = opCnp then doAll [dropRx id, inc RDMA.CNP_RX_CNT]
  else if p.qpn = 1 then doAll [dropRx id, Prog.when (!actFlag f.dec.act actCopyCtrl) (limitedToCores f)]
  else if p.qpn = 0 ∨ 262144 ≤ p.qpn ∨ x.st ≤ 1 then doAll [dropRx id, inc RDMA.BAD_HDR_CNT]
  else if x.st = 4 ∨ 0x20 ≤ p.op then dropRx id
  else if p.op ∈ [opRespFirst, opRespMiddle, opRespLast, opRespOnly, opAck, opAtomicAck] then (if x.st = 2 then dropRx id else .skip)
  else if x.flush.isSome ∨ (x.resp.any fun r => r.err.isSome) then .skip
  else
    let d := psnDiff p.psn x.rpsn
    if d > 0 then doAll [acceptRx id p.qpn,
      Prog.when (!x.naked) (doAll [modQp p.qpn fun y => { y with naked := true }, sendSeqNak p.qpn])]
    else if d < 0 then runDuplicate f p
    else if isSendOp p.op then runSend f p
    else if isWriteOp p.op then runWrite f p
    else if x.inb.isSome then invalidNak id p.qpn p.psn
    else if p.op = opReadReq then runRead f p none
    else if p.op = opCas ∨ p.op = opFaa then runAtomic f p
    else if p.op = opFlush then runFlush f p
    else invalidNak id p.qpn p.psn) s

/-! ## Acknowledgements and responses at the requester (R350, R356 to R358) -/

/-- An acknowledgement packet for a requester, with its syndrome. -/
def withAck (id kind : Nat) (k : Frame → RPkt → Nat → Prog) : Prog := withRx id fun f p => get fun s =>
  let syn := beAt p.body 0 1
  Prog.when (s.rxGood p && decide ((s.qp p.qpn).st = 3) && decide (p.op = opAck) && decide (syn / 32 = kind))
    (doAll [acceptRx id p.qpn, k f p syn])

/-- ACK_RX (R352, R356, R358). -/
def execAckRx (id : Nat) (s : State) : Res := live 4 (withAck id 0 fun f p _ => ackPsn p.qpn p.psn f true) s

/-- NAK_RX (R356): the packets before the NAK's PSN have arrived; a sequence error resends from it, another one is the end. -/
def execNakRx (id : Nat) (s : State) : Res := live 4 (withAck id 3 fun f p syn => doAll [
  ackPsn p.qpn (psnAdd p.psn (2 ^ 24 - 1)) f false,
  if syn = synSeq then doAll [inc RDMA.SEQ_NAK_RX_CNT, get fun s =>
    useRetry p.qpn (s.wrAt p.qpn p.psn) (resendFrom p.qpn p.psn)]
  else get fun s => enterError p.qpn (if syn = synAccess then ST.REMOTE_ACCESS else ST.REMOTE_OP) (s.wrAt p.qpn p.psn)]) s

/-- RNR_NAK_RX (R357): the coded time is waited on the wheel, while RNR retries are left. -/
def execRnrNakRx (id : Nat) (s : State) : Res := live 4 (withAck id 1 fun f p syn => get fun s =>
  let q := p.qpn
  let lim := s.cfd (RDMA.QP_TIMERS.of q) 10 8
  doAll [
    inc RDMA.RNR_NAK_RX_CNT, ackPsn q (psnAdd p.psn (2 ^ 24 - 1)) f false,
    if lim ≠ 7 ∧ lim ≤ (s.qp q).rnrs then get fun s => enterError q ST.RNR_EXCEEDED (s.wrAt q p.psn)
    else doAll [
      modQp q fun y => { y with
        rnrs := y.rnrs + 1
        next := (y.out.takeWhile fun r => decide (psnDiff p.psn (psnAdd r.psn (r.n - 1)) > 0)).length
        again := y.again.filter fun a => decide (a.1 = 3) },
      cancelFor (fun c => decide (c ∈ [Consumer.retx q, .rnr q])),
      qpEvent q 2 ((s.wt (s.qpDom q) + 5000 * rnrTime syn) % 2 ^ 48)]]) s

/-- READ_ATOMIC_RESPONSE_RX (R347, R350, R356): the next response packet of the oldest READ or ATOMIC; what lies before it is
acknowledged. -/
def execReadAtomicResponseRx (id : Nat) (s : State) : Res := live 4 (withRx id fun f p => get fun s =>
  let q := p.qpn
  let isAtomic := decide (p.op = opAtomicAck)
  if !s.rxGood p ∨ (s.qp q).st ≠ 3 ∨ p.op ∉ [opRespFirst, opRespMiddle, opRespLast, opRespOnly, opAtomicAck] then .skip
  else match (s.qp q).out.find? (·.needsResp) with
    | none => acceptRx id q
    | some r =>
      match s.work? r.wr with
      | none => acceptRx id q
      | some x =>
        let body := if p.op = opRespMiddle then p.body else p.body.drop 4
        let data := if isAtomic then leBytes 8 (beAt body 0 8) else body.take (x.length - r.got * s.qpMtu q)
        let l := piecesFrom x.pieces (r.got * s.qpMtu q) data.length
        let last := decide (r.got + 1 = r.n)
        let go := fun (put : Prog) => doAll [
          acceptRx id q, ackPsn q (psnAdd r.psn (2 ^ 24 - 1)) f true, put,
          if last then doAll [
            freePackets q 1 true,
            get fun t =>
              let st := ((t.work? r.wr).map (·.status)).getD ST.OK
              wrEnds q r.wr st (if st = ST.OK then x.length else 0) (if st = ST.OK then some f.ts.wt else none),
            pumpAll q]
          else modQp q fun y => { y with out := y.out.map fun z => if z.psn = r.psn then { z with got := z.got + 1 } else z, retries := 0, rnrs := 0 }]
        if !r.sent ∨ p.psn ≠ psnAdd r.psn r.got ∨ isAtomic = decide (r.op = opReadReq) then acceptRx id q
        else gateRx f.id x.fn none [(true, l)] (go (putHost x.fn none (scatter l data)))
          (go (modWork r.wr fun y => { y with status := ST.HOST_ABORT })) fun b =>
          go (doAll [deny x.fn ((l.map (·.1)).headD 0) data.length true b, modWork r.wr fun y => { y with status := ST.ACCESS_DENIED }])) s

/-! ## The page's commits (R341, R344, R345, R360) -/

/-- MR_W7_WRITE (R341): the eight words become the selected entry; of MR_W7 itself every bit is reserved. -/
def execMrW7Write (a : Accessor) (v : Word) (s : State) : Res := done (byWriter a Pg.rdma 0x12C (get fun s =>
  let i := s.sel a Pg.rdma 0x10C % 2 ^ 20
  let e := ((List.range 7).flatMap fun k => leBytes 4 (s.rd (RDMA.MR_W k))) ++ leBytes 4 0
  doAll [wr (RDMA.MR_W 7) v.toNat,
    Prog.when (decide (i < s.mrCount)) (doAll [staleUses i, poke 2 0 (s.mrAddr i) e, cleanse 2 0 (s.mrAddr i) 32])])) s

/-- LIP_CTL_WRITE (R340, R360). -/
def execLipCtlWrite (a : Accessor) (v : Word) (s : State) : Res := done (byWriter a Pg.rdma 0x174 (get fun s =>
  let k := s.sel a Pg.rdma 0x160 % 16
  let v6 := v.getLsbD 1
  let addr := (List.range (if v6 then 4 else 1)).flatMap fun j => beBytes 4 (s.rd (RDMA.LIP_W j))
  doAll [wr RDMA.LIP_CTL v.toNat,
    ctl fun c => { c with rdma.lips := nset none c.rdma.lips k (if v.getLsbD 0 then some ⟨v6, addr⟩ else none) }])) s

/-- Whether a staged register of a queue pair differs from its committed value in the bits of a mask. -/
def State.qpChanges (s : State) (q : Nat) (r : Reg) (m : Nat) : Bool :=
  decide (s.copy .staged (r.of 0) &&& m ≠ s.cfg (r.of q) &&& m)

/-- Whether a COMMIT of a queue pair is refused (R344, R345); V6 is part of its destination's address. -/
def State.qpRefused (s : State) (q : Nat) : Bool :=
  let st := fun r : Reg => s.copy .staged (r.of 0)
  let cur := (s.qp q).st
  let new := st RDMA.QP_CTL % 8
  let move := decide (new = cur) || decide (new = 0) || (decide (new = 4) && decide (cur ≠ 0)) || (decide (new ≤ 3) && decide (new = cur + 1))
  let owner := field (st RDMA.QP_CTL) 26 16
  let ring := fun r c : Nat => decide ((s.ring r).st = .active) && decide (s.ringConsumer r = c) && decide (s.ringOwner r = owner)
  let pmtu := field (st RDMA.QP_CTL) 13 11
  let t := st RDMA.QP_TIMERS
  let ready := ring (field (st RDMA.QP_RINGS) 15 0) 4 && ring (field (st RDMA.QP_RINGS) 31 16) 5 && decide (field t 19 16 ≤ 8) &&
    decide (field t 23 20 ≤ 8) && decide (1 ≤ pmtu) && decide (pmtu ≤ 5)
  let up := decide (cur = 2) || decide (cur = 3)
  let fixed := [RDMA.QP_DEST, RDMA.QP_SPSN, RDMA.QP_RPSN, RDMA.QP_RINGS, RDMA.QP_DMAC, RDMA.QP_DMAC.hi] ++
    (List.range 4).map RDMA.QP_DIP
  (decide (q < 2) && decide (new ≠ 0)) || !move || ((decide (new = 2) || decide (new = 3)) && decide (new ≠ cur) && !ready) ||
    (up && (fixed.any (fun r => s.qpChanges q r (2 ^ 32 - 1)) || s.qpChanges q RDMA.QP_CTL 0x3808))

/-- A commit of a queue pair takes effect (R344, R346, R358). Where its queue pair has left the state that the COMMIT found, for ERROR or
RESET, the state moves only by the table of R344 from where it is now (DEDUCED, log entry 154). -/
def qpCommitted (q : Nat) : Prog := get fun s =>
  let cur := (s.qp q).st
  let new := s.cfd (RDMA.QP_CTL.of q) 2 0
  let k := s.cfd (RDMA.QP_CC.of q) 3 1
  if new = 0 then doAll [dropQp q (fun _ _ => ST.QP_FLUSHED), modQp q fun _ => Qp.init]
  else if new = 4 then enterError q 0 none
  else Prog.when (decide (new = cur + 1)) (doAll [
    modQp q fun y => { y with st := new },
    Prog.when (decide (cur ≤ 1)) (modQp q fun y => { y with
      spsn := s.cfd (RDMA.QP_SPSN.of q) 23 0
      rpsn := s.cfd (RDMA.QP_RPSN.of q) 23 0 }),
    Prog.when (decide (cur = 2)) (modQp q fun y => { y with rate := min (s.rd (RDMA.CC_INIT k)) (s.qpSpeed q) })])

/-- The queue pairs of a function go to RESET with it (R143 step 7, R344). -/
def resetOwnerQps (f : Nat) : Prog := get fun s =>
  Prog.each (s.ctl.rdma.qps.filter fun e => decide (s.qpOwner e.1 = f) && decide (e.2.st ≠ 0)) fun e => doAll [
    dropQp e.1 (fun _ _ => ST.QP_FLUSHED), modQp e.1 fun _ => Qp.init]

end Sys2Proof.Machine
end

