-- ==== Sys2Proof/Machine/Confirm.lean ====
section
/-! DEFINITION. Confirming descriptors: which ring is served next (R169), the checks a descriptor passes before anything is
dispatched (R158, R161), and its dispatch (R165); the end of a function's reset; parity faults of the cipher (R430). -/

namespace Sys2Proof.Machine

/-! ## Checks at confirmation -/

/-- Checks of a NET_TX descriptor (R207): a header that the descriptor places, by a non-zero offset or by asking for its checksum or
naming its type, fits in LENGTH. A header of IPv6 takes 40 bytes, of IPv4 and TCP 20, of UDP 8. -/
def State.txCheck (s : State) (w : Work) : Nat :=
  let l3 := w.at 28 1 + (if tbit (w.at 30 1) 2 then 40 else 20)
  let l4t := w.at 30 1 % 4
  let l4 := w.at 29 1 + (if l4t = 1 then 20 else if l4t = 2 then 8 else 0)
  let has4 := w.flag 10 || decide (l4t ≠ 0) || decide (w.at 29 1 ≠ 0)
  let has3 := w.flag 9 || has4 || decide (w.at 28 1 ≠ 0)
  if w.typ ≠ 0x10 then ST.BAD_TYPE
  else if w.length < 14 ∨ 16124 < w.length then ST.BAD_LENGTH
  else if (w.flag 11 && !s.portEnabled (w.at 20 2 % 512)) || decide (l4t = 3)
    || (has3 && decide (w.length < l3)) || (has4 && decide (w.length < l4)) then ST.BAD_FIELD
  else ST.OK

/-- Checks of an RDMA_SQ work request (R161, R338, R347, R348): 0 to 2^31 bytes, an ATOMIC's 8; one whose context is poisoned completes so (R486). -/
def State.sqCheck (s : State) (w : Work) : Nat :=
  if !decide (w.typ ∈ [0x41, 0x43, 0x45, 0x46, 0x47, 0x48]) then ST.BAD_FIELD
  else if w.typ ≠ 0x48 ∧ 2 ^ 31 < w.length then ST.BAD_LENGTH
  else if (w.typ = 0x46 ∨ w.typ = 0x47) ∧ w.length ≠ 8 then ST.BAD_LENGTH
  else if s.qpBad w.qpn then ST.UNCORRECTABLE
  else if s.qpSq w.qpn ≠ w.ring then ST.BAD_FIELD
  else ST.OK

/-- Free places of an engine's work queue (R305). -/
def State.enginePlaces (s : State) (e : Nat) : Nat := 256 - (s.workQueue e).length

/-- The engine a FLOW descriptor goes to (R308): the one it names, or with ANY the one that takes work and has the most free
places, the lowest on a tie. -/
def State.flowTarget (s : State) (w : Work) : Option Nat :=
  if tbit (w.at 20 2) 15 then
    ((List.range 64).filter s.engineOk).foldl (fun best e => match best with
      | none => some e
      | some b => if s.enginePlaces b < s.enginePlaces e then some e else some b) none
  else if s.engineOk (w.at 20 2 % 64) then some (w.at 20 2 % 64) else none

/-- Checks of a FLOW descriptor (R308). -/
def State.flowCheck (s : State) (w : Work) : Nat :=
  if w.typ ≠ 0x71 then ST.BAD_TYPE
  else if 16384 < w.length then ST.BAD_LENGTH
  else if w.flag 0 || (s.flowTarget w).isNone then ST.BAD_FIELD
  else ST.OK

/-- Validation of a descriptor at its confirmation (R158, R161): OK, or the STATUS it completes with, which a poisoned context of its
ring decides first (R486). What a block command
refuses is checked when it starts (R373). -/
def State.descCheck (s : State) (w : Work) : Nat :=
  let c := s.ringConsumer w.ring
  if w.typ = 0 then ST.OK
  else if s.itemBad spRing 0 w.ring then ST.UNCORRECTABLE
  else if w.typ / 16 ≠ c then ST.BAD_TYPE
  else if c = 1 then s.txCheck w
  else if c = 2 then
    if w.typ ≠ 0x20 then ST.BAD_TYPE
    else if w.length < 256 ∨ 16384 < w.length then ST.BAD_LENGTH
    else if w.flag 0 then ST.BAD_FIELD else ST.OK
  else if c = 3 then (if w.typ ∈ [0x31, 0x32, 0x33, 0x34, 0x3E] then ST.OK else ST.BAD_TYPE)
  else if c = 4 then s.sqCheck w
  else if c = 5 then (if w.typ ≠ 0x51 then ST.BAD_TYPE else if w.length = 0 then ST.BAD_LENGTH else ST.OK)
  else if c = 6 then jobCheck w
  else s.flowCheck w

/-! ## The scheduler (R169) -/

/-- The work item that the head entry of a ring would become. -/
def State.headWork (s : State) (r : Nat) (b : List Byte) : Work where
  ring := r
  fn := s.ringOwner r
  cpl := s.ringCpl r
  srcNo := s.cfd (RING.CTX_LOCAL.of r) 11 0
  desc := b

/-- Whether a ring's head entry can be confirmed now (R165): it has arrived and its OWN bytes match, a completion slot can
be reserved, and its consumer has room. A FLOW descriptor needs a place in its engine's queue (R305). -/
def State.ringReady (s : State) (r : Nat) : Bool :=
  match s.headReady r with
  | none => false
  | some b =>
    let w := s.headWork r b
    s.cplRoom (s.ringCpl r) && s.consumerRoom r && !(s.fnSt w.fn).busy &&
      (match s.flowTarget w with
      | some e => !decide (w.typ = 0x71) || !decide (s.descCheck w = ST.OK) || decide (0 < s.enginePlaces e)
      | none => true)

/-- Ready rings, by ascending ring ID. -/
def State.readyRings (s : State) : List Nat :=
  (s.ctl.rings.rings.filter fun e => decide (e.1 < 65536) && s.ringReady e.1).map (·.1)

/-- The first of a list at or after `start`, else its least: the next in an order that wraps. -/
def nextFrom (start : Nat) (l : List Nat) : Option Nat :=
  match (l.filter fun x => decide (start ≤ x)).min? with
  | some x => some x
  | none => l.min?

/-- The choice of R169: the function served, whether its visit begins, the ring, and its place in the ring's turn. -/
def State.pickRing (s : State) : Option (Nat × Bool × Nat × Nat) :=
  let q := s.ctl.rings
  let ready := s.readyRings
  let fns := ready.map s.ringOwner
  let goesOn := q.visiting && decide (q.visit ∈ fns) && decide (0 < (s.fnSt q.visit).deficit)
  match if goesOn then some q.visit else nextFrom (if q.visiting then (q.visit + 1) % 2048 else q.visit) fns with
  | none => none
  | some f =>
    let mine := ready.filter fun r => decide (s.ringOwner r = f)
    let last := tget 0 q.lastRing f
    if goesOn ∧ q.turn < 16 ∧ 0 < last ∧ last - 1 ∈ mine then some (f, false, last - 1, q.turn + 1)
    else (nextFrom last mine).map fun r => (f, !goesOn, r, 1)

/-- The visit of a function begins: functions passed over lose their deficit, and its quantum is added to its own. -/
def beginVisit (f : Nat) : Prog := get fun s =>
  let q := s.ctl.rings
  let start := if q.visiting then (q.visit + 1) % 2048 else q.visit
  doAll [
    Prog.each (s.ctl.host.fns.map (·.1)) fun g =>
      Prog.when (decide ((g + 2048 - start) % 2048 < (f + 2048 - start) % 2048)) (modFn g fun x => { x with deficit := 0 }),
    modFn f fun x => { x with deficit := x.deficit + max 1 (s.cfd (FUNC.RING_WEIGHT.of f) 7 0) }]

/-! ## Confirmation -/

/-- A descriptor fails its validation or its scatter list: it completes with the STATUS, as its consumer's completions are (R158, R160,
R348, R350, R374). -/
def refuseWork (id st : Nat) : Prog := withWork id fun w => get fun s =>
  let c := s.ringConsumer w.ring
  if c = 4 ∧ w.typ ≠ 0 then failWr id st
  else if c = 3 ∧ w.typ ≠ 0 then blockFails id w st
  else complete id st 0

/-- Dispatch of a confirmed descriptor to its consumer: an invalid one completes, a scatter list is read, a source is
fetched, a FLOW item enters its engine's queue. A block command's list is read after its own checks (R373). -/
def dispatchWork (id : Nat) (w : Work) : Prog := get fun s =>
  let st := s.descCheck w
  if st ≠ ST.OK then refuseWork id st
  else if w.typ = 0x71 then
    match s.flowTarget w with
    | some e => setWorkQueue e (s.workQueue e ++ [.ring id])
    | none => .skip
  else if w.listed && decide (w.typ / 16 ≠ 3) then doAll [modWork id fun x => { x with stage := 1 }, readSgl id w 0]
  else fetchSource id

/-- SGL_ARRIVAL (R160): the next element of a work item's list; the list is complete at its LAST. -/
def execSglArrival (id : Nat) (s : State) : Res := live 4 (get fun s =>
  match s.gathered (sglPlace id) 16 with
  | none => .skip
  | some (st, b) => doAll [
      dropReads fun q => (sglPlace id q).isSome,
      withWork id fun w =>
        if st ≠ ST.OK then refuseWork id st else
        let e := (leAt b 0 8, leAt b 8 4)
        let l := w.sgl ++ [e]
        let total := (l.map (·.2)).sum
        let last := tbit (leAt b 12 4) 0
        if e.2 = 0 ∨ (last = false ∧ 64 ≤ l.length) ∨ (last = true ∧ total ≠ w.length) then refuseWork id ST.BAD_LENGTH
        else doAll [modWork id fun x => { x with sgl := l, stage := if last then 2 else 1 },
          if !last then readSgl id w l.length
          else if w.typ / 16 = 3 then blockReady id
          else fetchSource id]]) s

/-- The head entry of ring `r` is confirmed: a completion slot is reserved, the private head goes on, the work item exists. The scan
reads ahead again after it, as the pseudocode of R165 does; its worked example does not: DEDUCED (log entry 129). -/
def confirm (r : Nat) (b : List Byte) : Prog := get fun s =>
  let w := s.headWork r b
  let id := s.ctl.rings.nextWork
  let g := s.ring r
  let last := decide (g.head + 1 = s.ringSize r)
  doAll [
    traceConfirmed 0 2 r,
    modRing (s.ringCpl r) fun x => { x with resv := x.resv + 1 },
    modRing r fun x => { x with
      held := x.held.drop 1
      head := if last then 0 else x.head + 1
      pass := if last then x.pass + 1 else x.pass
      stalled := false },
    ctl fun c => { c with rings.works := c.rings.works ++ [(id, { w with res := if w.typ = 0x33 then c.blk.acks else 0 })] },
    ctl fun c => { c with rings.nextWork := id + 1 },
    dispatchWork id w, issueReads r, noteStalls (s.ringCpl r), peep 0 1 r,
    Prog.when (decide (s.ringConsumer r = 3)) (peep 6 0 (w.at 20 2))]

/-- DESCRIPTOR_CONFIRM (R165, R169): the scheduler confirms one head entry. -/
def execDescriptorConfirm (s : State) : Res := live 4 (get fun s =>
  match s.pickRing with
  | none => .skip
  | some (f, new, r, turn) =>
    match s.headReady r with
    | none => .skip
    | some b => doAll [
        Prog.when new (beginVisit f),
        modFn f fun x => { x with deficit := x.deficit - 1 },
        ctl fun c => { c with rings.visit := f },
        ctl fun c => { c with rings.visiting := true },
        ctl fun c => { c with rings.turn := turn },
        ctl fun c => { c with rings.lastRing := nset 0 c.rings.lastRing f (r + 1) },
        confirm r b]) s

/-! ## The end of a function's reset -/

/-- FUNCTION_RESET_DRAINED (R143 steps 2 to 8, R344, R391). -/
def execFunctionResetDrained (f : Fin 2048) (s : State) : Res := board (get fun s =>
  Prog.when ((s.fnSt f.val).busy && s.fnDrained f.val) 
    (finishReset f.val (doAll [resetOwnerQps f.val, blockReset f.val]))) s

/-! ## Parity faults of the cipher (R430) -/

/-- A frame leaves the device: what waits for its confirmation, and every copy that no MAC has begun to send. Its work item
completes once. -/
def abortFrame (id st : Nat) : Prog := get fun s =>
  let fs := s.ctl.net.frames.filter fun f => decide (f.id = id)
  let cs := s.copies.filter fun c => decide (c.frame = id)
  doAll [
    ctl fun c => { c with net.frames := c.net.frames.filter fun x => !decide (x.id = id) },
    Prog.each cs (fun c => doAll [unqueue c, dropCopy { c with work := none } st]),
    Prog.each (fs.filterMap (·.work) ++ cs.filterMap (·.work)).dedup fun w => doAll [
      ctl fun c => { c with net.copySets := nset ⟨1, false, none⟩ c.net.copySets w ⟨1, false, none⟩ }, complete w st 0]]

/-- The storage datapath meets a fault: the work runs again, and the 16th in a row stops it. -/
def storeFault : Prog := get fun s =>
  Prog.when (!s.storeError) (
    let n := s.fd CIPH.STORE_STATUS 4 1 + 1
    if n = 16 then doAll [wr CIPH.STORE_STATUS (1 + 2 * 15), int Pg.ciph 0 6]
    else wrF CIPH.STORE_STATUS 4 1 n)

/-- What a CIPHER job writes when nothing goes wrong (R426): where, and how many bytes. -/
def jobOutput (w : Work) : Nat × Nat :=
  if w.typ = 0x67 then (w.addr, w.length)
  else (w.jobDst, if w.typ = 0x61 then w.length - w.aadLen + 16 else if w.typ = 0x62 then w.length - w.aadLen - 16
    else if w.typ = 0x63 then 16 else if w.typ = 0x64 then 0 else w.length)

/-- A job that a parity fault ends has used its key, as it started (R432). -/
def jobStarts (w : Nat) (x : Work) (k : Prog) : Prog :=
  if x.typ = 0x67 then k
  else if x.typ = 0x65 ∨ x.typ = 0x66 then withJobKey w x [3] (x.length / max 1 x.duLen) fun _ => k
  else withJobKey w x [1, 2] 1 fun _ => k

/-- CIPHER_PARITY_FAULT (R430). What a job had written by then is at its destination; those bytes nobody may trust, and they are free. -/
def execCipherParityFault (c : CipherFault) (s : State) : Res := live 2 (get fun s =>
  let seen := doAll [inc CIPH.FAULT_CNT, int Pg.ciph 0 0]
  match c with
  | .frame id =>
    Prog.when ((s.ctl.net.frames.any fun f => decide (f.id = id)) || (s.copies.any fun k => decide (k.frame = id)))
      (doAll [seen, abortFrame id ST.ABORTED])
  | .job w written => withWork w fun x =>
      Prog.when (decide (0x61 ≤ x.typ) && decide (x.typ ≤ 0x67) && decide (3 ≤ x.stage)) (jobStarts w x (
        let n := min written (jobOutput x).2
        doAll [seen, freeBytes n fun b => completeWith w ST.CIPHER_FAULT n (if n = 0 then [] else [((jobOutput x).1, b)]) none []]))
  | .store => doAll [seen, storeFault]) s

end Sys2Proof.Machine
end

