-- ==== Sys2Proof/Machine/Health.lean ====
section
/-! DEFINITION. The record ring (R483 to R485), the life log (R487 to R491), thermal outputs (R512), the peephole's CNT_CLR
and JTAG (R496, R497). -/

namespace Sys2Proof.Machine

/-! ## The record ring -/

/-- Records not yet consumed (R485). -/
def State.unread (s : State) : Nat :=
  if s.bit ERR.REC_TAIL 8 then 256 else (s.fd ERR.REC_TAIL 7 0 + 256 - s.fd ERR.REC_HEAD 7 0) % 256

/-- REC_TAIL after `n` unread records end at `tail`. -/
def showTail (tail n : Nat) : Prog := wr ERR.REC_TAIL (tail % 256 + 256 * b2n (decide (n = 256)))

/-- ERROR_RECORD_WRITE (R483 to R485, R498): the recorder takes the oldest report of the intake. -/
def execErrorRecordWrite (s : State) : Res := board (get fun s =>
  match s.ctl.health.intake with
  | [] => .skip
  | r :: t =>
    let sev := s.fd (ERR.CLASS_CTL (r.code / 4096)) 2 1
    let i := s.fd ERR.REC_TAIL 7 0
    doAll [
      ctl fun c => { c with health := { c.health with intake := t } },
      if s.unread < 256 then doAll [
        putRecord (fun k => ERR.REC (8 * i + k)) (r.bytes sev),
        showTail (i + 1) (s.unread + 1), int Pg.err 0 sev]
      else doAll [loseReport r, int Pg.err 0 4]]) s

/-- REC_HEAD_WRITE (R485): accepted from the old head forward to the tail; any other value is WRONG_STATE. -/
def execRecHeadWrite (a : Accessor) (v : Word) (s : State) : Res := done (byWriter a Pg.err 0x40 (get fun s =>
  let new := v.toNat % 256
  let d := (new + 256 - s.fd ERR.REC_HEAD 7 0) % 256
  if d ≤ s.unread then doAll [wr ERR.REC_HEAD new, showTail (s.fd ERR.REC_TAIL 7 0) (s.unread - d)]
  else err Pg.err 0 EC.ACCESS RS.WRONG_STATE (bar0 Pg.err 0x40))) s

/-! ## The life log -/

/-- Life-log counter `i`. -/
def State.life (s : State) (i : Nat) : Nat := tget 0 s.ctl.health.life i

/-- Put a life-log counter. -/
def setLife (i v : Nat) : Prog := ctl fun c => { c with health := { c.health with life := nset 0 c.health.life i v } }

/-- A record of the life log without its CRC: bytes 0 to 4,091 (R490). -/
def lifeBody (seq : Nat) (cnt : Tbl Nat) : List Byte :=
  leBytes 4 0x474F4C4C ++ leBytes 4 seq ++ List.replicate 8 0 ++
    ((List.range 256).flatMap fun i => leBytes 8 (tget 0 cnt i)) ++ List.replicate 2028 0

/-- A whole record (R490). -/
def lifeRecord (seq : Nat) (cnt : Tbl Nat) : List Byte := lifeBody seq cnt ++ leBytes 4 (crc32c (lifeBody seq cnt))

/-- Flash address of record `i` of the life log. -/
def lifeAt (i : Nat) : Nat := 0x30000 + 4096 * i

/-- SEQ of record `i`, when it is valid (R490, R491). -/
def State.lifeSeq? (s : State) (i : Nat) : Option Nat :=
  let b := s.bytes 14 0 (lifeAt i) 4096
  if leAt b 0 4 = 0x474F4C4C ∧ leAt b 4092 4 = crc32c (b.take 4092) then some (leAt b 4 4) else none

/-- The valid records: number and SEQ. -/
def State.lifeRecords (s : State) : List (Nat × Nat) :=
  (s.usedEntries 14 0 0x30000 (208 * 4096) 4096).filterMap fun i => (s.lifeSeq? i).map fun q => (i, q)

/-- The newest valid record. -/
def State.lifeNewest (s : State) : Option (Nat × Nat) := firstBy (fun a b => decide (b.2 < a.2)) s.lifeRecords

/-- Show the state of the log in flash. -/
def showLife : Prog := get fun s => doAll [
  wr LIFE.LAST_SEQ ((s.lifeNewest.map (·.2)).getD 0), wr LIFE.RECORDS (s.lifeRecords.length % 256)]

/-- At power-on reset the counters load from the newest valid record (R491). -/
def loadLife : Prog := get fun s => doAll [
  match s.lifeNewest with
  | some (i, _) => Prog.each (List.range 256) fun k => setLife k (s.memNat 14 0 (lifeAt i + 16 + 8 * k) 8)
  | none => .skip,
  showLife]

/-- Erase flash: it lists nothing there any more. -/
def eraseFlash (unit a n : Nat) : Prog := get fun s =>
  Prog.each (s.usedEntries 14 unit a n 1) fun i => .memSet (memKey 14 unit (a + i)) 0

/-- A commit's write starts: the snapshot of all counters (R489). -/
def startLife : Prog := doAll [wrB LIFE.STATUS 1 false,
  ctl fun c => { c with health := { c.health with lifeSnap := c.health.life } }]

/-- The arbiter accepts a commit (R489, R402). -/
def lifeAccepted : Prog := get fun s => doAll [
  ctl fun c => { c with health := { c.health with lifeRetry := none } },
  wrB LIFE.STATUS 0 true, wrB LIFE.STATUS 1 s.guarded, nvStart .life startLife]

/-- The arbiter refuses it; it is tried again 60 s later (R489). -/
def lifeRefused : Prog := get fun s => doAll [
  ctl fun c => { c with health := { c.health with lifeRetry := some s.ctl.health.sysSec } },
  wr LIFE.STATUS (ST.CONFLICT * 2 ^ 16), int Pg.life 0 1]

/-- A commit that waits is abandoned: PF_STATE has left NORMAL (R489). -/
def lifeAborted : Prog := doAll [wr LIFE.STATUS (ST.ABORTED * 2 ^ 16), int Pg.life 0 1, mend MA.LIFE_COMMIT 0xFF]

/-- LIFE_COMMIT_PERIOD (R489): 86,400 s since the last commit, or 60 s since a refusal. -/
def execLifeCommitPeriod (s : State) : Res := live 4 (get fun s =>
  let ready := match s.ctl.health.lifeRetry with
    | some t => decide (t + 60 ≤ s.ctl.health.sysSec)
    | none => decide (86400 ≤ s.ctl.health.lifeSince)
  Prog.when (ready && !s.bit LIFE.STATUS 0) (doAll [wrB LIFE.STATUS 0 true, mstart MA.LIFE_COMMIT 0xFF .periodic 0])) s

/-- LIFE_COMMIT_REQUEST (R489, R499): from a control core while BUSY = 0; other writes are recorded. -/
def execLifeCommitRequest (a : Accessor) (v : Word) (s : State) : Res := done (byWriter a Pg.life 0x40 (get fun s =>
  if a.isPort || s.bit LIFE.STATUS 0 || !tbit v.toNat 0 then err Pg.life 0 EC.ACCESS RS.WRONG_STATE (bar0 Pg.life 0x40)
  else doAll [wrB LIFE.STATUS 0 true, mstart MA.LIFE_COMMIT 0xFF .register 0])) s

/-- LIFE_COMMIT_DONE (R489, R490): the record after the newest one is written, its sector erased before its first record. -/
def execLifeCommitDone (s : State) : Res := board (get fun s =>
  let i := match s.lifeNewest with
    | some (i, _) => (i + 1) % 208
    | none => 0
  let q := (((s.lifeNewest.map (·.2)).getD 0) + 1) % 2 ^ 32
  Prog.when (s.mrunning MA.LIFE_COMMIT 0xFF && !decide (NvWrite.life ∈ s.ctl.lsio.nvWait)) (doAll [
    Prog.when (decide (i % 16 = 0)) (doAll [eraseFlash 0 (lifeAt i) 65536, lifeAdd 9 1]),
    poke 14 0 (lifeAt i) (lifeRecord q s.ctl.health.lifeSnap),
    lifeAdd 8 1,
    ctl fun c => { c with health := { c.health with lifeSince := 0 } },
    wr LIFE.SINCE_S 0, showLife, wr LIFE.STATUS 0, int Pg.life 0 0, mend MA.LIFE_COMMIT 0xFF])) s

/-- Tj bin of a temperature in 1/16 °C (R488). -/
def tjBin (t : Int) : Nat := if t < 480 then 0 else min 15 ((t - 400) / 80).toNat

/-- Power bin (R488). -/
def pwrBin (w : Nat) : Nat := min 15 (w / 40)

/-- A 64-bit counter kept as two's complement, stepped by a signed amount within its range. -/
def addSigned (v : Nat) (d : Int) : Nat := ofSigned 64 (max (-(2 ^ 63)) (min (2 ^ 63 - 1) (toSigned 64 v + d)))

/-- The average temperature: TJ_SUM / POWER_ON_S (R488). -/
def State.tjAvg (s : State) : Int := toSigned 64 (s.life 11) / (max 1 (s.life 0) : Nat)

/-- LIFE_SAMPLE (R487, R488, R512): a second of the system clock, with Tj in 1/16 °C and the package power in W. -/
def execLifeSample (tj : BitVec 16) (watts : Nat) (s : State) : Res := board (get fun s =>
  let t := tj.toInt
  let lanes := (List.range 64).filter fun l => !decide (s.fd (LANE.LANE_CTL l) 1 0 = 0)
  let old := s.tjAvg
  doAll [
    ctl fun c => { c with health := { c.health with
      sysSec := c.health.sysSec + 1
      lifeSince := c.health.lifeSince + 1 } },
    wr LIFE.SINCE_S (s.ctl.health.lifeSince + 1),
    lifeAdd 0 1, setLife 10 (ofSigned 64 (max (toSigned 64 (s.life 10)) t)), setLife 11 (addSigned (s.life 11) t),
    Prog.when (decide (1360 < t)) (lifeAdd 12 1), Prog.when (decide (1680 < t)) (lifeAdd 13 1),
    lifeAdd (24 + s.pstate) 1, lifeAdd (32 + tjBin t) 1, lifeAdd (48 + pwrBin watts) 1,
    Prog.each lanes (fun l => lifeAdd (64 + l) 1),
    wr LIFE.TJ_NOW tj.toNat,
    get fun u => doAll [wr LIFE.TJ_AVG (ofSigned 16 u.tjAvg),
      Prog.when (decide (1360 < u.tjAvg) && !decide (1360 < old)) (int Pg.life 0 2)],
    let warm := if 1680 ≤ t then true else if t ≤ 1600 then false else s.ctl.boot.warm
    Prog.when (warm != s.ctl.boot.warm) (doAll [
      ctl fun c => { c with boot := { c.boot with warm := warm } }, emit (.pin 2 0 (!warm))])]) s

/-- THERMTRIP (R512): Tj has stayed at 115 °C or more for 1 ms; THERMTRIP_N is low until power-on reset. -/
def execThermtrip (s : State) : Res := done (get fun s =>
  Prog.when (s.ctl.boot.pwrok && !s.ctl.boot.tripped) (doAll [
    ctl fun c => { c with boot := { c.boot with tripped := true } }, emit (.pin 1 0 false)])) s

/-! ## Peephole and JTAG -/

/-- CNT_CLR (R496): clears every counter. -/
def execCntClr (a : Accessor) (v : Word) (s : State) : Res := done (byWriter a Pg.peep 0x100 (get fun s =>
  Prog.when (tbit v.toNat 0) (Prog.each (s.reg.filter fun e =>
    decide (e.1.bank = .live) && decide (e.1.page = Pg.peep) && decide (0x1000 ≤ e.1.off) && decide (e.1.off < 0x3000))
    fun e => .regSet e.1 0))) s

/-- The JTAG IDCODE (R3). -/
def State.idcode (s : State) : Nat := 1 + 0x3A5 * 2 + 0x4712 * 2 ^ 12 + s.fd CHIP.SILICON_REV 11 8 % 16 * 2 ^ 28

/-- JTAG_INSTRUCTION (R3, R497): 0 IDCODE, 1 BYPASS, 2 a boundary-scan instruction, 3 any other. What the TAP executes goes out:
20 IDCODE, 21 BYPASS, 22 boundary scan. -/
def execJtagInstruction (i : Fin 4) (s : State) : Res := done (get fun s =>
  let free_ := decide (s.fd FUSE.BOOT_CFG 9 8 = 0) && !s.bit FUSE.BOOT_CFG 6
  Prog.when s.ctl.boot.pwrok (
    if i.val = 0 then emit (.ctrlBus 20 0 (leBytes 4 s.idcode))
    else if i.val = 2 ∧ free_ = true then emit (.ctrlBus 22 0 [])
    else emit (.ctrlBus 21 0 []))) s

end Sys2Proof.Machine
end

