-- ==== Sys2Proof/Machine/Boot.lean ====
section
/-! DEFINITION. Resets and pins (R507 to R509), the boot ROM and its images (R446 to R457), fuses (R456 to R461). -/

namespace Sys2Proof.Machine

/-- Change the boot state. -/
def modBoot (f : BootSt → BootSt) : Prog := ctl fun c => { c with boot := f c.boot }

/-! ## Flash records -/

/-- A slot record (R453): MAGIC, SEQ, KIND, SLOT, SECVER, CRC-32C. -/
def slotRecord (seq kind slot secver : Nat) : List Byte :=
  let b := leBytes 4 0x544F4C53 ++ leBytes 4 seq ++ leBytes 1 kind ++ leBytes 1 slot ++ leBytes 2 0 ++ leBytes 4 secver ++
    List.replicate 44 0
  b ++ leBytes 4 (crc32c b)

/-- The slot records of a flash that are valid: number, SEQ, KIND, SLOT (R453). -/
def State.slotRecs (s : State) (u : Nat) : List (Nat × Nat × Nat × Nat) :=
  (s.usedEntries 14 u 0 0x10000 64).filterMap fun i =>
    let b := s.bytes 14 u (64 * i) 64
    if leAt b 0 4 = 0x544F4C53 ∧ leAt b 60 4 = crc32c (b.take 60) then some (i, leAt b 4 4, leAt b 8 1, leAt b 9 1) else none

/-- The newest slot record, of any KIND or of one. -/
def State.newestSlot (s : State) (u : Nat) (kind : Option Nat) : Option (Nat × Nat × Nat × Nat) :=
  firstBy (fun a b => decide (b.2.1 < a.2.1))
    ((s.slotRecs u).filter fun r => match kind with
      | some k => decide (r.2.2.1 = k)
      | none => true)

/-- Slot of the newest COMMIT, or A (R454). -/
def State.commitSlot (s : State) (u : Nat) : Nat := ((s.newestSlot u (some 1)).map (·.2.2.2)).getD 0 % 2

/-- MIN_VER from the newest valid record of the protected sector, 0 when there is none (R457). -/
def State.minVer (s : State) : Nat :=
  let l := (s.usedEntries 14 0 0x10000 0x10000 16).filterMap fun i =>
    let b := s.bytes 14 0 (0x10000 + 16 * i) 16
    if leAt b 0 4 = 0x5245564D ∧ leAt b 12 4 = crc32c (b.take 12) then some (leAt b 4 4, leAt b 8 1) else none
  ((firstBy (fun a b => decide (b.1 < a.1)) l).map (·.2)).getD 0

/-- OSPI_DONE (R457, R521): the flash is done. `data` is what a read returned, or what the bytes addressed in the flash hold
after a program or erase. MIN_VER is read after each write of the protected sector. -/
def execOspiDone (i : Fin 2) (data : List Byte) (s : State) : Res := board (get fun s =>
  let o := s.ospiOp i.val
  let c := o.cmd
  Prog.when (s.bit (LSIO.OSPI_STATUS i.val) 0 && !s.bit (LSIO.OSPI_STATUS i.val) 1) (
    match tget none s.ctl.lsio.ospiSt i.val with
    | some st => endOspi i.val st
    | none => doAll [
        Prog.when (decide (field c 23 22 = 0)) (
          let l := slice data 0 o.len
          Prog.each (List.range ((l.length + 3) / 4)) fun k =>
            wr (ospiBuf i.val k) (leVal (splice (leBytes 4 (s.rd (ospiBuf i.val k))) 0 ((l.drop (4 * k)).take 4)))),
        Prog.when (decide (field c 23 22 = 2) && decide (i.val = 0)) (doAll [
          poke 14 (b2n (tbit c 20)) o.addr data,
          get fun t => wr BOOT.MIN_VER (t.minVer % 256), showLife]),
        endOspi i.val ST.OK])) s

/-! ## Images -/

/-- Number of bytes of an image's header (R451). -/
def imgHeader : Nat := 8192

/-- The body of an image. -/
def imgBody (b : List Byte) : List Byte := slice b imgHeader (leAt b 16 4)

/-- The sections of a body: where each begins (R451); `n` bounds how many are looked at. -/
def sectionsOf (body : List Byte) : Nat → Nat → List Nat
  | 0, _ => []
  | n + 1, o => o :: sectionsOf body n (alignUp 64 (o + 64 + leAt body (o + 16) 4))

/-- Sections of an image. -/
def imgSections (b : List Byte) : List Nat := sectionsOf (imgBody b) (min (leAt b 20 4) (leAt b 16 4 / 64 + 1)) 0

/-- Whether a section is well formed and lies within the body, DDR5 and a program region (R332, R446, R452). No region is
configured yet: a flow program may reach what its 32-bit offset reaches of DDR5. -/
def State.sectionOk (s : State) (body : List Byte) (o : Nat) : Bool :=
  let len := leAt body (o + 16) 4
  let kind := leAt body (o + 6) 1
  let ddr := s.memGiB true * 2 ^ 30
  decide (o + 64 + len ≤ body.length) && decide (leAt body o 4 = 0x4752494D) && decide (leAt body (o + 4) 2 = 1) &&
  (if kind = 1 then decide (len = 65536)
   else if kind = 2 then decide (64 ≤ len) && decide (leAt body (o + 28) 4 % 8 = 0) &&
     decide (leAt body (o + 28) 4 + (len - 64) ≤ min ddr (2 ^ 32))
   else if kind = 3 then decide (leAt body (o + 8) 8 + len ≤ ddr)
   else false)

/-- The REASON with which an image is refused, 0 when it is accepted: the first check that fails (R452). -/
def State.imgReason (s : State) (b : List Byte) : Nat :=
  let k := leAt b 6 2
  let keys := slice b 96 97 ++ slice b 200 2592
  let signed := b.take 2792
  let body := imgBody b
  if b.length < imgHeader ∨ leAt b 0 4 ≠ 0x5A474849 ∨ leAt b 4 2 ≠ 1 then 1
  else if 3 < k ∨ s.bit FUSE.KEY_STATE k = false ∨
      slice (Config.digest 1 keys) 0 48 ≠ ((List.range 12).flatMap fun j => leBytes 4 (s.rd (FUSE.KEYHASH_W k j))) then 2
  else if s.bit FUSE.KEY_STATE (4 + k) then 3
  else if 128 < leAt b 8 4 ∨ leAt b 8 4 < s.fd FUSE.FUSE_VER 7 0 then 4
  else if Config.verifies 5 (slice b 96 97) (slice b 2792 96) (slice (Config.digest 1 signed) 0 48) = false then 5
  else if Config.verifies 6 (slice b 200 2592) (slice b 2888 4627) (slice (Config.digest 2 signed) 0 64) = false then 6
  else if 67100672 < leAt b 16 4 ∨ b.length < imgHeader + leAt b 16 4 ∨
      slice (Config.digest 2 body) 0 64 ≠ slice b 32 64 then 7
  else if (imgSections b).length ≠ leAt b 20 4 ∨ (imgSections b).all (s.sectionOk body) = false then 8
  else 0

/-! ## Attempts -/

/-- The source order of R448, with HOST and PEER removed where the fuses say so. -/
def State.bootOrder (s : State) (v : Nat) : List (Nat × Nat) :=
  let spi0 := (0, 2)
  let spi1 := (1, 2)
  let host := (2, 0)
  let peer := (3, 0)
  (([[spi0, spi1, host], [spi1, spi0, host], [spi0, spi1, peer, host], [peer, spi0, spi1, host], [host], [peer],
    [spi0, spi1], [spi0, spi1, peer]] : List (List (Nat × Nat))).getD v []).filter fun e =>
    !(decide (e.1 = 2) && s.bit FUSE.BOOT_CFG 4) && !(decide (e.1 = 3) && s.bit FUSE.BOOT_CFG 5)

/-- The first attempt of the order is a flash whose slots are now chosen: `a` first. -/
def takeSlots (u a : Nat) : Prog := modBoot fun b => { b with order := (u, a) :: (u, 1 - a) :: b.order.tail }

/-- The boot ROM writes TRIAL_RUN after the newest record (R454). -/
def writeTrial (u slot : Nat) : Prog := get fun s =>
  match s.newestSlot u none with
  | some (i, q, _, _) => poke 14 u (64 * ((i + 1) % 1024))
      (slotRecord ((q + 1) % 2 ^ 32) 3 slot (leAt (s.bytes 14 u (64 * i) 64) 12 4))
  | none => .skip

/-- TRIAL_FAILED (R454). -/
def trialFailed : Prog := doAll [wrB BOOT.STATE 11 true, lifeAdd 6 1, int Pg.boot 0 1]

/-- The next attempt of the order begins (R448, R449, R454). An order that is used up ends in HALTED. -/
def nextAttempt : Prog := get fun s =>
  match s.ctl.boot.order with
  | [] => doAll [wrF BOOT.STATE 2 0 3, ctl fun c => { c with host.retryEnded := true }]
  | (2, _) :: _ => doAll [wrF BOOT.STATE 2 0 1, ctl fun c => { c with host.retryEnded := true }]
  | (3, _) :: _ => sendMsg clsMgmt .imageAsk
  | (u, 2) :: _ =>
    match s.newestSlot u none with
    | none => takeSlots u 0
    | some (_, _, kind, slot) =>
      if kind = 1 then takeSlots u (slot % 2)
      else if kind = 2 then doAll [takeSlots u (slot % 2), nvStart (.trial (slot % 2)) (writeTrial u (slot % 2))]
      else if kind = 3 then doAll [takeSlots u (s.commitSlot u), trialFailed]
      else takeSlots u 0
  | _ :: _ => .skip

/-- The next free ATTEMPT register takes an attempt's end (R449); more than eight are not kept. -/
def logAttempt (src slot reason : Nat) : Prog := get fun s =>
  match (List.range 8).find? fun a => !s.bit (BOOT.ATTEMPT a) 3 with
  | some a => wr (BOOT.ATTEMPT a) (src + 4 * (slot % 2) + 8 + 256 * reason)
  | none => .skip

/-- What an attempt yields: the bytes of the image, or the REASON it fails with. -/
def State.attempt (s : State) (src slot : Nat) : Attempt → List Byte ⊕ Nat
  | .failed => .inr 1
  | .timeout => .inr 9
  | .peer b => .inl b
  | .read =>
    let sp := if src = 2 then 10 else 14
    let u := if src = 2 then 0 else src
    let base := if src = 2 then 0 else 0x100000 + slot * 0x4000000
    let n := imgHeader + min 67100672 (s.memNat sp u (base + 16) 4)
    .inl (s.bytes sp u base (if src = 2 then min n s.ctl.boot.hostLen else n))

/-- A TRIAL_RUN record that the guard has held for 100 ms is given up: the newest COMMIT's slot is tried first (R454). -/
def giveUpTrial : Prog := get fun s =>
  Prog.when (s.ctl.lsio.nvWait.any fun x => match x with | .trial _ => true | _ => false) (doAll [
    modLsio fun x => { x with nvWait := x.nvWait.filter fun y => match y with | .trial _ => false | _ => true },
    match s.ctl.boot.order with
    | (u, _) :: _ :: t => modBoot fun b => { b with order := (u, s.commitSlot u) :: (u, 1 - s.commitSlot u) :: t }
    | _ => .skip])

/-- An attempt ends with an image that is accepted, or refused for a REASON (R449, R450). -/
def endAttempt (src slot : Nat) (r : List Byte ⊕ Nat) : Prog := get fun s =>
  let reason := match r with
    | .inl b => s.imgReason b
    | .inr n => n
  doAll [
    logAttempt src slot reason,
    modBoot fun b => { b with verifying := false },
    if reason = 0 then
      modBoot fun b => { b with image := some (src, slot, match r with | .inl l => l | .inr _ => []) }
    else if src = 2 then int Pg.boot 0 0
    else doAll [modBoot fun b => { b with order := b.order.tail }, nextAttempt]]

/-- IMAGE_ATTEMPT_END (R449, R450, R452). -/
def execImageAttemptEnd (e : Attempt) (s : State) : Res := live 4 (doAll [giveUpTrial, get fun s =>
  let st := s.fd BOOT.STATE 2 0
  match s.ctl.boot.order, e with
  | (3, _) :: _, .read => .skip
  | (src, slot) :: _, e =>
    -- an image of the peer comes of its source only, and HOST waits without a time limit (R449)
    let fits := match e with | .peer _ => decide (src = 3) | .timeout => decide (src ≠ 2) | _ => true
    Prog.when (fits && s.ctl.boot.image.isNone &&
        ((decide (st = 0) && decide (src ≠ 2)) || (decide (st = 1) && s.ctl.boot.verifying)))
      (endAttempt src slot (s.attempt src slot e))
  | [], _ => .skip]) s

/-- HOST_GO (R450): in WAIT_HOST, verification of the HOST_LEN bytes of BOOT_IMAGE that it names starts. -/
def execHostGo (a : Accessor) (v : Word) (s : State) : Res := done (byWriter a Pg.boot 0x44 (get fun s =>
  Prog.when (tbit v.toNat 1 && decide (s.fd BOOT.STATE 2 0 = 1) && s.ctl.boot.image.isNone)
    (modBoot fun b => { b with verifying := true, hostLen := s.fd BOOT.HOST_LEN 26 0 }))) s

/-- CFG_READY (R447): from a control core. -/
def execCfgReady (a : Accessor) (v : Word) (s : State) : Res := done (byWriter a Pg.boot 0x44 (
  Prog.when (tbit v.toNat 0 && !a.isPort) (ctl fun c => { c with host.retryEnded := true }))) s

/-- Load a control store: the engine keeps its error state when the CRC differs (R330). -/
def loadStore (e crc : Nat) (l : List Byte) : Prog := doAll [
  poke 3 e 0 l, cleanse 3 e 0 l.length, wr (FLOW.CS_CRC.of e) crc, Prog.when (decide (crc32c l ≠ crc)) (engineError e)]

/-- Load a flow program: its entry table, and its instructions at LOAD_OFF of the region (R330, R332). -/
def loadProgram (e off : Nat) (l : List Byte) : Prog := get fun s => doAll [
  Prog.each (List.range 16) (fun k => doAll [
    setCopy .staged ((FLOW.ENTRY k).of e) (leAt l (4 * k) 4), setCopy .committed ((FLOW.ENTRY k).of e) (leAt l (4 * k) 4)]),
  poke 2 0 (s.cfgW (FLOW.PROG_BASE.of e) + off) (l.drop 64), cleanse 2 0 (s.cfgW (FLOW.PROG_BASE.of e) + off) (l.length - 64)]

/-- Load one section (R330, R446 step 4). -/
def loadSection (body : List Byte) (o : Nat) : Prog :=
  let l := slice body (o + 64) (leAt body (o + 16) 4)
  let kind := leAt body (o + 6) 1
  let engines := (List.range 64).filter fun e => tbit (leAt body (o + 8) 8) e
  if kind = 3 then doAll [poke 2 0 (leAt body (o + 8) 8) l, cleanse 2 0 (leAt body (o + 8) 8) l.length]
  else Prog.each engines fun e => if kind = 1 then loadStore e (leAt body (o + 20) 4) l else loadProgram e (leAt body (o + 28) 4) l

/-- IMAGE_LOAD_DONE (R446 steps 4 and 5): the image is loaded, core 0 jumps to ENTRY, STATE becomes RUNNING. `us` is the time
from the rise of SYS_RST_N. -/
def execImageLoadDone (us : Word) (s : State) : Res := live 4 (get fun s =>
  match s.ctl.boot.image with
  | some (src, slot, b) => Prog.when (decide (s.fd BOOT.STATE 2 0 < 2)) (doAll [
      Prog.each (imgSections b) (loadSection (imgBody b)),
      wrF BOOT.STATE 9 8 src, wrF BOOT.STATE 10 10 slot, wrF BOOT.STATE 2 0 2,
      wr BOOT.IMG_SECVER (leAt b 8 4), wr BOOT.IMG_BUILD (leAt b 12 4), wr BOOT.IMG_KEY (leAt b 6 2),
      wr BOOT.BOOT_TIME us.toNat, lifeAdd 5 1,
      wrF (CORE.CORE_STATUS.of 0) 1 0 1, emit (.ctrlBus 0 0 (leBytes 8 (leAt b 24 8)))])
  | none => .skip) s

/-- The image this unit runs goes to the peer (R449). -/
def sendImage : Prog := get fun s => match s.ctl.boot.image with
  | some (_, _, b) => Prog.when (decide (s.fd BOOT.STATE 2 0 = 2)) (sendMsg clsMgmt (.image b))
  | none => .skip

/-- PEER_IMAGE_REQUEST_RX (R449, R463, R464): a message of the MGMT stream, acknowledged. The table gives it no field: it is the one
expected, at this unit's epoch (log entry 159). -/
def execPeerImageRequestRx (s : State) : Res := live 4 (get fun s => Prog.when s.pairUp (
  let take := rxReliable clsMgmt (s.stream clsMgmt).expect (fun _ => false) sendImage
  if s.pairEn then epochCheck (s.rd PAIR.EPOCH) take else take)) s

/-! ## Resets and pins -/

/-- Whether a register holds fuses. -/
def isFuse (k : RKey) : Bool := decide (k.bank = .live) && decide (k.page = 6) && decide (0x40 ≤ k.off) && decide (k.off < 0x140)

/-- Device reset (R7, R11, R85, R89, R413, R438): everything returns to its reset value but the fuses, the boot flashes, what
the SSDs keep, the levels at the pins, and the model's own counters and outputs. -/
def deviceReset : Prog := get fun s => doAll [
  Prog.each (s.reg.filter fun e => !isFuse e.1) (fun e => .regSet e.1 e.1.reset),
  Prog.each (s.mem.filter fun c => !(decide (memKey 14 0 0 ≤ c.1) && decide (c.1 < memKey 15 0 0))) (fun c => .memSet c.1 0),
  ctl fun c => { Ctl.reset with
    free := c.free
    answer := c.answer
    out := c.out
    host := { Ctl.reset.host with perst := c.host.perst }
    boot := { Ctl.reset.boot with
      pwrok := c.boot.pwrok
      sysRst := false
      order := []
      tripped := c.boot.tripped
      pfailLow := c.boot.pfailLow }
    blk := { Ctl.reset.blk with
      lastDump := c.blk.lastDump
      unrestored := c.blk.unrestored
      stale := c.blk.stale }
    lsio := { Ctl.reset.lsio with
      levels := c.lsio.levels
      progress := c.lsio.progress } },
  wrB SUPPLY.GUARD_STATUS 16 s.ctl.boot.pfailLow]

/-- Step 3 of R507: core 0 runs the ROM, the straps are sampled, DDR5 and HBM trained, interrupted activities registered (R95, R417),
and the boot ROM begins its first attempt (R446 to R448). HBM_STATUS[1:0] shows how many stacks trained, and [31:16] 24 GiB for each:
the spec does not say whether 'stacks trained' is a count or a bit per stack (DEDUCED, log entry 25). -/
def startBoot (p : BootPins) : Prog := get fun s =>
  let fuse := s.bit FUSE.BOOT_CFG 0
  let v := if fuse then s.fd FUSE.BOOT_CFG 3 1 else p.src.val
  doAll [
    modBoot fun b => { b with sysRst := true, order := s.bootOrder v }, wrF (CORE.CORE_STATUS.of 0) 1 0 1,
    Prog.each [0, 1] (fun h => doAll [
      wrB (HOST.LINK_CFG h) 0 (tbit p.bifurc.val h),
      ctl fun c => { c with host.formed2 := fset c.host.formed2 h (tbit p.bifurc.val h) }]),
    wr MEM.DDR_STATUS (p.channels.toNat + 256 * p.trained.toNat + 65536 * p.ddrGiB.toNat),
    wr MEM.HBM_STATUS (p.hbm.val + 65536 * (24 * p.hbm.val)),
    wrF BOOT.STATE 6 4 v, wrB BOOT.STATE 7 fuse, wr BOOT.MIN_VER (s.minVer % 256),
    resumeActs, nextAttempt]

/-- PWROK_RISE (R11, R491, R507 step 2): power-on reset. -/
def execPwrokRise (s : State) : Res := done (get fun s =>
  Prog.when (!s.ctl.boot.pwrok) (doAll [
    Prog.when s.ctl.boot.tripped (emit (.pin 1 0 true)),
    modBoot fun b => { b with pwrok := true, tripped := false },
    loadLife, lifeAdd 1 1])) s

/-- PWROK_FALL (R505, R508): back to reset, whatever the device is doing. -/
def execPwrokFall (s : State) : Res := done (get fun s =>
  Prog.when s.ctl.boot.pwrok (doAll [deviceReset, modBoot fun b => { b with pwrok := false }])) s

/-- SYS_RST_N low: device reset, without sensing the fuses again (R507). -/
def sysReset : Prog := doAll [deviceReset, loadLife, lifeAdd 2 1]

/-- SYS_RST_N_FALL (R507, R508): a dump under way defers the reset. -/
def execSysRstNFall (s : State) : Res := done (get fun s =>
  Prog.when (s.ctl.boot.pwrok && s.ctl.boot.sysRst) (
    if s.pf = 1 then modBoot fun b => { b with rstWaits := true, rose := none } else sysReset)) s

/-- SYS_RST_N_RISE (R507 step 3). -/
def execSysRstNRise (p : BootPins) (s : State) : Res := done (get fun s =>
  if s.ctl.boot.rstWaits then modBoot fun b => { b with rose := some p }
  else Prog.when (s.ctl.boot.pwrok && !s.ctl.boot.sysRst) (startBoot p)) s

/-- A reset that a dump has deferred happens (R508). -/
def deferredReset : Prog := get fun s =>
  Prog.when s.ctl.boot.rstWaits (doAll [sysReset,
    match s.ctl.boot.rose with
    | some p => startBoot p
    | none => .skip])

/-- PERST_N_RISE (R502, R507 step 4): pin [k] of a port. The links form as BIFURC says at the rise of pin 0 (R101). -/
def execPerstNRise (l : Fin 4) (s : State) : Res := done (get fun s => doAll [
  ctl fun c => { c with host.perst := fset c.host.perst l.val true },
  Prog.when (s.ctl.boot.pwrok && s.ctl.boot.sysRst && decide (l.val % 2 = 0)) (ctl fun c => { c with
    host.formed2 := fset c.host.formed2 (l.val / 2) (s.bit (HOST.LINK_CFG (l.val / 2)) 0) })]) s

/-- PERST_N_FALL (R129, R143, R502): the link goes down without a shutter and its functions are reset. In x16 mode pin 1 is
ignored. -/
def execPerstNFall (l : Fin 4) (s : State) : Res := done (get fun s => doAll [
  ctl fun c => { c with host.perst := fset c.host.perst l.val false },
  Prog.when (s.ctl.boot.pwrok && s.ctl.boot.sysRst && s.linkFormed l.val) (
    if s.linkUp l.val then linkDown l.val true else portReset l.val)]) s

/-! ## Fuses -/

/-- Operation codes of BURN_CTL (R458, R459) with their arguments: OP, key, ORDER. -/
def burnRef (v : Nat) : Nat := field v 2 0 + 8 * field v 5 4 + 64 * field v 10 8

/-- A fuse operation ends: BUSY clears, STATUS, INT_STAT.BURN_DONE. -/
def endBurn (st : Nat) : Prog := doAll [
  wrB FUSE.BURN_STATUS 0 false, wrF FUSE.BURN_STATUS 31 16 st, int Pg.fuse 0 0]

/-- Bits an operation burns: kind 0 the version counter, 1 + k KEYHASHk, 5 revoke, 6 ORDER_LOCK and ORDER. -/
def State.burnBits (s : State) (ref : Nat) : List (Nat × Nat) :=
  let op := ref % 8
  let k := ref / 8 % 4
  if op = 1 then (List.range (s.fd BOOT.MIN_VER 7 0 - s.fd FUSE.FUSE_VER 7 0)).map fun i => (0, s.fd FUSE.FUSE_VER 7 0 + i)
  else if op = 2 then ((List.range 384).filter fun i => s.bit (FUSE.KH_IN (i / 32)) (i % 32)).map fun i => (1 + k, i)
  else if op = 3 then [(5, k)]
  else ((6, 0) :: ((List.range 3).filter fun i => tbit (ref / 64) i).map fun i => (6, 1 + i)).filter fun b => !s.bit FUSE.BOOT_CFG b.2

/-- One fuse bit is burned. -/
def burnBit (b : Nat × Nat) : Prog := get fun s => doAll [
  if b.1 = 0 then wr FUSE.FUSE_VER (s.fd FUSE.FUSE_VER 7 0 + 1)
  else if b.1 ≤ 4 then doAll [wrB (FUSE.KEYHASH_W (b.1 - 1) (b.2 / 32)) (b.2 % 32) true, wrB FUSE.KEY_STATE (b.1 - 1) true]
  else if b.1 = 5 then wrB FUSE.KEY_STATE (4 + b.2) true
  else wrB FUSE.BOOT_CFG b.2 true,
  lifeAdd 7 1]

/-- The next bit starts, under the guard (R402, R458); with none left the operation and its activity end. -/
def nextBit : Prog := get fun s =>
  if s.ctl.boot.burning.isEmpty then doAll [endBurn ST.OK, mend MA.FUSE_BURN 0xFF]
  else if s.pf ≠ 0 then doAll [modBoot fun b => { b with burning := [] }, endBurn ST.ABORTED, mend MA.FUSE_BURN 0xFF]
  else nvStart .fuse .skip

/-- The arbiter accepts FUSE_BURN. -/
def fuseAccepted (ref : Nat) : Prog := get fun s => doAll [modBoot fun b => { b with burning := s.burnBits ref }, nextBit]

/-- The arbiter refuses it (R458). -/
def fuseRefused : Prog := endBurn ST.CONFLICT

/-- A write of BURN_CTL with GO (R458, R459): `bad` completes it with BAD_FIELD, `idle` with OK and nothing burned. -/
def burnCtl (a : Accessor) (op : Nat) (v : Word) (bad idle : State → Bool) : Prog := byWriter a Pg.fuse 0x170 (get fun s =>
  if a.isPort then
    if tbit v.toNat 31 then doAll [wrF FUSE.BURN_STATUS 31 16 ST.ACCESS_DENIED, int Pg.fuse 0 0]
    else wr FUSE.BURN_CTL (v.toNat % 2 ^ 31)
  else doAll [
    wr FUSE.BURN_CTL (v.toNat % 2 ^ 31),
    Prog.when (tbit v.toNat 31 && decide (field v.toNat 2 0 = op) && !s.bit FUSE.BURN_STATUS 0) (
      if idle s then doAll [wr FUSE.BURN_STATUS 0, endBurn ST.OK]
      else if bad s then doAll [wr FUSE.BURN_STATUS 0, endBurn ST.BAD_FIELD]
      else doAll [wr FUSE.BURN_STATUS 1, mstart MA.FUSE_BURN 0xFF .register (burnRef v.toNat)])])

/-- VERSION_COMMIT (R458). -/
def execVersionCommit (a : Accessor) (v : Word) (s : State) : Res := done (burnCtl a 1 v
  (fun s => decide (s.rd BOOT.IMG_SECVER < s.fd BOOT.MIN_VER 7 0) || decide (128 < s.fd BOOT.MIN_VER 7 0))
  (fun s => decide (s.fd BOOT.MIN_VER 7 0 ≤ s.fd FUSE.FUSE_VER 7 0))) s

/-- PROG_KEY (R459). -/
def execProgKey (a : Accessor) (v : Word) (s : State) : Res := done (burnCtl a 2 v
  (fun s => s.bit FUSE.KEY_STATE (field v.toNat 5 4)) (fun _ => false)) s

/-- REVOKE (R459): a programmed, unrevoked key must remain. -/
def execRevoke (a : Accessor) (v : Word) (s : State) : Res := done (burnCtl a 3 v
  (fun s => !((List.range 4).any fun k => decide (k ≠ field v.toNat 5 4) && s.bit FUSE.KEY_STATE k && !s.bit FUSE.KEY_STATE (4 + k)))
  (fun _ => false)) s

/-- LOCK_ORDER (R459). -/
def execLockOrder (a : Accessor) (v : Word) (s : State) : Res := done (burnCtl a 4 v (fun _ => false) (fun _ => false)) s

/-- FUSE_BIT_BURNED (R458): the bit in progress is burned; the next one follows, or the end. -/
def execFuseBitBurned (s : State) : Res := board (get fun s =>
  match s.ctl.boot.burning with
  | b :: t => Prog.when (!decide (NvWrite.fuse ∈ s.ctl.lsio.nvWait)) (doAll [
      burnBit b, modBoot fun x => { x with burning := t },
      wrF FUSE.BURN_STATUS 15 8 (s.fd FUSE.BURN_STATUS 15 8 + 1), nextBit])
  | [] => .skip) s

end Sys2Proof.Machine
end

