-- ==== Sys2Proof/Machine/Supply.lean ====
section
/-! DEFINITION. Supply monitors and the guard (R401, R402), PFAIL_N and the hold-up dump (R404 to R412), the dump-rate
measurement (R406 to R408). -/

namespace Sys2Proof.Machine

/-! ## The guard -/

/-- Monitors tripped, GUARD_STATUS[15:8]. -/
def State.tripped (s : State) : Nat := s.fd SUPPLY.GUARD_STATUS 15 8

/-- The guard sets (R401): counted once while it stays set. -/
def setGuard : Prog := get fun s => Prog.when (!s.guarded) (doAll [
  wrB SUPPLY.GUARD_STATUS 0 true, inc SUPPLY.GUARD_TRIP_CNT, lifeAdd 4 1, int Pg.supply 0 0])

/-- A write that waited starts (R402). -/
def releaseNv : NvWrite → Prog
  | .progress i phase => writeProgress i phase
  | .ospi u => ospiReleased u
  | .fuse => .skip
  | .life => startLife
  | .trial slot => get fun s => match s.ctl.boot.order with
    | (u, _) :: _ => writeTrial u slot
    | [] => .skip

/-- A write that waits is abandoned, with its chapter's consequence (R402, R458, R489, R521). -/
def abandonNv : NvWrite → Prog
  | .progress _ _ => .skip
  | .ospi u => endOspi u ST.ABORTED
  | .fuse => doAll [modBoot fun b => { b with burning := [] }, endBurn ST.ABORTED, mend MA.FUSE_BURN 0xFF]
  | .life => lifeAborted
  | .trial _ => .skip

/-- Every waiting write leaves the queue, oldest first. -/
def takeNv (f : NvWrite → Prog) : Prog := get fun s => doAll [
  modLsio fun x => { x with nvWait := [] }, Prog.each s.ctl.lsio.nvWait f]

/-- The guard clears once no monitor is tripped and PF_STATE is NORMAL (R401, R402). -/
def clearGuard : Prog := get fun s => Prog.when (s.guarded && decide (s.tripped = 0) && decide (s.pf = 0)) (doAll [
  wrB SUPPLY.GUARD_STATUS 0 false, int Pg.supply 0 1, takeNv releaseNv])

/-- Tripped monitor threshold of a rail. -/
def State.guardMv (s : State) (m : Nat) : Nat := s.cfd (SUPPLY.MON_CFG m) 11 0

/-- MONITOR_TRIP (R401): three samples in a row below GUARD_MV; `mv` is the lowest and last. -/
def execMonitorTrip (m : Fin 8) (mv : Fin 4096) (s : State) : Res := board (get fun s =>
  Prog.when (decide (mv.val < s.guardMv m.val)) (doAll [
    wrB (SUPPLY.MON_STATUS m.val) 17 true,
    wr (SUPPLY.MON_MIN m.val) (min mv.val (s.rd (SUPPLY.MON_MIN m.val))),
    wrB SUPPLY.GUARD_STATUS (8 + m.val) true, setGuard])) s

/-- MONITOR_CLEAR (R401, R402): the samples have stayed at or above GUARD_MV + HYST_MV for CLEAR_MS;
`mv` is the lowest and last. -/
def execMonitorClear (m : Fin 8) (mv : Fin 4096) (s : State) : Res := board (get fun s =>
  Prog.when (tbit s.tripped m.val && decide (s.guardMv m.val + s.cfd (SUPPLY.MON_CFG m.val) 23 16 ≤ mv.val)) (doAll [
    wrB (SUPPLY.MON_STATUS m.val) 17 false,
    wr (SUPPLY.MON_MIN m.val) (min mv.val (s.rd (SUPPLY.MON_MIN m.val))),
    wrB SUPPLY.GUARD_STATUS (8 + m.val) false, clearGuard])) s

/-! ## The hold-up dump -/

/-- The SSDs of the dump mask (R408). -/
def State.dumpSsds (s : State) : List Nat := (List.range 16).filter fun i => s.bit SUPPLY.DUMP_MASK i

/-- Data of a record that the back-end has not released, in volume order. -/
def State.recData (s : State) (q : Nat) : List Byte :=
  (s.ctl.blk.pieces.filter fun p => decide (p.seq = q)).flatMap fun p => p.data.getD []

/-- Bytes of a batch (R410). -/
def batchBytes : Nat := 0x4000000

/-- Insert a record where its staging sequence belongs. -/
def intoStaging (r : Staged) : List Staged → List Staged
  | [] => [r]
  | x :: t => if r.seq < x.seq then r :: x :: t else x :: intoStaging r t

/-- The records in staging order (R409 step 4). -/
def State.dumpRecs (s : State) : List Staged := s.ctl.blk.recs.foldl (fun l r => intoStaging r l) []

/-- The records in staging order with the batch in which the last data byte of each lies (R409, R410). -/
def State.dumpPlan (s : State) : List (Nat × Nat) :=
  (s.dumpRecs.foldl (fun (a : Nat × List (Nat × Nat)) r =>
    let e := a.1 + (s.recData r.seq).length
    (e, a.2 ++ [(r.seq, (e - 1) / batchBytes)])) (0, [])).2

/-- The batches: each the records that end in it. -/
def State.dumpBatches (s : State) : List (List Nat) :=
  let p := s.dumpPlan
  (List.range (p.foldl (fun m e => max m (e.2 + 1)) 0)).map fun b => (p.filter fun e => decide (e.2 = b)).map (·.1)

/-- The staged data, in staging order (R409 step 4, R411). -/
def State.dumpData (s : State) : List Byte := s.dumpRecs.flatMap fun r => s.recData r.seq

/-- Pieces of 1 MiB that a dump's data take on each SSD. -/
def DumpSt.rows (d : DumpSt) (ssds : Nat) : Nat := ceilDiv (ceilDiv d.data.length 0x100000) (max 1 ssds)

/-- The first block that a record block or a closing block may take: past the data in the dump area; which one, the spec leaves open
(log entry 163). -/
def State.dumpSpare (s : State) (d : DumpSt) (v : Nat) : Nat :=
  let used := 256 * d.rows s.dumpSsds.length
  s.rdW SUPPLY.DUMP_LBA % 2 ^ 48 + used + v % max 1 (s.fd SUPPLY.DUMP_AREA_MIB 15 0 * 256 - used)

/-- The record block of batch `b` (R410, R411): the dump's ID, the batch's number and the staging records of every write whose last byte
lies in that batch or an earlier one, and a CRC-32C over them. The layout of what it covers is free. -/
def DumpSt.block (d : DumpSt) (b : Nat) : List Byte :=
  let ends := (d.batches.take (b + 1)).flatten
  let body := Config.layout 6 (d.id :: b :: (d.recs.filter fun r => decide (r.seq ∈ ends)).flatMap fun r =>
    [r.seq, r.vol, r.lba, r.len, r.tag, b2n r.zero])
  body ++ leBytes 4 (crc32c body)

/-- Issue the pieces of batch `b` that lie on an SSD, and its copy of the record block on the two lowest SSDs (R410): 1 MiB
pieces round robin from DUMP_LBA. -/
def dumpPieces (b i : Nat) : Prog := get fun s =>
  let l := s.dumpSsds
  match s.ctl.blk.dump with
  | none => .skip
  | some d =>
    let data := slice d.data (b * batchBytes) (min batchBytes (d.data.length - b * batchBytes))
    doAll [
      Prog.each (List.range (ceilDiv data.length 0x100000)) (fun j =>
        let k := 64 * b + j
        Prog.when (decide (l[k % max 1 l.length]? = some i))
          (nvme i 2 (s.rdW SUPPLY.DUMP_LBA % 2 ^ 48 + k / max 1 l.length * 256) 256 (slice data (0x100000 * j) 0x100000) (.dump b false))),
      Prog.when (decide (i ∈ l.take 2)) (fresh fun v =>
        nvme i 2 (s.dumpSpare d v) (max 1 (ceilDiv (d.block b).length 4096)) (d.block b) (.dump b true))]

/-- The closing block goes to the two lowest SSDs (R409 step 5). -/
def dumpClose : Prog := get fun s =>
  match s.ctl.blk.dump with
  | none => .skip
  | some d => doAll [
      modBlk fun b => { b with dump := some { d with closing := true } },
      Prog.each (s.dumpSsds.take 2) fun i => fresh fun v => nvme i 2 (s.dumpSpare d v) 1 (Config.layout 7 [d.id, d.batches.length]) .closing]

/-- The dump's next batch begins on every SSD that writes, or the closing block follows the last one. -/
def dumpNext : Prog := get fun s =>
  match s.ctl.blk.dump with
  | none => .skip
  | some d =>
    if d.closing then .skip
    else if d.next < d.batches.length then Prog.each d.started (dumpPieces d.next)
    else Prog.when (decide (d.started.length = s.dumpSsds.length)) dumpClose

/-- PFAIL_N_FALL (R18, R402, R404, R409 steps 1 and 2, R416): PF_STATE leaves NORMAL and the guard sets; what waits under it
is abandoned. A unit that dumps (DUMP_CTL.EN), and whose REBUILD has ended, begins its dump. -/
def execPfailNFall (s : State) : Res := board (get fun s => doAll [
  modBoot fun b => { b with pfailLow := true },
  wrB SUPPLY.GUARD_STATUS 16 true,
  Prog.when (decide (s.pf = 0)) (doAll [
    wrF SUPPLY.PF_STATE 1 0 1, setGuard, int Pg.supply 0 2, lifeAdd 3 1, takeNv abandonNv,
    get fun t => Prog.when (t.bit SUPPLY.DUMP_CTL 0 && t.ctl.blk.rebuilt && !t.ctl.blk.unrestored && !t.bit MAP.REBUILD_STATUS 8)
      (modBlk fun b => { b with dump := some ⟨b.lastDump + 1, [], [], [], [], 0, 0, false⟩ })])]) s

/-- PFAIL_GLITCH (R404). -/
def execPfailGlitch (s : State) : Res := board (inc SUPPLY.PFAIL_GLITCH_CNT) s

/-- The dump as its first write finds what is staged: from then on its areas hold a dump that is not restored (R406, R409). -/
def planDump (d : DumpSt) : Prog := get fun s => Prog.when d.started.isEmpty (
  modBlk fun b => { b with
    dump := some { d with batches := s.dumpBatches, recs := s.dumpRecs, data := s.dumpData }
    lastDump := d.id
    unrestored := true })

/-- DUMP_WRITE_START (R409 step 3): an SSD's outstanding commands have completed, or 1 ms has passed and they are disregarded. -/
def execDumpWriteStart (i : Fin 16) (s : State) : Res := board (get fun s =>
  match s.ctl.blk.dump with
  | none => .skip
  | some d =>
    Prog.when (decide (s.pf = 1) && s.bit SUPPLY.DUMP_MASK i.val && !decide (i.val ∈ d.started)) (doAll [
      planDump d,
      modBlk fun b => { b with
        cmds := b.cmds.filter fun c => !decide (c.ssd = i.val)
        dump := b.dump.map fun x => { x with started := x.started ++ [i.val] } },
      get fun t => match t.ctl.blk.dump with
        | some x => if x.next < x.batches.length then dumpPieces x.next i.val else dumpNext
        | none => .skip])) s

/-- DUMP_BATCH_DURABLE (R409 step 4, R410): the data writes of the batch and a copy of its record block are done. -/
def execDumpBatchDurable (s : State) : Res := board (get fun s =>
  match s.ctl.blk.dump with
  | none => .skip
  | some d =>
    let out := s.ctl.blk.cmds.any fun c => decide (c.job = .dump d.next false)
    Prog.when (decide (s.pf = 1) && decide (d.started.length = s.dumpSsds.length) && !out && decide (1 ≤ d.records) &&
        decide (d.next < d.batches.length)) (doAll [
      modBlk fun b => { b with dump := some { d with next := d.next + 1, records := 0 } },
      dumpNext])) s

/-- DUMPED (R409 step 5, R412, R416, R508): the closing block is written, or there is no dump to write. A reset that the dump
has deferred follows. -/
def execDumped (s : State) : Res := board (get fun s =>
  let over_ := match s.ctl.blk.dump with
    | some d => s.dumpSsds.isEmpty || (d.closing && !(s.ctl.blk.cmds.any fun c => decide (c.job = .closing)))
    | none => true
  Prog.when (decide (s.pf = 1) && over_) (doAll [
    wrF SUPPLY.PF_STATE 1 0 2,
    deferredReset])) s

/-! ## Measurement and enabling -/

/-- HOLDUP_SHORT where the effective limit computes below 256 MiB (R407). -/
def holdupCheck : Prog := get fun s =>
  Prog.when (s.enforced && decide (min s.dirtyMiB s.holdupMiB < 256)) (int Pg.supply 0 4)

/-- Whether EN may be set (R408). -/
def State.mayDump (s : State) : Bool :=
  decide (s.dirtyMiB + 128 ≤ s.fd SUPPLY.DUMP_AREA_MIB 15 0 * s.dumpSsds.length) &&
    s.dumpSsds.all fun i => decide (s.ssd i = ssdMember ∨ s.ssd i = ssdFree)

/-- A write of DUMP_CTL (R406, R408): EN and ENFORCE, then MEASURE, whose batches stay within the dump areas: where these are smaller than
512 MiB together, it goes over them again. -/
def dumpCtl (a : Accessor) (v : Word) : Prog := byWriter a Pg.supply 0x4C (get fun s =>
  let bad := err Pg.supply 0 EC.ACCESS RS.WRONG_STATE (bar0 Pg.supply 0x4C)
  if tbit v.toNat 0 && !s.mayDump then err Pg.supply 0 EC.CONFIG RS.VALUE_REJ (bar0 Pg.supply 0x4C)
  else doAll [
    wrF SUPPLY.DUMP_CTL 1 0 (v.toNat % 4), holdupCheck,
    Prog.when (tbit v.toNat 2) (
      if s.ctl.blk.unrestored || decide (s.rd BLKF.STAGE_USED ≠ 0) || s.bit SUPPLY.DUMP_CTL 3 then bad
      else doAll [
        wrB SUPPLY.DUMP_CTL 3 true,
        let l := s.dumpSsds
        let area := s.fd SUPPLY.DUMP_AREA_MIB 15 0
        Prog.when (!l.isEmpty && decide (0 < area)) (doAll [
          modBlk fun b => { b with measuring := 512 },
          Prog.each (List.range 512) fun k => nvme (l.getD (k % l.length) 0) 2
            (s.rdW SUPPLY.DUMP_LBA % 2 ^ 48 + k / l.length % area * 256) 256 [] .measure])])])

/-- MEASURE (R406). -/
def execMeasure (a : Accessor) (v : Word) (s : State) : Res := done (dumpCtl a v) s

/-- DUMP_EN_WRITE (R408). -/
def execDumpEnWrite (a : Accessor) (v : Word) (s : State) : Res := done (dumpCtl a v) s

/-- MEASURE_DONE (R406, R407): the last of the 512 MiB is written, `us` after the first write's issue. -/
def execMeasureDone (us : Nat) (s : State) : Res := live 4 (get fun s =>
  Prog.when (s.bit SUPPLY.DUMP_CTL 3 && decide (s.ctl.blk.measuring = 0)) (doAll [
    wrB SUPPLY.DUMP_CTL 3 false,
    wr SUPPLY.DUMP_RATE (2 ^ 31 + min 200000 (536870912 / max 1 us)),
    int Pg.supply 0 3, holdupCheck])) s

end Sys2Proof.Machine
end

