-- ==== Sys2Proof/Machine/Maint.lean ====
section
/-! DEFINITION. The MAINT arbiter's decisions (R91 to R95). -/

namespace Sys2Proof.Machine

/-- Order of decision (R94): clock of arrival, activity, scope, origin. -/
def MStart.before (a b : MStart) : Bool :=
  decide (a.clock < b.clock) || (decide (a.clock = b.clock) &&
    (decide (a.act < b.act) || (decide (a.act = b.act) &&
      (decide (a.scope < b.scope) || (decide (a.scope = b.scope) && decide (a.origin.rank < b.origin.rank))))))

/-- The running activities that a start conflicts with (R92). -/
def State.blockers (s : State) (m : MStart) : List MStart :=
  s.ctl.maint.running.filter fun r => maConflict m.act r.act && scopesOverlap m.scope r.scope

/-- The operation of an SSD that an activity is (R392): 1 SANITISE, 2 FORMAT, 3 SCRUB. -/
def ssdOpOf (act : Nat) : Nat := if act = 2 then 3 else if act = 3 then 1 else 2

/-- What an accepted start sets off in its block. -/
def accepted (m : MStart) : Prog :=
  if m.act = MA.AGING_SWEEP then agingAccepted m.scope
  else if m.act = MA.TABLE_RESIZE then resizeAccepted m.scope
  else if m.act = MA.SSD_SCRUB ∨ m.act = MA.SANITISE ∨ m.act = MA.FORMAT then ssdActAccepted (ssdOpOf m.act) m.scope m.ref
  else if m.act = MA.DRAM_SCRUB then scrubAccepted true
  else if m.act = MA.HBM_SCRUB then scrubAccepted false
  else if m.act = MA.MAP_REBUILD then rebuildAccepted
  else if m.act = MA.LIFE_COMMIT then lifeAccepted
  else if m.act = MA.CS_RELOAD then reloadAccepted m.scope
  else if m.act = MA.ENGINE_SELFTEST then selftestAccepted m.scope
  else if m.act = MA.FUSE_BURN then fuseAccepted m.ref
  else if m.act = MA.PAIR_RESYNC then resyncAccepted
  else .skip

/-- What a refused start reports (R93). -/
def refusedStart (m : MStart) : Prog :=
  if m.act = MA.TABLE_RESIZE then resizeRefused m.scope
  else if m.act = MA.SSD_SCRUB ∨ m.act = MA.SANITISE ∨ m.act = MA.FORMAT then ssdActRefused m.scope m.ref
  else if m.act = MA.DRAM_SCRUB ∨ m.act = MA.HBM_SCRUB then scrubRefused
  else if m.act = MA.MAP_REBUILD then rebuildRefused
  else if m.act = MA.LIFE_COMMIT then lifeRefused
  else if m.act = MA.CS_RELOAD ∨ m.act = MA.ENGINE_SELFTEST then csRefused m.scope
  else if m.act = MA.FUSE_BURN then fuseRefused
  else if m.act = MA.PAIR_RESYNC then resyncRefused
  else .skip

/-- The decision of one start (R92 to R94). -/
def decideStart (m : MStart) : Prog := get fun s =>
  let rank := fun a b : MStart => decide (a.act < b.act) || (decide (a.act = b.act) && decide (a.scope < b.scope))
  match firstBy rank (s.blockers m) with
  | some r => doAll [
      inc MAINT.REFUSE_CNT,
      wr MAINT.LAST_REFUSED (m.act + 256 * m.scope + 2 ^ 16 * r.act + 2 ^ 24 * r.scope),
      peep 14 1 m.act, refusedStart m]
  | none => doAll [
      ctl fun c => { c with maint := { c.maint with running := c.maint.running ++ [m] } },
      showRunning, peep 14 0 m.act, accepted m]

/-- MAINT_ARBITRATE (R91 to R94): the start that comes first is decided. `fw`: the firmware's own SLOT_UPDATE, for which the
spec gives no register, starts (true) or ends (false) with this clock; an end comes first. The command is one clock of the
arbiter: starts between two of them arrive in one clock (log entry 33). -/
def execMaintArbitrate (fw : Option Bool) (s : State) : Res := live 4 (doAll [
  match fw with
  | some true => mstart MA.SLOT_UPDATE 0xFF .register 0
  | some false => mend MA.SLOT_UPDATE 0xFF
  | none => .skip,
  get fun s => match firstBy MStart.before s.ctl.maint.waiting with
    | some m => doAll [
        ctl fun c => { c with maint := { c.maint with waiting := c.maint.waiting.erase m } },
        decideStart m]
    | none => .skip,
  ctl fun c => { c with maint.clock := c.maint.clock + 1 }]) s

end Sys2Proof.Machine
end

