-- ==== Sys2Proof/Machine/Lanes.lean ====
section
/-! DEFINITION. Lanes, ports and FlexE calendars (R187 to R195, R98, R99). -/

namespace Sys2Proof.Machine

/-- Traffic-carrying slots of a lane in its mode (R187, R188). -/
def State.laneSlots (s : State) (l : Nat) : Nat := [0, 8, 4, 2].getD (s.fd (LANE.LANE_CTL l) 1 0) 0

/-- Whether a lane has its link. -/
def State.laneUp (s : State) (l : Nat) : Bool := s.bit (LANE.LANE_STATUS l) 2

/-- Lanes of a FlexE group in a bank: none when it is not enabled. -/
def State.groupLanes (s : State) (b : Bank) (g : Nat) : List Nat :=
  let c := s.copy b (CAL.GRP_CFG g)
  if tbit c 0 then (List.range (field c 11 7)).map (field c 6 1 + ·) else []

/-- Lanes of a port in a bank (R190, R191): none when it is not enabled. -/
def State.portLanes (s : State) (b : Bank) (p : Nat) : List Nat :=
  let c := s.copy b (CAL.PORT p)
  if !tbit c 0 then []
  else if tbit c 1 then s.groupLanes b (field c 12 9)
  else (List.range (field c 8 2 / max 1 (s.laneSlots (p / 8)))).map (p / 8 + ·)

/-- A port loses its link: frames it receives are truncated (R198), what it sends is lost, its LPI and verification end. -/
def portDown (p : Nat) : Prog := get fun s => Prog.when (s.portUp p) (doAll [
  wrF (MAC.MAC_STATUS.of p) 4 0 0, int Pg.mac p 0,
  ctl fun c => { c with net := { c.net with lpiTx := fset c.net.lpiTx p false, verify := nset 0 c.net.verify p 0 } },
  ctl fun c => { c with net.frames := c.net.frames.map fun f => if f.kind = 0 ∧ f.src = p then { f with trunc := true } else f },
  Prog.each [p, 512 + p] fun k => match s.sending k with
    | some x => doAll [setSending k none, copyGone x.copy ST.PORT_DOWN none, pauseOf x.copy]
    | none => .skip])

/-- A port whose lanes all have their link comes up. -/
def portComesUp (p : Nat) : Prog := get fun s =>
  Prog.when (!(s.portLanes .committed p).isEmpty && (s.portLanes .committed p).all s.laneUp && !s.portUp p) (doAll [
    wrB (MAC.MAC_STATUS.of p) 0 true,
    Prog.when (s.macBit p 7 && !s.macBit p 10) (wrF (MAC.MAC_STATUS.of p) 4 3 1)])

/-- Ports of a bank that use a lane. -/
def State.portsOn (s : State) (l : Nat) : List Nat := (List.range 512).filter fun p => decide (l ∈ s.portLanes .committed p)

/-- FlexE groups that use a lane. -/
def State.groupsOn (s : State) (l : Nat) : List Nat := (List.range 16).filter fun g => decide (l ∈ s.groupLanes .committed g)

/-- The CAL registers of a group in a bank that make its calendar: its own two, its slots', its clients' (R191, R193). -/
def State.groupRegs (s : State) (g : Nat) : List Reg :=
  let slots := ((s.groupLanes .committed g ++ s.groupLanes .pending g).dedup).flatMap fun l => (List.range 8).map (8 * l + ·)
  CAL.GRP_CFG g :: CAL.GRP_NUM g :: slots.flatMap fun k => [CAL.PORT k, CAL.SLOT k]

/-- Whether the pending set changes a register. -/
def State.calDiffers (s : State) (r : Reg) : Bool := decide (s.copy .committed r ≠ s.copy .pending r)

/-- Lanes that a port holds by itself in a bank: none when it is a FlexE client. -/
def State.nativeLanes (s : State) (b : Bank) (p : Nat) : List Nat := if tbit (s.copy b (CAL.PORT p)) 1 then [] else s.portLanes b p

/-- A lane loses its link, and with it the ports and groups that use it (R189, R211). -/
def dropLane (l : Nat) : Prog := get fun s => Prog.when (s.laneUp l) (doAll [
  wr (LANE.LANE_STATUS l) ((s.fd (LANE.LANE_STATUS l) 31 16 + 1) % 65536 * 65536),
  int Pg.lane 0 0,
  Prog.each (s.portsOn l) portDown,
  Prog.each (s.groupsOn l) fun g => Prog.when (s.bit (CAL.GRP_STATUS g) 0) (doAll [wrB (CAL.GRP_STATUS g) 0 false, int Pg.cal 0 1])])

/-- PHYs of a FlexE group in a bank: two lanes each in a group of 400GBASE-R PHYs, one otherwise (R191). -/
def State.groupPhys (s : State) (b : Bank) (g : Nat) : Nat :=
  (s.groupLanes b g).length / (if field (s.copy b (CAL.GRP_CFG g)) 13 12 = 2 then 2 else 1)

/-- The PHY map that a group sends and expects, its PHYs numbered from 1, a DESIGN CHOICE (log entry 133). -/
def State.groupMap (s : State) (g : Nat) : Nat := ((List.range (s.groupPhys .committed g)).map fun k => 2 ^ (k + 1)).sum

/-- A group holds what it last heard of its peer against its own group number and PHY map, as committed (R192, R212). -/
def compareGroup (g : Nat) : Prog := get fun s =>
  match tget none s.ctl.net.heard g with
  | some (num, map) => doAll [
      wrB (CAL.GRP_STATUS g) 3 (decide (num ≠ s.cfd (CAL.GRP_NUM g) 19 0)),
      wrB (CAL.GRP_STATUS g) 4 (decide (map ≠ s.groupMap g))]
  | none => .skip

/-- A group hears its peer's group number and PHY map. -/
def groupHears (g num map : Nat) : Prog := doAll [
  ctl fun c => { c with net.heard := nset none c.net.heard g (some (num, map)) }, compareGroup g]

/-- A group is up while it has lanes and all of them have their link; one that ceases to be says so (R212). A group with no lanes has
no mismatch; another's follow its registers. -/
def renewGroup (g : Nat) : Prog := get fun s =>
  let l := s.groupLanes .committed g
  let up := !l.isEmpty && l.all s.laneUp
  doAll [
    Prog.when (s.bit (CAL.GRP_STATUS g) 0 && !up) (int Pg.cal 0 1),
    wrB (CAL.GRP_STATUS g) 0 up,
    if l.isEmpty then doAll [ctl fun c => { c with net.heard := nset none c.net.heard g none }, wrF (CAL.GRP_STATUS g) 4 3 0]
    else compareGroup g]

/-- A port's link follows its lanes. -/
def renewPort (p : Nat) : Prog := get fun s =>
  let l := s.portLanes .committed p
  if !l.isEmpty && l.all s.laneUp then portComesUp p else portDown p

/-- Registers of the pending set come into use (R194): the lanes of a native port that changes retrain, and groups and ports follow
their lanes. -/
def calApply (regs : List Reg) : Prog := get fun s =>
  let ports := (List.range 512).filter fun p => decide (CAL.PORT p ∈ regs) && s.calDiffers (CAL.PORT p)
  doAll [
    Prog.each ((ports.flatMap fun p => s.nativeLanes .committed p ++ s.nativeLanes .pending p).dedup) dropLane,
    Prog.each regs fun r => setCopy .committed r (s.copy .pending r),
    Prog.each (List.range 16) renewGroup,
    Prog.each ports renewPort]

/-- The pending calendar is the committed one: nothing of it waits any longer (R77, R194). -/
def calDone : Prog := doAll [
  endCommit Pg.cal 0,
  Prog.each (List.range 512) fun p => get fun s => Prog.when (s.bit (MAC.MAC_STATUS.of p) 5) (wrB (MAC.MAC_STATUS.of p) 5 false)]

/-- A group takes its pending calendar (R194); when no group waits any longer, the whole pending set is in use. -/
def calSwitch (g : Nat) : Prog := doAll [
  ctl fun c => { c with net.calWait := fset c.net.calWait g false },
  wrB (CAL.GRP_STATUS g) 2 false,
  get fun s => wrB (CAL.GRP_STATUS g) 1 (!s.bit (CAL.GRP_STATUS g) 1),
  get fun s => calApply (s.groupRegs g),
  get fun s => Prog.when (decide (s.ctl.net.calWait = []) && s.isPending Pg.cal 0) calDone]

/-- Whether a group that is to switch takes lanes that another group still holds, which waits for its own switch (R194). -/
def State.calBlocked (s : State) (g : Nat) : Bool :=
  (List.range 16).any fun h => decide (h ≠ g) && tget false s.ctl.net.calWait h &&
    (s.groupLanes .pending g).any fun l => decide (l ∈ s.groupLanes .committed h)

/-- A waiting group may switch: it does, or once the other group has let its lanes go (R194). -/
def calGo (g : Nat) : Prog := doAll [
  ctl fun c => { c with net.calCa := fset c.net.calCa g true },
  Prog.each (List.range 16) fun _ => get fun s => Prog.when (decide (s.ctl.net.calCa ≠ [])) (
    Prog.each (List.range 16) fun h => get fun t => Prog.when (tget false t.ctl.net.calCa h && !t.calBlocked h) (doAll [
      ctl fun c => { c with net.calCa := fset c.net.calCa h false }, calSwitch h]))]

/-- A lane loses its link (R189, R195, R211): a group that waits with it switches at once. -/
def laneDown (l : Nat) : Prog := get fun s => Prog.when (s.laneUp l) (doAll [
  dropLane l,
  Prog.each (s.groupsOn l) fun g => get fun t => Prog.when (tget false t.ctl.net.calWait g) (calGo g)])

/-- LANE_RECONFIGURE (R189): a LANEl_CTL write drops the lane's link. -/
def execLaneReconfigure (a : Accessor) (l : Fin 64) (v : Word) (s : State) : Res := done (
  byWriter a Pg.lane (0x100 + 0x20 * l.val) (doAll [laneDown l.val, wr (LANE.LANE_CTL l.val) v.toNat])) s

/-- Bytes of a group's management channels go to the control cores (R192), which take them as they take frames: the spec names no ring
for them, and no work record, a DESIGN CHOICE (log entry 135). It names no register with which a core sends on them. -/
def toManagement (bytes : List Byte) : Prog := freeBytes 136 fun b => fresh fun h => get fun s => doAll [
  ctl fun c => { c with net.nextFrame := c.net.nextFrame + 1 },
  toCores (s.ownFrame 0 0 (s.dom 0) b bytes h)]

/-- What a lane of a FlexE group receives in its overhead (R192, R212). -/
def laneHears (x : LaneHeard) : Prog := get fun s => Prog.each (s.groupsOn x.lane.val) fun g => doAll [
  match x.oh with
  | some h => groupHears g h.1.toNat h.2.toNat
  | none => .skip,
  Prog.when (!x.mgmt.isEmpty) (toManagement x.mgmt)]

/-- LANE_LINK_UP (R96, R189, R192, R211): the lane has trained on its REFCLK; ports and groups all of whose lanes are up come up. The
SNR that it shows is free. A lane that is up already goes on hearing its peer's overhead. -/
def execLaneLinkUp (x : LaneHeard) (s : State) : Res := live 4 (fresh fun v => get fun s =>
  let l := x.lane
  if s.laneUp l.val then laneHears x
  else if s.laneSlots l.val = 0 ∨ s.clockRuns (l.val / 16) = false then .skip else
  let c := s.rd (LANE.LANE_CTL l.val)
  doAll [
    wr (LANE.LANE_STATUS l.val) (s.fd (LANE.LANE_STATUS l.val) 31 16 * 65536 + v % 256 * 256 + 7 + 8 * b2n (tbit c 2) + 16 * b2n (tbit c 3)),
    get fun t => doAll [
      Prog.each (t.groupsOn l.val) renewGroup, laneHears x,
      Prog.each (t.portsOn l.val) portComesUp]]) s

/-- LANE_LINK_DOWN (R189, R198). -/
def execLaneLinkDown (l : Fin 64) (s : State) : Res := live 4 (laneDown l.val) s

/-- The pending calendar starts to apply (R194): the groups that change and have a PHY up, on their lanes of now or those to come, ask
their peers and wait for them; every other change comes into use now, unless it takes lanes that such a group still holds. The lanes
of a native port that changes retrain, so they are not up. -/
def calBegin : Prog := get fun s =>
  let changes := (List.range 16).filter fun g => (s.groupRegs g).any s.calDiffers
  let moved := (List.range 512).filter fun p => s.calDiffers (CAL.PORT p)
  let retrain := moved.flatMap fun p => s.nativeLanes .committed p ++ s.nativeLanes .pending p
  let waits := changes.filter fun g => (s.groupLanes .committed g ++ s.groupLanes .pending g).any fun l =>
    s.laneUp l && !decide (l ∈ retrain)
  let held := waits.flatMap s.groupRegs
  let native := ((List.range 512).filter fun p => !s.cbit (CAL.PORT p) 1 && !tbit (s.copy .pending (CAL.PORT p)) 1).map CAL.PORT
  let now := (native ++ (changes.flatMap s.groupRegs)).filter fun r => s.calDiffers r && !decide (r ∈ held)
  doAll [
    calApply now,
    if waits.isEmpty then calDone
    else doAll [
      Prog.each waits (fun g => doAll [ctl fun c => { c with net.calWait := fset c.net.calWait g true }, emit (.flexe g 0)]),
      get fun t => Prog.each ((List.range 512).filter fun p => t.calDiffers (CAL.PORT p)) fun p => wrB (MAC.MAC_STATUS.of p) 5 true]]

/-- CA_RECEIVED (R194). -/
def execCaReceived (g : Fin 16) (s : State) : Res := live 4 (get fun s =>
  Prog.when (tget false s.ctl.net.calWait g.val) (calGo g.val)) s

/-- CA_TIMEOUT (R195): SW_TIMEOUT has passed without CA; the group keeps waiting. -/
def execCaTimeout (g : Fin 16) (s : State) : Res := live 4 (get fun s =>
  Prog.when (tget false s.ctl.net.calWait g.val) (doAll [wrB (CAL.GRP_STATUS g.val) 2 true, int Pg.cal 0 0])) s

/-- CR_RECEIVED (R192): the peer asks for a calendar switch; the shim answers CA and switches calendars. What its overhead carries
on the management channels goes to the control cores. -/
def execCrReceived (x : CalRequest) (s : State) : Res := live 4 (get fun s =>
  let g := x.group
  Prog.when (s.bit (CAL.GRP_STATUS g.val) 0) (doAll [emit (.flexe g.val 1),
    wrB (CAL.GRP_STATUS g.val) 1 (!s.bit (CAL.GRP_STATUS g.val) 1),
    Prog.when (!x.mgmt.isEmpty) (toManagement x.mgmt)])) s

/-- ABANDON (R195): CR is withdrawn and the pending set dropped. -/
def execAbandon (a : Accessor) (s : State) : Res := done (byWriter a Pg.cal 0x40 (get fun s =>
  Prog.when (s.isPending Pg.cal 0) (doAll [
    Prog.each ((List.range 16).filter fun g => tget false s.ctl.net.calWait g) (fun g => doAll [emit (.flexe g 2),
      wrB (CAL.GRP_STATUS g) 2 false]),
    ctl fun c => { c with net := { c.net with calWait := [], calCa := [] } },
    Prog.each (List.range 512) (fun p => Prog.when (s.bit (MAC.MAC_STATUS.of p) 5) (wrB (MAC.MAC_STATUS.of p) 5 false)),
    wrB (HDR.PAGE_STATUS Pg.cal) 0 false]))) s

/-- PARTNER_LPI_ENTRY (R98, R213). -/
def execPartnerLpiEntry (p : Fin 512) (s : State) : Res := live 4 (get fun s =>
  Prog.when (s.portUp p.val && !s.bit (MAC.MAC_STATUS.of p.val) 2) (doAll [
    wrB (MAC.MAC_STATUS.of p.val) 2 true, incW (MAC.LPI_RX_ENTRIES.of p.val) 1])) s

/-- What the FECs of the lanes and ports with a link correct between two REFCLK edges (R187, R211, R213): the spec gives the counters
and no amounts, which are free (log entry 55). No more codewords have 8 or more errors than the symbols corrected allow. -/
def fecTick : Prog := get fun s => doAll [
  Prog.each ((List.range 64).filter s.laneUp) fun l => fresh fun v => doAll [
    incW (LANE.FEC_SYM l) (v % 4096),
    get fun t => wr (LANE.FEC_HIST l) (satAdd 16 (t.rd (LANE.FEC_HIST l)) (min (v / 4096 % 512) (v % 4096 / 8)))],
  Prog.each ((List.range 512).filter s.portUp) fun p => fresh fun v => doAll [
    incW (MAC.FEC_CORR_CW.of p) (v % 4096), incW (MAC.FEC_UNCORR_CW.of p) (v / 4096 % 4096)]]

end Sys2Proof.Machine
end

