-- ==== Sys2Proof/Machine/Time.lean ====
section
/-! DEFINITION. The time unit (R35 to R51, R63 to R68): domain time, arming and the step, slews, holdover, snapshots,
PPS inputs and period outputs, the 10 MHz reference. What acts 'at the next REFCLK edge' is told to the domain and acts in
`refclkEdge` (log entry 12). -/

namespace Sys2Proof.Machine

/-- One ns in the units of a domain's fraction. -/
def nsUnit : Nat := 2 ^ 40

/-- A domain's time in 2^-40 ns within its second. -/
def Dom.sub (d : Dom) : Nat := d.ns * nsUnit + d.frac

/-- A domain with its time moved on by `u` units of 2^-40 ns, carrying into the seconds modulo 2^48 (R36). -/
def Dom.advance (d : Dom) (u : Nat) : Dom :=
  let t := d.sub + u
  { d with
    sec := (d.sec + t / (1000000000 * nsUnit)) % 2 ^ 48
    ns := t / nsUnit % 1000000000
    frac := t % nsUnit }

/-- A slew after one more edge, and the units it adds or takes at that edge; `step` is what it latches at its start (R45). -/
def Slew.edge (w : Slew) (step : Nat) : Slew × Nat :=
  let st := w.step.getD step
  let acc := min (w.acc + st) (w.total * 1000000)
  ({ w with acc := acc, step := some st }, acc / 1000000 - w.acc / 1000000)

/-- Whether a slew has started and its remainder is zero. -/
def Slew.over (w : Slew) : Bool := w.step.isSome && decide (w.acc = w.total * 1000000)

/-- DOMn_SLEW_LEFT: the remainder away from zero in whole 2^-8 ns, signed (R45). -/
def Slew.left (w : Slew) : Nat :=
  let m := ceilDiv (w.total * 1000000 - w.acc) (2 ^ 32 * 1000000)
  ofSigned 32 (if w.neg then -(m : Int) else m)

/-- One REFCLK edge of a domain (R36, R45, R48): it advances by its increment and its slew, and its discipline timer
runs on. -/
def Dom.edge (d : Dom) (incr ppm : Nat) : Dom :=
  let disc := d.disc.map (· + 1)
  match d.slew with
  | none => { d.advance incr with disc := disc }
  | some w =>
    let (w', add) := w.edge (incr * ppm)
    { d.advance (if w.neg then incr - add else incr + add) with disc := disc, slew := some w' }

/-! ## What acts at the next REFCLK edge -/

/-- What domain `n` has been told to do at its next edge. -/
def State.acts (s : State) (n : Nat) : DomActs := tget DomActs.none s.ctl.time.acts n

/-- Tell domain `n` to do something at its next edge. -/
def tellDom (n : Nat) (f : DomActs → DomActs) : Prog :=
  ctl fun c => { c with time.acts := nmod DomActs.none c.time.acts n f }

/-- REFCLK edges in DISC_TIMEOUT × 100 ms (R48). -/
def State.discEdges (s : State) (n : Nat) : Nat := s.fd (TIME.DOM_CTL n) 15 8 * 15625000

/-- Drive an output: `on` is its active level, inverted on the pin when POL = 1 (R68). -/
def drivePps (m : Nat) (on : Bool) : Prog := get fun s => doAll [
  ctl fun c => { c with time.ppsOutLevel := fset c.time.ppsOutLevel m on },
  emit (.pin 0 m (xor on (s.bit (TIME.PPS_OUT_CTL m) 8)))]

/-- An output returns to idle and its EN clears (R56, R68). -/
def stopPps (m : Nat) : Prog := doAll [
  drivePps m false, wrB (TIME.PPS_OUT_CTL m) 0 false, wrB (TIME.PPS_OUT_CTL m) 9 false]

/-- Order of the flush of an arming: the d of each event at that edge, class, order of scheduling (R42). -/
def flushBefore (now : Nat) (a b : WEvent) : Bool :=
  let x := wtDiff a.target now
  let y := wtDiff b.target now
  decide (x < y) || (decide (x = y) && (decide (a.cls < b.cls) || (decide (a.cls = b.cls) && decide (a.seq < b.seq))))

/-- Arming at its edge (R42 steps 1 and 2, R45, R47, R50, R66, R257): the domain becomes FLUSHING, its slew and holdover end, its
pending events leave the wheel for dispatch with STEPPED, hold lists on it empty, and an enabled output of it that has no
event to stop it stops. -/
def armEdge (n : Nat) : Prog := get fun s => doAll [
  wrF (TIME.DOM_STATUS n) 3 0 1,
  wrF (TIME.DOM_STATUS n) 31 16 (s.fd (TIME.DOM_STATUS n) 31 16 + 1),
  modDom n fun d => { d with slew := none, disc := none },
  ctl fun c => { c with time := { c.time with
    events := c.time.events.filter fun e => !decide (e.dom = n)
    flush := c.time.flush ++ inOrder (flushBefore (s.wt n)) (c.time.events.filter fun e => decide (e.dom = n)) } },
  Prog.each (List.range 4) (fun p => Prog.when (decide (s.cfd (FWD.TIME_CFG.of p) 2 0 = n))
    (ctl fun c => { c with net.holds := nset [] c.net.holds p [] })),
  Prog.each (List.range 4) fun m => Prog.when (s.bit (TIME.PPS_OUT_CTL m) 0 && decide (s.fd (TIME.PPS_OUT_CTL m) 6 4 = n) &&
    !s.scheduled (.periodOut m)) (stopPps m)]

/-- A domain moved by a signed number of ns; the seconds wrap modulo 2^48 (R43). -/
def Dom.shift (d : Dom) (off : Int) : Dom :=
  let t := (d.nanos : Int) + off
  { d with
    sec := (t / 1000000000 % (2 ^ 48 : Int)).toNat
    ns := (t % 1000000000).toNat }

/-- The periodic consumers of a domain that the step starts again (R42, R57): those that fired with STEPPED, and those whose
request has been refused. -/
def State.toRestart (s : State) (n : Nat) : List Consumer :=
  ((s.ctl.time.restart.filter fun r => decide (r.1 = n)).map (·.2) ++
    (s.ctl.time.retry.filter fun r => decide (r.dom = n) && (s.period r.consumer).isSome).map (·.consumer)).dedup

/-- The step at its edge (R42 step 4, R43, R57): the domain adds the offset and is LOCKED, and its periodic consumers start again
one period on. -/
def stepEdge (n : Nat) (off : Int) : Prog := get fun s => doAll [
  modDom n fun d => d.shift off,
  wrF (TIME.DOM_STATUS n) 1 0 3,
  ctl fun c => { c with time := { c.time with
    restart := c.time.restart.filter fun r => !decide (r.1 = n)
    retry := c.time.retry.filter fun r => !decide (r.consumer ∈ s.toRestart n) } },
  Prog.each (s.toRestart n) startPeriodic]

/-- A LOCKED domain enters holdover (R48, R49). -/
def enterHoldover (n : Nat) : Prog := get fun s =>
  Prog.when (decide (s.domState n = 3) && !s.bit (TIME.DOM_STATUS n) 2)
    (doAll [wrB (TIME.DOM_STATUS n) 2 true, int Pg.time 0 n])

/-- The discipline timer of a domain starts again if it is LOCKED (R48). -/
def restartDisc (n : Nat) : Prog := get fun s =>
  Prog.when (decide (s.domState n = 3)) (modDom n fun d => { d with disc := some 0 })

/-- The snapshot of a domain into its registers (R68). -/
def snapshot (n : Nat) : Prog := get fun s =>
  let d := s.dom n
  doAll [wrW (TIME.DOM_SNAP_SEC n) d.sec, wr (TIME.DOM_SNAP_NS n) d.ns,
    wr (TIME.DOM_SNAP_FRAC n) (d.frac / 2 ^ 22), wrW (TIME.DOM_SNAP_WT n) d.wt]

/-- One REFCLK edge of a domain, what it has been told to do in the order of R47: arming, the step, the advance, HOLD_SET,
HOLD_CLR, the discipline timer, and then the snapshot (log entry 12). -/
def domEdge (n : Nat) : Prog := get fun s =>
  let a := s.acts n
  doAll [
    tellDom n fun _ => { DomActs.none with lim := s.discEdges n },
    Prog.when a.arm (armEdge n),
    match a.step with | some off => stepEdge n off | none => .skip,
    modDom n fun d => d.edge (s.rdW (TIME.DOM_INCR n)) (s.fd (TIME.DOM_SLEW_CFG n) 9 0),
    Prog.when a.holdSet (enterHoldover n),
    Prog.when a.holdClr (wrB (TIME.DOM_STATUS n) 2 false),
    Prog.when (a.disc || a.step.isSome) (restartDisc n),
    Prog.when a.snap (snapshot n)]

/-- Mark the events that have become due by this tick (R52, R55). -/
def markDue (tick : Nat) (now : Nat → Nat) (e : WEvent) : WEvent :=
  if e.due.isNone ∧ wtDiff e.target (now e.dom) ≤ 0 then { e with due := some tick } else e

/-- Pad ticks, each 1 µs, in a number of REFCLK edges (R515). -/
def padTicks (edges : Nat) : Nat := edges * 4 / 625

/-- One REFCLK edge: every domain has its own, a new dispatch tick begins and due events are marked; a clock that is back ends its
backup: REFCLK0 at this edge, the system clock at a pad tick (R96). -/
def refclkEdge : Prog := doAll [
  Prog.each (List.range 8) domEdge,
  get fun s => ctl fun c => { c with time := { c.time with
    edges := c.time.edges + 1
    tick := c.time.tick + 1
    fired := 0
    events := c.time.events.map (markDue (c.time.tick + 1) s.wt) } },
  get fun s => doAll [
    Prog.when (s.bit CLK.CLK_STATUS 0 && s.bit CLK.CLK_STATUS 8) (wrB CLK.CLK_STATUS 8 false),
    Prog.when (s.bit CLK.CLK_STATUS 4 && s.bit CLK.CLK_STATUS 9 &&
      decide (padTicks (s.ctl.time.edges - 1) < padTicks s.ctl.time.edges)) (wrB CLK.CLK_STATUS 9 false)]]

/-! ## Writes -/

/-- Record a refused value in TIME.ERR_FIRST. -/
def timeReject (off : Nat) : Prog := err Pg.time 0 EC.CONFIG RS.VALUE_REJ (bar0 Pg.time off)

/-- DOM_INCR_WRITE (R39, R40, R48): a write of DOMn_INCR_HI makes the pair take the value, unless it lies outside
±1,000 ppm of 6.4 ns. -/
def execDomIncrWrite (a : Accessor) (n : Fin 8) (hi : Word) (s : State) : Res := done (
  byWriter a Pg.time (0x10c + 64 * n.val) (get fun s =>
    let v := s.copy .loHold (TIME.DOM_INCR n.val) + 2 ^ 32 * (hi.toNat % 65536)
    if v * 10000 < 63936 * nsUnit ∨ 64064 * nsUnit < v * 10000 then
      doAll [wrB (TIME.DOM_STATUS n.val) 6 true, timeReject (0x10c + 64 * n.val)]
    else doAll [wrW (TIME.DOM_INCR n.val) v, tellDom n.val fun x => { x with disc := true }])) s

/-- The RW fields of a DOMn_CTL write (R68): DISC_TIMEOUT. -/
def domCtlFields (n v : Nat) : Prog := wrF (TIME.DOM_CTL n) 15 8 (field v 15 8)

/-- A write of a DOMn_CTL bit that tells the domain to do something at its next edge (R47). -/
def domTell (a : Accessor) (n : Nat) (v : Word) (f : DomActs → DomActs) : Prog :=
  byWriter a Pg.time (0x100 + 64 * n) (doAll [domCtlFields n v.toNat, tellDom n f])

/-- ARM (R42): written in FREE or LOCKED, the domain is armed at the next edge (`armEdge`). -/
def execArm (a : Accessor) (n : Fin 8) (v : Word) (s : State) : Res := done (
  domTell a n.val v fun x => if s.domState n.val = 0 ∨ s.domState n.val = 3 then { x with arm := true } else x) s

/-- DOMAIN_FLUSH_DONE (R42 step 3): the last flushed event of a FLUSHING domain is dispatched; it becomes ARMED. -/
def execDomainFlushDone (n : Fin 8) (s : State) : Res := board (get fun s =>
  Prog.when (decide (s.domState n.val = 1) && !(s.ctl.time.flush.any fun e => decide (e.dom = n.val)))
    (doAll [wrF (TIME.DOM_STATUS n.val) 1 0 2, int Pg.time 0 (8 + n.val)])) s

/-- The step's offset in ns: DOMn_STEP_SEC s + DOMn_STEP_NS ns, both signed (R42). -/
def State.stepOffset (s : State) (n : Nat) : Int :=
  toSigned 48 (s.rdW (TIME.DOM_STEP_SEC n)) * 1000000000 + toSigned 32 (s.rd (TIME.DOM_STEP_NS n))

/-- STEP (R42, R43): in ARMED with nanoseconds in range the domain steps at the next edge by the offset as it stands now
(`stepEdge`, log entry 12); otherwise STEP_REJ. -/
def execStep (a : Accessor) (n : Fin 8) (v : Word) (s : State) : Res := done (
  byWriter a Pg.time (0x100 + 64 * n.val) (doAll [domCtlFields n.val v.toNat, get fun s =>
    let ns := toSigned 32 (s.rd (TIME.DOM_STEP_NS n.val))
    if s.domState n.val ≠ 2 ∨ ns < -999999999 ∨ 999999999 < ns then wrB (TIME.DOM_STATUS n.val) 5 true
    else tellDom n.val fun x => { x with step := some (s.stepOffset n.val) }])) s

/-- SLEW (R45, R46, R48): in FREE or LOCKED with no slew in progress, a slew of the signed amount starts at the next edge;
otherwise SLEW_REJ. -/
def execSlew (a : Accessor) (n : Fin 8) (v : Word) (s : State) : Res := done (
  byWriter a Pg.time (0x11c + 64 * n.val) (get fun s =>
    if (s.dom n.val).slew.isSome ∨ s.domState n.val = 1 ∨ s.domState n.val = 2 then wrB (TIME.DOM_STATUS n.val) 4 true
    else
      let amt := v.toInt
      doAll [wrB (TIME.DOM_STATUS n.val) 3 true,
        modDom n.val fun d => { d with slew := some ⟨decide (amt < 0), amt.natAbs * 2 ^ 32, 0, none⟩ },
        tellDom n.val fun x => { x with disc := true }])) s

/-- SLEW_DONE (R45): the remainder is zero, the slew ends. -/
def execSlewDone (n : Fin 8) (s : State) : Res := board (get fun s =>
  match (s.dom n.val).slew with
  | some w => Prog.when w.over (doAll [modDom n.val fun d => { d with slew := none },
      wrB (TIME.DOM_STATUS n.val) 3 false, int Pg.time 0 (16 + n.val)])
  | none => .skip) s

/-- HOLD_SET (R47, R48): at the next edge a LOCKED domain enters holdover. -/
def execHoldSet (a : Accessor) (n : Fin 8) (v : Word) (s : State) : Res :=
  done (domTell a n.val v fun x => { x with holdSet := true }) s

/-- HOLD_CLR (R47, R50): HOLDOVER clears at the next edge. -/
def execHoldClr (a : Accessor) (n : Fin 8) (v : Word) (s : State) : Res :=
  done (domTell a n.val v fun x => { x with holdClr := true }) s

/-- KEEPALIVE (R47, R48): the discipline timer restarts at the next edge. -/
def execKeepalive (a : Accessor) (n : Fin 8) (v : Word) (s : State) : Res :=
  done (domTell a n.val v fun x => { x with disc := true }) s

/-- DISCIPLINE_TIMEOUT (R48): the timer of a LOCKED domain has run DISC_TIMEOUT × 100 ms; it stops, and the domain enters
holdover. -/
def execDisciplineTimeout (n : Fin 8) (s : State) : Res := board (get fun s =>
  match (s.dom n.val).disc with
  | some k => Prog.when (decide (s.domState n.val = 3) && decide (0 < (s.acts n.val).lim) && decide ((s.acts n.val).lim ≤ k))
      (doAll [modDom n.val fun d => { d with disc := none }, enterHoldover n.val])
  | none => .skip) s

/-- SNAP (R68): the snapshot registers latch at the next edge. -/
def execSnap (a : Accessor) (n : Fin 8) (v : Word) (s : State) : Res :=
  done (domTell a n.val v fun x => { x with snap := true }) s

/-- SNAP_ALL (R68): the snapshots of all eight domains latch at the next edge. -/
def execSnapAll (a : Accessor) (s : State) : Res := done (
  byWriter a Pg.time 0x40 (Prog.each (List.range 8) fun n => tellDom n fun x => { x with snap := true })) s

/-! ## PPS inputs (R65), period outputs (R66), REF10M (R67) -/

/-- The captures of an input, head first. -/
def State.pps (s : State) (m : Nat) : List (Nat × Nat) := tget [] s.ctl.time.ppsFifo m

/-- Put the captures of an input: its FIFO, FILL, and the head in CAP_SEC and CAP_NS. -/
def setPps (m : Nat) (l : List (Nat × Nat)) : Prog := doAll [
  ctl fun c => { c with time.ppsFifo := nset [] c.time.ppsFifo m l },
  wrF (TIME.PPS_IN_CTL m) 18 16 l.length,
  match l with
  | [] => doAll [wrW (TIME.PPS_IN_CAP_SEC m) 0, wr (TIME.PPS_IN_CAP_NS m) 0]
  | h :: _ => doAll [wrW (TIME.PPS_IN_CAP_SEC m) h.1, wr (TIME.PPS_IN_CAP_NS m) (2 ^ 31 + h.2)]]

/-- PPS_IN_EDGE (R65). -/
def execPpsInEdge (m : Fin 4) (s : State) : Res := board (get fun s =>
  Prog.when (s.bit (TIME.PPS_IN_CTL m.val) 0) (
    let d := s.dom (s.fd (TIME.PPS_IN_CTL m.val) 6 4)
    if (s.pps m.val).length < 4 then doAll [setPps m.val (s.pps m.val ++ [(d.sec, d.ns)]), int Pg.time 0 (24 + m.val)]
    else wrF (TIME.PPS_IN_CTL m.val) 31 24 (satAdd 8 (s.fd (TIME.PPS_IN_CTL m.val) 31 24) 1))) s

/-- PPS_CAP_NS_READ (R65): after a read of CAP_SEC_LO, the nanoseconds that it latched, and their capture leaves the FIFO;
otherwise those of the head, which stays (log entry 20). -/
def execPpsCapNsRead (a : Accessor) (m : Fin 4) (s : State) : Res := done (byReader a Pg.time (get fun s =>
  match tget none s.ctl.time.ppsLatch m.val with
  | some w => doAll [answer w, ctl fun c => { c with time.ppsLatch := nset none c.time.ppsLatch m.val none },
      Prog.when (tbit w 31) (setPps m.val (s.pps m.val).tail)]
  | none => answer (s.rd (TIME.PPS_IN_CAP_NS m.val)))) s

/-- Period of an output in 2^-16 ns. Of PERIOD_NS from 1 to 99 the spec says nothing: the model takes it as it is (DESIGN CHOICE, log entry
145). -/
def State.ppsPeriod (s : State) (m : Nat) : Nat :=
  s.rd (TIME.PPS_OUT_PERIOD_NS m) * 65536 + s.fd (TIME.PPS_OUT_PERIOD_FRAC m) 15 0

/-- The k-th active edge of an output, 2^-16 ns of domain time: START + k × PERIOD (R66). -/
def State.ppsAt (s : State) (m k : Nat) : Nat :=
  (s.rdW (TIME.PPS_OUT_START_SEC m) * 1000000000 + s.rd (TIME.PPS_OUT_START_NS m)) * 65536 + k * s.ppsPeriod m

/-- Schedule the k-th edge of an output (R53 full form, R54 class 0). -/
def schedulePps (m k : Nat) : Prog := get fun s =>
  let dom := s.fd (TIME.PPS_OUT_CTL m) 6 4
  request dom 0 (.full (s.ppsAt m k / 131072) ((s.dom dom).nanos / 2)) (.periodOut m) fun st _ =>
    Prog.when (decide (st = ST.OK)) (ctl fun c => { c with time.ppsOutK := nset 0 c.time.ppsOutK m k })

/-- Domain time in 2^-40 ns, seconds and fraction together. -/
def Dom.units (d : Dom) : Nat := d.nanos * nsUnit + d.frac

/-- The first k whose edge is not in the past (R66); none for a single pulse that is. -/
def State.ppsFirst (s : State) (m : Nat) : Option Nat :=
  let now := (s.dom (s.fd (TIME.PPS_OUT_CTL m) 6 4)).units
  let start := s.ppsAt m 0 * 2 ^ 24
  if now ≤ start then some 0
  else if s.ppsPeriod m = 0 then none
  else some (ceilDiv (now - start) (s.ppsPeriod m * 2 ^ 24))

/-- PPS_OUT_ENABLE (R66): a write of OUT_CTL; with EN = 1 the first edge not in the past is scheduled. -/
def execPpsOutEnable (a : Accessor) (m : Fin 4) (v : Word) (s : State) : Res := done (
  byWriter a Pg.time (0x500 + 32 * m.val) (doAll [
    wrF (TIME.PPS_OUT_CTL m.val) 8 0 (v.toNat % 512 &&& 0x171),
    cancelFor (fun c => decide (c = .periodOut m.val)),
    Prog.when (!tbit v.toNat 0) (wrB (TIME.PPS_OUT_CTL m.val) 9 false),
    get fun s => Prog.when (s.bit (TIME.PPS_OUT_CTL m.val) 0) (match s.ppsFirst m.val with
      | some k => schedulePps m.val k
      | none => .skip)])) s

/-- PERIOD_OUTPUT_EDGE (R56, R66): OK drives the active edge, sets when the inactive one follows and schedules the next; STEPPED
returns the output to idle and clears EN. -/
def execPeriodOutputEdge (s : State) : Res := board (
  dispatch (fun c => match c with | .periodOut _ => true | _ => false) fun e stepped =>
    match e.consumer with
    | .periodOut m =>
      if stepped then stopPps m
      else get fun s =>
        let k := tget 0 s.ctl.time.ppsOutK m
        Prog.when (s.bit (TIME.PPS_OUT_CTL m) 0) (doAll [drivePps m true, wrB (TIME.PPS_OUT_CTL m) 9 true,
          ctl fun c => { c with time.ppsOffAt := nset 0 c.time.ppsOffAt m (s.ppsAt m k + s.rd (TIME.PPS_OUT_WIDTH m) * 65536) },
          Prog.when (decide (0 < s.ppsPeriod m)) (schedulePps m (k + 1))])
    | _ => .skip) s

/-- PPS_OUT_INACTIVE_EDGE (R66): WIDTH after an active edge. -/
def execPpsOutInactiveEdge (m : Fin 4) (s : State) : Res := board (get fun s =>
  Prog.when (tget false s.ctl.time.ppsOutLevel m.val &&
    decide (tget 0 s.ctl.time.ppsOffAt m.val * 2 ^ 24 ≤ (s.dom (s.fd (TIME.PPS_OUT_CTL m.val) 6 4)).units)) (drivePps m.val false)) s

/-- REF10M_MEASURE (R67): the offset measured over 10,000,000 cycles of an enabled input. A finished measurement clears the LOS
mark: R67 does not say when it clears (log entry 117). -/
def execRef10mMeasure (meas : Word) (s : State) : Res := board (get fun s =>
  Prog.when (s.bit TIME.REF10M_CTL 0) (doAll [wr TIME.REF10M_MEAS meas.toNat, wr TIME.REF10M_STATUS 2])) s

/-- REF10M_LOST (R67). -/
def execRef10mLost (s : State) : Res := board (get fun s =>
  Prog.when (s.bit TIME.REF10M_CTL 0) (doAll [wrB TIME.REF10M_STATUS 0 true, int Pg.time 0 28])) s

end Sys2Proof.Machine
end

