-- ==== Sys2Proof/Machine/Power.lean ====
section
/-! DEFINITION. Clock inputs (R96, R97) and low-power states (R98, R99, R145, R146). -/

namespace Sys2Proof.Machine

/-! ## Clocks -/

/-- What a lost clock takes with it (R96). -/
def clockGone (i : Nat) : Prog := get fun s => doAll [
  Prog.when (decide (i < 4)) (Prog.each (List.range 16) fun k => laneDown (16 * i + k)),
  Prog.when (decide (i = 3) && s.pairUp) pairDown,
  Prog.when (decide (i = 0)) (doAll [wrB CLK.CLK_STATUS 8 true, Prog.each (List.range 8) enterHoldover]),
  Prog.when (decide (i = 4)) (wrB CLK.CLK_STATUS 9 true),
  Prog.when (decide (4 < i)) (Prog.each [2 * (i - 5), 2 * (i - 5) + 1] fun l =>
    Prog.when (s.linkUp l) (linkDown l false))]

/-- CLOCK_LOST (R96, R97): inputs 0 to 3 REFCLK, 4 SYSCLK_25M, 5 and 6 the host reference clocks. -/
def execClockLost (i : Fin 7) (s : State) : Res := board (get fun s =>
  Prog.when (s.bit CLK.CLK_STATUS i.val) (doAll [
    wrB CLK.CLK_STATUS i.val false, inc CLK.LOSS_CNT,
    ctl fun c => { c with boot.clkLost := setField c.boot.clkLost i.val i.val 1 },
    int Pg.clk 0 (if i.val < 4 then 0 else if i.val = 4 then 1 else 2), clockGone i.val])) s

/-- CLOCK_RESTORED (R96, R97). The backups end at the next edge of REFCLK0 and at a pad tick (`refclkEdge`). -/
def execClockRestored (i : Fin 7) (s : State) : Res := board (get fun s =>
  Prog.when (!s.bit CLK.CLK_STATUS i.val) (doAll [
    wrB CLK.CLK_STATUS i.val true,
    ctl fun c => { c with boot.clkLost := setField c.boot.clkLost i.val i.val 0 },
    int Pg.clk 0 3])) s

/-- REFCLK_MEASURE (R97): the offset measured over a system-clock second, while both clocks run. -/
def execRefclkMeasure (off : Word) (s : State) : Res := board (get fun s =>
  Prog.when (s.bit CLK.CLK_STATUS 0 && s.bit CLK.CLK_STATUS 4) (wr CLK.REFCLK_MEAS off.toNat)) s

/-- A commit of the CLK page has taken effect: each BE_REFCLK pair that changes runs, or drives both legs low (R97). -/
def beRefclk (was : Nat) : Prog := get fun s => Prog.each (List.range 8) fun k =>
  let on := s.cbit CLK.BE_REFCLK_EN k
  Prog.when (decide (on ≠ tbit was k)) (emit (.pin 3 k on))

/-! ## Low-power states -/

/-- Exit latency of a state in µs (R145). -/
def exitUs (p : Nat) : Nat := [0, 2, 40, 2000].getD p 0

/-- Active functions: Bus Master Enable and a ring enabled, which a commit ends (R145, R153). -/
def State.activeFns (s : State) : List Nat :=
  (s.ctl.host.cfg.filter fun e => e.2.bme).map (·.1) |>.filter fun f =>
    (s.ringsOf f).any fun r => s.cbit (RING.CTX_CTL.of r) 0 && decide ((tget RingSt.init s.ctl.rings.rings r).st ≠ .off)

/-- The smallest LAT_TOL of the active functions, 0xFFFF for no limit (R145). -/
def State.latTol (s : State) : Nat := (s.activeFns.map fun f => s.fd (FUNC.LAT_TOL.of f) 15 0).foldl min 0xFFFF

/-- Whether a state's exit latency fits before every pending wheel event (R145, R146). -/
def State.fitsWheel (s : State) (p : Nat) : Bool :=
  s.ctl.time.flush.isEmpty &&
    s.ctl.time.events.all fun e => decide ((exitUs p * 500 : Nat) ≤ wtDiff e.target (s.wt e.dom)) && e.due.isNone

/-- The limits of R145 as they stand: the smallest LAT_TOL of the active functions, and which event is the earliest. -/
def State.limits (s : State) : Nat × Option Nat :=
  (s.latTol, (firstBy (fun a b : WEvent => decide (wtDiff a.target (s.wt a.dom) < wtDiff b.target (s.wt b.dom)))
    s.ctl.time.events).map (·.seq))

/-- The deepest state that the limits allow (R145). -/
def State.allowed (s : State) : Nat :=
  (([3, 2, 1] : List Nat).find? fun p => (decide (s.latTol = 0xFFFF) || decide (exitUs p ≤ s.latTol)) && s.fitsWheel p).getD 0

/-- The lane condition of P3 (R98, R204): every enabled lane is OFF or carries a port in LPI both ways with TW_RX of 2,000 µs or
more, and no port that cannot use LPI is up. -/
def State.lanesOk (s : State) : Bool :=
  (List.range 64).all (fun l => decide (s.fd (LANE.LANE_CTL l) 1 0 = 0) ||
    (s.portsOn l).any fun p => tget false s.ctl.net.lpiTx p && s.bit (MAC.MAC_STATUS.of p) 2 &&
      decide (2000 ≤ s.cfd (MAC.LPI_TW.of p) 31 16)) &&
  (List.range 512).all fun p => !s.portUp p || (!s.cbit (CAL.PORT p) 1 && decide (2 ≤ s.fd (LANE.LANE_CTL (p / 8)) 1 0))

/-- The host-link condition of P3: each link down or in L1 (R98). -/
def State.linksL1 (s : State) : Bool := (List.range 4).all fun l => !s.linkUp l || (s.link l).l1

/-- Idle condition of a state after `us` µs without activity (R98). -/
def State.idle (s : State) (us p : Nat) : Bool :=
  if p = 1 then decide (max 1 (s.cfd PWR.P1_IDLE_US 15 0) ≤ us)
  else if p = 2 then decide (max 1 (s.cfd PWR.P2_IDLE_US 15 0) ≤ us)
  else decide (max 1 (s.cfd PWR.P3_IDLE_MS 15 0) * 1000 ≤ us) && s.lanesOk && s.linksL1

/-- PSTATE_SELECT (R99, R145): the limits and idle conditions after `us` µs without activity. -/
def execPstateSelect (us : Nat) (s : State) : Res := live 4 (get fun s => doAll [
  wrF PWR.PSTATE_STATUS 3 2 s.allowed,
  wrF PWR.PSTATE_STATUS 8 4 (b2n (s.idle us 1) + 2 * b2n (s.idle us 2) + 4 * b2n (s.idle us 3) + 8 * b2n s.lanesOk +
    16 * b2n s.linksL1)]) s

/-- The state the device enters after `us` µs without activity (R98). -/
def State.enters (s : State) (us : Nat) : Nat :=
  if s.cbit PWR.PSTATE_CFG 8 then 0
  else (([3, 2, 1] : List Nat).find? fun p => decide (p ≤ s.allowed) && s.cbit PWR.PSTATE_CFG (p - 1) && s.idle us p).getD 0

/-- PSTATE_ENTER (R98). -/
def execPstateEnter (us : Nat) (s : State) : Res := live 4 (get fun s =>
  let p := s.enters us
  Prog.when (decide (s.pstate < p) && !s.ctl.boot.exiting) (doAll [
    wrF PWR.PSTATE_STATUS 1 0 p, inc (PWR.ENTRY_CNT (p - 1)),
    ctl fun c => { c with boot.limits := s.limits }, peep 12 p 0])) s

/-- The exit from a low-power state starts (R146). -/
def beginExit : Prog := get fun s =>
  Prog.when (decide (0 < s.pstate) && !s.ctl.boot.exiting) (ctl fun c => { c with boot.exiting := true })

/-- The exit starts for a cause of R99. -/
def wake (cause : Nat) : Prog := get fun s =>
  Prog.when (decide (0 < s.pstate) && !s.ctl.boot.exiting) (doAll [beginExit, wr PWR.WAKE_CAUSE cause])

/-- A commit of the PWR page has taken effect: FORCE_P0 brings the device to P0 (R98). R99 gives it no cause: WAKE_CAUSE stays
(log entry 119). -/
def pwrCommitted : Prog := get fun s => Prog.when (s.cbit PWR.PSTATE_CFG 8) beginExit

/-- PSTATE_WAKE (R99, R146): cause 0 a doorbell or poll, 1 an arriving frame, 2 a host request, 3 a change of a limit of R145, 4 a
wheel event within the exit latency. -/
def execPstateWake (cause : Fin 5) (s : State) : Res := live 4 (get fun s =>
  let near := s.ctl.time.events.any fun e => decide (wtDiff e.target (s.wt e.dom) ≤ (exitUs s.pstate * 500 : Nat))
  Prog.when ((decide (cause.val = 3) && (decide (s.limits ≠ s.ctl.boot.limits) || decide (s.allowed < s.pstate))) || (decide (cause.val = 4) && near) ||
    decide (cause.val < 3)) (wake cause.val)) s

/-- PSTATE_EXIT_DONE (R98, R99): the gated blocks run again. -/
def execPstateExitDone (s : State) : Res := live 4 (get fun s =>
  Prog.when s.ctl.boot.exiting (doAll [
    ctl fun c => { c with boot := { c.boot with exiting := false } },
    wrF PWR.PSTATE_STATUS 1 0 0, Prog.when (decide (s.pstate = 3)) (int Pg.pwr 0 0), peep 12 0 0])) s

/-- PARTNER_LPI_EXIT (R98, R99, R213). -/
def execPartnerLpiExit (p : Fin 512) (s : State) : Res := live 4 (get fun s =>
  Prog.when (s.bit (MAC.MAC_STATUS.of p.val) 2) (doAll [wrB (MAC.MAC_STATUS.of p.val) 2 false, wake 5])) s

end Sys2Proof.Machine
end

