-- ==== Sys2Proof/Machine/View.lean ====
section
/-! DEFINITION. What reads of computed registers return: fields that show what stands behind the pages. A view is given at a
register's offset, at the LO offset with all 64 bits for a pair. -/

namespace Sys2Proof.Machine

/-- Index `i` with `d = base + i × stride` for `i < n`. -/
def indexOf (d base stride n : Nat) : Option Nat :=
  if base ≤ d ∧ (d - base) % stride = 0 ∧ (d - base) / stride < n then some ((d - base) / stride) else none

/-- PAGE_STATUS (R75, R79, R85, R486): PENDING of any copy while a commit of ALL is under way. -/
def State.pageStatus (s : State) (page inst : Nat) : Nat :=
  let v := s.rd ((HDR.PAGE_STATUS page).of inst)
  let pend := tbit v 0 || (decide (tget 0 s.ctl.pendObj (64 + page) = 1) &&
    (List.range (instCount page)).any fun i => s.isPending page i)
  let bad := s.blockErr page inst || (decide (page = 25) && s.bit (FLOW.ENG_STATUS.of inst) 1)
  setField v 0 0 (b2n pend) + b2n bad * 4 + b2n (s.bit CHIP.BOOT_LOCK 0) * 8

/-- The instance summary of a windowed page (R72): copies 32k to 32k + 31 with an unmasked cause. -/
def State.summary (s : State) (page k : Nat) : Nat :=
  ((List.range 32).map fun i =>
    b2n (decide (32 * k + i < instCount page) &&
      decide (s.rd ((HDR.INT_STAT page).of (32 * k + i)) &&& notN 32 (s.rd (HDR.INT_MASK page)) ≠ 0)) * 2 ^ i).sum

/-- Header registers and summaries (R72, R75). -/
def State.viewHeader (s : State) (a : Accessor) (page off : Nat) : Option Nat :=
  if off = 0 then some (0x4B510000 + (if page = 12 then 11 else page) * 256 + page)
  else if off = 4 then some 1
  else if off = 0xC then some (s.pageStatus page (s.instSel a page))
  else if windowed page ∧ 0x80 ≤ off ∧ off < 0x100 then some (s.summary page ((off - 0x80) / 4))
  else none

/-- CTX_STATE and CTX_CPL (R185). The expected phase of a ring that is OFF again reads as its reset value 0, a DESIGN CHOICE (log entry
150): the spec says only what enabling and a reset make of it. -/
def State.viewRing (s : State) (r off : Nat) : Option Nat :=
  let g := s.ring r
  let cpl := decide (65536 ≤ r)
  if off = 0x60 then
    some (g.st.code + (if g.st = .off then 0 else if cpl then (g.wpass + 1) % 2 else (g.pass + 1) % 2) * 4 + g.held.length % 32 * 8 +
      (if cpl then g.widx else g.head) * 65536)
  else if off = 0x64 then some (if cpl then g.swHead + b2n g.armed * 65536 else 0)
  else none

/-- FN_STATUS and PSTATE (R147); with no active function there is no smallest LAT_TOL, and the field reads 0. -/
def State.viewFunc (s : State) (f off : Nat) : Option Nat :=
  if off = 0x44 then
    some (b2n (s.fnSt f).busy + (s.fnSt f).step * 2 + b2n (s.fnExists f || ((s.fnSt f).busy && (s.fnSt f).vfGoing)) * 32 + b2n (decide (f ∈ s.activeFns)) * 64)
  else if off = 0x70 then some (s.pstate + if s.activeFns.isEmpty then 0 else s.latTol * 4)
  else none

/-- WHEEL_STATUS, SCHED_HANDLE and SLEW_LEFT (R45, R64, R69). -/
def State.viewTime (s : State) (page off : Nat) : Option Nat :=
  if page = 10 ∧ off = 0x44 then some (s.ctl.time.events.length % 2 ^ 21 + b2n (decide (s.class1Max ≤ s.class1)) * 2 ^ 24)
  else if page = 10 ∧ off = 0x70 then some s.ctl.time.handle
  else if page = 9 then (indexOf off 0x124 64 8).map fun n => ((s.dom n).slew.map Slew.left).getD 0
  else none

/-- PROTECTED reads of the parser, classifier and table pages: INDIR_DATA, rule counters, ENTRIES, HAMPER_USE, MEMB_DATA,
NOTIFY_HEAD, prefixes, lengths, next hops (R240 to R243, R262, R270). -/
def State.viewTables (s : State) (a : Accessor) (page off : Nat) : Option Nat :=
  let p := s.instSel a page
  if page = 21 then
    let sel := s.sel a 21 0x900
    let k := tget (0, 0) s.ctl.net.ruleCnt (p * 65536 + s.sel a 21 0x940 % 65536)
    if off = 0x904 then some (s.indir p (field sel 6 0) (field sel 23 16))
    else if off = 0x948 then some k.1
    else if off = 0x950 then some (s.copy .hiLatch (CLASS.CNT_BYTE.of p) + 2 ^ 32 * s.copy .hiLatch (CLASS.CNT_BYTE.hi.of p))
    else none
  else if page = 22 then
    if off = 0x234 then some (s.hashValid p).length
    else if off = 0x238 then some ((s.hashValid p).filter fun i => decide (4194304 ≤ i)).length
    else if off = 0x28C then some ((s.notifyRing p).head + 65536 * (s.notifyRing p).widx)
    else if off = 0x604 then some (tget 0 s.ctl.net.members (p * 65536 + s.sel a 22 0x600 % 65536))
    else none
  else if page = 23 then
    if off = 0x140 then some ((s.lpmUsed p).filter fun i => tbit (leAt (s.lpmEntry p i) 17 1) 0).length
    else if off = 0x144 then some ((List.range 33).map fun l => b2n (s.lenUsed p false l) * 2 ^ l).sum
    else match indexOf off 0x150 4 5, indexOf off 0x184 4 4 with
      | some k, _ => some ((List.range 32).map fun i => b2n (decide (32 * k + i ≤ 128) && s.lenUsed p true (32 * k + i)) * 2 ^ i).sum
      | none, some w => if tbit (tget 0 s.ctl.net.nhSeen p) w then some (tget 0 s.ctl.net.nhLatch p / 2 ^ (32 * w) % 2 ^ 32) else none
      | none, none => none
  else none

/-- Computed registers of the TM page (R298). -/
def State.viewTm (s : State) (a : Accessor) (off : Nat) : Option Nat :=
  let q := s.sel a 24 0x140
  let pol := tget Policer.init s.ctl.net.policers (s.sel a 24 0x200 % 2 ^ 18)
  if off = 0xC0 then
    let l := s.louvre (s.sel a 24 0x40 % 512)
    some (b2n l.run + l.bank % 2 * 2 + b2n l.pendingAt.isSome * 4 + l.entry % 256 * 256)
  else if off = 0x134 then some (s.freeCells true)
  else if off = 0x138 then some (ceilDiv (s.spillBytes true) (2 ^ 20))
  else if off = 0x144 then some (min (2 ^ 32 - 1) (s.qDepth true (q % 8192)))
  else if off = 0x148 then some (tget 0 s.ctl.net.qHwm (q % 8192))
  else if off = 0x218 then some pol.green
  else if off = 0x21C then some pol.yellow
  else if off = 0x220 then some pol.red
  else (indexOf off 0x180 4 16).map fun b => tget 0 s.ctl.net.hist (q % 8192 * 32 + field q 16 16 * 16 + b)

/-- Whether a flow register may be read through REG_DATA: STOPPED or FAULTED (R335). -/
def State.regReadable (s : State) (t : Nat) : Bool := decide ((s.thread t).st = 6 ∨ (s.thread t).st = 7)

/-- The thread and register that REG_SEL of an accessor names. -/
def State.regSel (s : State) (a : Accessor) : Nat × Nat :=
  let v := s.sel a 25 0x400
  (16 * s.instSel a 25 + field v 3 0, field v 8 4)

/-- Valid flow-cache entries (R328). -/
def State.fcEntries (s : State) : Nat :=
  ((s.usedEntries 1 0 s.fcBase (2 ^ s.fcLog2 * 256) 64).filter fun i => tbit (s.memNat 1 0 (s.fcBase + 64 * i + 56) 1) 0).length

/-- Computed registers of the FLOW page (R335). RUN: enabled, without an error, no reload or self-test. -/
def State.viewFlow (s : State) (a : Accessor) (off : Nat) : Option Nat :=
  let e := s.instSel a 25
  let count := fun st : Nat => ((List.range 16).filter fun k => decide ((s.thread (16 * e + k)).st = st)).length
  if 0x500 ≤ off ∧ e ≠ 0 then some 0
  else if off = 0x104 then
    let bad := s.bit (FLOW.ENG_STATUS.of e) 1
    let rel := s.mrunning MA.CS_RELOAD e
    let tst := s.mrunning MA.ENGINE_SELFTEST e
    some (b2n (s.bit (FLOW.ENG_CTL.of e) 0 && !bad && !rel && !tst) + b2n bad * 2 + b2n rel * 4 + b2n tst * 8 +
      count 2 * 2 ^ 16 + count 1 * 2 ^ 24)
  else if off = 0x408 then
    let (t, r) := s.regSel a
    some (if s.regReadable t then tget 0 (s.thread t).xs r else 0)
  else if off = 0x44C then some (s.memNat 3 e (4 * 272) 4)
  else if off = 0x510 then some s.fcEntries
  else match indexOf off 0x20C 0x20 16, indexOf off 0x210 0x20 16, indexOf off 0x214 0x20 16 with
    | some k, _, _ =>
      let h := s.thread (16 * e + k)
      some (h.st + b2n h.inTrap * 8 + h.cause % 16 * 16 + b2n ((h.spec.map fun p => !p.resolved).getD false) * 256 +
        b2n (h.stopPending && h.stopMem) * 512)
    | none, some k, _ => some (s.thread (16 * e + k)).fpc
    | none, none, some k => some (s.thread (16 * e + k)).recUpc
    | none, none, none => none

/-- Computed registers of the CHAN and CORE pages (R336, R337). -/
def State.viewChan (s : State) (a : Accessor) (page off : Nat) : Option Nat :=
  if page = 26 then (indexOf off 0x104 0x20 32).map fun c =>
    let e := s.instSel a 26
    let x := s.chan (32 * e + c)
    let n := x.words.length
    (s.rd ((CHAN.CH_STATUS c).of e) &&& 0xC0) + n % 8 + b2n (decide (4 ≤ n)) * 8 + b2n (decide (n = 0)) * 16 +
      b2n x.evt.isSome * 32 + x.waiters.length % 2048 * 2 ^ 16
  else if page = 27 ∧ off = 0x138 then
    let g := s.ctrlRing (s.instSel a 27)
    some (g.swHead + 65536 * g.widx)
  else none

/-- Computed registers of the RDMA page (R360). -/
def State.viewRdma (s : State) (a : Accessor) (off : Nat) : Option Nat :=
  let q := s.sel a 28 0x40 % 2 ^ 18
  let x := s.qp q
  if off = 0x90 then some (x.st + b2n x.rtxWait * 8 + b2n x.armedWait * 16 + x.errSt % 65536 * 65536)
  else if off = 0x94 then some (s.qpRate q)
  else if off = 0x98 then some x.rtt
  else if off = 0x9C then some ((x.out.filter (·.sent)).length % 2 ^ 24)
  else if off = 0x304 then some (tget 0 s.ctl.rdma.trig (s.sel a 28 0x300 % 65536))
  else none

/-- Computed registers of the BLKF and BLKB pages (R398, R399). -/
def State.viewBlock (s : State) (a : Accessor) (page off : Nat) : Option Nat :=
  if page = 29 then
    let v := s.sel a 29 0x40 % 16384
    let x := s.vol v
    let win := (s.window? (s.sel a 29 0x140 % 2048)).bind s.work?
    if off = 0x64 then some (b2n x.pend + b2n x.multi * 2 + b2n x.solo * 4 +
      b2n (s.ctl.blk.pieces.any fun p => decide (p.vol = v)) * 8 + x.count % 65536 * 65536)
    else if off = 0x68 then some x.tag
    else if off = 0x6C then some x.status
    else if off = 0x70 then some x.lba
    else if off = 0x144 then some ((win.map fun w => 1 + w.taskOp % 16 * 16).getD 0)
    else if off = 0x148 then some ((win.map Work.tag).getD 0)
    else none
  else match indexOf off 0x40C 0x10 16, indexOf off 0x600 8 16 with
    | some k, _ => some (s.setWord k)
    | none, some k => some (s.pextsFree k)
    | none, none => none

/-- SLOT_INFO and the counts of the selected slot (R444). -/
def State.viewVault (s : State) (off : Nat) : Option Nat :=
  let x := s.slot (s.fd VAULT.SLOT 13 0)
  if off = 0x58 then some (x.kind + x.attr * 256 + b2n x.warned * 2 ^ 16 + b2n x.spent * 2 ^ 17)
  else if off = 0x60 then some x.use
  else if off = 0x68 then some x.warn
  else if off = 0x70 then some x.limit
  else none

/-- What a read of a computed register returns; none where the register holds its own value. -/
def State.view (s : State) (a : Accessor) (page off : Nat) : Option Nat :=
  match s.viewHeader a page off with
  | some v => some v
  | none =>
    match page with
    | 3 => if off = 0x40 then some (s.fd PAD.PAD_STATUS 0 0 + s.ctl.time.edges * 4 / 625 % 65536 * 65536) else none
    | 5 => if off = 0x40 then some (setField (s.rd BOOT.STATE) 12 12 (b2n (!s.ctl.host.retryEnded))) else none
    | 7 => (indexOf off 0x1004 0x10 1024).map fun n =>
        (match (s.latch n).st with | .free => 0 | .held => 1 | .broken => 2 | .heldBroken => 3) + (s.latch n).owner * 65536
    | 8 => (indexOf off 0x80 4 16).map compat
    | 9 => s.viewTime 9 off
    | 10 => s.viewTime 10 off
    | 13 => s.viewFunc (s.sel a 13 0x40 % 2048) off
    | 14 =>
      let w := s.window (s.fd XLAT.WIN_SEL 10 0) (s.fd XLAT.WIN_SEL 14 12)
      if off = 0x5C then some (s.rdW XLAT.WIN_LIMIT ||| 0xFFF)
      else if off = 0x64 then some (b2n w.en + b2n w.rd * 2 + b2n w.wr * 4) else none
    | 15 => s.viewRing (s.sel a 15 0x40 % 131072) off
    | 16 => if off = 0x60 then some s.spaceInfo else none
    | 21 => s.viewTables a 21 off
    | 22 => s.viewTables a 22 off
    | 23 => s.viewTables a 23 off
    | 24 => s.viewTm a off
    | 25 => s.viewFlow a off
    | 26 => s.viewChan a 26 off
    | 27 => s.viewChan a 27 off
    | 28 => s.viewRdma a off
    | 29 => s.viewBlock a 29 off
    | 30 => s.viewBlock a 30 off
    | 32 => match indexOf off 0x44 4 16 with
      | some w => if tbit s.ctl.ciph.saWords w then some (leAt s.ctl.ciph.saLatch (4 * w) 4) else none
      | none => none
    | 33 => s.viewVault off
    | 38 => if off = 0x64 then some (s.life (s.sel a 38 0x60 % 256)) else none
    | 39 => if off = 0x48 then some (setField (s.rd PEEP.STATUS) 0 0 (b2n s.tracing)) else none
    | 40 => if off = 0x68 then some (b2n s.holdupMet + s.effMiB % 2 ^ 14 * 2 ^ 16) else none
    | _ => none

/-- Bits of a register whose value the spec leaves to what the model does not hold: levels of I2C pads, samples of the rail
monitors, PFAIL_N after its fall, the FPC of a thread that runs. -/
def State.openBits (s : State) (a : Accessor) (page off : Nat) : Nat :=
  if page = 4 ∧ (indexOf off 0x108 0x20 4).isSome then 0x30000
  else if page = 40 ∧ off = 0x44 ∧ s.ctl.boot.pfailLow = true then 0x10000
  else if page = 25 then
    match indexOf off 0x210 0x20 16 with
    | some k => if s.regReadable (16 * s.instSel a 25 + k) then 0 else 2 ^ 32 - 1
    | none => 0
  else 0

/-- The whole value at an offset: 64 bits at the LO half of a pair. -/
def State.whole (s : State) (a : Accessor) (page off : Nat) (wide : Bool) : Nat :=
  match s.view a page off with
  | some v => v
  | none => s.plainWord a page off + (if wide then 2 ^ 32 * s.plainWord a page (off + 4) else 0)

end Sys2Proof.Machine
end

