-- ==== Sys2Proof/Machine/Commit.lean ====
section
/-! DEFINITION. COMMIT, DISCARD and the commit boundaries (R77 to R82), with what the chapters refuse. -/

namespace Sys2Proof.Machine

/-- The staged word of a register of an object page. -/
def State.stw (s : State) (r : Reg) : Nat := s.copy .staged (r.of 0)

/-- The staged value of a pair of an object page. -/
def State.stwW (s : State) (r : Reg) : Nat := s.stw r + 2 ^ 32 * s.stw r.hi

/-! ## What the chapters refuse -/

/-- A RING commit that R151 refuses. -/
def State.ringRefused (s : State) (r : Nat) : Bool :=
  let c := s.stw RING.CTX_CTL
  let old := s.cfg (RING.CTX_CTL.of r)
  let en := tbit c 0
  let was := tbit old 0
  let work := decide (r < 65536)
  let owner := field c 26 16
  let link := 65536 + field (s.stw RING.CTX_LINK) 15 0
  let loc := s.stw RING.CTX_LOCAL
  let known := s.ctl.rings.rings.map (·.1)
  let isOn := fun x : Nat => s.cbit (RING.CTX_CTL.of x) 0
  let fixed := 0x07FF1FFC
  (en && was && (decide (c &&& fixed ≠ old &&& fixed) || decide (s.stwW RING.CTX_BASE ≠ s.cfgW (RING.CTX_BASE.of r)) ||
    decide (loc ≠ s.cfg (RING.CTX_LOCAL.of r)) || decide (s.stw RING.CTX_LINK ≠ s.cfg (RING.CTX_LINK.of r)))) ||
  decide (field c 12 8 < 6) || decide (16 < field c 12 8) ||
  (work && en && (decide (field c 7 4 = 0) || decide (8 ≤ field c 7 4))) ||
  (work && en && (!isOn link || decide (s.ringOwner link ≠ owner))) ||
  (en && known.any fun x => decide (x ≠ r) && (decide (x < 65536) == work) && isOn x && decide (s.ringOwner x = owner) &&
    decide (s.cfd (RING.CTX_LOCAL.of x) 11 0 = loc)) ||
  (!work && en && decide (2048 ≤ loc)) ||
  (!work && was && !en && known.any fun x =>
    decide (x < 65536) && (isOn x || decide ((s.ring x).st = .draining)) && decide (s.ringCpl x = r))

/-- A TM commit that R272 refuses. -/
def State.tmRefused (s : State) (obj : Nat) : Bool :=
  let kind := obj / 8192
  let i := obj % 8192
  let p := s.stw TM.PORT_CTL
  let n := field (s.stw TM.LV_COUNT) 8 0
  let first := lvFirst (fun r => s.copy .staged (r.of 0)) i (s.lvFrom i)
  if kind = 0 then false
  else if kind = 1 then decide (2048 ≤ i)
  else if kind = 2 then decide (512 ≤ i) ||
    ((List.range (min n 256)).any fun e => decide ((s.lvEntry i (field p 1 1) e).2 < 64)) ||
    (tbit p 0 && (decide (n < 1) || decide (256 < n) || decide (s.stw TM.LV_CYCLE_NS < 1000) ||
    !s.inHorizon (s.portDom i) (.full (ceilDiv first 2) ((s.dom (s.portDom i)).nanos / 2))))
  else true

/-- A BLKF commit that R367 refuses. EN = 1 belongs to its first case alone (log entry 32). -/
def State.volRefused (s : State) (v : Nat) : Bool :=
  let c := s.stw BLKF.VOL_CTL
  let en := tbit c 0
  let was := s.volEn v
  let first := s.stwW BLKF.VOL_FIRST_EXT % 2 ^ 34
  let n := s.stwW BLKF.VOL_NUM_EXT % 2 ^ 34
  let set := field c 11 8
  (en && decide (n = 0)) || decide (first % 4 ≠ 0) ||
  decide (2 ^ s.mapLog < first + n) || !s.cbit (BLKB.SET_CFG set) 0 ||
  (s.volsOn.any fun w => decide (w ≠ v) && decide (s.volFirst w < first + n) && decide (first < s.volFirst w + s.volExts w)) ||
  (en && was && (decide (first ≠ s.volFirst v) || decide (set ≠ s.volSet v) ||
    decide ((if tbit c 5 then 4096 else 512) ≠ s.volBs v) || decide (n < s.volExts v))) ||
  (was && !en && (s.ctl.blk.pieces.any fun p => decide (p.vol = v)))

/-- Whether two ranges meet. -/
def meet (a n b m : Nat) : Bool := decide (a < b + m) && decide (b < a + n)

/-- A BLKB commit that R365 refuses. -/
def State.setRefused (s : State) : Bool :=
  let st := fun r : Reg => s.copy .staged r
  let names := fun k i : Nat => let c := st (BLKB.SSD_CFG i); tbit c 0 && decide (field c 2 1 = 1) && decide (field c 6 3 = k)
  let lba0 := fun k : Nat => (st (BLKB.SET_LBA0 k) + 2 ^ 32 * st (BLKB.SET_LBA0 k).hi) % 2 ^ 48
  let jssds := [s.fd MAP.JRNL_CFG 3 0, s.fd MAP.JRNL_CFG 7 4]
  (List.range 16).any fun k =>
    let c := st (BLKB.SET_CFG k)
    let l := field c 2 1
    let mem := (List.range 16).filter (names k)
    let pos := mem.map fun i => field (st (BLKB.SSD_CFG i)) 10 7
    let lbas := mem.map fun i => (tget 0 s.ctl.blk.caps i - lba0 k) / layoutLbas l * layoutLbas l
    let len := lbas.foldl min (lbas.headD 0)
    (tbit c 0 && (!(List.range (layoutMembers l)).all (fun p => decide (pos.count p = 1)) ||
      decide (pos.length ≠ layoutMembers l) ||
      mem.any fun i => decide (i ∈ jssds) && (meet (lba0 k) len (s.rdW MAP.JRNL_LBA % 2 ^ 48) (s.fd MAP.JRNL_SIZE 23 0) ||
        meet (lba0 k) len (s.rdW MAP.CKPT_LBA % 2 ^ 48) (2 ^ (s.mapLog - 9))))) ||
    ((decide (l ≠ s.layoutOf k) || decide (lba0 k ≠ s.setLba0 k)) && s.volsOn.any fun v => decide (s.volSet v = k))

/-- A native port of the staged calendar that breaks R190, R193. -/
def State.nativeBad (s : State) (m : Nat) : Bool :=
  let c := s.copy .staged (CAL.PORT m)
  let l := m / 8
  let spl := s.laneSlots l
  let k := field c 8 2 / max 1 spl
  decide (m % 8 ≠ 0) || decide (spl = 0) || decide (field c 8 2 % max 1 spl ≠ 0) || !decide (k ∈ [1, 2, 4, 8]) ||
    decide (l % max 1 k ≠ 0) || (List.range k).any fun i => decide (s.fd (LANE.LANE_CTL (l + i)) 1 0 ≠ s.fd (LANE.LANE_CTL l) 1 0)

/-- A FlexE group of the staged calendar that breaks R191. -/
def State.groupBad (s : State) (g : Nat) : Bool :=
  let c := s.copy .staged (CAL.GRP_CFG g)
  let n := field c 11 7
  let f := field c 6 1
  let phy := field c 13 12
  decide (n < 1) || decide (16 < n) || decide (64 < f + n) || decide (f / 16 ≠ (f + n - 1) / 16) || decide (phy = 3) ||
    (decide (phy = 2) && decide (n % 2 ≠ 0)) ||
    (List.range n).any fun i => decide (s.fd (LANE.LANE_CTL (f + i)) 1 0 ≠ (if phy = 0 then 2 else 1))

/-- A CAL commit that R193 refuses, or that gives a client an ID outside R192's (DEDUCED, log entry 134). -/
def State.calRefused (s : State) : Bool :=
  let port := fun m : Nat => s.copy .staged (CAL.PORT m)
  let slot := fun m : Nat => s.copy .staged (CAL.SLOT m)
  let groups := (List.range 16).filter fun g => tbit (s.copy .staged (CAL.GRP_CFG g)) 0
  let ports := (List.range 512).filter fun m => tbit (port m) 0
  let natives := ports.filter fun m => !tbit (port m) 1
  let clients := ports.filter fun m => tbit (port m) 1
  let used := natives.flatMap (s.portLanes .staged) ++ groups.flatMap (s.groupLanes .staged)
  let entries := groups.flatMap fun g => (s.groupLanes .staged g).flatMap fun l =>
    ((List.range 8).map (8 * l + ·)).filterMap fun x => if tbit (slot x) 15 then some (g, x, field (slot x) 8 0) else none
  natives.any s.nativeBad || groups.any s.groupBad || decide (used.dedup.length ≠ used.length) ||
  (clients.any fun m =>
    let mine := entries.filter fun e => decide (e.2.2 = m)
    decide (field (port m) 31 16 = 0) || decide (field (port m) 31 16 = 0xFFFF) || decide (mine.length ≠ field (port m) 8 2) || decide (mine.length < 1) || decide (64 < mine.length) ||
      !(mine.any fun e => decide (e.2.1 = m)) || mine.any fun e => decide (e.2.1 < m)) ||
  entries.any fun e => decide (s.laneSlots (e.2.1 / 8) ≤ e.2.1 % 8) ||
    (decide (e.2.2 ∈ clients) && decide (field (port e.2.2) 12 9 ≠ e.1))

/-- Stake `n` of a pipeline's staged graph (R225). -/
def State.stagedStake (s : State) (pipe n : Nat) : List Byte := s.bytes 12 pipe (128 * n) 128

/-- The rule of R226 that a staged stake breaks, 0 when it breaks none. -/
def State.stakeFault (s : State) (pipe n : Nat) : Nat :=
  let st := s.stagedStake pipe n
  let valid := fun m : Nat => tbit (leAt (s.stagedStake pipe m) 0 4) 0
  let names := ((List.range 8).map fun k => leAt st (36 + 6 * k) 2) ++ [leAt st 80 2]
  let len := leAt st 4 4
  if !valid n then 0
  else if names.any fun w => tbit w 15 && !valid (field w 9 0) then 1
  else if (List.range 4).any fun k => decide (64 < field (leAt st (16 + 4 * k) 4) 13 8 + field (leAt st (16 + 4 * k) 4) 18 14) then 2
  else if 8 < field len 22 19 ∨ 8 < field len 18 16 + field len 22 19 then 3
  else 0

/-- The first staged stake that breaks R226, with its rule. Only stakes that hold a written byte can be VALID. -/
def State.graphFault (s : State) (pipe : Nat) : Option (Nat × Nat) :=
  ((s.usedEntries 12 pipe 0 131072 128).map fun n => (n, s.stakeFault pipe n)).find? fun e => decide (e.2 ≠ 0)

/-- Whether a page's chapter refuses a COMMIT of a copy for an object. -/
def State.chapterRefuses (s : State) (page inst obj : Nat) : Bool :=
  match page with
  | 3 => s.padRefused
  | 15 => s.ringRefused obj
  | 18 => s.calRefused
  | 20 => (s.graphFault inst).isSome
  | 24 => s.tmRefused obj
  | 28 => s.qpRefused obj
  | 29 => s.volRefused obj
  | 30 => s.setRefused
  | _ => false

/-! ## The three commands -/

/-- Bytes of a memory space become those of another, over `len` bytes from 0. -/
def copySpace (from_ to_ inst len : Nat) : Prog := get fun s =>
  let offs := fun sp : Nat => s.mem.filterMap fun c =>
    if memKey sp inst 0 ≤ c.1 ∧ c.1 < memKey sp inst 0 + len then some (c.1 - memKey sp inst 0) else none
  Prog.each ((offs from_ ++ offs to_).dedup) fun o => .memSet (memKey to_ inst o) (s.byte from_ inst o)

/-- Bytes of a pipeline's graph: 1,024 stakes of 128 bytes (R178). -/
def graphBytes : Nat := 131072

/-- The object that a COMMIT or DISCARD by an accessor concerns (R147, R151, R272, R344, R398). -/
def State.commitObj (s : State) (a : Accessor) (page : Nat) : Nat :=
  match page with
  | 13 => s.sel a 13 0x40 % 2048
  | 15 => s.sel a 15 0x40 % 131072
  | 24 => s.sel a 24 0x40 % 32768
  | 28 => s.sel a 28 0x40 % 2 ^ 18
  | 29 => s.sel a 29 0x40 % 16384
  | _ => 0

/-- A refused COMMIT (R79). -/
def refuseCommit (page inst : Nat) : Prog := doAll [
  wrB ((HDR.PAGE_STATUS page).of inst) 1 true, err page inst EC.CONFIG RS.COMMIT_REJ (bar0 page 8)]

/-- What R226 adds to a refusal of the PARSE page. -/
def noteGraph (pipe : Nat) : Prog := get fun s =>
  match s.graphFault pipe with
  | some (n, r) => doAll [wr (PARSE.COMMIT_INFO.of pipe) (r + 65536 * n), int Pg.parse pipe 1]
  | none => .skip

/-- A COMMIT accepted, with the staged graph on the PARSE page (R225). -/
def acceptCommit (page inst obj : Nat) : Prog := doAll [
  beginCommit page inst obj, Prog.when (decide (page = 20)) (copySpace 12 18 inst graphBytes)]

/-- A COMMIT of one copy (R77, R79, R81). -/
def commitOne (a : Accessor) (page : Nat) : Prog := get fun s =>
  let i := s.instSel a page
  if !hasStaged page then stepSeq page i
  else if s.isPending page i then refuseCommit page i
  else if s.chapterRefuses page i (s.commitObj a page) then
    doAll [Prog.when (decide (page = 20)) (noteGraph i), refuseCommit page i]
  else acceptCommit page i (s.commitObj a page)

/-- The flag that a COMMIT of ALL is under way on a page (R75 PENDING), kept among the pending objects. -/
def allFlag (page : Nat) : Nat := 64 + page

/-- A COMMIT of every copy of a windowed page (R79, R80); refused as a whole. -/
def commitEvery (a : Accessor) (page : Nat) : Prog := get fun s =>
  let all := List.range (instCount page)
  if !hasStaged page then Prog.each all (stepSeq page)
  else if all.any (s.isPending page) then refuseCommit page (s.instSel a page)
  else if all.any fun i => s.chapterRefuses page i 0 then
    doAll [Prog.when (decide (page = 20)) (Prog.each all noteGraph), refuseCommit page (s.instSel a page)]
  else doAll [Prog.each all fun i => acceptCommit page i 0, ctl fun c => { c with pendObj := nset 0 c.pendObj (allFlag page) 1 }]

/-- A DISCARD (R82): the staged set takes the committed one. -/
def discard (a : Accessor) (page : Nat) : Prog := get fun s =>
  let i := s.instSel a page
  doAll [copyBank page .committed (if objectPage page then s.commitObj a page else i) .staged i,
    Prog.when (decide (page = 20)) (copySpace 4 12 i graphBytes)]

/-- A write of PAGE_COMMIT: [0] COMMIT, [1] DISCARD, [2] ALL (R75, R79). -/
def commitWrite (a : Accessor) (page v : Nat) : Prog := byWriter a page 8 (get fun s =>
  if tbit v 0 && tbit v 1 then refuseCommit page (s.instSel a page)
  else if tbit v 1 then discard a page
  else if tbit v 0 then (if tbit v 2 && windowed page then commitEvery a page else commitOne a page)
  else .skip)

/-- COMMIT (R77 to R79, R81). -/
def execCommit (a : Accessor) (page : Fin 41) (s : State) : Res := done (commitWrite a page.val 1) s

/-- COMMIT_ALL (R79, R80). -/
def execCommitAll (a : Accessor) (page : Fin 41) (s : State) : Res := done (commitWrite a page.val 5) s

/-- DISCARD (R75, R82); `both` sets COMMIT beside it, and then neither acts (R79). -/
def execDiscard (a : Accessor) (page : Fin 41) (both : Bool) (s : State) : Res :=
  done (commitWrite a page.val (if both then 3 else 2)) s

/-! ## Boundaries -/

/-- A RING commit has taken effect (R152 to R154, R168). A ring whose link is shut or whose owner is in reset starts FROZEN. POLL_US
that becomes 0 ends the polls of a ring, another begins them. A DRAINING ring that is enabled again, of which the spec says nothing,
starts like one that was OFF, and the works of its earlier time end as they would have (DESIGN CHOICE, log entry 148). -/
def ringCommitted (r : Nat) (was : Bool) : Prog := get fun s =>
  let en := s.cbit (RING.CTX_CTL.of r) 0
  let f := s.ringOwner r
  if en && !was then doAll [
    modRing r fun _ => { RingSt.init with st := if s.shut (s.linkOf f) ≠ 0 ∨ (s.fnSt f).busy = true then .frozen else .active },
    startPeriodic (.ringPoll r)]
  else if en then Prog.when (decide (r < 65536)) (
    if s.cfd (RING.CTX_POLL.of r) 15 0 = 0 then stopPeriodic (.ringPoll r) else keepPeriodic (.ringPoll r))
  else Prog.when was (doAll [
    dropHeld r, stopPeriodic (.ringPoll r),
    modRing r fun x => { x with
      scanning := false
      rescan := false
      st := if 65536 ≤ r ∨ (s.worksOf r).isEmpty = true then .off else .draining }])

/-- A FUNC commit has taken effect for a function (R142): its bucket holds at most INT_BURST; INT_RATE = 0 removes it with what it
holds, and another INT_RATE starts the refills of one that has none. -/
def sharesCommitted (f : Nat) : Prog := get fun s =>
  if s.cfd (FUNC.INT_SHARE.of f) 15 0 = 0 then doAll [
    modFn f fun x => { x with
      tokens := 0
      half := false
      frac := 0 },
    stopPeriodic (.intBucket f)]
  else doAll [modFn f fun x => { x with tokens := min (max 1 (s.cfd (FUNC.INT_SHARE.of f) 23 16)) x.tokens },
    keepPeriodic (.intBucket f)]

/-- The egress port that owns a TM object (R272). -/
def tmPort (obj : Nat) : Nat := if obj < 8192 then obj / 16 else if obj < 16384 then (obj - 8192) / 4 else obj - 16384

/-- The shaper of a TM object. -/
def shaperOf (obj : Nat) : Nat := if obj < 16384 then obj else obj - 16384 + 10240

/-- A TM commit takes effect: credit as R283 says, a queue's order as R293 says, and a port's list as R289 says. -/
def tmBoundary : Prog := get fun s =>
  let obj := s.pendKey Pg.tm 0
  let rate := decide (s.cfg (TM.SHAPE_RATE.of obj) ≠ s.copy .pending (TM.SHAPE_RATE.of obj))
  let burst := field (s.copy .pending (TM.SHAPE_BURST.of obj)) 23 0
  let newBurst := decide (s.cfd (TM.SHAPE_BURST.of obj) 23 0 ≠ burst)
  let full := tbit (s.copy .pending (TM.SHAPE_BURST.of obj)) 31
  doAll [
    endCommit Pg.tm 0, cleanItem spTm 0 obj,
    Prog.when (rate || newBurst) (setCredit (shaperOf obj) (if full then (burst * 256 : Nat) else 0)),
    Prog.when (decide (obj < 8192)) (get fun t => Prog.when (decide (t.qSorted obj ≠ s.qSorted obj)) (setQueue obj (t.queueOrdered obj))),
    Prog.when (decide (16384 ≤ obj)) (louvreCommit (tmPort obj))]

/-- Parts of a page's copy that have boundaries of their own (R71): the controllers of LSIO; receive and transmit of a MAC; the
threads of an engine and, last, what they share. -/
def partCount (page : Nat) : Nat := if page = 4 then 10 else if page = 19 then 2 else if page = 25 then 17 else 1

/-- The bits of a register word that belong to a part. The spec names no side for a MAC register: those of the transmitter alone
are transmit's, the others receive's (log entry 31). -/
def partMask (page part off : Nat) : Nat :=
  let all := 2 ^ 32 - 1
  let only := fun k : Nat => if part = k then all else 0
  if page = 4 then
    only (if off < 0x200 then (off - 0x100) / 32 else if off < 0x300 then 4 + (off - 0x200) / 32
      else if off < 0x400 then 6 + (off - 0x300) / 64 else 8 + (off - 0x400) / 16)
  else if page = 19 then
    if off = 0x100 then (if part = 0 then 0x3D else 0x7C2)
    else only (if off ∈ [0x10C, 0x114, 0x118, 0x11C, 0x124, 0x128] then 1 else 0)
  else if page = 25 then only (if 0x200 ≤ off then (off - 0x200) / 32 else 16)
  else all

/-- Whether a thread stands at a flow-instruction boundary (R303): it rests, or is READY or fetches between two instructions. One
that waits inside an instruction is not at a boundary. -/
def State.atInstr (s : State) (t : Nat) : Bool :=
  let h := s.thread t
  decide (h.st ∈ [0, 1, 6, 7]) || (h.upc.isNone && (decide (h.st = 2) || decide (h.wait = .fetch)))

/-- Whether a part stands at its boundary (R71, R81): the controller has no transfer, the MAC no frame in that direction, the
thread no instruction under way. -/
def State.partIdle (s : State) (page inst part : Nat) : Bool :=
  match page with
  | 4 =>
    if part < 4 then !decide (s.i2c part = 1)
    else if part < 6 then true
    else if part < 8 then !s.bit (LSIO.OSPI_STATUS (part - 6)) 0
    else !s.bit (LSIO.MDIO_STATUS (part - 8)) 0
  | 19 =>
    if part = 0 then !s.ctl.net.frames.any fun f => decide (f.kind = 0) && decide (f.src = inst)
    else (s.sending inst).isNone && (s.sending (512 + inst)).isNone
  | 25 => if part < 16 then s.atInstr (16 * inst + part) else (List.range 16).all fun k => s.atInstr (16 * inst + k)
  | _ => true

/-- Where the parts in use of a pending set are noted. -/
def partKey (page inst : Nat) : Nat := 512 * page + inst

/-- A part of the pending set comes into use, with what its chapter adds. -/
def takePart (page inst part : Nat) : Prog := get fun s =>
  let keep := (s.bankOffs .pending page inst ++ s.bankOffs .committed page inst).dedup
  let was := s.cbit (LSIO.I2C_CTL part) 0
  let old := s.thrMode (16 * inst + part)
  doAll [
    Prog.each keep (fun o =>
      let m := partMask page part o
      setCopy .committed ⟨page, o, inst⟩
        ((s.copy .committed ⟨page, o, inst⟩ &&& notN 32 m) ||| (s.copy .pending ⟨page, o, inst⟩ &&& m))),
    ctl fun c => { c with parts := nmod 0 c.parts (partKey page inst) fun v => setField v part part 1 },
    if page = 4 ∧ part < 4 then i2cCommitted part was
    else Prog.when (decide (page = 25) && decide (part < 16)) (thrCommitted (16 * inst + part) old)]

/-- The boundary of a page with parts: those that stand at theirs come into use, and with the last the set is committed. -/
def partBoundary (page inst : Nat) : Prog := doAll [
  Prog.each (List.range (partCount page)) (fun k => get fun s =>
    Prog.when (!tbit (tget 0 s.ctl.parts (partKey page inst)) k && s.partIdle page inst k) (takePart page inst k)),
  get fun s => Prog.when (decide (tget 0 s.ctl.parts (partKey page inst) = 2 ^ partCount page - 1)) (doAll [
    ctl fun c => { c with parts := nset 0 c.parts (partKey page inst) 0 }, endCommit page inst])]

/-- The SSDs that a pending set of the BLKB page concerns: those whose own registers change, and those of a set whose change. -/
def State.ssdsConcerned (s : State) : List Nat :=
  let diff := fun r : Reg => decide (s.copy .pending r ≠ s.cfg r)
  (List.range 16).filter fun i =>
    let set := s.cfd (BLKB.SSD_CFG i) 6 3
    diff (BLKB.SSD_CFG i) || diff (BLKB.SSD_NSID i) || diff (BLKB.SET_CFG set) || diff (BLKB.SET_LBA0 set) ||
      diff (BLKB.SET_LBA0 set).hi

/-- Whether a queue pair is in the middle of sending a work request: the packet that goes next does not begin its message. -/
def State.qpMidMessage (s : State) (q : Nat) : Bool :=
  match (s.qp q).out[(s.qp q).next]? with
  | some p => decide (p.op ∈ [opSendMiddle, opSendLast, opSendLastImm, opWriteMiddle, opWriteLast, opWriteLastImm])
  | none => false

/-- Whether a page's copy may meet its boundary now (R71, R81, R516). A descriptor boundary lies between any two confirmations
(R153), so between any two commands. -/
def State.boundaryNow (s : State) (page inst : Nat) : Bool :=
  match page with
  | 3 => (s.funcChanges .pending).isEmpty
  | 18 => decide (s.ctl.net.calWait = [])
  | 24 => let p := tmPort (s.pendKey Pg.tm 0); (s.sending p).isNone && (s.sending (512 + p)).isNone
  | 26 => (List.range 16).all fun k => s.atInstr (16 * inst + k) || decide ((s.thread (16 * inst + k)).st = 3)
  | 28 => !s.qpMidMessage (s.pendKey Pg.rdma 0)
  | 30 => !s.ctl.blk.cmds.any fun c => decide (c.ssd ∈ s.ssdsConcerned)
  | _ => true

/-- The pending set of a page's copy becomes the committed set, with what its chapter adds. -/
def boundaryOf (page i : Nat) : Prog := get fun s =>
  let obj := s.pendKey page i
  match page with
  | 1 =>
    let was := s.cfg CLK.BE_REFCLK_EN
    doAll [endCommit 1 0, beRefclk was]
  | 2 => doAll [endCommit 2 0, pwrCommitted]
  | 15 =>
    let was := s.cbit (RING.CTX_CTL.of obj) 0
    doAll [endCommit 15 0, cleanItem spRing 0 obj, ringCommitted obj was]
  | 18 => calBegin
  | 20 => doAll [copySpace 18 4 i graphBytes, cleanse 4 i 0 graphBytes, endCommit 20 i]
  | 24 => tmBoundary
  | 26 => doAll [endCommit 26 i, chanCommitted i]
  | 28 => doAll [endCommit 28 0, cleanse 1 0 (512 * obj) 512, qpCommitted obj]
  | 29 => doAll [endCommit 29 0, cleanse 2 0 (volTable + 64 * obj) 64, applyMode obj]
  | 30 =>
    let old := (List.range 16).map fun k => s.cfg (BLKB.SSD_CFG k)
    doAll [endCommit 30 0, drivesCommitted old]
  | 13 => doAll [endCommit 13 0, sharesCommitted (s.pendKey 13 0)]
  | 35 =>
    let was := s.pairEn
    doAll [endCommit 35 0, pairCommitted was]
  | p => if 1 < partCount p then partBoundary p i else endCommit p i

/-- A page's copy meets its boundary, if it has a pending set and no work that it concerns is under way (R77, R80, R81). -/
def meetBoundary (page inst : Nat) : Prog := get fun s =>
  Prog.when (decide (inst < instCount page) && s.isPending page inst && s.boundaryNow page inst) (doAll [
    boundaryOf page inst,
    get fun t => Prog.when (decide (tget 0 t.ctl.pendObj (allFlag page) = 1) &&
        !((List.range (instCount page)).any (t.isPending page)))
      (ctl fun c => { c with pendObj := nset 0 c.pendObj (allFlag page) 0 })])

/-- COMMIT_BOUNDARY (R77, R80, R81): the boundary of a page's copy, which may come between any two commands unless work that
it concerns is under way. It has no effect when nothing is pending. -/
def execCommitBoundary (page : Fin 41) (inst : Fin 512) (s : State) : Res := board (meetBoundary page.val inst.val) s

/-- Pages whose boundary is a tick that the idle edge does not stand for: pad ticks, monitor samples, scrub steps (R71, R81). -/
def tickPages : List Nat := [3, 36, 40]

/-- Copies of the other pages with a pending set. -/
def State.pendingCopies (s : State) : List (Nat × Nat) :=
  s.reg.filterMap fun e =>
    if e.1.bank = .live ∧ e.1.off = 0x0C ∧ tbit e.2.toNat 0 = true ∧ e.1.page ∉ tickPages then some (e.1.page, e.1.inst) else none

/-- Within 10 ns of its COMMIT a set whose boundary no work holds back applies of itself (R81): at a REFCLK edge, 6.4 ns. Every
such edge is a descriptor boundary of BLKF too, where a waiting VOL_MODE applies (R390). -/
def dueBoundaries : Prog := doAll [
  get fun s => Prog.each s.pendingCopies fun e => meetBoundary e.1 e.2,
  get fun s => Prog.each (s.ctl.blk.vols.filter fun e => e.2.mode.isSome) fun e => applyMode e.1]

end Sys2Proof.Machine
end

