-- ==== Sys2Proof/Machine/Access.lean ====
section
/-! DEFINITION. Register accesses (R4 to R9, R70 to R76, R84): general reads and writes, pairs, interrupt registers, ownership. -/

namespace Sys2Proof.Machine

/-! ## Refused accesses -/

/-- An access that is not 32 bits wide and aligned (R4). One that meets the transom's aperture or DATA is refused as R183 says. -/
def misaligned (a : Accessor) (page off : Nat) (rd : Bool) : Prog :=
  if page = 16 ∧ 0x8000 ≤ off then (if rd then apertureRead a off 0 else apertureWrite a off [])
  else if page = 16 ∧ 0x50 ≤ off ∧ off < 0x54 then (if rd then dataRead a 0 else dataWrite a 0 0)
  else if rd then byReader a page (doAll [answer 0, misSize a page off]) else byWriter a page off (misSize a page off)

/-- MISALIGNED_ACCESS (R4, R183, R481). -/
def execMisalignedAccess (a : Accessor) (page : Fin 41) (off : Fin 65536) (rd : Bool) (s : State) : Res :=
  done (misaligned a page.val off.val rd) s

/-- An access to a page index from 41 to 63 (R70, R74). -/
def unmapped (a : Accessor) (page off : Nat) (rd : Bool) : Prog := get fun s => doAll [
  Prog.when rd (answer 0),
  Prog.when (s.open a 0) (if rd || s.owner a then err Pg.chip 0 EC.ACCESS RS.UNMAPPED (bar0 page off)
    else err Pg.chip 0 EC.ACCESS RS.NOT_OWNER (bar0 page off))]

/-- UNMAPPED_PAGE_ACCESS (R70): page 41 + k. -/
def execUnmappedPageAccess (a : Accessor) (k : Fin 23) (off : Fin 65536) (rd : Bool) (s : State) : Res :=
  done (unmapped a (41 + k.val) off.val rd) s

/-- NOT_OWNER_WRITE (R74): a write by a port; it is recorded when the port does not hold management. -/
def execNotOwnerWrite (p : Fin 2) (page : Fin 41) (off : Fin 65536) (s : State) : Res :=
  done (byWriter (.port p) page.val off.val .skip) s

/-! ## CHIP, selectors, interrupt registers -/

/-- MGMT_OWNER_WRITE (R74). -/
def execMgmtOwnerWrite (a : Accessor) (v : Word) (s : State) : Res :=
  done (byWriter a Pg.chip 0x48 (wr CHIP.MGMT_OWNER v.toNat)) s

/-- BOOT_LOCK (R84): a write of LOCK sets the lock when a control core makes it. -/
def execBootLock (a : Accessor) (v : Word) (s : State) : Res :=
  done (byWriter a Pg.chip 0x4C (Prog.when (!a.isPort && tbit v.toNat 0) setBootLock)) s

/-- A write of INST_SEL (R73). -/
def selectInst (a : Accessor) (page v : Nat) : Prog := byWriter a page 0x40 (
  let n := v &&& maskAt .live page 0x40
  if n < instCount page then setCopy .selector ⟨page, 0x40, a.code⟩ n
  else get fun s => err page (s.instSel a page) EC.ACCESS RS.BAD_INST (bar0 page 0x40))

/-- INST_SEL_WRITE (R72, R73); a page that is not windowed has no INST_SEL. -/
def execInstSelWrite (a : Accessor) (page : Fin 41) (v : Word) (s : State) : Res :=
  done (Prog.when (windowed page.val) (selectInst a page.val v.toNat)) s

/-- INT_STAT bits that a page's chapter defines. -/
def causes (page : Nat) : Nat :=
  [0, 0xF, 1, 1, 0x7FFF, 3, 1, 1, 0, 0x1FFFFFFF, 0, 0x7F, 0x7F, 3, 3, 7, 3, 1, 3, 0xF, 3, 7, 0x3F, 3, 0x1F, 0x3F, 0, 1, 7, 7,
    0x1F, 0xF, 0x7F, 3, 7, 0x3F, 0xF, 0x1F, 7, 3, 0x1F].getD page 0

/-- Bits set in a word. -/
def setBits (v : Nat) : List Nat := (List.range 32).filter (tbit v)

/-- A write of INT_SET (R76). -/
def intSet (a : Accessor) (page v : Nat) : Prog := byWriter a page 0x18 (get fun s =>
  Prog.each (setBits (v &&& causes page)) fun i => int page (s.instSel a page) i)

/-- INT_SET (R76). -/
def execIntSet (a : Accessor) (page : Fin 41) (v : Word) (s : State) : Res := done (intSet a page.val v.toNat) s

/-- The copies of a page with a cause set, and what is set. -/
def State.intsOf (s : State) (page : Nat) : List (Nat × Nat) :=
  s.reg.filterMap fun e =>
    if e.1.bank = .live ∧ e.1.page = page ∧ e.1.off = 0x10 then some (e.1.inst, e.2.toNat) else none

/-- A write of INT_MASK (R76): each set bit that it unmasks produces its source's event. -/
def intMask (a : Accessor) (page v : Nat) : Prog := byWriter a page 0x14 (get fun s =>
  let was := s.rd (HDR.INT_MASK page)
  doAll [wr (HDR.INT_MASK page) v,
    Prog.each (s.intsOf page) fun e => Prog.each (setBits (e.2 &&& was &&& notN 32 v)) fun i =>
      evt (3968 + 2 * page + b2n (s.bit (HDR.INT_SEV page) i))])

/-- INT_MASK_WRITE (R76). -/
def execIntMaskWrite (a : Accessor) (page : Fin 41) (v : Word) (s : State) : Res := done (intMask a page.val v.toNat) s

/-- A write of INT_SEV (R76): each set, unmasked bit that it moves produces the event of its new source. -/
def intSev (a : Accessor) (page v : Nat) : Prog := byWriter a page 0x1C (get fun s =>
  let was := s.rd (HDR.INT_SEV page)
  doAll [wr (HDR.INT_SEV page) v,
    Prog.each (s.intsOf page) fun e =>
      Prog.each (setBits (e.2 &&& notN 32 (s.rd (HDR.INT_MASK page)) &&& (was ^^^ v))) fun i =>
        evt (3968 + 2 * page + b2n (tbit v i))])

/-- INT_SEV_WRITE (R76). -/
def execIntSevWrite (a : Accessor) (page : Fin 41) (v : Word) (s : State) : Res := done (intSev a page.val v.toNat) s

/-! ## General writes -/

/-- What keeps a write from having its effect. -/
inductive WriteBar where
  | free
  | ignored
  | recorded
  | ppm (n : Nat)
deriving DecidableEq, Repr

/-- Whether a queue may spill, as committed (R275). -/
def State.spillOn (s : State) : Bool := s.reg.any fun e =>
  decide (e.1.bank = .committed) && decide (e.1.page = 24) && decide (e.1.off = 0x50) && decide (e.1.inst < 8192) && tbit e.2.toNat 31

/-- Writes that the chapters bar in the block's present state (R46, R275, R328, R335, R360, R380, R400, R408). -/
def State.writeBar (s : State) (a : Accessor) (page off v : Nat) : WriteBar :=
  let staged := decide (s.rd BLKF.STAGE_USED ≠ 0)
  match page with
  | 9 => match indexOf off 0x120 64 8 with
    | some n => if v % 1024 < 1 ∨ 1000 < v % 1024 then .ppm n else .free
    | none => .free
  | 24 => if (off = 0x110 ∨ off = 0x114 ∨ off = 0x118) ∧ s.spillOn = true then .recorded else .free
  | 25 =>
    if 0x500 ≤ off ∧ off ≤ 0x50C then
      (if s.instSel a 25 ≠ 0 then .ignored else if s.bit FLOW.FC_CFG 31 then .recorded else .free)
    else if (off = 0x408 ∨ off = 0x40C) ∧ (s.thread (s.regSel a).1).st ≠ 6 then .recorded else .free
  | 28 => if off = 0x108 ∧ (s.ctl.rdma.qps.any fun e => decide (e.2.st = 2) || decide (e.2.st = 3)) = true then .recorded else .free
  | 29 => if (off = 0x100 ∨ off = 0x104 ∨ off = 0x108) ∧ staged = true then .recorded else .free
  | 31 => if 0x40 ≤ off ∧ off ≤ 0x60 ∧ s.bit MAP.MAP_CFG 0 = true then .recorded else .free
  | 40 =>
    let new := v &&& maskAt .live 40 off
    let moves := (off = 0x50 ∧ new ≠ s.rd SUPPLY.DUMP_MASK) ∨ (off = 0x5C ∧ new ≠ s.rd SUPPLY.DUMP_AREA_MIB) ∨
      (off = 0x58 ∧ (new ≠ s.rd SUPPLY.DUMP_LBA.hi ∨ s.copy .loHold SUPPLY.DUMP_LBA ≠ s.rd SUPPLY.DUMP_LBA))
    if moves ∧ staged = true then .recorded else .free
  | _ => .free

/-- A write that its bar lets through, or what the bar says. -/
def barred (a : Accessor) (page off v : Nat) (p : Prog) : Prog := get fun s =>
  match s.writeBar a page off v with
  | .free => p
  | .ignored => .skip
  | .recorded => err page (s.instSel a page) EC.ACCESS RS.WRONG_STATE (bar0 page off)
  | .ppm n => wrB (TIME.DOM_STATUS n) 4 true

/-- Whether software can write any bit of a row. -/
def RegRow.writable (r : RegRow) : Bool := decide (r.rw ||| r.st ||| r.w1c ||| r.wo ||| r.lk ≠ 0)

/-- A write of a pair's LO half: the holding register only (R6). -/
def pairLo (a : Accessor) (page off v : Nat) : Prog := barred a page off v (get fun s =>
  match rowAt page off with
  | some (r, false) => Prog.when (r.wide && r.writable) (setCopy .loHold (s.regFor a page off) v)
  | _ => .skip)

/-- A write of a pair's HI half at `off`: the pair takes it with the holding register (R6). REG_DATA writes the selected flow
register (R335). -/
def pairHi (a : Accessor) (page off v : Nat) : Prog := barred a page off v (get fun s =>
  let lo := s.copy .loHold (s.regFor a page (off - 4))
  match rowAt page off with
  | some (r, true) =>
    if !r.writable then .skip
    else if page = 25 ∧ off = 0x40C then setX (s.regSel a).1 (s.regSel a).2 (lo + 2 ^ 32 * v)
    else doAll [Prog.when (decide (page = 16)) transomAddrHi, writeFields a page (off - 4) lo, writeFields a page off v]
  | _ => .skip)

/-- A write of a word that is no half of a pair: its fields, and what the write of some registers does beside them. -/
def wordWrite (a : Accessor) (page off v : Nat) : Prog := barred a page off v (get fun s =>
  let i := s.instSel a page
  doAll [
    writeFields a page off v,
    if page = 14 ∧ off = 0x50 then get fun t =>
      let w := t.window (t.fd XLAT.WIN_SEL 10 0) (t.fd XLAT.WIN_SEL 14 12)
      doAll [wrW XLAT.WIN_BASE w.base, wrW XLAT.WIN_LIMIT w.limit]
    else if page = 4 then
      match indexOf off 0x10C 32 4 with
      | some n => i2cDataWrite n (BitVec.ofNat 32 v)
      | none => .skip
    else if page = 22 ∧ off = 0x288 then
      Prog.when (tbit v 0 && !s.bit (FWD.NOTIFY_CTL.of i) 0) (modNotify i fun x => { NRing.init with seq := x.seq })
    else if page = 27 ∧ off = 0x120 then
      Prog.when (tbit v 0 && !s.bit (CORE.CTRLQ_CTL.of i) 0) (modCtrl i fun _ => CtrlRing.init)
    else if page = 23 then
      match indexOf off 0x184 4 3 with
      | some w => nhUnsee i w
      | none => .skip
    else if page = 32 then
      match indexOf off 0x44 4 15 with
      | some w => Prog.when (decide (w ≠ 10 ∧ w ≠ 11)) (ctl fun c => { c with ciph.saWords := setField c.ciph.saWords w w 0 })
      | none => .skip
    else Prog.when ((decide (page = 29) && decide (off = 0x108)) || (decide (page = 40) && decide (off = 0x64))) holdupCheck])

/-- A write of a register word at an offset, whatever its kind. -/
def plainWrite (a : Accessor) (page off v : Nat) : Prog := byWriter a page off (
  match rowAt page off with
  | some (r, h) => if r.wide then (if h then pairHi a page off v else pairLo a page off v) else wordWrite a page off v
  | none => .skip)

/-- PAIR_LO_WRITE (R6). -/
def execPairLoWrite (a : Accessor) (page : Fin 41) (off : Fin 65536) (v : Word) (s : State) : Res :=
  done (byWriter a page.val off.val (pairLo a page.val off.val v.toNat)) s

/-- PAIR_HI_WRITE (R6). -/
def execPairHiWrite (a : Accessor) (page : Fin 41) (off : Fin 65536) (v : Word) (s : State) : Res :=
  done (byWriter a page.val off.val (pairHi a page.val off.val v.toNat)) s

/-! ## General reads -/

/-- A read clears the RC fields of a register (R7, R9), unless the reader is the port without management (R74). A field cleared
takes its reset value: 0, and all ones for a lowest value seen. `off` is the LO half of a pair. -/
def clearRead (a : Accessor) (page off : Nat) : Prog := get fun s =>
  let q := s.sel a 24 0x140
  let clr := fun (r : Reg) (m : Nat) => wr r ((s.rd r &&& notN 32 m) ||| (resetAt page r.off &&& m))
  Prog.when (s.owner a) (
    match rowAt page off with
    | some (row, false) => Prog.when (decide (row.rc ≠ 0)) (doAll [
        clr (s.regFor a page off) (halfOf false row.rc),
        Prog.when row.wide (clr (s.regFor a page (off + 4)) (halfOf true row.rc)),
        Prog.when (decide (page = 24)) (
          if off = 0x148 then ctl fun c => { c with net.qHwm := nset 0 c.net.qHwm (q % 8192) 0 }
          else if 0x218 ≤ off ∧ off ≤ 0x220 then
            ctl fun c => { c with net.policers := nmod Policer.init c.net.policers (s.sel a 24 0x200 % 2 ^ 18) fun p =>
              if off = 0x218 then { p with green := 0 } else if off = 0x21C then { p with yellow := 0 } else { p with red := 0 } }
          else match indexOf off 0x180 4 16 with
            | some b => ctl fun c => { c with net.hist := nset 0 c.net.hist (q % 8192 * 32 + field q 16 16 * 16 + b) 0 }
            | none => .skip)])
    | _ => .skip)

/-- The value a read of a register returns, its open bits free; `k` goes on with it. MONm_STATUS shows a sample, free, and with BELOW
whether that sample lies below GUARD_MV (R418; DEDUCED, log entry 157). -/
def readValue (a : Accessor) (page off : Nat) (wide : Bool) (k : Nat → Prog) : Prog := get fun s =>
  let v := s.whole a page off wide
  let o := s.openBits a page off
  if page = 40 ∧ (indexOf off 0x108 16 8).isSome = true then fresh fun f => k (min v (f % 4096))
  else if page = 40 ∧ (indexOf off 0x104 16 8).isSome = true then fresh fun f =>
    k (f % 4096 + 65536 * b2n (decide (f % 4096 < s.cfd (SUPPLY.MON_CFG ((indexOf off 0x104 16 8).getD 0)) 11 0)) + (v &&& 0x20000))
  else if o = 0 then k v
  else fresh fun f => k ((v &&& notN 64 o) ||| (f % 2 ^ 64 &&& o))

/-- A read of a register word at an offset (R6, R7, R9, R74). A LO half loads the latch, and only it clears; a HI half answers
the latch. A read of SA_W0 latches the selected entry (R443), one of CAP_SEC_LO the nanoseconds of the head capture (R65); REG_DATA
answers only where R335 lets it. -/
def readReg (a : Accessor) (page off : Nat) : Prog := byReader a page (get fun s =>
  let row := rowAt page off
  let wide := (row.map fun e => e.1.wide).getD false
  let hi := (row.map fun e => e.2).getD false
  if page = 25 ∧ (off = 0x408 ∨ off = 0x40C) ∧ s.regReadable (s.regSel a).1 = false then
    doAll [answer 0, err 25 (s.instSel a 25) EC.ACCESS RS.WRONG_STATE (bar0 25 off)]
  else if hi then answer (s.copy .hiLatch (s.regFor a page (if page = 21 ∧ off = 0x954 then off else off - 4)))
  else doAll [
    Prog.when (decide (page = 32) && decide (off = 0x44))
      (ctl fun c => { c with ciph := { c.ciph with saLatch := s.sa (s.sel a 32 0x40 % 32768), saWords := 0xFFFF } }),
    Prog.when (decide (page = 9)) (match indexOf off 0x404 16 4 with
      | some m => ctl fun c => { c with time.ppsLatch := nset none c.time.ppsLatch m (some (s.rd (TIME.PPS_IN_CAP_NS m))) }
      | none => .skip),
    readValue a page off wide fun v => doAll [
      answer (v % 2 ^ 32),
      Prog.when (wide && !(decide (page = 21) && decide (off = 0x950))) (setCopy .hiLatch (s.regFor a page off) (v / 2 ^ 32)),
      clearRead a page off]])

end Sys2Proof.Machine
end

