-- ==== Sys2Proof/Machine/Route.lean ====
section
/-! DEFINITION. From an address to the register's own command: REGISTER_WRITE, and requests of a host to a BAR (R119, R126). -/

namespace Sys2Proof

/-- What the SSDs hold when a rebuild is started by a write that does not say it. -/
opaque Config.rebuildData : Nat → Machine.RebuildData

end Sys2Proof

namespace Sys2Proof.Machine

/-- One effect after another. -/
def thenDo (x : Res) (k : State → Res) : Res :=
  match x with
  | .next t => k t
  | .fault f => .fault f
  | .refused r => .refused r

/-- Effects in order. -/
def inTurn : List (State → Res) → State → Res
  | [], s => .next s
  | f :: t, s => thenDo (f s) (inTurn t)

/-- An effect only when a bit is set. -/
def onBit (v : Word) (i : Nat) (f : State → Res) (s : State) : Res := if v.getLsbD i then f s else .next s

/-- Read an indexed register's own command, or go on. -/
def orElse (i : Option Nat) (f : Nat → State → Res) (g : State → Res) (s : State) : Res :=
  match i with
  | some n => f n s
  | none => g s

/-- A number as an index below `n + 1`. -/
def idx (n k : Nat) : Fin (n + 1) := ⟨k % (n + 1), Nat.mod_lt k (Nat.succ_pos n)⟩

/-- Writes of the LSIO page. -/
def routeLsio (a : Accessor) (off : Nat) (v : Word) : State → Res :=
  let plain : State → Res := done (plainWrite a 4 off v.toNat)
  orElse (indexOf off 0x104 32 4) (fun n =>
      if v.getLsbD 31 then execI2cGo a (idx 3 n) v else if v.getLsbD 30 then execRecover a (idx 3 n) v else plain) <|
  orElse (indexOf off 0x208 32 2) (fun u => execUartDataWrite a (idx 1 u) v) <|
  orElse (indexOf off 0x304 64 2) (fun i =>
      if !v.getLsbD 31 then plain
      else match field v.toNat 23 22 with
        | 0 => execOspiRead a (idx 1 i) v
        | 1 => execOspiRegisterWrite a (idx 1 i) v
        | 2 => execProgramOrErase a (idx 1 i) v
        | _ => plain) <|
  orElse (indexOf off 0x404 16 2) (fun m =>
      if !v.getLsbD 31 then plain
      else match field v.toNat 12 10 with
        | 0 => execC22Write a (idx 1 m) v
        | 1 => execC22Read a (idx 1 m) v
        | 2 => execC45Address a (idx 1 m) v
        | 3 => execC45Write a (idx 1 m) v
        | 4 => execC45Read a (idx 1 m) v
        | 5 => execC45ReadIncrement a (idx 1 m) v
        | _ => plain) <|
  orElse (indexOf off 0x508 4 2) (fun h => execGpioSet a (idx 1 h) v) <|
  orElse (indexOf off 0x510 4 2) (fun h => execGpioClr a (idx 1 h) v) plain

/-- Writes of the TIME page. Bits of DOMn_CTL set together act in the order of R47. -/
def routeTime (a : Accessor) (off : Nat) (v : Word) : State → Res :=
  orElse (indexOf off 0x100 64 8) (fun n => inTurn [
      done (plainWrite a 9 off v.toNat),
      onBit v 0 (execArm a (idx 7 n) v), onBit v 1 (execStep a (idx 7 n) v), onBit v 2 (execHoldSet a (idx 7 n) v),
      onBit v 3 (execHoldClr a (idx 7 n) v), onBit v 4 (execKeepalive a (idx 7 n) v), onBit v 5 (execSnap a (idx 7 n) v)]) <|
  orElse (indexOf off 0x10C 64 8) (fun n => execDomIncrWrite a (idx 7 n) v) <|
  orElse (indexOf off 0x11C 64 8) (fun n => execSlew a (idx 7 n) v) <|
  orElse (indexOf off 0x300 4 64) (fun k => execPortDomWrite a (idx 63 k) v) <|
  orElse (indexOf off 0x500 32 4) (fun m => execPpsOutEnable a (idx 3 m) v) <|
  if off = 0x40 then onBit v 0 (execSnapAll a) else done (plainWrite a 9 off v.toNat)

/-- Writes of the FLOW page. -/
def routeFlow (a : Accessor) (off : Nat) (v : Word) : State → Res :=
  let plain : State → Res := done (plainWrite a 25 off v.toNat)
  orElse (indexOf off 0x208 32 16) (fun k => inTurn [
      onBit v 0 (execThreadStop a (idx 15 k)), onBit v 1 (execThreadRun a (idx 15 k)),
      onBit v 2 (execThreadAbort a (idx 15 k)), onBit v 3 (execThreadRestart a (idx 15 k))]) <|
  if off = 0x100 then inTurn [plain, onBit v 2 (execEngineReset a)]
  else if off = 0x114 then onBit v 0 (execIcacheInv a)
  else if off = 0x440 then inTurn [plain, onBit v 0 (execReload a), onBit v 1 (execLoadDone a), onBit v 2 (execSelftest a)]
  else plain

/-- A GO of VAULT.CMD, by its operation. R436 gives no other operation a result: its STATUS is free, one of R177. -/
def routeVault (a : Accessor) (v : Word) : State → Res :=
  match field v.toNat 7 0 with
  | 1 => execGenerate a v
  | 2 => execUnwrap a v
  | 3 => execWrap a v
  | 4 => execErase a v
  | 5 => execSetLimit a v
  | 6 => execPubkey a v
  | 7 => execSign a v
  | 8 => execVerify a v
  | 9 => execVaultHash a v
  | op => done (vaultGo a op v fun _ => fresh fun st => vaultResult (anyStatus st) [])

/-- A GO of FUSE.BURN_CTL, by its operation. R458 and R459 give no other operation a result: it burns nothing and its STATUS is
free, one of R177. -/
def routeBurn (a : Accessor) (v : Word) : State → Res :=
  match field v.toNat 2 0 with
  | 1 => execVersionCommit a v
  | 2 => execProgKey a v
  | 3 => execRevoke a v
  | 4 => execLockOrder a v
  | op => if a.isPort then done (burnCtl a op v (fun _ => false) (fun _ => false))
    else done (byWriter a Pg.fuse 0x170 (doAll [
      wr FUSE.BURN_CTL (v.toNat % 2 ^ 31),
      get fun s => Prog.when (!s.bit FUSE.BURN_STATUS 0) (fresh fun st => doAll [wr FUSE.BURN_STATUS 0, endBurn (anyStatus st)])]))

/-- Writes of PAIR.CTL: its bits in order; a write that sets none is one of the others that R478 records. -/
def routePair (a : Accessor) (v : Word) : State → Res :=
  if v.toNat % 16 = 0 then done (pairCtl a (fun _ => false) .skip)
  else inTurn [onBit v 0 (execForm a), onBit v 1 (execJoin a), onBit v 2 (execAdmitJoin a), onBit v 3 (execDeclare a)]

/-- Writes of the header (R75), of selectors of windowed pages and of the other pages with few commands. -/
def routeOther (a : Accessor) (page off : Nat) (v : Word) : State → Res :=
  let plain : State → Res := done (plainWrite a page off v.toNat)
  match page, off with
  | 0, 0x48 => execMgmtOwnerWrite a v
  | 0, 0x4C => execBootLock a v
  | 5, 0x44 => inTurn [onBit v 0 (execCfgReady a v), onBit v 1 (execHostGo a v)]
  | 6, 0x170 => if v.getLsbD 31 then routeBurn a v else plain
  | 10, 0x68 => if v.getLsbD 31 then execGo a v else plain
  | 10, 0x74 => execCancel a v
  | 11, 0x50 => execShutterRelease a 0 v
  | 11, 0x54 => execLinkOff a 0 v
  | 12, 0x50 => execShutterRelease a 1 v
  | 12, 0x54 => execLinkOff a 1 v
  | 13, 0x48 => execVectorRangeWrite a false v
  | 13, 0x4C => execVectorRangeWrite a true v
  | 14, 0x40 => if v.getLsbD 31 then execXlatFlush a v else plain
  | 14, 0x64 => execWindowCommit a v
  | 16, 0x40 => execTgtWrite a v
  | 16, 0x50 => execTransomDataWrite a 4 v
  | 16, 0x54 => execAdvance a v
  | 18, 0x40 => onBit v 0 (execAbandon a)
  | 21, 0x904 => execIndirDataWrite a v
  | 22, 0x208 => if v.getLsbD 31 then execResize a v else plain
  | 22, 0x250 =>
    if !v.getLsbD 31 then plain
    else match field v.toNat 1 0 with
      | 0 => execInsert a v
      | 1 => execDelete a v
      | 2 => execFind a v
      | _ => plain
  | 22, 0x28C => execNotifyHeadWrite a v
  | 22, 0x604 => execMembDataWrite a v
  | 23, 0x11C =>
    if !v.getLsbD 31 then plain
    else match field v.toNat 1 0 with
      | 0 => execLpmInsert a
      | 1 => execLpmDelete a
      | 2 => execLpmFind a
      | _ => plain
  | 23, 0x190 => execNhW3Write a v
  | 24, 0x214 => execPolW4Write a v
  | 24, 0x288 => execLvW1Write a v
  | 24, 0x304 => execReplCtlWrite a v
  | 27, 0x100 => inTurn [onBit v 0 (execCoreReset a), onBit v 1 (execCoreRun a), onBit v 2 (execNmi a)]
  | 27, 0x134 => execCtrlqDb a
  | 27, 0x138 => execCtrlqHeadWrite a v
  | 28, 0x12C => execMrW7Write a v
  | 28, 0x174 => execLipCtlWrite a v
  | 28, 0x304 => execTrigValWrite a v
  | 29, 0x14C => execTaskAbort a v
  | 31, 0x70 => fun s => thenDo (execRebuild a v (Config.rebuildData s.ctl.free) s) (done (ctl fun c => { c with free := c.free + 1 }))
  | 32, 0x80 => execSaW15Write a v
  | 33, 0x40 => if v.getLsbD 31 then routeVault a v else plain
  | 34, 0x40 => inTurn [onBit v 0 (execRestart a), onBit v 1 (execReseed a)]
  | 35, 0x58 => routePair a v
  | 37, 0x40 => execRecHeadWrite a v
  | 38, 0x40 => execLifeCommitRequest a v
  | 39, 0x100 => execCntClr a v
  | 40, 0x4C => if v.getLsbD 2 then execMeasure a v else execDumpEnWrite a v
  | _, _ => plain

/-- A 32-bit write of a register by one who may write: its own command where it has one, the general rules where not. -/
def routeAllowed (a : Accessor) (page off : Nat) (v : Word) : State → Res :=
  if off % 4 ≠ 0 then done (misaligned a page off false)
  else if off = 0x08 then done (commitWrite a page v.toNat)
  else if off = 0x14 then done (intMask a page v.toNat)
  else if off = 0x18 then done (intSet a page v.toNat)
  else if off = 0x1C then done (intSev a page v.toNat)
  else if off < 0x40 then done (plainWrite a page off v.toNat)
  else if windowed page ∧ off = 0x40 then done (selectInst a page v.toNat)
  else match page with
  | 4 => routeLsio a off v
  | 7 => orElse (indexOf off 0x1008 16 1024) (fun n => done (writeLatch (.page a) n v.toNat)) (done (plainWrite a 7 off v.toNat))
  | 9 => routeTime a off v
  | 13 => orElse (indexOf off 0x1004 8 4096) (fun k => execErtCommit a (idx 4095 k) v) (routeOther a 13 off v)
  | 16 =>
    if 0x8000 ≤ off then execApertureWrite a (idx 65535 off) (leBytes 4 v.toNat) else routeOther a 16 off v
  | 17 => orElse (indexOf off 0x100 32 64) (fun l => execLaneReconfigure a (idx 63 l) v) (done (plainWrite a 17 off v.toNat))
  | 25 => routeFlow a off v
  | 26 => orElse (indexOf off 0x10C 32 32) (fun c => execPutWrite a (idx 31 c) v) (done (plainWrite a 26 off v.toNat))
  | 30 => orElse (indexOf off 0x10C 32 16) (fun i =>
      if !v.getLsbD 31 then done (plainWrite a 30 off v.toNat)
      else match field v.toNat 1 0 with
        | 1 => execSanitise a (idx 15 i) v
        | 2 => execFormat a (idx 15 i) v
        | 3 => execSsdScrub a (idx 15 i) v
        | _ => done (ssdCmd a i 0 v)) (done (plainWrite a 30 off v.toNat))
  | p => routeOther a p off v

/-- A 32-bit write of a register. One that the page does not take is discarded or recorded once, whatever it would start (R74). -/
def routeWrite (a : Accessor) (page off : Nat) (v : Word) (s : State) : Res :=
  if s.open a page && s.owner a then routeAllowed a page off v s else done (byWriter a page off .skip) s

/-- REGISTER_WRITE (R4 to R7): a 32-bit write at an offset of a page. A register with a row of its own takes it as that row. -/
def execRegisterWrite (a : Accessor) (page : Fin 41) (off : Fin 65536) (v : Word) (s : State) : Res :=
  routeWrite a page.val off.val v s

/-- A 32-bit read of a register: its own command where it has one. -/
def routeRead (a : Accessor) (page off : Nat) : State → Res :=
  let plain : State → Res := done (readReg a page off)
  if off % 4 ≠ 0 then done (misaligned a page off true)
  else match page with
  | 4 => orElse (indexOf off 0x10C 32 4) (fun n => execI2cDataRead a (idx 3 n)) <|
      orElse (indexOf off 0x208 32 2) (fun u => execUartDataRead a (idx 1 u)) plain
  | 7 => orElse (indexOf off 0x1000 16 1024) (fun n => execLatchAcquire (.page a) (idx 1023 n)) plain
  | 9 => orElse (indexOf off 0x40C 16 4) (fun m => execPpsCapNsRead a (idx 3 m)) plain
  | 16 => if off = 0x50 then execTransomDataRead a 4
      else if 0x8000 ≤ off then execApertureRead a (idx 65535 off) 4 else plain
  | 21 => if off = 0x948 then execRuleCounterRead a else plain
  | 23 => if off = 0x184 then execNhW0Read a else plain
  | 26 => orElse (indexOf off 0x110 32 32) (fun c => execGetRead a (idx 31 c)) plain
  | _ => plain

/-- CLEAR_ON_READ (R7, R9): a read of a register, by its own command where it has one. -/
def execClearOnRead (a : Accessor) (page : Fin 41) (off : Fin 65536) (s : State) : Res := routeRead a page.val off.val s

/-- PAIR_LO_READ (R6). -/
def execPairLoRead (a : Accessor) (page : Fin 41) (off : Fin 65536) (s : State) : Res :=
  match rowAt page.val off.val with
  | some (r, false) => if r.wide then routeRead a page.val off.val s else .next s
  | _ => .next s

/-! ## Requests of a host (R119, R126, R162, R163) -/

/-- A request that is refused whole (R119): a write is discarded, a read answered with Unsupported Request; it is logged with its
header, which the command does not carry, and closes the shutter where Unsupported Request is Fatal (R121). -/
def denyInbound (f : Nat) (rd : Bool) : Prog := get fun s => doAll [
  fresh (fun v => aerUnc (s.linkOf f) 20 (leBytes 16 v)), fatalClose (s.linkOf f) 20, inc (HOST.INBOUND_DENY_CNT (f / 1024)),
  Prog.when rd (emit (.hostReply (f / 1024) f replyUR []))]

/-- The answer to a read of `len` bytes, from what the read left. -/
def sendAnswer (f len : Nat) : Prog := get fun s => emit (.hostReply (f / 1024) f replyOk (leBytes len s.ctl.answer))

/-- A request to BAR0 of a port's management function. A read longer than the aperture takes is refused as one of no length (R180). -/
def bar0Request (p : Fin 2) (off len : Nat) (data : Option (List Byte)) : State → Res :=
  let page := off / 65536
  let po := off % 65536
  let a := Accessor.port p
  let whole := decide (len = 4) && decide (po % 4 = 0)
  match data with
  | some b =>
    if 41 ≤ page then done (unmapped a page po false)
    else if page = 16 ∧ 0x8000 ≤ po then execApertureWrite a (idx 65535 po) b
    else if page = 16 ∧ po = 0x50 then execTransomDataWrite a (idx 8 (min 8 len)) (BitVec.ofNat 32 (leVal b))
    else if whole then routeWrite a page po (BitVec.ofNat 32 (leVal b))
    else done (misaligned a page po false)
  | none =>
    let rd : State → Res :=
      if 41 ≤ page then done (unmapped a page po true)
      else if page = 16 ∧ 0x8000 ≤ po then execApertureRead a (idx 65535 po) (idx 512 (if len ≤ 512 then len else 0))
      else if page = 16 ∧ po = 0x50 then execTransomDataRead a (idx 8 (min 8 len))
      else if whole then routeRead a page po
      else done (misaligned a page po true)
    fun s => thenDo (rd s) (done (sendAnswer (1024 * p.val) len))

/-- The slots of a doorbell page that a write from `off` over `b` covers: each with its offset in it and its bytes. -/
def slotsOf (off : Nat) (b : List Byte) : List (Nat × Nat × List Byte) :=
  (List.range ((off + b.length + 7) / 8 - off / 8)).map fun i =>
    let k := off / 8 + i
    let lo := max off (8 * k)
    let hi := min (off + b.length) (8 * k + 8)
    (k, lo - 8 * k, slice b (lo - off) (hi - lo))

/-- A write to a doorbell page (R162, R163, R175): each doorbell slot of which it covers 4 bytes or more rings; a head slot takes a
write of 4 or 8 bytes at +0, a latch window one of 4 bytes at +4. -/
def bar2Write (f : Fin 2048) (off : Nat) (b : List Byte) : State → Res :=
  inTurn ((slotsOf off b).map fun e s =>
    if e.1 < 4096 then (if 4 ≤ e.2.2.length then execDoorbell f (idx 4095 e.1) s else .next s)
    else if e.1 < 6144 then
      (if off % 8 = 0 ∧ (b.length = 4 ∨ b.length = 8) then
        execHeadWrite f (idx 2047 (e.1 - 4096)) (BitVec.ofNat 32 (leAt e.2.2 0 4)) s else .next s)
    else if e.1 < 7168 ∧ b.length = 4 ∧ off % 8 = 4 then done (writeLatch (.window f) (e.1 - 6144) (leVal b)) s
    else .next s)

/-- A read of a doorbell page (R162, R163, R175). -/
def bar2Read (f : Fin 2048) (off len : Nat) (s : State) : Res :=
  let n := off / 8 - 6144
  if 0xC000 ≤ off ∧ off < 0xE000 ∧ len = 4 ∧ off % 8 = 0 then
    thenDo (execLatchAcquire (.window f) (idx 1023 n) s) (done (sendAnswer f.val 4))
  else
    let latchWord := if 0xC000 ≤ off ∧ off < 0xE000 ∧ len = 4 ∧ off % 8 = 4 ∧ s.windowOpen f.val = true then (s.latch n).word else 0
    let head := decide (0x8000 ≤ off) && decide (off < 0xC000) && decide (off % 8 = 0) && (decide (len = 4) || decide (len = 8))
    done (doAll [answer (if head then s.headSlot f.val ((off - 0x8000) / 8) else latchWord), sendAnswer f.val len]) s

/-- INBOUND_MEMORY_REQUEST (R119, R126, R135, R162, R163): a read of `len` bytes, or a write of the bytes given, from `off` of
BAR0 (`bar2` false) or of the doorbell page of a function. One of no length is refused as one that leaves its BAR, a DESIGN CHOICE
(log entry 125). -/
def execInboundMemoryRequest (f : Fin 2048) (bar2 : Bool) (off : Fin 4194304) (len : Fin 4097) (data : Option (List Byte))
    (s : State) : Res :=
  let rd := data.isNone
  let n := match data with | some b => b.length | none => len.val
  let isMgmt := decide (f.val % 1024 = 0)
  let size := if bar2 then 65536 else 4194304
  let ur : Prog := Prog.when rd (emit (.hostReply (f.val / 1024) f.val replyUR []))
  let hostPage := decide (off.val / 65536 = 11) || decide (off.val / 65536 = 12)
  if !(s.ctl.boot.pwrok && s.ctl.boot.sysRst) || !s.linkUp (s.linkOf f.val) then .next s
  else if s.pf = 2 then done ur s
  else if !s.fnExists f.val then done (doAll [dropFor f.val, ur]) s
  else if !bar2 && !isMgmt || decide (size < off.val + n) || decide (n = 0) then done (denyInbound f.val rd) s
  else if !bar2 && (s.linkOpen (s.linkOf f.val) || hostPage) then
    bar0Request (idx 1 (f.val / 1024)) off.val n data s
  else if !s.linkOpen (s.linkOf f.val) then done ur s
  else match data with
    | some b => bar2Write f off.val b s
    | none => bar2Read f off.val n s

end Sys2Proof.Machine
end

