-- ==== Sys2Proof/Machine/Dispatch.lean ====
section
/-! DEFINITION. The meaning of each command: one arm per constructor, each one call. -/

namespace Sys2Proof.Machine

/-- A command's effect on everything but the queue. -/
def exec (cmd : Instr) (state : State) : Host.Outcome State Fault Refusal :=
  match cmd with
  | .registerWrite a page off v => Sys2Proof.Machine.execRegisterWrite a page off v state
  | .clearOnRead a page off => Sys2Proof.Machine.execClearOnRead a page off state
  | .misalignedAccess a page off rd => Sys2Proof.Machine.execMisalignedAccess a page off rd state
  | .pairLoRead a page off => Sys2Proof.Machine.execPairLoRead a page off state
  | .pairLoWrite a page off v => Sys2Proof.Machine.execPairLoWrite a page off v state
  | .pairHiWrite a page off v => Sys2Proof.Machine.execPairHiWrite a page off v state
  | .unmappedPageAccess a k off rd => Sys2Proof.Machine.execUnmappedPageAccess a k off rd state
  | .notOwnerWrite p page off => Sys2Proof.Machine.execNotOwnerWrite p page off state
  | .mgmtOwnerWrite a v => Sys2Proof.Machine.execMgmtOwnerWrite a v state
  | .instSelWrite a page v => Sys2Proof.Machine.execInstSelWrite a page v state
  | .commit a page => Sys2Proof.Machine.execCommit a page state
  | .commitAll a page => Sys2Proof.Machine.execCommitAll a page state
  | .discard a page both => Sys2Proof.Machine.execDiscard a page both state
  | .commitBoundary page inst => Sys2Proof.Machine.execCommitBoundary page inst state
  | .intSet a page v => Sys2Proof.Machine.execIntSet a page v state
  | .intMaskWrite a page v => Sys2Proof.Machine.execIntMaskWrite a page v state
  | .intSevWrite a page v => Sys2Proof.Machine.execIntSevWrite a page v state
  | .bootLock a v => Sys2Proof.Machine.execBootLock a v state
  | .latchAcquire u n => Sys2Proof.Machine.execLatchAcquire u n state
  | .latchRelease u n => Sys2Proof.Machine.execLatchRelease u n state
  | .clrBroken u n => Sys2Proof.Machine.execClrBroken u n state
  | .clrBrokenAndRelease u n => Sys2Proof.Machine.execClrBrokenAndRelease u n state
  | .maintArbitrate fw => Sys2Proof.Machine.execMaintArbitrate fw state
  | .clockLost i => Sys2Proof.Machine.execClockLost i state
  | .clockRestored i => Sys2Proof.Machine.execClockRestored i state
  | .refclkMeasure off => Sys2Proof.Machine.execRefclkMeasure off state
  | .pstateSelect us => Sys2Proof.Machine.execPstateSelect us state
  | .pstateEnter us => Sys2Proof.Machine.execPstateEnter us state
  | .pstateWake cause => Sys2Proof.Machine.execPstateWake cause state
  | .pstateExitDone => Sys2Proof.Machine.execPstateExitDone state
  | .scrubSegmentStart ddr => Sys2Proof.Machine.execScrubSegmentStart ddr state
  | .scrubSegmentEnd ddr ces ues => Sys2Proof.Machine.execScrubSegmentEnd ddr ces ues state
  | .domIncrWrite a n hi => Sys2Proof.Machine.execDomIncrWrite a n hi state
  | .arm a n v => Sys2Proof.Machine.execArm a n v state
  | .domainFlushDone n => Sys2Proof.Machine.execDomainFlushDone n state
  | .step a n v => Sys2Proof.Machine.execStep a n v state
  | .slew a n v => Sys2Proof.Machine.execSlew a n v state
  | .slewDone n => Sys2Proof.Machine.execSlewDone n state
  | .holdSet a n v => Sys2Proof.Machine.execHoldSet a n v state
  | .holdClr a n v => Sys2Proof.Machine.execHoldClr a n v state
  | .keepalive a n v => Sys2Proof.Machine.execKeepalive a n v state
  | .disciplineTimeout n => Sys2Proof.Machine.execDisciplineTimeout n state
  | .snap a n v => Sys2Proof.Machine.execSnap a n v state
  | .snapAll a => Sys2Proof.Machine.execSnapAll a state
  | .portDomWrite a k v => Sys2Proof.Machine.execPortDomWrite a k v state
  | .go a v => Sys2Proof.Machine.execGo a v state
  | .cancel a h => Sys2Proof.Machine.execCancel a h state
  | .softwareEventFire => Sys2Proof.Machine.execSoftwareEventFire state
  | .rescheduleRetry k i => Sys2Proof.Machine.execRescheduleRetry k i state
  | .ppsInEdge m => Sys2Proof.Machine.execPpsInEdge m state
  | .ppsCapNsRead a m => Sys2Proof.Machine.execPpsCapNsRead a m state
  | .ppsOutEnable a m v => Sys2Proof.Machine.execPpsOutEnable a m v state
  | .periodOutputEdge => Sys2Proof.Machine.execPeriodOutputEdge state
  | .ppsOutInactiveEdge m => Sys2Proof.Machine.execPpsOutInactiveEdge m state
  | .ref10mMeasure meas => Sys2Proof.Machine.execRef10mMeasure meas state
  | .ref10mLost => Sys2Proof.Machine.execRef10mLost state
  | .hostLinkUp l speed width flit => Sys2Proof.Machine.execHostLinkUp l speed width flit state
  | .hostLinkDown l => Sys2Proof.Machine.execHostLinkDown l state
  | .hotReset l => Sys2Proof.Machine.execHotReset l state
  | .linkDisable l => Sys2Proof.Machine.execLinkDisable l state
  | .linkOff a h v => Sys2Proof.Machine.execLinkOff a h v state
  | .l0pWidthChange l tx rx => Sys2Proof.Machine.execL0pWidthChange l tx rx state
  | .aspmL1Entry l => Sys2Proof.Machine.execAspmL1Entry l state
  | .tagAllocate h => Sys2Proof.Machine.execTagAllocate h state
  | .hostCompletion h tag kind last data => Sys2Proof.Machine.execHostCompletion h tag kind last data state
  | .completionTimeout h tag => Sys2Proof.Machine.execCompletionTimeout h tag state
  | .tagQuarantineEnd h tag => Sys2Proof.Machine.execTagQuarantineEnd h tag state
  | .translationCompletion h tag out logSize rd wrt => Sys2Proof.Machine.execTranslationCompletion h tag out logSize rd wrt state
  | .invalidateRequest f scope addr size itag => Sys2Proof.Machine.execInvalidateRequest f scope addr size itag state
  | .invalidateCompletion h => Sys2Proof.Machine.execInvalidateCompletion h state
  | .xlatFlush a v => Sys2Proof.Machine.execXlatFlush a v state
  | .xlatFlushDone => Sys2Proof.Machine.execXlatFlushDone state
  | .windowCommit a v => Sys2Proof.Machine.execWindowCommit a v state
  | .inboundMemoryRequest f bar2 off len data => Sys2Proof.Machine.execInboundMemoryRequest f bar2 off len data state
  | .configRequest f op => Sys2Proof.Machine.execConfigRequest f op state
  | .aerError l k hdr => Sys2Proof.Machine.execAerError l k hdr state
  | .shutterReady l => Sys2Proof.Machine.execShutterReady l state
  | .shutterRelease a h v => Sys2Proof.Machine.execShutterRelease a h v state
  | .shutterOpen l => Sys2Proof.Machine.execShutterOpen l state
  | .ltrUpdate l bytes frames => Sys2Proof.Machine.execLtrUpdate l bytes frames state
  | .vectorRangeWrite a count v => Sys2Proof.Machine.execVectorRangeWrite a count v state
  | .ertCommit a src v => Sys2Proof.Machine.execErtCommit a src v state
  | .moderationTimeout src => Sys2Proof.Machine.execModerationTimeout src state
  | .msixSend f i => Sys2Proof.Machine.execMsixSend f i state
  | .intBucketRefill => Sys2Proof.Machine.execIntBucketRefill state
  | .functionLevelReset f => Sys2Proof.Machine.execFunctionLevelReset f state
  | .vfDisable h k => Sys2Proof.Machine.execVfDisable h k state
  | .functionResetDrained f => Sys2Proof.Machine.execFunctionResetDrained f state
  | .doorbell f w => Sys2Proof.Machine.execDoorbell f w state
  | .ringPoll => Sys2Proof.Machine.execRingPoll state
  | .descriptorArrival r => Sys2Proof.Machine.execDescriptorArrival r state
  | .descriptorConfirm => Sys2Proof.Machine.execDescriptorConfirm state
  | .ringNop w => Sys2Proof.Machine.execRingNop w state
  | .sglArrival id => Sys2Proof.Machine.execSglArrival id state
  | .ringDrained r => Sys2Proof.Machine.execRingDrained r state
  | .headWrite f c v => Sys2Proof.Machine.execHeadWrite f c v state
  | .transomDataWrite a len v => Sys2Proof.Machine.execTransomDataWrite a len v state
  | .transomDataRead a len => Sys2Proof.Machine.execTransomDataRead a len state
  | .apertureWrite a x b => Sys2Proof.Machine.execApertureWrite a x b state
  | .apertureRead a x len => Sys2Proof.Machine.execApertureRead a x len state
  | .advance a v => Sys2Proof.Machine.execAdvance a v state
  | .tgtWrite a v => Sys2Proof.Machine.execTgtWrite a v state
  | .laneReconfigure a l v => Sys2Proof.Machine.execLaneReconfigure a l v state
  | .laneLinkUp l => Sys2Proof.Machine.execLaneLinkUp l state
  | .laneLinkDown l => Sys2Proof.Machine.execLaneLinkDown l state
  | .caReceived g => Sys2Proof.Machine.execCaReceived g state
  | .caTimeout g => Sys2Proof.Machine.execCaTimeout g state
  | .abandon a => Sys2Proof.Machine.execAbandon a state
  | .rxFrame p bytes cut mm => Sys2Proof.Machine.execRxFrame p bytes cut mm state
  | .frameConfirm id ok => Sys2Proof.Machine.execFrameConfirm id ok state
  | .cutThroughStart id => Sys2Proof.Machine.execCutThroughStart id state
  | .frameFetchDone w => Sys2Proof.Machine.execFrameFetchDone w state
  | .schedulerSelect p => Sys2Proof.Machine.execSchedulerSelect p state
  | .frameTxEnd p e => Sys2Proof.Machine.execFrameTxEnd p e state
  | .rxDeliver r e => Sys2Proof.Machine.execRxDeliver r e state
  | .hostBoundRelease r => Sys2Proof.Machine.execHostBoundRelease r state
  | .pauseReceived p pfc quanta => Sys2Proof.Machine.execPauseReceived p pfc quanta state
  | .pauseExpired p g => Sys2Proof.Machine.execPauseExpired p g state
  | .pfcRepeat p g => Sys2Proof.Machine.execPfcRepeat p g state
  | .preemptVerify p ok => Sys2Proof.Machine.execPreemptVerify p ok state
  | .macPreempt x => Sys2Proof.Machine.execMacPreempt x state
  | .lpiEnter p => Sys2Proof.Machine.execLpiEnter p state
  | .lpiWake p => Sys2Proof.Machine.execLpiWake p state
  | .indirDataWrite a v => Sys2Proof.Machine.execIndirDataWrite a v state
  | .ruleCounterRead a => Sys2Proof.Machine.execRuleCounterRead a state
  | .ctrlLimitRefill => Sys2Proof.Machine.execCtrlLimitRefill state
  | .learnEvent p => Sys2Proof.Machine.execLearnEvent p state
  | .insert a v => Sys2Proof.Machine.execInsert a v state
  | .delete a v => Sys2Proof.Machine.execDelete a v state
  | .find a v => Sys2Proof.Machine.execFind a v state
  | .holdExpiry p => Sys2Proof.Machine.execHoldExpiry p state
  | .agingSweep => Sys2Proof.Machine.execAgingSweep state
  | .agingSweepEnd p => Sys2Proof.Machine.execAgingSweepEnd p state
  | .resize a v => Sys2Proof.Machine.execResize a v state
  | .resizeDone p => Sys2Proof.Machine.execResizeDone p state
  | .notifyHeadWrite a v => Sys2Proof.Machine.execNotifyHeadWrite a v state
  | .membDataWrite a v => Sys2Proof.Machine.execMembDataWrite a v state
  | .lpmInsert a => Sys2Proof.Machine.execLpmInsert a state
  | .lpmDelete a => Sys2Proof.Machine.execLpmDelete a state
  | .lpmFind a => Sys2Proof.Machine.execLpmFind a state
  | .nhW3Write a v => Sys2Proof.Machine.execNhW3Write a v state
  | .nhW0Read a => Sys2Proof.Machine.execNhW0Read a state
  | .replCtlWrite a v => Sys2Proof.Machine.execReplCtlWrite a v state
  | .shaperRefill => Sys2Proof.Machine.execShaperRefill state
  | .policerRefill => Sys2Proof.Machine.execPolicerRefill state
  | .polW4Write a v => Sys2Proof.Machine.execPolW4Write a v state
  | .lvW1Write a v => Sys2Proof.Machine.execLvW1Write a v state
  | .louvreCycleStart => Sys2Proof.Machine.execLouvreCycleStart state
  | .louvreListChange => Sys2Proof.Machine.execLouvreListChange state
  | .launchDue => Sys2Proof.Machine.execLaunchDue state
  | .telemetrySample => Sys2Proof.Machine.execTelemetrySample state
  | .workItemTake e => Sys2Proof.Machine.execWorkItemTake e state
  | .threadStop a k => Sys2Proof.Machine.execThreadStop a k state
  | .threadRun a k => Sys2Proof.Machine.execThreadRun a k state
  | .threadAbort a k => Sys2Proof.Machine.execThreadAbort a k state
  | .threadRestart a k => Sys2Proof.Machine.execThreadRestart a k state
  | .channelWaitDone t => Sys2Proof.Machine.execChannelWaitDone t state
  | .memoryOpDone t e => Sys2Proof.Machine.execMemoryOpDone t e state
  | .threadWaitDone => Sys2Proof.Machine.execThreadWaitDone state
  | .nop t => Sys2Proof.Machine.execNop t state
  | .alu t => Sys2Proof.Machine.execAlu t state
  | .li t => Sys2Proof.Machine.execLi t state
  | .br t => Sys2Proof.Machine.execBr t state
  | .jal t => Sys2Proof.Machine.execJal t state
  | .jr t => Sys2Proof.Machine.execJr t state
  | .ld t => Sys2Proof.Machine.execLd t state
  | .st t => Sys2Proof.Machine.execSt t state
  | .xld t => Sys2Proof.Machine.execXld t state
  | .xst t => Sys2Proof.Machine.execXst t state
  | .hcopy t => Sys2Proof.Machine.execHcopy t state
  | .chput t => Sys2Proof.Machine.execChput t state
  | .chget t => Sys2Proof.Machine.execChget t state
  | .wait t => Sys2Proof.Machine.execWait t state
  | .latch t => Sys2Proof.Machine.execLatch t state
  | .fclook t => Sys2Proof.Machine.execFclook t state
  | .fcput t => Sys2Proof.Machine.execFcput t state
  | .fcdel t => Sys2Proof.Machine.execFcdel t state
  | .hash t => Sys2Proof.Machine.execHash t state
  | .frd t => Sys2Proof.Machine.execFrd t state
  | .fwr t => Sys2Proof.Machine.execFwr t state
  | .flen t => Sys2Proof.Machine.execFlen t state
  | .fout t => Sys2Proof.Machine.execFout t state
  | .fnew t => Sys2Proof.Machine.execFnew t state
  | .cpl t => Sys2Proof.Machine.execCpl t state
  | .evt t => Sys2Proof.Machine.execEvt t state
  | .done t => Sys2Proof.Machine.execDone t state
  | .halt t => Sys2Proof.Machine.execHalt t state
  | .time t => Sys2Proof.Machine.execTime t state
  | .fence t => Sys2Proof.Machine.execFence t state
  | .unop t => Sys2Proof.Machine.execUnop t state
  | .uadd t => Sys2Proof.Machine.execUadd t state
  | .usub t => Sys2Proof.Machine.execUsub t state
  | .uand t => Sys2Proof.Machine.execUand t state
  | .uor t => Sys2Proof.Machine.execUor t state
  | .uxor t => Sys2Proof.Machine.execUxor t state
  | .ushl t => Sys2Proof.Machine.execUshl t state
  | .ushr t => Sys2Proof.Machine.execUshr t state
  | .usar t => Sys2Proof.Machine.execUsar t state
  | .umul t => Sys2Proof.Machine.execUmul t state
  | .ucmp t => Sys2Proof.Machine.execUcmp t state
  | .uins t => Sys2Proof.Machine.execUins t state
  | .uld t => Sys2Proof.Machine.execUld t state
  | .ust t => Sys2Proof.Machine.execUst t state
  | .uxld t => Sys2Proof.Machine.execUxld t state
  | .uxst t => Sys2Proof.Machine.execUxst t state
  | .uhdma t => Sys2Proof.Machine.execUhdma t state
  | .uchput t => Sys2Proof.Machine.execUchput t state
  | .uchget t => Sys2Proof.Machine.execUchget t state
  | .uwait t => Sys2Proof.Machine.execUwait t state
  | .ulatch t => Sys2Proof.Machine.execUlatch t state
  | .ufc t => Sys2Proof.Machine.execUfc t state
  | .uhash t => Sys2Proof.Machine.execUhash t state
  | .uframe t => Sys2Proof.Machine.execUframe t state
  | .ucpl t => Sys2Proof.Machine.execUcpl t state
  | .uevt t => Sys2Proof.Machine.execUevt t state
  | .udone t => Sys2Proof.Machine.execUdone t state
  | .ujmp t => Sys2Proof.Machine.execUjmp t state
  | .ubr t => Sys2Proof.Machine.execUbr t state
  | .ucall t => Sys2Proof.Machine.execUcall t state
  | .uret t => Sys2Proof.Machine.execUret t state
  | .uend t => Sys2Proof.Machine.execUend t state
  | .ufbr t => Sys2Proof.Machine.execUfbr t state
  | .urtt t => Sys2Proof.Machine.execUrtt t state
  | .uabort t => Sys2Proof.Machine.execUabort t state
  | .utrap t => Sys2Proof.Machine.execUtrap t state
  | .reload a => Sys2Proof.Machine.execReload a state
  | .csDrainDone e timeout => Sys2Proof.Machine.execCsDrainDone e timeout state
  | .loadDone a => Sys2Proof.Machine.execLoadDone a state
  | .csCheckDone e => Sys2Proof.Machine.execCsCheckDone e state
  | .selftest a => Sys2Proof.Machine.execSelftest a state
  | .selftestDone e ok => Sys2Proof.Machine.execSelftestDone e ok state
  | .engineReset a => Sys2Proof.Machine.execEngineReset a state
  | .icacheInv a => Sys2Proof.Machine.execIcacheInv a state
  | .putWrite a c hi => Sys2Proof.Machine.execPutWrite a c hi state
  | .getRead a c => Sys2Proof.Machine.execGetRead a c state
  | .flowCacheSweep => Sys2Proof.Machine.execFlowCacheSweep state
  | .coreReset a => Sys2Proof.Machine.execCoreReset a state
  | .coreRun a => Sys2Proof.Machine.execCoreRun a state
  | .nmi a => Sys2Proof.Machine.execNmi a state
  | .coreFatal c cause epc => Sys2Proof.Machine.execCoreFatal c cause epc state
  | .ctrlqDb a => Sys2Proof.Machine.execCtrlqDb a state
  | .ctrlqHeadWrite a v => Sys2Proof.Machine.execCtrlqHeadWrite a v state
  | .rdmaPacketRx id => Sys2Proof.Machine.execRdmaPacketRx id state
  | .ackRx id => Sys2Proof.Machine.execAckRx id state
  | .nakRx id => Sys2Proof.Machine.execNakRx id state
  | .rnrNakRx id => Sys2Proof.Machine.execRnrNakRx id state
  | .rnrWaitExpiry => Sys2Proof.Machine.execRnrWaitExpiry state
  | .retransmitTimeout => Sys2Proof.Machine.execRetransmitTimeout state
  | .pacingRelease => Sys2Proof.Machine.execPacingRelease state
  | .send w => Sys2Proof.Machine.execSend w state
  | .write w => Sys2Proof.Machine.execWrite w state
  | .read w => Sys2Proof.Machine.execRead w state
  | .cas w => Sys2Proof.Machine.execCas w state
  | .faa w => Sys2Proof.Machine.execFaa w state
  | .flush w => Sys2Proof.Machine.execFlush w state
  | .recv w => Sys2Proof.Machine.execRecv w state
  | .armedWrTrigger q => Sys2Proof.Machine.execArmedWrTrigger q state
  | .rtxResume q => Sys2Proof.Machine.execRtxResume q state
  | .responderFlushAck q => Sys2Proof.Machine.execResponderFlushAck q state
  | .mrW7Write a v => Sys2Proof.Machine.execMrW7Write a v state
  | .trigValWrite a v => Sys2Proof.Machine.execTrigValWrite a v state
  | .lipCtlWrite a v => Sys2Proof.Machine.execLipCtlWrite a v state
  | .blockRead id e => Sys2Proof.Machine.execBlockRead id e state
  | .blockWrite id => Sys2Proof.Machine.execBlockWrite id state
  | .blockFlush id => Sys2Proof.Machine.execBlockFlush id state
  | .zero id => Sys2Proof.Machine.execZero id state
  | .volInfo id => Sys2Proof.Machine.execVolInfo id state
  | .errRead id => Sys2Proof.Machine.execErrRead id state
  | .volMode id => Sys2Proof.Machine.execVolMode id state
  | .ssdAct id => Sys2Proof.Machine.execSsdAct id state
  | .taskAbort a v => Sys2Proof.Machine.execTaskAbort a v state
  | .blockCommandStart id => Sys2Proof.Machine.execBlockCommandStart id state
  | .dirtyWaitRelease => Sys2Proof.Machine.execDirtyWaitRelease state
  | .stagingRecord id => Sys2Proof.Machine.execStagingRecord id state
  | .flushDeadline => Sys2Proof.Machine.execFlushDeadline state
  | .placementDone id => Sys2Proof.Machine.execPlacementDone id state
  | .journalDurable => Sys2Proof.Machine.execJournalDurable state
  | .nvmeCompletion id st data dma => Sys2Proof.Machine.execNvmeCompletion id st data dma state
  | .nvmeTimeout id => Sys2Proof.Machine.execNvmeTimeout id state
  | .controllerReset i ok => Sys2Proof.Machine.execControllerReset i ok state
  | .ssdLinkDown i => Sys2Proof.Machine.execSsdLinkDown i state
  | .ssdCriticalWarning i => Sys2Proof.Machine.execSsdCriticalWarning i state
  | .ssdIdentify i ok lbas => Sys2Proof.Machine.execSsdIdentify i ok lbas state
  | .sanitise a i v => Sys2Proof.Machine.execSanitise a i v state
  | .format a i v => Sys2Proof.Machine.execFormat a i v state
  | .ssdScrub a i v => Sys2Proof.Machine.execSsdScrub a i v state
  | .sanitizePoll i r => Sys2Proof.Machine.execSanitizePoll i r state
  | .ssdActivityEnd i failed reads => Sys2Proof.Machine.execSsdActivityEnd i failed reads state
  | .rebuild a v d => Sys2Proof.Machine.execRebuild a v d state
  | .rebuildDone => Sys2Proof.Machine.execRebuildDone state
  | .monitorTrip m mv => Sys2Proof.Machine.execMonitorTrip m mv state
  | .monitorClear m mv => Sys2Proof.Machine.execMonitorClear m mv state
  | .pfailNFall => Sys2Proof.Machine.execPfailNFall state
  | .dumpWriteStart i => Sys2Proof.Machine.execDumpWriteStart i state
  | .dumpBatchDurable => Sys2Proof.Machine.execDumpBatchDurable state
  | .dumped => Sys2Proof.Machine.execDumped state
  | .measure a v => Sys2Proof.Machine.execMeasure a v state
  | .measureDone us => Sys2Proof.Machine.execMeasureDone us state
  | .dumpEnWrite a v => Sys2Proof.Machine.execDumpEnWrite a v state
  | .saW15Write a v => Sys2Proof.Machine.execSaW15Write a v state
  | .gcmEnc id => Sys2Proof.Machine.execGcmEnc id state
  | .gcmDec id => Sys2Proof.Machine.execGcmDec id state
  | .gmacGen id => Sys2Proof.Machine.execGmacGen id state
  | .gmacVer id => Sys2Proof.Machine.execGmacVer id state
  | .xtsEnc id => Sys2Proof.Machine.execXtsEnc id state
  | .xtsDec id => Sys2Proof.Machine.execXtsDec id state
  | .random id => Sys2Proof.Machine.execRandom id state
  | .cipherParityFault c => Sys2Proof.Machine.execCipherParityFault c state
  | .maskReseed => Sys2Proof.Machine.execMaskReseed state
  | .maskStop => Sys2Proof.Machine.execMaskStop state
  | .generate a v => Sys2Proof.Machine.execGenerate a v state
  | .unwrap a v => Sys2Proof.Machine.execUnwrap a v state
  | .wrap a v => Sys2Proof.Machine.execWrap a v state
  | .erase a v => Sys2Proof.Machine.execErase a v state
  | .eraseDone => Sys2Proof.Machine.execEraseDone state
  | .setLimit a v => Sys2Proof.Machine.execSetLimit a v state
  | .pubkey a v => Sys2Proof.Machine.execPubkey a v state
  | .sign a v => Sys2Proof.Machine.execSign a v state
  | .verify a v => Sys2Proof.Machine.execVerify a v state
  | .vaultHash a v => Sys2Proof.Machine.execVaultHash a v state
  | .vaultZeroise => Sys2Proof.Machine.execVaultZeroise state
  | .healthTestFail h blocks => Sys2Proof.Machine.execHealthTestFail h blocks state
  | .rngRestartDone t => Sys2Proof.Machine.execRngRestartDone t state
  | .restart a => Sys2Proof.Machine.execRestart a state
  | .reseed a => Sys2Proof.Machine.execReseed a state
  | .entropyHoldTimeout => Sys2Proof.Machine.execEntropyHoldTimeout state
  | .pwrokRise => Sys2Proof.Machine.execPwrokRise state
  | .pwrokFall => Sys2Proof.Machine.execPwrokFall state
  | .sysRstNFall => Sys2Proof.Machine.execSysRstNFall state
  | .sysRstNRise p => Sys2Proof.Machine.execSysRstNRise p state
  | .perstNRise l => Sys2Proof.Machine.execPerstNRise l state
  | .imageAttemptEnd e => Sys2Proof.Machine.execImageAttemptEnd e state
  | .imageLoadDone us => Sys2Proof.Machine.execImageLoadDone us state
  | .hostGo a v => Sys2Proof.Machine.execHostGo a v state
  | .cfgReady a v => Sys2Proof.Machine.execCfgReady a v state
  | .versionCommit a v => Sys2Proof.Machine.execVersionCommit a v state
  | .progKey a v => Sys2Proof.Machine.execProgKey a v state
  | .revoke a v => Sys2Proof.Machine.execRevoke a v state
  | .lockOrder a v => Sys2Proof.Machine.execLockOrder a v state
  | .fuseBitBurned => Sys2Proof.Machine.execFuseBitBurned state
  | .ospiRead a i v => Sys2Proof.Machine.execOspiRead a i v state
  | .ospiRegisterWrite a i v => Sys2Proof.Machine.execOspiRegisterWrite a i v state
  | .programOrErase a i v => Sys2Proof.Machine.execProgramOrErase a i v state
  | .ospiDone i data => Sys2Proof.Machine.execOspiDone i data state
  | .xindaordLinkDown => Sys2Proof.Machine.execXindaordLinkDown state
  | .xindaordLinkUp bad => Sys2Proof.Machine.execXindaordLinkUp bad state
  | .helloSend => Sys2Proof.Machine.execHelloSend state
  | .helloRx seq epoch unit _state surv adm => Sys2Proof.Machine.execHelloRx seq epoch unit _state surv adm state
  | .fenceOrderRx seq epoch => Sys2Proof.Machine.execFenceOrderRx seq epoch state
  | .heartbeatSend => Sys2Proof.Machine.execHeartbeatSend state
  | .heartbeatRx epoch => Sys2Proof.Machine.execHeartbeatRx epoch state
  | .deadPeerTimeout => Sys2Proof.Machine.execDeadPeerTimeout state
  | .stageMessageRx seq epoch m => Sys2Proof.Machine.execStageMessageRx seq epoch m state
  | .stageAckRx epoch upto => Sys2Proof.Machine.execStageAckRx epoch upto state
  | .journalMessageRx seq epoch l => Sys2Proof.Machine.execJournalMessageRx seq epoch l state
  | .timeExchange n m => Sys2Proof.Machine.execTimeExchange n m state
  | .resyncMessageRx seq epoch g data => Sys2Proof.Machine.execResyncMessageRx seq epoch g data state
  | .notificationMirrorRx seq epoch pipe b => Sys2Proof.Machine.execNotificationMirrorRx seq epoch pipe b state
  | .pairNakRx c epoch expected => Sys2Proof.Machine.execPairNakRx c epoch expected state
  | .pairRto c => Sys2Proof.Machine.execPairRto c state
  | .form a => Sys2Proof.Machine.execForm a state
  | .join a => Sys2Proof.Machine.execJoin a state
  | .admitJoin a => Sys2Proof.Machine.execAdmitJoin a state
  | .declare a => Sys2Proof.Machine.execDeclare a state
  | .admissionComplete epoch => Sys2Proof.Machine.execAdmissionComplete epoch state
  | .errorRecordWrite => Sys2Proof.Machine.execErrorRecordWrite state
  | .recHeadWrite a v => Sys2Proof.Machine.execRecHeadWrite a v state
  | .lifeSample tj watts => Sys2Proof.Machine.execLifeSample tj watts state
  | .thermtrip => Sys2Proof.Machine.execThermtrip state
  | .lifeCommitPeriod => Sys2Proof.Machine.execLifeCommitPeriod state
  | .lifeCommitRequest a v => Sys2Proof.Machine.execLifeCommitRequest a v state
  | .lifeCommitDone => Sys2Proof.Machine.execLifeCommitDone state
  | .cntClr a v => Sys2Proof.Machine.execCntClr a v state
  | .jtagInstruction i => Sys2Proof.Machine.execJtagInstruction i state
  | .padSwitchConnect levels => Sys2Proof.Machine.execPadSwitchConnect levels state
  | .gpioEdge p => Sys2Proof.Machine.execGpioEdge p state
  | .gpioSet a h v => Sys2Proof.Machine.execGpioSet a h v state
  | .gpioClr a h v => Sys2Proof.Machine.execGpioClr a h v state
  | .i2cGo a n v => Sys2Proof.Machine.execI2cGo a n v state
  | .i2cTransferDone n result data => Sys2Proof.Machine.execI2cTransferDone n result data state
  | .i2cSclTimeout n => Sys2Proof.Machine.execI2cSclTimeout n state
  | .recover a n v => Sys2Proof.Machine.execRecover a n v state
  | .sdaStuckLow n => Sys2Proof.Machine.execSdaStuckLow n state
  | .recoveryEnd n pulses good => Sys2Proof.Machine.execRecoveryEnd n pulses good state
  | .uartRxChar u b frame parity brk => Sys2Proof.Machine.execUartRxChar u b frame parity brk state
  | .uartDataWrite a u v => Sys2Proof.Machine.execUartDataWrite a u v state
  | .uartDataRead a u => Sys2Proof.Machine.execUartDataRead a u state
  | .i2cDataRead a n => Sys2Proof.Machine.execI2cDataRead a n state
  | .c22Write a m v => Sys2Proof.Machine.execC22Write a m v state
  | .c22Read a m v => Sys2Proof.Machine.execC22Read a m v state
  | .c45Address a m v => Sys2Proof.Machine.execC45Address a m v state
  | .c45Write a m v => Sys2Proof.Machine.execC45Write a m v state
  | .c45Read a m v => Sys2Proof.Machine.execC45Read a m v state
  | .c45ReadIncrement a m v => Sys2Proof.Machine.execC45ReadIncrement a m v state
  | .mdioDone m data driven => Sys2Proof.Machine.execMdioDone m data driven state
  | .vaultCommandDone exhausted => Sys2Proof.Machine.execVaultCommandDone exhausted state
  | .readAtomicResponseRx id => Sys2Proof.Machine.execReadAtomicResponseRx id state
  | .pairAckRx c epoch upto => Sys2Proof.Machine.execPairAckRx c epoch upto state
  | .peerImageRequestRx => Sys2Proof.Machine.execPeerImageRequestRx state
  | .aspmL1Exit l => Sys2Proof.Machine.execAspmL1Exit l state
  | .partnerLpiEntry p => Sys2Proof.Machine.execPartnerLpiEntry p state
  | .partnerLpiExit p => Sys2Proof.Machine.execPartnerLpiExit p state
  | .crReceived x => Sys2Proof.Machine.execCrReceived x state
  | .pfailGlitch => Sys2Proof.Machine.execPfailGlitch state
  | .perstNFall l => Sys2Proof.Machine.execPerstNFall l state
  | .ssdLinkUp i => Sys2Proof.Machine.execSsdLinkUp i state
  | .consecClear => Sys2Proof.Machine.execConsecClear state
  | .padSwitchDisconnect => Sys2Proof.Machine.execPadSwitchDisconnect state
  | .uartTxChar u => Sys2Proof.Machine.execUartTxChar u state

end Sys2Proof.Machine
end

