-- ==== Sys2Proof/Machine/Step.lean ====
section
/-! DEFINITION. One step: the command at the front of the queue, or, with none waiting, one REFCLK edge (log entry 1). -/

namespace Sys2Proof.Machine

/-- What happens with no command waiting: one edge of REFCLK, the commit boundaries that no work holds back (R81), the writes that a
cap lets go (R141), spares that failed members get (R389), the pair link's messages (R463), and what the FECs corrected meanwhile, unless the device is held in reset (R35, R507). -/
def idle : State → Res := done (awake (doAll [refclkEdge, dueBoundaries, capsEnd, spareAll, linkServes, fecTick]))

/-- One step. -/
def step (s : State) : Host.Outcome State Fault Refusal :=
  match s.pending with
  | [] => idle s
  | c :: rest => exec c { s with pending := rest }

/-- The state with the command that a table word spells in front of its queue. The table gives no row any bits, so no word spells
a command. -/
def State.withFetchWord (s : State) (nbits w : Nat) : State :=
  match decodeTableWord nbits w with
  | some c => { s with pending := c :: s.pending }
  | none => s

end Sys2Proof.Machine
end

