-- ==== Sys2Proof/Safety.lean ====
section
/-! DEFINITION. What every run keeps: the canonical form of memory and of the register copies, and reserved bits that read 0. -/

namespace Sys2Proof.Machine

/-- Memory in canonical form: addresses rise strictly and no listed byte is 0, what an unlisted byte reads as. -/
def Memory.wf (m : List Host.Cell) : Bool := canonical natLt (fun _ => 0) m

/-- Register copies in canonical form, none with a bit that its register does not implement (R5). -/
def Regs.wf (l : List (RKey × Word)) : Bool :=
  canonical RKey.lt RKey.reset l && l.all fun e => decide (e.2 &&& e.1.mask = e.2)

/-- The invariant of the machine. -/
def State.wf (s : State) : Bool := Memory.wf s.mem && Regs.wf s.reg

/-- A run is safe when it keeps the invariant and never stops: the spec gives every command an effect. -/
def State.safeStep (s : State) : Prop := ∃ t, step s = .next t ∧ (s.wf = true → t.wf = true)

/-! ## When a command has its effect -/

/-- The device is powered and out of reset (R507, R508). -/
abbrev State.powered (s : State) : Prop := s.ctl.boot.pwrok = true ∧ s.ctl.boot.sysRst = true

/-- The device runs, and its power state leaves on what P`lvl` gates (R98, R508). -/
abbrev State.runsBelow (s : State) (lvl : Nat) : Prop := s.alive = true ∧ s.pstate < lvl

/-- A page is open to an accessor that holds management (R74, R447). -/
abbrev State.serves (s : State) (a : Accessor) (page : Nat) : Prop := s.open a page = true ∧ s.owner a = true

end Sys2Proof.Machine
end

