-- ==== Sys2Proof/Certificates/Slice0/Obligations.lean ====
section
/-! DEFINITION. The statements for the provers. A statement over several rules is a conjunction of parts, each a definition under
`Says`; the definitions before a part name what it speaks of. -/

namespace Sys2Proof.Machine

/-- An event leaves the wheel for its consumer: a due one, or one that an arming removed (R42, R55, R56). -/
def leaves (e : WEvent) (stepped : Bool) : Prog := doAll [
  if stepped then ctl fun c => { c with time.flush := c.time.flush.tail }
  else ctl fun c => { c with time.events := c.time.events.filter fun x => !decide (x.seq = e.seq) },
  Prog.when stepped (inc WHEEL.STEPPED_CNT), takeSlot, peep 2 1 e.dom]

/-- The next event of the wheel is `e`, for consumer `c`, and on time. -/
def State.fires (s : State) (e : WEvent) (c : Consumer) : Prop :=
  s.nextEvent = some (e, false) ∧ e.consumer = c ∧ e.due = some s.dispatchSlot.1

/-- The next event of the wheel is `e`, for consumer `c`, removed by an arming. -/
def State.steps (s : State) (e : WEvent) (c : Consumer) : Prop := s.nextEvent = some (e, true) ∧ e.consumer = c

/-- A step takes the command at the front of the queue and answers what `exec` answers with the queue's rest. What a step does with no
command waiting, one REFCLK edge, is the model's choice (log entry 1). -/
def Says.StepRunsTheFrontCommand : Prop :=
  ∀ (s : State) (c : Instr) (rest : List Instr), step { s with pending := c :: rest } = exec c { s with pending := rest }

/-- Every command has an effect: `exec` answers a next state in every state, and leaves the waiting commands as they are. -/
def Says.EveryCommandAnswersAndKeepsTheQueue : Prop :=
  ∀ (c : Instr) (s : State), ∃ t, exec c s = .next t ∧ t.pending = s.pending

/-- R5: from every state in which memory and registers are in canonical form and no register copy has a bit that its register does
not implement, every step answers a state of which the same holds: a reserved bit never reads 1, whatever is written. That a byte
nobody has written reads 0 is the model's choice (log entry 2). -/
def Says.StepsKeepTheCanonicalForm : Prop :=
  ∀ s t : State, s.wf = true → step s = .next t → t.wf = true

/-- R2, R5, R41, R82, R86: after device reset no command waits, memory lists nothing, every copy of every register holds its reset value, the
three sets among them, and a HI latch 0; every latch is FREE and no one's, every domain FREE at 6.4 ns to an edge; DEVICE_ID reads the part, family,
package and grade; the invariant holds. -/
def Says.ResetLeavesItsValues : Prop :=
  State.reset.wf = true ∧ State.reset.pending = [] ∧ State.reset.mem = [] ∧
  (∀ (b : Bank) (r : Reg), State.reset.copy b r = if b = .hiLatch then 0 else resetAt r.page r.off % 2 ^ 32) ∧
  (∀ n, State.reset.latch n = ⟨.free, 0xC000⟩) ∧
  (∀ n : Fin 8, State.reset.domState n.val = 0 ∧ State.reset.rdW (TIME.DOM_INCR n.val) = 64 * 2 ^ 40 / 10) ∧
  ∀ a : Accessor, State.reset.plainWord a 0 0x40 = 0x47125A15

/-- Whether an offset lies in the transom's DATA or aperture, whose accesses R183 refuses in its own way. -/
abbrev transomPort (page off : Nat) : Prop := page = 16 ∧ (0x8000 ≤ off ∨ 0x50 ≤ off ∧ off < 0x54)

/-- R4, R70, R74, R183: an access that is not 32 bits and aligned, one to an unmapped page, and a write by the port that does not hold
management are recorded, read as 0, and do nothing else; a misaligned one of the transom's DATA, in port mode, or of its aperture, in
burst mode, is refused with REJ and reason ALIGN. -/
def Says.RefusedAccessesAreOnlyRecorded : Prop :=
  ∀ (s : State) (a : Accessor) (page : Fin 41) (off : Fin 65536),
    (s.serves a 16 → page.val = 16 →
      (s.tBurst = true → 0x8000 ≤ off.val →
        exec (.misalignedAccess a page off false) s = .next ((transomReject 3 (s.tAddr + off.val - 0x8000)).run s)) ∧
      (s.tBurst = false → 0x50 ≤ off.val → off.val < 0x54 →
        exec (.misalignedAccess a page off false) s = .next ((transomReject 3 s.tAddr).run s))) ∧
    (s.serves a page.val → ¬ transomPort page.val off.val → exec (.misalignedAccess a page off false) s =
      .next ((err page.val (s.instSel a page.val) EC.ACCESS RS.MISALIGNED (bar0 page.val off.val)).run s)) ∧
    (s.open a page.val = true → ¬ transomPort page.val off.val → exec (.misalignedAccess a page off true) s =
      .next ((doAll [answer 0, err page.val (s.instSel a page.val) EC.ACCESS RS.MISALIGNED (bar0 page.val off.val)]).run s)) ∧
    (∀ k, s.serves a 0 → exec (.unmappedPageAccess a k off false) s =
      .next ((err Pg.chip 0 EC.ACCESS RS.UNMAPPED (bar0 (41 + k.val) off.val)).run s)) ∧
    (∀ k, s.open a 0 = true → exec (.unmappedPageAccess a k off true) s =
      .next ((doAll [answer 0, err Pg.chip 0 EC.ACCESS RS.UNMAPPED (bar0 (41 + k.val) off.val)]).run s)) ∧
    (∀ p, s.open (.port p) page.val = true → s.owner (.port p) = false → exec (.notOwnerWrite p page off) s =
      .next ((err Pg.chip 0 EC.ACCESS RS.NOT_OWNER (bar0 page.val off.val)).run s))

/-- R75: the first error while VALID = 0 is frozen with its class, reason and INFO; every later one sets OVF and changes neither;
ERR_COUNT steps by one and holds at its limit. Said of a misaligned write; the headers of FUNC, ERR and PEEP may meet a second
error that the first one sets off, so they are in `RefusedAccessesAreOnlyRecorded` only. -/
def Says.FirstErrorIsFrozen : Prop :=
  ∀ (s : State) (a : Accessor) (page : Fin 41) (off : Fin 65536), s.serves a page.val → page.val ∉ [13, 37, 39] →
    ¬ transomPort page.val off.val → ∃ t, exec (.misalignedAccess a page off false) s = .next t ∧
      t.rd (HDR.ERR_COUNT page.val) = min (s.rd (HDR.ERR_COUNT page.val) + 1) (2 ^ 32 - 1) ∧
      (s.bit (HDR.ERR_FIRST page.val) 31 = false →
        t.rd (HDR.ERR_FIRST page.val) = 2 ^ 31 + EC.ACCESS * 4096 + RS.MISALIGNED ∧
        t.rd (HDR.ERR_FIRST_INFO page.val) = bar0 page.val off.val ∧
        t.rd (HDR.ERR_OVF page.val) = s.rd (HDR.ERR_OVF page.val)) ∧
      (s.bit (HDR.ERR_FIRST page.val) 31 = true →
        t.rd (HDR.ERR_FIRST page.val) = s.rd (HDR.ERR_FIRST page.val) ∧
        t.rd (HDR.ERR_FIRST_INFO page.val) = s.rd (HDR.ERR_FIRST_INFO page.val) ∧
        t.rd (HDR.ERR_OVF page.val) = 1) ∧
      (∀ b page' i o, o < 0x10 ∨ 0x40 ≤ o → page' ∉ [13, 26, 37, 39] → t.copy b ⟨page', o, i⟩ = s.copy b ⟨page', o, i⟩) ∧
      t.ctl.answer = s.ctl.answer ∧ t.ctl.out = s.ctl.out ∧
      ∀ sp i x, ¬ (sp = 1 ∧ i = 0 ∧ 0x29000000 ≤ x) → x < 2 ^ 48 → i < 64 → t.byte sp i x = s.byte sp i x

/-- R5, R7: a write of a word register takes each bit by its access type: an RW bit takes the value, a W1C bit written 1 clears, a
bit of another type keeps its value, so a reserved bit stays as it is; ST bits go to the staged set; nothing else changes. The
pages are those in which no word register has a command of its own. -/
def Says.WritesFollowTheFieldTypes : Prop :=
  ∀ (s : State) (a : Accessor) (page : Fin 41) (off : Fin 65536) (v : Word) (row : RegRow), s.wf = true →
    s.serves a page.val → page.val ∈ [1, 2, 3, 8, 15, 19, 20, 36] → 0x40 ≤ off.val → off.val % 4 = 0 →
    rowAt page.val off.val = some (row, false) → row.wide = false → off.val ∉ selectorOffs page.val →
    ∃ t, exec (.registerWrite a page off v) s = .next t ∧
      (∀ i < 32, tbit (t.rd (s.regFor a page.val off.val)) i =
        if tbit row.rw i then tbit v.toNat i
        else if tbit row.w1c i && tbit v.toNat i then false
        else tbit (s.rd (s.regFor a page.val off.val)) i) ∧
      (∀ i < 32, tbit row.st i = true → tbit (t.copy .staged (s.regFor a page.val off.val)) i = tbit v.toNat i) ∧
      (∀ b r, r ≠ s.regFor a page.val off.val ∨ (b ≠ .live ∧ b ≠ .staged) → t.copy b r = s.copy b r) ∧
      t.mem = s.mem ∧ t.ctl = s.ctl

/-- R7, R76: a cause in INT_STAT clears where 1 is written and nowhere else, on every page, in the copy that the writer has
selected; nothing else changes. -/
def Says.CausesClearWhereOneIsWritten : Prop :=
  ∀ (s : State) (a : Accessor) (page : Fin 41) (v : Word), s.wf = true → s.serves a page.val →
    ∃ t, exec (.registerWrite a page 0x10 v) s = .next t ∧
      (∀ i < 32, tbit (t.rd ⟨page.val, 0x10, s.instSel a page.val⟩) i =
        (tbit (s.rd ⟨page.val, 0x10, s.instSel a page.val⟩) i && !tbit v.toNat i)) ∧
      (∀ b r, (b, r) ≠ (.live, ⟨page.val, 0x10, s.instSel a page.val⟩) → t.copy b r = s.copy b r) ∧
      t.mem = s.mem ∧ t.ctl = s.ctl

/-- R73: an accessor's write of INST_SEL moves its own copy and no other accessor's; a number beyond the page's copies is recorded
and moves nothing. -/
def Says.EachAccessorSelectsForItself : Prop :=
  ∀ (s : State) (a : Accessor) (page : Fin 41) (v : Word), windowed page.val = true → s.serves a page.val →
    let n := v.toNat &&& maskAt .live page.val 0x40
    (n < instCount page.val → ∃ t, exec (.instSelWrite a page v) s = .next t ∧ t.instSel a page.val = n ∧
      (∀ b p, b ≠ a ∨ p ≠ page.val → t.instSel b p = s.instSel b p) ∧
      (∀ r, t.rd r = s.rd r) ∧ t.mem = s.mem ∧ t.ctl = s.ctl) ∧
    (instCount page.val ≤ n → ∃ t, exec (.instSelWrite a page v) s = .next t ∧
      t = (err page.val (s.instSel a page.val) EC.ACCESS RS.BAD_INST (bar0 page.val 0x40)).run s ∧
      ∀ b p, t.instSel b p = s.instSel b p)

/-- R76: INT_SET sets the causes that its chapter defines, one by one; INT_MASK and INT_SEV take the value written, and each set
cause that a write unmasks, or moves to the other severity while it is not masked, produces one event of its source: 3,968 + 2p
for a notice, 3,969 + 2p for an error. -/
def Says.InterruptRegisterWrites : Prop :=
  ∀ (s : State) (a : Accessor) (page : Fin 41) (v : Word), s.serves a page.val →
    exec (.intSet a page v) s = .next ((Prog.each (setBits (v.toNat &&& causes page.val))
      fun i => int page.val (s.instSel a page.val) i).run s) ∧
    (∃ t, exec (.intMaskWrite a page v) s = .next t ∧ t.rd (HDR.INT_MASK page.val) = v.toNat ∧
      t = (Prog.each (s.intsOf page.val) fun e =>
        Prog.each (setBits (e.2 &&& s.rd (HDR.INT_MASK page.val) &&& notN 32 v.toNat)) fun i =>
          evt (3968 + 2 * page.val + b2n (s.bit (HDR.INT_SEV page.val) i))).run ((wr (HDR.INT_MASK page.val) v.toNat).run s)) ∧
    (∃ t, exec (.intSevWrite a page v) s = .next t ∧ t.rd (HDR.INT_SEV page.val) = v.toNat ∧
      t = (Prog.each (s.intsOf page.val) fun e =>
        Prog.each (setBits (e.2 &&& notN 32 (s.rd (HDR.INT_MASK page.val)) &&& (s.rd (HDR.INT_SEV page.val) ^^^ v.toNat))) fun i =>
          evt (3968 + 2 * page.val + b2n (tbit v.toNat i))).run ((wr (HDR.INT_SEV page.val) v.toNat).run s))

/-- R74, R84: OWNER takes bit 0 of the value and nothing else changes; LOCK, written 1 by a control core, is set, and a write by a
host port or of 0 leaves it. -/
def Says.OwnerAndLock : Prop :=
  ∀ (s : State) (a : Accessor) (v : Word), s.serves a 0 →
    (∃ t, exec (.mgmtOwnerWrite a v) s = .next t ∧ t.rd CHIP.MGMT_OWNER = v.toNat % 2 ∧
      (∀ b r, (b, r) ≠ (.live, CHIP.MGMT_OWNER) → t.copy b r = s.copy b r) ∧ t.mem = s.mem ∧ t.ctl = s.ctl) ∧
    (∃ t, exec (.bootLock a v) s = .next t ∧
      t.bit CHIP.BOOT_LOCK 0 = (s.bit CHIP.BOOT_LOCK 0 || (!a.isPort && tbit v.toNat 0)) ∧
      (a.isPort = true ∨ tbit v.toNat 0 = false → t = s))

/-- Whether a register word is read by a command of its own. -/
def ownRead (page off : Nat) : Bool :=
  match page with
  | 4 => (indexOf off 0x10C 32 4).isSome || (indexOf off 0x208 32 2).isSome
  | 7 => (indexOf off 0x1000 16 1024).isSome
  | 9 => (indexOf off 0x40C 16 4).isSome
  | 16 => decide (off = 0x50) || decide (0x8000 ≤ off)
  | 21 => decide (off = 0x948)
  | 23 => decide (off = 0x184)
  | 26 => (indexOf off 0x110 32 32).isSome
  | _ => false

/-- R6: a write of a pair's LO half loads the holding register and nothing else; a write of its HI half gives the pair the holding
register and the value together; a read of the LO half answers it and loads the latch with the HI half of that moment; a read of
the HI half answers the latch and changes nothing. -/
def Says.PairsMoveTogether : Prop :=
  ∀ (s : State) (a : Accessor) (page : Fin 41) (off : Fin 65536) (v : Word) (row : RegRow),
    off.val % 4 = 0 → row.wide = true →
    (rowAt page.val off.val = some (row, false) → row.writable = true → s.serves a page.val →
      s.writeBar a page.val off.val v.toNat = .free →
      ∃ t, exec (.pairLoWrite a page off v) s = .next t ∧ t.copy .loHold (s.regFor a page.val off.val) = v.toNat ∧
        (∀ b r, (b, r) ≠ (.loHold, s.regFor a page.val off.val) → t.copy b r = s.copy b r) ∧ t.mem = s.mem ∧ t.ctl = s.ctl) ∧
    (rowAt page.val off.val = some (row, true) → row.writable = true → s.serves a page.val →
      s.writeBar a page.val off.val v.toNat = .free → ¬ (page.val = 25 ∧ off.val = 0x40C) → page.val ≠ 16 →
      exec (.pairHiWrite a page off v) s = .next ((doAll [
        writeFields a page.val (off.val - 4) (s.copy .loHold (s.regFor a page.val (off.val - 4))),
        writeFields a page.val off.val v.toNat]).run s)) ∧
    (rowAt page.val off.val = some (row, false) → s.open a page.val = true → s.view a page.val off.val = none →
      s.openBits a page.val off.val = 0 → page.val ∉ [21, 25, 32, 40] → ownRead page.val off.val = false →
      ∃ t, exec (.pairLoRead a page off) s = .next t ∧ t.ctl.answer = s.plainWord a page.val off.val ∧
        t.copy .hiLatch (s.regFor a page.val off.val) = s.plainWord a page.val (off.val + 4) ∧ t.mem = s.mem) ∧
    (rowAt page.val off.val = some (row, true) → s.open a page.val = true → page.val ∉ [21, 25] →
      exec (.clearOnRead a page off) s = .next ((answer (s.copy .hiLatch (s.regFor a page.val (off.val - 4)))).run s))

/-- R7, R74: a read of a word register answers the value it had, and then its RC bits take their reset value, unless the reader is
the port that does not hold management; nothing else of the registers changes. -/
def Says.ReadsClearAfterwards : Prop :=
  ∀ (s : State) (a : Accessor) (page : Fin 41) (off : Fin 65536) (row : RegRow), s.wf = true → s.open a page.val = true →
    off.val % 4 = 0 → rowAt page.val off.val = some (row, false) → row.wide = false → s.view a page.val off.val = none →
    s.openBits a page.val off.val = 0 → page.val ∉ [24, 25, 32, 40] → ownRead page.val off.val = false →
    ∃ t, exec (.clearOnRead a page off) s = .next t ∧ t.ctl.answer = s.plainWord a page.val off.val ∧
      (∀ i < 32, tbit (t.rd (s.regFor a page.val off.val)) i =
        if s.owner a && tbit row.rc i then tbit (resetAt page.val off.val) i
        else tbit (s.rd (s.regFor a page.val off.val)) i) ∧
      (∀ b r, (b, r) ≠ (.live, s.regFor a page.val off.val) → t.copy b r = s.copy b r) ∧ t.mem = s.mem ∧
      { t.ctl with answer := s.ctl.answer } = s.ctl

/-- R77: an accepted COMMIT makes the pending set of the copy, or of the object that the page's selector names, equal to the staged
set, register by register, and sets PENDING; the committed set stays as it is. -/
def Says.CommitTakesTheStagedSet : Prop :=
  ∀ (s : State) (a : Accessor) (page : Fin 41), s.wf = true → s.serves a page.val → hasStaged page.val = true →
    s.isPending page.val (s.instSel a page.val) = false →
    s.chapterRefuses page.val (s.instSel a page.val) (s.commitObj a page.val) = false →
    let i := s.instSel a page.val
    let k := if objectPage page.val then s.commitObj a page.val else i
    ∃ t, exec (.commit a page) s = .next t ∧ t.isPending page.val i = true ∧
      (∀ o row h, rowAt page.val o = some (row, h) → row.st ≠ 0 → t.copy .pending ⟨page.val, o, k⟩ = s.copy .staged ⟨page.val, o, i⟩) ∧
      (∀ r, t.copy .committed r = s.copy .committed r ∧ t.copy .staged r = s.copy .staged r) ∧
      (∀ p o n, p ≠ page.val ∨ n ≠ k → t.copy .pending ⟨p, o, n⟩ = s.copy .pending ⟨p, o, n⟩) ∧
      (page.val ≠ 20 → t.mem = s.mem)

/-- R79: COMMIT while the selected copy is PENDING, COMMIT of ALL while any copy is, and COMMIT together with DISCARD have no effect
but COMMIT_REJ and the report of the refusal. -/
def Says.RefusedCommitOnlySetsCommitRej : Prop :=
  ∀ (s : State) (a : Accessor) (page : Fin 41), s.serves a page.val →
    let refused := (doAll [wrB ((HDR.PAGE_STATUS page.val).of (s.instSel a page.val)) 1 true,
      err page.val (s.instSel a page.val) EC.CONFIG RS.COMMIT_REJ (bar0 page.val 8)]).run s
    (hasStaged page.val = true → s.isPending page.val (s.instSel a page.val) = true →
      exec (.commit a page) s = .next refused) ∧
    (hasStaged page.val = true → windowed page.val = true →
      (List.range (instCount page.val)).any (s.isPending page.val) = true → exec (.commitAll a page) s = .next refused) ∧
    exec (.discard a page true) s = .next refused ∧
    ∀ b r, b ≠ .live → refused.copy b r = s.copy b r

/-- R79, R80: an accepted COMMIT of ALL begins the commit of every copy of a windowed page, in order, and the page shows PENDING
until the last of them has met its boundary. -/
def Says.CommitAllBeginsEveryCopy : Prop :=
  ∀ (s : State) (a : Accessor) (page : Fin 41), s.serves a page.val → hasStaged page.val = true → windowed page.val = true →
    (List.range (instCount page.val)).any (s.isPending page.val) = false →
    ((List.range (instCount page.val)).any fun i => s.chapterRefuses page.val i 0) = false →
    exec (.commitAll a page) s = .next ((doAll [
      Prog.each (List.range (instCount page.val)) fun i => acceptCommit page.val i 0,
      ctl fun c => { c with pendObj := nset 0 c.pendObj (allFlag page.val) 1 }]).run s)

/-- R77, R82: DISCARD gives the staged set the committed values and leaves the pending set. -/
def Says.DiscardRestoresTheCommittedSet : Prop :=
  ∀ (s : State) (a : Accessor) (page : Fin 41), s.wf = true → s.serves a page.val →
    let i := s.instSel a page.val
    let k := if objectPage page.val then s.commitObj a page.val else i
    ∃ t, exec (.discard a page false) s = .next t ∧
      (∀ o row h, rowAt page.val o = some (row, h) → row.st ≠ 0 → t.copy .staged ⟨page.val, o, i⟩ = s.copy .committed ⟨page.val, o, k⟩) ∧
      (∀ b r, b ≠ .staged → t.copy b r = s.copy b r) ∧
      (∀ p o n, p ≠ page.val ∨ n ≠ i → t.copy .staged ⟨p, o, n⟩ = s.copy .staged ⟨p, o, n⟩) ∧
      t.ctl = s.ctl ∧ (page.val ≠ 20 → t.mem = s.mem)

/-- R77: at its boundary a pending set replaces the committed set as a whole, PENDING clears and COMMIT_SEQ steps. Said of the pages
whose boundary does nothing else; the others follow in `BoundariesOfTheOtherPages`. -/
def Says.BoundaryReplacesTheCommittedSet : Prop :=
  ∀ (s : State) (page : Fin 41) (inst : Fin 512), s.wf = true → s.powered → inst.val < instCount page.val →
    s.isPending page.val inst.val = true → s.boundaryNow page.val inst.val = true →
    page.val ∉ [1, 2, 4, 13, 15, 18, 19, 20, 24, 25, 26, 28, 29, 30, 35] →
    let k := s.pendKey page.val inst.val
    let st := (HDR.PAGE_STATUS page.val).of inst.val
    ∃ t, exec (.commitBoundary page inst) s = .next t ∧ t.isPending page.val inst.val = false ∧
      t.fd st 31 16 = (s.fd st 31 16 + 1) % 65536 ∧
      (∀ o row h, rowAt page.val o = some (row, h) → row.st ≠ 0 → t.copy .committed ⟨page.val, o, k⟩ = s.copy .pending ⟨page.val, o, k⟩) ∧
      (∀ b r, b ≠ .committed → (b, r) ≠ (.live, st) → t.copy b r = s.copy b r) ∧
      (∀ p o n, p ≠ page.val ∨ n ≠ k → t.copy .committed ⟨p, o, n⟩ = s.copy .committed ⟨p, o, n⟩) ∧
      t.mem = s.mem

/-- R71, R81: the other pages' boundaries, each with what its chapter adds; the mark that a COMMIT of ALL left goes with the last
copy. On a page whose parts have boundaries of their own (the controllers of LSIO, the directions of a MAC, the threads of an
engine) each part that stands at its boundary takes its registers, and the set is committed with the last of them. A copy with
nothing pending, or with work under way that the set concerns, stays as it is. -/
def Says.BoundariesOfTheOtherPages : Prop :=
  ∀ (s : State) (page : Fin 41) (inst : Fin 512), s.powered →
    (inst.val < instCount page.val → s.isPending page.val inst.val = true → s.boundaryNow page.val inst.val = true →
      exec (.commitBoundary page inst) s = .next ((doAll [
        boundaryOf page.val inst.val,
        get fun t => Prog.when (decide (tget 0 t.ctl.pendObj (allFlag page.val) = 1) &&
            !((List.range (instCount page.val)).any (t.isPending page.val)))
          (ctl fun c => { c with pendObj := nset 0 c.pendObj (allFlag page.val) 0 })]).run s)) ∧
    (s.isPending page.val inst.val = false ∨ s.boundaryNow page.val inst.val = false →
      exec (.commitBoundary page inst) s = .next s) ∧
    (page.val = 4 ∨ page.val = 19 ∨ page.val = 25 → (boundaryOf page.val inst.val).run s = (partBoundary page.val inst.val).run s)

/-- R88: an acquire of a FREE latch makes it HELD by the acquirer, one of a BROKEN latch HELD_BROKEN, one of any other leaves it; the
word answered holds the STATUS and the owner it now has. No other latch, register copy of the staged sets or byte of memory outside
the peephole buffer changes. Said of the pages' users and of the functions' windows. -/
def Says.AcquireFollowsTheTable : Prop :=
  ∀ (s : State) (n : Fin 1024),
    (∀ a, s.serves a Pg.latch → ∃ t, exec (.latchAcquire (.page a) n) s = .next t ∧
      t.latch n.val = ((s.latch n.val).acquire (ownerOf a)).1 ∧
      t.ctl.answer = ((s.latch n.val).acquire (ownerOf a)).2 + 65536 * ((s.latch n.val).acquire (ownerOf a)).1.owner ∧
      (∀ m, m ≠ n.val → t.latch m = s.latch m) ∧ (∀ b r, b ≠ .live → t.copy b r = s.copy b r) ∧
      ∀ sp x, sp ≠ 1 → x < 2 ^ 48 → t.byte sp 0 x = s.byte sp 0 x) ∧
    (∀ f : Fin 2048, s.windowOpen f.val = true → s.mayUseLatch n.val f.val = true →
      ∃ t, exec (.latchAcquire (.window f) n) s = .next t ∧
      t.latch n.val = ((s.latch n.val).acquire (ownerFn f.val)).1 ∧
      t.ctl.answer = ((s.latch n.val).acquire (ownerFn f.val)).2 + 65536 * ((s.latch n.val).acquire (ownerFn f.val)).1.owner ∧
      ∀ m, m ≠ n.val → t.latch m = s.latch m) ∧
    (∀ a, s.open a Pg.latch = true → s.owner a = false → exec (.latchAcquire (.page a) n) s =
      .next ((answer (ST.ACCESS_DENIED + 65536 * (s.latch n.val).owner)).run s))

/-- R88: the table of latches, each row for the owner code that acts. -/
def Says.LatchTable : Prop :=
  ∀ (o p : Nat), p ≠ o →
    Latch.acquire ⟨.free, p⟩ o = (⟨.held, o⟩, 0) ∧ Latch.acquire ⟨.broken, p⟩ o = (⟨.heldBroken, o⟩, 0x0303) ∧
    Latch.acquire ⟨.held, p⟩ o = (⟨.held, p⟩, 0x0302) ∧ Latch.acquire ⟨.heldBroken, p⟩ o = (⟨.heldBroken, p⟩, 0x0302) ∧
    Latch.release ⟨.held, o⟩ o = some Latch.init ∧ Latch.release ⟨.heldBroken, o⟩ o = some ⟨.broken, o⟩ ∧
    Latch.release ⟨.held, p⟩ o = none ∧ Latch.release ⟨.free, o⟩ o = none ∧ Latch.release ⟨.broken, o⟩ o = none ∧
    Latch.clrBroken ⟨.heldBroken, o⟩ o = some ⟨.held, o⟩ ∧ Latch.clrBroken ⟨.heldBroken, p⟩ o = none ∧
    Latch.clrBroken ⟨.held, o⟩ o = none

/-- R88: RELEASE and CLR_BROKEN by the owner of a latch in the states that the table gives; both together act as CLR_BROKEN and then
RELEASE; every other one changes no latch, steps REL_REJ_CNT and is reported. -/
def Says.OnlyTheOwnerReleases : Prop :=
  ∀ (s : State) (a : Accessor) (n : Fin 1024), s.serves a Pg.latch →
    (s.latch n.val = ⟨.held, ownerOf a⟩ →
      exec (.latchRelease (.page a) n) s = .next ((doAll [setLatch n.val Latch.init, peep 13 1 n.val]).run s)) ∧
    (s.latch n.val = ⟨.heldBroken, ownerOf a⟩ →
      exec (.latchRelease (.page a) n) s = .next ((doAll [setLatch n.val ⟨.broken, ownerOf a⟩, peep 13 1 n.val]).run s) ∧
      exec (.clrBroken (.page a) n) s = .next ((setLatch n.val ⟨.held, ownerOf a⟩).run s) ∧
      exec (.clrBrokenAndRelease (.page a) n) s = .next ((doAll [setLatch n.val ⟨.held, ownerOf a⟩,
        setLatch n.val Latch.init, peep 13 1 n.val]).run s)) ∧
    (s.latch n.val = ⟨.held, ownerOf a⟩ →
      exec (.clrBroken (.page a) n) s = .next ((refuseRelease n.val).run s) ∧
      exec (.clrBrokenAndRelease (.page a) n) s = .next ((doAll [refuseRelease n.val, setLatch n.val Latch.init,
        peep 13 1 n.val]).run s)) ∧
    ((s.latch n.val).st = .free ∨ (s.latch n.val).st = .broken →
      exec (.latchRelease (.page a) n) s = .next ((refuseRelease n.val).run s) ∧
      exec (.clrBroken (.page a) n) s = .next ((refuseRelease n.val).run s)) ∧
    ((s.latch n.val).owner ≠ ownerOf a →
      exec (.latchRelease (.page a) n) s = .next ((refuseRelease n.val).run s) ∧
      exec (.clrBroken (.page a) n) s = .next ((refuseRelease n.val).run s) ∧
      (∀ m, ((refuseRelease n.val).run s).latch m = s.latch m))

/-- R92 to R94: the start that comes first is decided: with no running activity that conflicts with it on an overlapping scope it
runs and its block goes on; else it is refused, counted and shown with the blocker that comes first. The command is one clock of
the arbiter, the model's choice (log entry 33). -/
def Says.ArbiterDecidesTheFirstStart : Prop :=
  ∀ (s : State) (m : MStart), s.runsBelow 4 → firstBy MStart.before s.ctl.maint.waiting = some m →
    let u := { s with ctl := { s.ctl with maint := { s.ctl.maint with waiting := s.ctl.maint.waiting.erase m } } }
    (s.blockers m = [] → exec (.maintArbitrate none) s = .next ((doAll [
      ctl fun c => { c with maint := { c.maint with running := c.maint.running ++ [m] } },
      showRunning, peep 14 0 m.act, accepted m, ctl fun c => { c with maint.clock := c.maint.clock + 1 }]).run u)) ∧
    (∀ r, firstBy (fun a b => decide (a.act < b.act) || (decide (a.act = b.act) && decide (a.scope < b.scope)))
        (s.blockers m) = some r → exec (.maintArbitrate none) s = .next ((doAll [
      inc MAINT.REFUSE_CNT, wr MAINT.LAST_REFUSED (m.act + 256 * m.scope + 2 ^ 16 * r.act + 2 ^ 24 * r.scope),
      peep 14 1 m.act, refusedStart m, ctl fun c => { c with maint.clock := c.maint.clock + 1 }]).run u))

/-- R92: which activities conflict: an activity with itself, and the pairs that the rule names, both ways round; a start is blocked by
the running activities that conflict with it on an equal scope or where either scope is 0xFF; COMPATi shows the matrix. -/
def Says.ConflictsOfActivities : Prop :=
  (∀ a b, maConflict a b = true ↔ (a = b ∧ a < 14) ∨
    (min a b, max a b) ∈ [(0, 1), (2, 3), (2, 4), (3, 4), (4, 7), (5, 7), (7, 13), (8, 9), (9, 12), (10, 11)]) ∧
  (∀ (s : State) (m r : MStart), r ∈ s.blockers m ↔ r ∈ s.ctl.maint.running ∧ maConflict m.act r.act = true ∧
    (m.scope = r.scope ∨ m.scope = 0xFF ∨ r.scope = 0xFF)) ∧
  ∀ (s : State) (a : Accessor) (i : Fin 16) (off : Fin 65536), s.open a Pg.maint = true → off.val = 0x80 + 4 * i.val →
    ∃ t, exec (.clearOnRead a 8 off) s = .next t ∧ (∀ j < 32, tbit t.ctl.answer j = maConflict i.val j) ∧ t.reg = s.reg ∧ t.mem = s.mem

/-- R96, R97: the loss of a clock input that ran is shown, counted and raised as its cause, and what the clock feeds stops: lanes and
the inter-device link, holdover of every domain, the fallback bits, the host links; its return is shown and raised; a measurement
is taken while both clocks run. An input already lost, or one that runs, stays as it is. -/
def Says.ClockInputs : Prop :=
  ∀ (s : State) (i : Fin 7) (off : Word), s.powered →
    (s.bit CLK.CLK_STATUS i.val = true → exec (.clockLost i) s = .next ((doAll [
      wrB CLK.CLK_STATUS i.val false, inc CLK.LOSS_CNT,
      ctl fun c => { c with boot.clkLost := setField c.boot.clkLost i.val i.val 1 },
      int Pg.clk 0 (if i.val < 4 then 0 else if i.val = 4 then 1 else 2), clockGone i.val]).run s)) ∧
    (s.bit CLK.CLK_STATUS i.val = false → exec (.clockRestored i) s = .next ((doAll [
      wrB CLK.CLK_STATUS i.val true, ctl fun c => { c with boot.clkLost := setField c.boot.clkLost i.val i.val 0 },
      int Pg.clk 0 3]).run s)) ∧
    (s.bit CLK.CLK_STATUS i.val = false → exec (.clockLost i) s = .next s) ∧
    (s.bit CLK.CLK_STATUS i.val = true → exec (.clockRestored i) s = .next s) ∧
    (s.bit CLK.CLK_STATUS 0 = true → s.bit CLK.CLK_STATUS 4 = true →
      ∃ t, exec (.refclkMeasure off) s = .next t ∧ t.rd CLK.REFCLK_MEAS = off.toNat ∧
        (∀ b r, (b, r) ≠ (.live, CLK.REFCLK_MEAS) → t.copy b r = s.copy b r) ∧ t.mem = s.mem ∧ t.ctl = s.ctl)

/-- R98, R99, R145, R146: the limits and idle conditions are shown; the deepest state that they and PSTATE_CFG allow is entered and
counted; a wake starts the exit and names its cause once; the exit's end returns to P0, with INT_STAT after P3; a partner that leaves
LPI wakes the device. -/
def Says.LowPowerStates : Prop :=
  ∀ (s : State) (us : Nat), s.runsBelow 4 →
    exec (.pstateSelect us) s = .next ((doAll [wrF PWR.PSTATE_STATUS 3 2 s.allowed,
      wrF PWR.PSTATE_STATUS 8 4 (b2n (s.idle us 1) + 2 * b2n (s.idle us 2) + 4 * b2n (s.idle us 3) + 8 * b2n s.lanesOk +
        16 * b2n s.linksL1)]).run s) ∧
    (s.pstate < s.enters us → s.ctl.boot.exiting = false → exec (.pstateEnter us) s = .next ((doAll [
      wrF PWR.PSTATE_STATUS 1 0 (s.enters us), inc (PWR.ENTRY_CNT (s.enters us - 1)),
      ctl fun c => { c with boot.limits := s.limits }, peep 12 (s.enters us) 0]).run s)) ∧
    (∀ c : Fin 5, c.val < 3 ∨ (c.val = 3 ∧ (s.limits ≠ s.ctl.boot.limits ∨ s.allowed < s.pstate)) ∨
        (c.val = 4 ∧ ∃ e ∈ s.ctl.time.events, wtDiff e.target (s.wt e.dom) ≤ (exitUs s.pstate * 500 : Nat)) → 0 < s.pstate → s.ctl.boot.exiting = false →
      ∃ t, exec (.pstateWake c) s = .next t ∧ t.ctl = { s.ctl with boot := { s.ctl.boot with exiting := true } } ∧
        t.rd PWR.WAKE_CAUSE = c.val ∧ (∀ b r, (b, r) ≠ (.live, PWR.WAKE_CAUSE) → t.copy b r = s.copy b r) ∧ t.mem = s.mem) ∧
    (s.ctl.boot.exiting = true → exec .pstateExitDone s = .next ((doAll [
      ctl fun c => { c with boot := { c.boot with exiting := false } }, wrF PWR.PSTATE_STATUS 1 0 0,
      Prog.when (decide (s.pstate = 3)) (int Pg.pwr 0 0), peep 12 0 0]).run s)) ∧
    (∀ p : Fin 512, s.bit (MAC.MAC_STATUS.of p.val) 2 = true → exec (.partnerLpiExit p) s =
      .next ((doAll [wrB (MAC.MAC_STATUS.of p.val) 2 false, wake 5]).run s))

/-- R20, R21, R24, R25: an enabled scrub asks the arbiter for its segment; a segment's end counts the errors it found, by memory,
poisons what was uncorrectable, frees the arbiter and moves the pass on; the last segment of a pass is counted and raised. -/
def Says.PatrolScrub : Prop :=
  ∀ (s : State) (ddr : Bool) (ces ues : List (Fin 12 × Nat)), s.powered →
    (s.cbit (if ddr then MEM.DDR_SCRUB else MEM.HBM_SCRUB) 0 = true →
      ∃ t, exec (.scrubSegmentStart ddr) s = .next t ∧ t.ctl.maint.waiting = s.ctl.maint.waiting ++
        [⟨if ddr then MA.DRAM_SCRUB else MA.HBM_SCRUB, 0xFF, .periodic, 0, s.ctl.maint.clock⟩] ∧ t.reg = s.reg ∧ t.mem = s.mem) ∧
    (s.mrunning (if ddr then MA.DRAM_SCRUB else MA.HBM_SCRUB) 0xFF = true →
      let total := max 1 (s.memGiB ddr)
      let seg := (if ddr then s.ctl.health.ddrSeg else s.ctl.health.hbmSeg) + 1
      let now := if total ≤ seg then 0 else seg
      exec (.scrubSegmentEnd ddr ces ues) s = .next ((doAll [
        Prog.each ces fun e => memCE e.1.val,
        Prog.each ues fun e => ueSeen e.1.val e.2 true,
        mend (if ddr then MA.DRAM_SCRUB else MA.HBM_SCRUB) 0xFF,
        wrB MEM.SCRUB_STATUS (if ddr then 1 else 0) false,
        wrF MEM.SCRUB_STATUS (if ddr then 23 else 15) (if ddr then 16 else 8) (100 * now / total),
        ctl fun c => { c with health := if ddr then { c.health with ddrSeg := now } else { c.health with hbmSeg := now } },
        Prog.when (decide (total ≤ seg)) (doAll [inc (if ddr then MEM.DDR_PASS_CNT else MEM.HBM_PASS_CNT),
          int Pg.mem 0 (if ddr then 3 else 2)])]).run s))

/-- R36, R37: at a REFCLK edge every domain advances by its increment, in units of 2^-40 ns, and carries into the seconds, which wrap
modulo 2^48; then follow the commit boundaries that are due, the writes that a cap lets go, the spares that failed members get, the pair
link's messages, and what the FECs corrected. That an edge is what a step does with no
command waiting is the model's choice (log entry 1). Said of a domain that neither slews nor steps at this edge. -/
def Says.EdgeAdvancesEveryDomain : Prop :=
  ∀ (s : State) (n : Fin 8), s.pending = [] → s.powered → (s.dom n.val).slew = none → (s.acts n.val).step = none →
    (s.dom n.val).frac < nsUnit → (s.dom n.val).ns < 1000000000 →
    ∃ u, step s = .next ((doAll [dueBoundaries, capsEnd, spareAll, linkServes, fecTick]).run u) ∧ u = refclkEdge.run s ∧
      (u.dom n.val).sec * (1000000000 * nsUnit) + (u.dom n.val).ns * nsUnit + (u.dom n.val).frac =
        ((s.dom n.val).sec * (1000000000 * nsUnit) + (s.dom n.val).ns * nsUnit + (s.dom n.val).frac +
          s.rdW (TIME.DOM_INCR n.val)) % (2 ^ 48 * (1000000000 * nsUnit)) ∧
      (u.dom n.val).ns < 1000000000 ∧ (u.dom n.val).frac < nsUnit ∧
      (∀ sp x, sp ≠ 1 → x < 2 ^ 48 → u.byte sp 0 x = s.byte sp 0 x) ∧
      u.ctl.time.edges = s.ctl.time.edges + 1

/-- R42, R47: ARM in a FREE or LOCKED domain arms it at its next REFCLK edge, and in FLUSHING or ARMED has no effect on it. At that edge
the domain becomes FLUSHING, its slew and holdover end, ARM_COUNT steps, and its pending events leave the wheel for dispatch with
STEPPED; the events and the times of the other domains stay. -/
def Says.ArmFlushesTheDomain : Prop :=
  ∀ (s : State) (a : Accessor) (n : Fin 8) (v : Word),
    (s.serves a Pg.time → ∃ t, exec (.arm a n v) s = .next t ∧
      (t.acts n.val).arm = ((s.acts n.val).arm || decide (s.domState n.val = 0 ∨ s.domState n.val = 3)) ∧
      (∀ m, m ≠ n.val → t.acts m = s.acts m) ∧ (∀ m, t.dom m = s.dom m) ∧ t.ctl.time.events = s.ctl.time.events ∧
      (∀ b r, (b, r) ≠ (.live, TIME.DOM_CTL n.val) → t.copy b r = s.copy b r) ∧ t.mem = s.mem) ∧
    ∃ t, t = (armEdge n.val).run s ∧
      t.fd (TIME.DOM_STATUS n.val) 3 0 = 1 ∧
      t.fd (TIME.DOM_STATUS n.val) 31 16 = (s.fd (TIME.DOM_STATUS n.val) 31 16 + 1) % 65536 ∧
      (t.dom n.val).slew = none ∧ (t.dom n.val).nanos = (s.dom n.val).nanos ∧
      t.ctl.time.events = s.ctl.time.events.filter (fun e => !decide (e.dom = n.val)) ∧
      (∀ e, e ∈ t.ctl.time.flush ↔ e ∈ s.ctl.time.flush ∨ (e ∈ s.ctl.time.events ∧ e.dom = n.val)) ∧
      (∀ m, m ≠ n.val → t.dom m = s.dom m ∧ t.rd (TIME.DOM_STATUS m) = s.rd (TIME.DOM_STATUS m)) ∧ t.mem = s.mem

/-- R42, R43, R47, R48: a FLUSHING domain whose flushed events are all dispatched is ARMED; STEP in ARMED, with nanoseconds in range,
tells the domain to step by the signed offset at its next edge, where its time moves by it, seconds modulo 2^48, and it is LOCKED;
STEP in another state, or out of range, only sets STEP_REJ. That the offset is the one that stands at the write is the model's
choice (log entry 12). -/
def Says.StepOfAnArmedDomain : Prop :=
  ∀ (s : State) (a : Accessor) (n : Fin 8) (v : Word),
    (s.powered → s.domState n.val = 1 → (s.ctl.time.flush.any fun e => decide (e.dom = n.val)) = false →
      exec (.domainFlushDone n) s = .next ((doAll [wrF (TIME.DOM_STATUS n.val) 1 0 2, int Pg.time 0 (8 + n.val)]).run s)) ∧
    (s.serves a Pg.time → s.domState n.val = 2 →
      -999999999 ≤ toSigned 32 (s.rd (TIME.DOM_STEP_NS n.val)) → toSigned 32 (s.rd (TIME.DOM_STEP_NS n.val)) ≤ 999999999 →
      ∃ t, exec (.step a n v) s = .next t ∧ (t.acts n.val).step = some (s.stepOffset n.val) ∧
        (∀ m, m ≠ n.val → t.acts m = s.acts m) ∧ (∀ m, t.dom m = s.dom m) ∧
        (∀ b r, (b, r) ≠ (.live, TIME.DOM_CTL n.val) → t.copy b r = s.copy b r) ∧ t.mem = s.mem) ∧
    (∀ off : Int, ∃ t, t = (stepEdge n.val off).run s ∧
      ((t.dom n.val).nanos : Int) = (((s.dom n.val).nanos : Int) + off) % (2 ^ 48 * 1000000000) ∧ t.domState n.val = 3 ∧
      (∀ m, m ≠ n.val → t.dom m = s.dom m) ∧ ∀ r ∈ t.ctl.time.restart, r.1 ≠ n.val) ∧
    (s.serves a Pg.time → s.domState n.val ≠ 2 ∨ toSigned 32 (s.rd (TIME.DOM_STEP_NS n.val)) < -999999999 ∨
        999999999 < toSigned 32 (s.rd (TIME.DOM_STEP_NS n.val)) →
      exec (.step a n v) s = .next ((doAll [domCtlFields n.val v.toNat, wrB (TIME.DOM_STATUS n.val) 5 true]).run s))

/-- R39, R40, R45, R46, R48: an increment within 1,000 ppm of 6.4 ns is taken with its holding register and restarts the discipline
timer at the next edge, any other is refused and reported; a slew starts in FREE or LOCKED with none in progress, else SLEW_REJ; it
ends when its remainder is zero. -/
def Says.IncrementAndSlew : Prop :=
  ∀ (s : State) (a : Accessor) (n : Fin 8) (v : Word),
    let x := s.copy .loHold (TIME.DOM_INCR n.val) + 2 ^ 32 * (v.toNat % 65536)
    (s.serves a Pg.time → 63936 * nsUnit ≤ x * 10000 → x * 10000 ≤ 64064 * nsUnit →
      exec (.domIncrWrite a n v) s =
        .next ((doAll [wrW (TIME.DOM_INCR n.val) x, tellDom n.val fun y => { y with disc := true }]).run s)) ∧
    (s.serves a Pg.time → x * 10000 < 63936 * nsUnit ∨ 64064 * nsUnit < x * 10000 →
      exec (.domIncrWrite a n v) s =
        .next ((doAll [wrB (TIME.DOM_STATUS n.val) 6 true, timeReject (0x10c + 64 * n.val)]).run s)) ∧
    (s.serves a Pg.time → (s.dom n.val).slew = none → s.domState n.val = 0 ∨ s.domState n.val = 3 →
      exec (.slew a n v) s = .next ((doAll [wrB (TIME.DOM_STATUS n.val) 3 true,
        modDom n.val fun d => { d with slew := some ⟨decide (v.toInt < 0), v.toInt.natAbs * 2 ^ 32, 0, none⟩ },
        tellDom n.val fun y => { y with disc := true }]).run s)) ∧
    (s.serves a Pg.time → (s.dom n.val).slew.isSome = true ∨ s.domState n.val = 1 ∨ s.domState n.val = 2 →
      exec (.slew a n v) s = .next ((wrB (TIME.DOM_STATUS n.val) 4 true).run s)) ∧
    (∀ w, s.powered → (s.dom n.val).slew = some w → w.over = true →
      exec (.slewDone n) s = .next ((doAll [modDom n.val fun d => { d with slew := none },
        wrB (TIME.DOM_STATUS n.val) 3 false, int Pg.time 0 (16 + n.val)]).run s))

/-- R47 to R50, R68: HOLD_SET, HOLD_CLR, KEEPALIVE, SNAP and SNAP_ALL tell their domain, or all eight, to act at the next edge, where
a domain acts in the order of R47: it arms, steps, advances, enters holdover, leaves it, restarts its discipline timer, and its
snapshot is taken, last by the model's choice (log entry 12); a LOCKED domain whose discipline timer runs out enters holdover. -/
def Says.HoldoverAndSnapshots : Prop :=
  ∀ (s : State) (a : Accessor) (n : Fin 8) (v : Word),
    (s.serves a Pg.time →
      (∃ t, exec (.holdSet a n v) s = .next t ∧ t.acts n.val = { s.acts n.val with holdSet := true } ∧
        ∀ m, m ≠ n.val → t.acts m = s.acts m) ∧
      (∃ t, exec (.holdClr a n v) s = .next t ∧ t.acts n.val = { s.acts n.val with holdClr := true } ∧
        ∀ m, m ≠ n.val → t.acts m = s.acts m) ∧
      (∃ t, exec (.keepalive a n v) s = .next t ∧ t.acts n.val = { s.acts n.val with disc := true } ∧
        ∀ m, m ≠ n.val → t.acts m = s.acts m) ∧
      (∃ t, exec (.snap a n v) s = .next t ∧ t.acts n.val = { s.acts n.val with snap := true } ∧
        ∀ m, m ≠ n.val → t.acts m = s.acts m) ∧
      ∃ t, exec (.snapAll a) s = .next t ∧ ∀ m : Fin 8, t.acts m.val = { s.acts m.val with snap := true }) ∧
    (domEdge n.val).run s = (doAll [
      tellDom n.val fun _ => { DomActs.none with lim := s.discEdges n.val },
      Prog.when (s.acts n.val).arm (armEdge n.val),
      match (s.acts n.val).step with | some off => stepEdge n.val off | none => .skip,
      modDom n.val fun d => d.edge (s.rdW (TIME.DOM_INCR n.val)) (s.fd (TIME.DOM_SLEW_CFG n.val) 9 0),
      Prog.when (s.acts n.val).holdSet (enterHoldover n.val),
      Prog.when (s.acts n.val).holdClr (wrB (TIME.DOM_STATUS n.val) 2 false),
      Prog.when ((s.acts n.val).disc || (s.acts n.val).step.isSome) (restartDisc n.val),
      Prog.when (s.acts n.val).snap (snapshot n.val)]).run s ∧
    (s.domState n.val = 3 → s.bit (TIME.DOM_STATUS n.val) 2 = false →
      (enterHoldover n.val).run s = (doAll [wrB (TIME.DOM_STATUS n.val) 2 true, int Pg.time 0 n.val]).run s ∧
      (restartDisc n.val).run s = (modDom n.val fun d => { d with disc := some 0 }).run s) ∧
    (∀ k, s.powered → (s.dom n.val).disc = some k → s.domState n.val = 3 → 0 < (s.acts n.val).lim →
      (s.acts n.val).lim ≤ k → exec (.disciplineTimeout n) s =
        .next ((doAll [modDom n.val fun d => { d with disc := none }, enterHoldover n.val]).run s))

/-- R56, R65 to R67: an edge of an enabled PPS input is captured with the time of its domain, or counted when four captures wait; a read
of CAP_NS after one of CAP_SEC_LO answers what that latched and takes the head, and else answers the head (log entry 20); an enabled output is scheduled for its first edge not in the past; its event drives the pin and schedules
the next, and after a step returns it to idle; its inactive edge and the 10 MHz reference. -/
def Says.PulsesAndReference : Prop :=
  ∀ (s : State) (a : Accessor) (m : Fin 4) (v : Word),
    (s.powered → s.bit (TIME.PPS_IN_CTL m.val) 0 = true → (s.pps m.val).length < 4 →
      exec (.ppsInEdge m) s = .next ((doAll [setPps m.val (s.pps m.val ++
        [((s.dom (s.fd (TIME.PPS_IN_CTL m.val) 6 4)).sec, (s.dom (s.fd (TIME.PPS_IN_CTL m.val) 6 4)).ns)]),
        int Pg.time 0 (24 + m.val)]).run s)) ∧
    (s.powered → s.bit (TIME.PPS_IN_CTL m.val) 0 = true → 4 ≤ (s.pps m.val).length →
      exec (.ppsInEdge m) s = .next ((wrF (TIME.PPS_IN_CTL m.val) 31 24
        (satAdd 8 (s.fd (TIME.PPS_IN_CTL m.val) 31 24) 1)).run s)) ∧
    (∀ w, s.open a Pg.time = true → tget none s.ctl.time.ppsLatch m.val = some w → exec (.ppsCapNsRead a m) s =
      .next ((doAll [answer w, ctl fun c => { c with time.ppsLatch := nset none c.time.ppsLatch m.val none },
        Prog.when (tbit w 31) (setPps m.val (s.pps m.val).tail)]).run s)) ∧
    (s.open a Pg.time = true → tget none s.ctl.time.ppsLatch m.val = none → exec (.ppsCapNsRead a m) s =
      .next ((answer (s.rd (TIME.PPS_IN_CAP_NS m.val))).run s)) ∧
    (s.serves a Pg.time → tbit v.toNat 0 = true → exec (.ppsOutEnable a m v) s = .next ((doAll [
        wrF (TIME.PPS_OUT_CTL m.val) 8 0 (v.toNat % 512 &&& 0x171), cancelFor (fun c => decide (c = .periodOut m.val)),
        get fun u => match u.ppsFirst m.val with
          | some k => schedulePps m.val k
          | none => .skip]).run s)) ∧
    (s.serves a Pg.time → tbit v.toNat 0 = false → ∃ t, exec (.ppsOutEnable a m v) s = .next t ∧
      t.bit (TIME.PPS_OUT_CTL m.val) 0 = false ∧ t.bit (TIME.PPS_OUT_CTL m.val) 9 = false ∧
      t.ctl.time.events = s.ctl.time.events.filter (fun e => !decide (e.consumer = .periodOut m.val))) ∧
    (∀ k, s.ppsFirst m.val = some k →
      (s.dom (s.fd (TIME.PPS_OUT_CTL m.val) 6 4)).units ≤ s.ppsAt m.val k * 2 ^ 24 ∧
      ∀ j, j < k → s.ppsAt m.val j * 2 ^ 24 < (s.dom (s.fd (TIME.PPS_OUT_CTL m.val) 6 4)).units) ∧
    (∀ e, s.powered → s.fires e (.periodOut m.val) → exec .periodOutputEdge s = .next ((doAll [leaves e false,
        get fun u => Prog.when (u.bit (TIME.PPS_OUT_CTL m.val) 0) (doAll [drivePps m.val true,
          wrB (TIME.PPS_OUT_CTL m.val) 9 true,
          (let off := u.ppsAt m.val (tget 0 u.ctl.time.ppsOutK m.val) + u.rd (TIME.PPS_OUT_WIDTH m.val) * 65536
           ctl fun c => { c with time.ppsOffAt := nset 0 c.time.ppsOffAt m.val off }),
          Prog.when (decide (0 < u.ppsPeriod m.val)) (schedulePps m.val (tget 0 u.ctl.time.ppsOutK m.val + 1))])]).run s)) ∧
    (∀ e, s.powered → s.steps e (.periodOut m.val) →
      exec .periodOutputEdge s = .next ((doAll [leaves e true, stopPps m.val]).run s)) ∧
    (s.powered → tget false s.ctl.time.ppsOutLevel m.val = true →
      tget 0 s.ctl.time.ppsOffAt m.val * 2 ^ 24 ≤ (s.dom (s.fd (TIME.PPS_OUT_CTL m.val) 6 4)).units →
      ∃ t, exec (.ppsOutInactiveEdge m) s = .next t ∧ tget false t.ctl.time.ppsOutLevel m.val = false ∧
        t.ctl.out = s.ctl.out ++ [.pin 0 m.val (s.bit (TIME.PPS_OUT_CTL m.val) 8)] ∧ t.reg = s.reg ∧ t.mem = s.mem) ∧
    (s.powered → s.bit TIME.REF10M_CTL 0 = true →
      exec (.ref10mMeasure v) s = .next ((doAll [wr TIME.REF10M_MEAS v.toNat, wr TIME.REF10M_STATUS 2]).run s) ∧
      exec .ref10mLost s = .next ((doAll [wrB TIME.REF10M_STATUS 0 true, int Pg.time 0 28]).run s))

/-- R53, R54, R56, R58, R59: GO answers DOMAIN_ARMED, OUT_OF_HORIZON or WHEEL_FULL for the first reason that applies, and then nothing
is scheduled; else OK, and the wheel holds one more event at the target with a handle, which index and generation the wheel chooses;
CANCEL removes the event of a handle and says whether there was one; a software event that is due, or that an arming removed, leaves the wheel and its source
produces an event. -/
def Says.WheelRequests : Prop :=
  ∀ (s : State) (a : Accessor) (v : Word),
    let w := v.toNat
    let tgt := s.rdW WHEEL.SCHED_TARGET % 2 ^ 48
    let t0 := if tbit w 4 then Target.rel tgt else .abs tgt
    let st := s.wheelStatus (field w 2 0) (field w 8 8) t0
    (st = if s.domState (field w 2 0) = 1 ∨ s.domState (field w 2 0) = 2 then ST.DOMAIN_ARMED
      else if s.inHorizon (field w 2 0) t0 = false then ST.OUT_OF_HORIZON
      else if s.wheelRoom (field w 8 8) = false then ST.WHEEL_FULL else ST.OK) ∧
    (s.serves a Pg.wheel → st = ST.OK → ∃ t, exec (.go a v) s = .next t ∧ t.rd WHEEL.SCHED_STATUS = ST.OK ∧
      ∃ e, t.ctl.time.events = s.ctl.time.events ++ [e] ∧ e.dom = field w 2 0 ∧ e.cls = field w 8 8 ∧
        e.consumer = .swEvent (field w 27 16) ∧ e.target = t0.wt (s.wt (field w 2 0)) ∧ t.ctl.time.handle = e.idx + 2 ^ 20 * e.gen) ∧
    (s.serves a Pg.wheel → st ≠ ST.OK → ∃ t, exec (.go a v) s = .next t ∧ t.rd WHEEL.SCHED_STATUS = st ∧
      t.ctl.time = s.ctl.time) ∧
    (s.serves a Pg.wheel → ∃ t, exec (.cancel a v) s = .next t ∧
      t.ctl.time.events = s.ctl.time.events.filter (fun e => !(decide (e.idx = w % 2 ^ 20) && decide (e.gen = w / 2 ^ 20))) ∧
      (t.rd WHEEL.CANCEL_RESULT = 1 ↔ ∃ e ∈ s.ctl.time.events, e.idx = w % 2 ^ 20 ∧ e.gen = w / 2 ^ 20) ∧
      (∀ b r, (b, r) ≠ (.live, WHEEL.CANCEL_RESULT) → t.copy b r = s.copy b r) ∧ t.mem = s.mem) ∧
    (∀ e src, s.powered → s.fires e (.swEvent src) →
      exec .softwareEventFire s = .next ((doAll [leaves e false, evt src]).run s)) ∧
    (∀ e src, s.powered → s.steps e (.swEvent src) →
      exec .softwareEventFire s = .next ((doAll [leaves e true, evt src]).run s))

/-- R281, R282, R284, R287: a refill that fires credits the 64 shapers, or fills the 256 policers, of its block and schedules the next
period; one that a step removed adds nothing and restarts at the step. -/
def Says.Refills : Prop :=
  ∀ (s : State) (e : WEvent) (b : Nat), s.runsBelow 3 →
    (s.fires e (.shaperRefill b) → exec .shaperRefill s = .next ((doAll [leaves e false,
      Prog.each (List.range 64) fun k => refillShaper (64 * b + k), reschedule e]).run s)) ∧
    (s.steps e (.shaperRefill b) → exec .shaperRefill s = .next ((doAll [leaves e true, restartAtStep e]).run s)) ∧
    (s.fires e (.polBlock b) → exec .policerRefill s = .next ((doAll [leaves e false,
      ctl fun c => { c with net.policers := c.net.policers.map fun x => if x.1 / 256 = b then (x.1, x.2.refill) else x },
      reschedule e]).run s)) ∧
    (s.steps e (.polBlock b) → exec .policerRefill s = .next ((doAll [leaves e true, restartAtStep e]).run s))

/-- R284: a meter never takes more than a bucket holds and colours by what is left: srTCM green while the first bucket holds the frame,
yellow while the second does, red otherwise; trTCM red when the peak bucket lacks it, yellow when the committed one does. A refill
never fills a bucket past its burst. -/
def Says.MeterColours : Prop :=
  ∀ (p : Policer) (n : Nat),
    (p.w0 % 8 = 1 → (p.meter 0 n).1 = (if n * 256 ≤ p.c then 0 else if n * 256 ≤ p.e then 1 else 2) ∧
      (p.meter 0 n).2.c = (if n * 256 ≤ p.c then p.c - n * 256 else p.c) ∧
      (p.meter 0 n).2.e = (if n * 256 ≤ p.c then p.e else if n * 256 ≤ p.e then p.e - n * 256 else p.e)) ∧
    (p.w0 % 8 = 2 → (p.meter 0 n).1 = (if p.e < n * 256 then 2 else if p.c < n * 256 then 1 else 0) ∧
      (p.meter 0 n).2.e = (if p.e < n * 256 then p.e else p.e - n * 256) ∧
      (p.meter 0 n).2.c = (if p.e < n * 256 then p.c else if p.c < n * 256 then p.c else p.c - n * 256)) ∧
    (p.w0 % 4 = 1 ∨ p.w0 % 4 = 2 → p.refill.c ≤ p.cbs * 256 ∧ p.refill.e ≤ p.ebs * 256)

/-- R280, R287, R288, R298: the last word of a policer, of a louvre entry of a bank that does not run, and of a replication group writes
the selected entry with the words before it; an entry of the bank that runs is left and reported. -/
def Says.TrafficTables : Prop :=
  ∀ (s : State) (a : Accessor) (v : Word), s.serves a Pg.tm →
    (∃ t, exec (.polW4Write a v) s = .next t ∧
      let p := tget Policer.init t.ctl.net.policers (s.sel a Pg.tm 0x200 % 2 ^ 18)
      p.w0 = s.rd TM.POL_W0 ∧ p.cir = s.rd TM.POL_W1 ∧ p.cbs = s.fd TM.POL_W2 23 0 ∧ p.pir = s.rd TM.POL_W3 ∧
      p.ebs = v.toNat % 2 ^ 24 ∧ p.c = (if s.bit TM.POL_W0 3 then p.cbs * 256 else 0) ∧
      p.e = (if s.bit TM.POL_W0 3 then p.ebs * 256 else 0) ∧
      ∀ i, i ≠ s.sel a Pg.tm 0x200 % 2 ^ 18 → tget Policer.init t.ctl.net.policers i = tget Policer.init s.ctl.net.policers i) ∧
    (∃ t, exec (.replCtlWrite a v) s = .next t ∧ t.mem = s.mem ∧
      tget ⟨false, 0⟩ t.ctl.net.repl (s.sel a Pg.tm 0x300 % 4096) =
        ⟨v.getLsbD 0, ((List.range 16).map fun w => s.rd (TM.REPL_MASK w) * 2 ^ (32 * w)).sum⟩ ∧
      ∀ i, i ≠ s.sel a Pg.tm 0x300 % 4096 → tget ⟨false, 0⟩ t.ctl.net.repl i = tget ⟨false, 0⟩ s.ctl.net.repl i) ∧
    let sel := s.sel a Pg.tm 0x280
    let p := field sel 8 0
    let bank := field sel 24 24
    ((s.louvre p).run = false ∨ (s.louvre p).bank ≠ bank → exec (.lvW1Write a v) s = .next ((doAll [wr TM.LV_W1 v.toNat,
      ctl fun c => { c with
        net.lvEntry := nset (0, 0) c.net.lvEntry ((2 * p + bank) * 256 + field sel 23 16) (s.fd TM.LV_W0 16 0, v.toNat) }]).run s)) ∧
    ((s.louvre p).run = true → (s.louvre p).bank = bank →
      exec (.lvW1Write a v) s = .next ((err Pg.tm 0 EC.ACCESS RS.WRONG_STATE (bar0 Pg.tm 0x288)).run s))

/-- R288, R289: the next gate event of a port starts a cycle of its list, or applies the list's next entry, and arms the change after
it; one that a step removed stops the list and raises its cause. -/
def Says.LouvreEvents : Prop :=
  ∀ (s : State) (e : WEvent) (p : Nat), s.runsBelow 3 →
    (s.fires e (.louvre p) → s.louvreStarts p = true →
      exec .louvreCycleStart s = .next ((doAll [leaves e false, louvreFire p]).run s)) ∧
    (s.fires e (.louvre p) → s.louvreStarts p = false →
      exec .louvreListChange s = .next ((doAll [leaves e false, louvreFire p]).run s)) ∧
    (s.steps e (.louvre p) →
      exec .louvreListChange s = .next ((doAll [leaves e true, louvreStop p, int Pg.tm 0 3]).run s))

/-- R56, R62, R69, R293, R296, R297: a launch event makes its frame eligible, and one that a step removed withdraws it; a port whose
domain changes withdraws its launch-time frames; a telemetry event steps the histogram of every queue while telemetry is on. -/
def Says.LaunchesAndTelemetry : Prop :=
  ∀ (s : State) (e : WEvent) (id : Nat),
    (s.runsBelow 3 → s.fires e (.frameLaunch id) →
      exec .launchDue s = .next ((doAll [leaves e false, modCopy id fun c => { c with eligible := true }]).run s)) ∧
    (∀ c, s.runsBelow 3 → s.steps e (.frameLaunch id) →
      ((leaves e true).run s).copies.find? (fun c => decide (c.id = id)) = some c →
      exec .launchDue s = .next ((doAll [leaves e true, unqueue c, dropCopy c ST.STEPPED]).run s)) ∧
    (s.runsBelow 3 → s.fires e .telemetry → exec .telemetrySample s = .next ((doAll [leaves e false,
      get fun u => Prog.when (u.bit TM.TEL_CFG 0) (Prog.each (List.range 8192) fun q => histStep q 0 (histBin 64 (u.qDepth true q))),
      reschedule e]).run s)) ∧
    (s.runsBelow 3 → s.steps e .telemetry → exec .telemetrySample s = .next ((doAll [leaves e true, restartAtStep e]).run s)) ∧
    (∀ (a : Accessor) (k : Fin 64) (v : Word), s.serves a Pg.time → exec (.portDomWrite a k v) s = .next ((doAll [
      Prog.each ((List.range 8).filter fun j => decide (field v.toNat (4 * j + 2) (4 * j) ≠ s.portDom (8 * k.val + j))) (fun j =>
        Prog.each (((List.range 16).flatMap fun q => s.queue (16 * (8 * k.val + j) + q)).filter fun c => c.launch.isSome) fun c =>
          doAll [unqueue c, dropCopy c ST.STEPPED]),
      wr (TIME.PORT_DOM k.val) v.toNat]).run s))

/-- R130, R131: whatever has arrived, the latency reported to a link lies between the limits that LTR_CFG sets, where the lower is
not above the higher; a message goes at once when it falls by more than a quarter, and none while it stays between that and twice
the value sent; one above twice goes once it has stood so for LTR_HOLD; the encoded value never exceeds the latency. -/
def Says.LatencyReports : Prop :=
  ∀ (s : State) (l : Fin 4) (bytes : Nat) (frames : List (Fin 65536 × Nat)), s.runsBelow 3 → (s.link l.val).ltrEn = true →
    s.linkUp l.val = true →
    let hi := field (s.rd (HOST.LTR_CFG (l.val / 2))) 31 16 * 1000
    let lo := field (s.rd (HOST.LTR_CFG (l.val / 2))) 15 0 * 1000
    let sent := (s.link l.val).ltrSent
    let x := s.ltrTarget l.val bytes frames
    let sends := exec (.ltrUpdate l bytes frames) s = .next ((doAll [
        modLink l.val fun k => { k with ltrSent := ltrNs (ltrField x), ltrHigh := 0 },
        wr (HOST.LTR_LAST (l.val / 2)) (ltrField x + 65536 * ltrField x),
        emit (.ltr l.val (ltrField x + 65536 * ltrField x))]).run s)
    (lo ≤ hi → lo ≤ x ∧ x ≤ hi) ∧ ltrNs (ltrField x) ≤ x ∧
      (4 * x < 3 * sent → sends) ∧
      (3 * sent ≤ 4 * x → x ≤ 2 * sent → exec (.ltrUpdate l bytes frames) s =
        .next ((modLink l.val fun k => { k with ltrHigh := 0 }).run s)) ∧
      (2 * sent < x → s.fd (HOST.LTR_HOLD (l.val / 2)) 15 0 ≤ 10 * ((s.link l.val).ltrHigh + 1) → sends) ∧
      (2 * sent < x → 10 * ((s.link l.val).ltrHigh + 1) < s.fd (HOST.LTR_HOLD (l.val / 2)) 15 0 →
        exec (.ltrUpdate l bytes frames) s = .next ((modLink l.val fun k => { k with ltrHigh := k.ltrHigh + 1 }).run s))

/-- R278, R291, R208, R294: the scheduler takes the copy that it picks: it starts it on a port that can send, drops it with PORT_DOWN where
the port is down, with LATE_DROP past the queue's limit, with ABORTED where it exceeds the egress port's MAX_FRAME. `u` is the state
after frames that no cycle could carry have gone. -/
def Says.SchedulerTakesItsPick : Prop :=
  ∀ (s : State) (p : Fin 512) (c : Copy) (n : Nat) (d : Tbl Nat), s.runsBelow 3 →
    let u := (Prog.each (List.range 16) fun k => dropOversize (16 * p.val + k)).run s
    let lim := u.cfg (TM.LATE_LIMIT.of (objQ c.queue))
    u.pick p.val none = some (c, n, d) →
    (u.portUp p.val = false → exec (.schedulerSelect p) s = .next ((doAll [notePick p.val c n d, unqueue c, inc TM.PORT_DOWN_CNT,
      peep 4 1 c.queue, dropCopy c ST.PORT_DOWN]).run u)) ∧
    (u.portUp p.val = true → u.macReady p.val = true → lim ≠ 0 → (lim : Int) < u.lateness c →
      exec (.schedulerSelect p) s = .next ((doAll [notePick p.val c n d, unqueue c, inc TM.LATE_DROP_CNT, int Pg.tm 0 1,
        peep 4 1 c.queue, dropCopy c ST.LATE_DROP]).run u)) ∧
    (u.portUp p.val = true → u.macReady p.val = true → lim = 0 ∨ u.lateness c ≤ (lim : Int) →
      c.bytes.length ≤ u.cfd (MAC.MAX_FRAME.of p.val) 13 0 - 4 →
      exec (.schedulerSelect p) s = .next ((doAll [notePick p.val c n d, startCopy c false]).run u)) ∧
    (u.portUp p.val = true → u.macReady p.val = true → lim = 0 ∨ u.lateness c ≤ (lim : Int) →
      u.cfd (MAC.MAX_FRAME.of p.val) 13 0 - 4 < c.bytes.length →
      exec (.schedulerSelect p) s = .next ((doAll [notePick p.val c n d, unqueue c, peep 4 1 c.queue, dropCopy c ST.ABORTED]).run u))

/-- R199, R277: a PFC frame pauses each priority that it names with quanta and releases those with 0, a PAUSE frame the whole port, where
the port's flow control takes it; each is counted; a pause runs out; a standing pause is sent again. -/
def Says.FlowControlOfPorts : Prop :=
  ∀ (s : State) (p : Fin 512) (g : Fin 8) (x : BitVec 16),
    (s.runsBelow 3 → s.portUp p.val = true → s.macBit p.val 0 = true → s.macBit p.val 4 = true →
      exec (.pauseReceived p true [(g, x)]) s = .next ((doAll [gotOctets p.val 64, incW ((MAC.RX_PFC g.val).of p.val) 1,
        ctl fun c => { c with net.paused := fset c.net.paused (16 * p.val + g.val) (decide (x ≠ 0)) }]).run s)) ∧
    (s.runsBelow 3 → s.portUp p.val = true → s.macBit p.val 0 = true → s.macBit p.val 5 = true → s.macBit p.val 4 = false →
      exec (.pauseReceived p false [(g, x)]) s = .next ((doAll [gotOctets p.val 64, incW (MAC.RX_PAUSE.of p.val) 1,
        ctl fun c => { c with net.paused := fset c.net.paused (16 * p.val + 8) (decide (x ≠ 0)) }]).run s)) ∧
    (∀ k : Fin 9, ∃ t, exec (.pauseExpired p k) s = .next t ∧ tget false t.ctl.net.paused (16 * p.val + k.val) = false ∧
      t.reg = s.reg ∧ t.mem = s.mem) ∧
    (∀ k : Fin 9, s.runsBelow 3 → s.lossless p.val k.val = true → tget false s.ctl.net.pfcSent (16 * p.val + k.val) = true →
      s.xon p.val ≤ s.usage true p.val k.val → exec (.pfcRepeat p k) s = .next ((sendPause p.val k.val 0xFFFF).run s))

/-- R202, R292, R295: a verify that succeeds ends verification, the third attempt that fails ends it the other way with its cause; a
preemptable frame on its port is cut where both its parts have their least length and waits, and its fragment is counted, at once or when
its check is done. -/
def Says.FramePreemption : Prop :=
  ∀ (s : State) (p : Fin 512), s.runsBelow 3 →
    (∀ ok, s.macBit p.val 7 = true → s.macBit p.val 10 = false → s.fd (MAC.MAC_STATUS.of p.val) 4 3 < 2 →
      let n := tget 0 s.ctl.net.verify p.val + 1
      exec (.preemptVerify p ok) s = .next ((doAll [
        ctl fun c => { c with net.verify := nset 0 c.net.verify p.val (if ok then 0 else n % 3) },
        if ok then wrF (MAC.MAC_STATUS.of p.val) 4 3 2
        else if 3 ≤ n then doAll [wrF (MAC.MAC_STATUS.of p.val) 4 3 3, int Pg.mac p.val 1]
        else wrF (MAC.MAC_STATUS.of p.val) 4 3 1]).run s)) ∧
    (∀ x n, s.sending p.val = some x → s.preemptable p.val x.copy.cls = true → s.fragMin p.val ≤ n + 4 →
      x.sent + n < x.copy.bytes.length → exec (.macPreempt ⟨p, n⟩) s = .next ((doAll [
        setSending p.val none, setSending (512 + p.val) (some { x with
          cutOff := true
          sent := x.sent + n
          frags := x.frags + b2n (!x.copy.confirmed)
          holds := x.holds + b2n (!x.copy.confirmed && ((s.louvre p.val).run && tbit (s.gateWord p.val) 16)) }),
        Prog.when x.copy.confirmed (doAll [incW (MAC.MM_FRAG_TX.of p.val) 1,
          Prog.when ((s.louvre p.val).run && tbit (s.gateWord p.val) 16) (incW (MAC.MM_HOLD.of p.val) 1)]),
        emit (.fragment p.val x.copy.frame (slice x.copy.bytes x.sent n))]).run s))

/-- R204, R213: a port enters LPI on the transmit side when its queues have been empty and nothing is due, and wakes for a frame; the
partner's LPI is shown and counted. -/
def Says.EnergyEfficientEthernet : Prop :=
  ∀ (s : State) (p : Fin 512),
    (s.runsBelow 3 → s.lpiPort p.val = true → s.portUp p.val = true → s.sending p.val = none →
      tget false s.ctl.net.lpiTx p.val = false → (List.range 16).all (fun k => (s.queue (16 * p.val + k)).isEmpty) = true →
      s.dueSoon p.val (s.cfd (MAC.LPI_TW.of p.val) 15 0 + s.cfd (MAC.LPI_IDLE.of p.val) 15 0) = false →
      exec (.lpiEnter p) s = .next ((doAll [
        ctl fun c => { c with net.lpiTx := fset c.net.lpiTx p.val true }, wrB (MAC.MAC_STATUS.of p.val) 1 true,
        incW (MAC.LPI_TX_ENTRIES.of p.val) 1, emit (.lpi p.val true)]).run s)) ∧
    (s.runsBelow 3 → tget false s.ctl.net.lpiTx p.val = true →
      (List.range 16).any (fun k => !(s.queue (16 * p.val + k)).isEmpty) = true →
      exec (.lpiWake p) s = .next ((doAll [
        ctl fun c => { c with net.lpiTx := fset c.net.lpiTx p.val false }, wrB (MAC.MAC_STATUS.of p.val) 1 false,
        emit (.lpi p.val false)]).run s)) ∧
    (s.runsBelow 4 → s.portUp p.val = true → s.bit (MAC.MAC_STATUS.of p.val) 2 = false →
      exec (.partnerLpiEntry p) s = .next ((doAll [wrB (MAC.MAC_STATUS.of p.val) 2 true,
        incW (MAC.LPI_RX_ENTRIES.of p.val) 1]).run s))

/-- R197, R213, R273: a frame received on an enabled port waits for its FCS; a good frame that no filter took is counted by its length
and applied, a filtered one is counted as filtered, one whose FCS fails is counted and its copies fail; each leaves the list. -/
def Says.FramesReceived : Prop :=
  ∀ (s : State) (p : Fin 512) (bytes : List Byte), s.runsBelow 3 →
    (s.portUp p.val = true → s.macBit p.val 0 = true →
      ∃ t f, exec (.rxFrame p bytes false 0) s = .next t ∧ t.ctl.net.frames = s.ctl.net.frames ++ [f] ∧
        f.id = s.ctl.net.nextFrame ∧ f.src = p.val ∧ f.bytes = bytes.take (s.cfd (MAC.MAX_FRAME.of p.val) 13 0 - 4) ∧
        t.ctl.net.nextFrame = s.ctl.net.nextFrame + 1) ∧
    (∀ f, s.ctl.net.frames.find? (fun x => decide (x.id = f.id)) = some f → f.oversize = false → f.trunc = false →
      let n := f.bytes.length + 4
      let gone := ctl fun c => { c with net.frames := c.net.frames.filter fun x => !decide (x.id = f.id) }
      let good := [gotOctets f.src n, Prog.when f.assembled (incW (MAC.MM_ASSY_OK.of f.src) 1)]
      (f.filt = 0 → exec (.frameConfirm f.id true) s =
        .next ((doAll ([gone] ++ good ++ [noteSource f, applyFrame f none])).run s)) ∧
      (f.filt = 1 → exec (.frameConfirm f.id true) s =
        .next ((doAll ([gone] ++ good ++ [incW (MAC.RX_FILT_DROP.of f.src) 1])).run s)) ∧
      (f.filt ≠ 2 → exec (.frameConfirm f.id false) s =
        .next ((doAll [gone, incW (MAC.RX_FCS_ERR.of f.src) 1, failCopies f]).run s)))

/-- R31, R32, R209, R210: a copy of an unconfirmed frame starts early where its ports allow cut-through and enough of it is there; a send
whose bytes have all come goes through its ring's pipeline; a ring's oldest host-bound frame goes into its confirmed buffers when they
suffice, and one with an uncorrectable error is not written but completes so. -/
def Says.CutThroughSendsAndDelivery : Prop :=
  ∀ (s : State), s.runsBelow 3 →
    (∀ c f n d, (s.ctl.net.queues.flatMap (·.2)).find? (fun x => decide (x.id = c.id) && !x.confirmed) = some c →
      s.ctl.net.frames.find? (fun x => decide (x.id = c.frame)) = some f →
      s.macBit f.src 3 = true → c.noCut = false → c.spill = false → s.portRate c.port ≤ s.portRate f.src →
      s.portUp c.port = true → s.macReady c.port = true →
      max 64 (min 512 (s.cfd (MAC.CT_START.of f.src) 9 0)) ≤ f.bytes.length + 4 →
      s.pick c.port (some c.id) = some (c, n, d) →
      exec (.cutThroughStart c.id) s = .next ((doAll [notePick c.port c n d, peep 3 1 f.src, startCopy c true]).run s)) ∧
    (∀ w x, s.work? w = some x → x.typ = 0x10 → x.reads = 0 → x.stage ≠ 1 → x.stage ≠ 3 → x.status ≠ ST.OK →
      exec (.frameFetchDone w) s = .next ((complete w x.status 0).run s)) ∧
    (∀ w x, s.work? w = some x → x.typ = 0x10 → x.reads = 0 → x.stage ≠ 1 → x.stage ≠ 3 → x.status = ST.OK →
      x.length ≤ x.buf.length → ∃ t, exec (.frameFetchDone w) s = .next t ∧
        ∃ fr u, t = (applyFrame fr (if x.flag 8 then some (x.at 22 6) else none)).run u ∧ fr.bytes = x.buf.take x.length ∧
          fr.work = some w ∧ fr.pipe = s.cfd (RING.CTX_CTL.of x.ring) 3 2 ∧ u.ctl.net.nextFrame = s.ctl.net.nextFrame + 1) ∧
    (∀ (r : Fin 65536) (x : Nat × HostBound) (l : List (Nat × Work)),
      s.ctl.net.hostBound.find? (fun y => decide (y.2.ring = r.val)) = some x →
      takeWorks (s.rxBufs r.val) x.2.frame.bytes.length = some l →
      let gone := [ctl fun c => { c with net.hostBound := c.net.hostBound.erase x },
        Prog.each l fun b => modWork b.1 fun k => { k with stage := 3 }]
      let write := fillBufs (fun b => b.2.length) (fun b d first more => completeWith b.1 ST.OK d.length [(b.2.addr, d)]
        (rxStamp x.2.frame first) (rxExtra x.2.frame x.2.frame.csum first more)) l x.2.frame.bytes true
      exec (.rxDeliver r .none) s = .next ((doAll (gone ++ [write])).run s) ∧
      exec (.hostBoundRelease r) s = .next ((doAll (gone ++ [write])).run s) ∧
      ∀ m addr, exec (.rxDeliver r (.ue m addr)) s = .next ((doAll (ueSeen m.val addr false :: gone ++
        [Prog.each l fun b => complete b.1 ST.UNCORRECTABLE 0])).run s))

/-- R189, R192, R194, R195, R211: a lane that trains on a running clock comes up with what it carries, and its groups hold the peer's group
number and PHY map against their own; one that loses its link takes it down, and so does a change of its mode; a FlexE group that waits for CA switches calendars with it and shows a time-out; a peer's CR is answered, and
what it carries for management goes to the control cores; ABANDON withdraws the request and drops the pending set. -/
def Says.LanesAndCalendars : Prop :=
  ∀ (s : State) (a : Accessor) (l : Fin 64) (g : Fin 16) (v : Word),
    (s.serves a Pg.lane → exec (.laneReconfigure a l v) s =
      .next ((doAll [laneDown l.val, wr (LANE.LANE_CTL l.val) v.toNat]).run s)) ∧
    (s.runsBelow 4 → exec (.laneLinkDown l) s = .next ((laneDown l.val).run s)) ∧
    (∀ oh mg, s.runsBelow 4 → s.laneSlots l.val ≠ 0 → s.laneUp l.val = false → s.clockRuns (l.val / 16) = true →
      exec (.laneLinkUp ⟨l, oh, mg⟩) s = .next ((fresh fun snr => doAll [
        wr (LANE.LANE_STATUS l.val) (s.fd (LANE.LANE_STATUS l.val) 31 16 * 65536 + snr % 256 * 256 + 7 +
          8 * b2n (s.bit (LANE.LANE_CTL l.val) 2) + 16 * b2n (s.bit (LANE.LANE_CTL l.val) 3)),
        get fun u => doAll [
          Prog.each (u.groupsOn l.val) renewGroup, laneHears ⟨l, oh, mg⟩,
          Prog.each (u.portsOn l.val) portComesUp]]).run s)) ∧
    (s.runsBelow 4 → tget false s.ctl.net.calWait g.val = true →
      exec (.caReceived g) s = .next ((calGo g.val).run s) ∧
      exec (.caTimeout g) s = .next ((doAll [wrB (CAL.GRP_STATUS g.val) 2 true, int Pg.cal 0 0]).run s)) ∧
    (s.calBlocked g.val = false → s.ctl.net.calCa = [] → (calGo g.val).run s = (calSwitch g.val).run s) ∧
    (∀ m, s.runsBelow 4 → s.bit (CAL.GRP_STATUS g.val) 0 = true → exec (.crReceived ⟨g, m⟩) s = .next ((doAll [
      emit (.flexe g.val 1), wrB (CAL.GRP_STATUS g.val) 1 (!s.bit (CAL.GRP_STATUS g.val) 1),
      Prog.when (!m.isEmpty) (toManagement m)]).run s)) ∧
    (s.serves a Pg.cal → s.isPending Pg.cal 0 = true → ∃ t, exec (.abandon a) s = .next t ∧ t.isPending Pg.cal 0 = false ∧
      t.ctl.net.calWait = [] ∧ (∀ r, t.copy .committed r = s.copy .committed r))

/-- R143, R144: a function-level reset of a function that exists begins its reset, one during a reset is only counted, and either
keeps what else is writable of its Device Control and is answered with success; VF Enable cleared begins the reset of every virtual
function of its physical function, and one in reset already goes with it; a reset that has drained ends, and with it the function's
queue pairs and block commands. -/
def Says.FunctionResets : Prop :=
  ∀ (s : State) (f : Fin 2048), s.powered →
    (s.linkUp (s.linkOf f.val) = true → s.ctl.host.retryEnded = true → s.pf ≠ 2 →
      let reply := [answer 0, emit (.hostReply (f.val / 1024) f.val replyOk (leBytes 4 0)), setBootLock]
      let keep := Prog.when (decide (f.val % 1024 < 8)) (modCfg f.val fun c =>
        { c with devCtl := (0x8000 ||| (s.fnCfg f.val).devCtl) % 2 ^ 32 &&& 0x70F0 })
      ((s.fnSt f.val).busy = false → s.fnExists f.val = true →
        exec (.functionLevelReset f) s = .next ((doAll (keep :: resetFn f.val :: reply)).run s)) ∧
      ((s.fnSt f.val).busy = true →
        exec (.functionLevelReset f) s = .next ((doAll (keep :: inc (FUNC.RESET_CNT.of f.val) :: reply)).run s))) ∧
    (∀ (h : Fin 2) (k : Fin 8), exec (.vfDisable h k) s = .next ((doAll [
      Prog.each (s.vfsOf (1024 * h.val + k.val)) (fun v => get fun u =>
        if (u.fnSt v).busy then modFn v fun x => { x with vfGoing := true } else beginReset v true),
      modCfg (1024 * h.val + k.val) fun c => { c with vfEn := false }]).run s)) ∧
    ((s.fnSt f.val).busy = true → s.fnDrained f.val = true → exec (.functionResetDrained f) s =
      .next ((finishReset f.val (doAll [resetOwnerQps f.val, blockReset f.val])).run s))

/-- R123, R124, R127: a shut link that is up, with nothing fenced, becomes READY and raises its cause; RELEASE of a READY link starts the
release, of another sets its refusal bit; the shutter opens when no function of the link is in reset any more. -/
def Says.ShuttersFollowTheirStates : Prop :=
  ∀ (s : State) (l : Fin 4),
    (s.powered → s.shut l.val = 1 → s.linkUp l.val = true → s.fenced = false →
      exec (.shutterReady l) s = .next ((doAll [
        wrF (shutReg l.val) 1 0 2, int (11 + l.val / 2) 0 (if l.val % 2 = 0 then 1 else 3),
        Prog.when (s.bit (HOST.CTL (l.val / 2)) 0 && decide (s.fd (shutReg l.val) 7 4 = 1 ∨ s.fd (shutReg l.val) 7 4 = 4))
          (shutterRelease l.val)]).run s)) ∧
    (s.powered → s.shut l.val = 3 → (s.ctl.host.fns.any fun e => e.2.busy && decide (s.linkOf e.1 = l.val)) = false →
      ∃ t, exec (.shutterOpen l) s = .next t ∧ t.shut l.val = 0 ∧ t.mem = s.mem ∧ t.ctl = s.ctl ∧
        ∀ b r, (b, r) ≠ (.live, shutReg l.val) → t.copy b r = s.copy b r) ∧
    (∀ (a : Accessor) (h : Fin 2) (v : Word), s.serves a (11 + h.val) → v.toNat % 4 = 1 →
      (s.shut (2 * h.val) = 2 → s.fenced = false →
        exec (.shutterRelease a h v) s = .next ((shutterRelease (2 * h.val)).run s)) ∧
      (s.shut (2 * h.val) ≠ 2 →
        exec (.shutterRelease a h v) s = .next ((wrB (shutReg (2 * h.val)) 2 true).run s)))

/-- R100, R101, R122, R132, R143: a link that its form, PERST_N, LINK_OFF and its clock allow comes up at a speed within its cap; a link that was up
goes down as expected or as a surprise; Hot Reset and Link Disable reset its functions; LINK_OFF takes the port's links down. -/
def Says.HostLinks : Prop :=
  ∀ (s : State) (l : Fin 4), s.powered →
    (∀ (speed : Fin 8) (width : Fin 17) (flit : Bool), s.linkFormed l.val = true → tget false s.ctl.host.perst l.val = true →
      s.bit (HOST.CTL (l.val / 2)) 1 = false → s.clockRuns (5 + l.val / 2) = true →
      let top := s.fd (HOST.LINK_CFG (l.val / 2)) 3 1
      let cap := if 1 ≤ top ∧ top ≤ 6 then top else 6
      let noFlit := s.bit (HOST.LINK_CFG (l.val / 2)) 4
      let sp := min speed.val (if noFlit then min cap 5 else cap)
      exec (.hostLinkUp l speed width flit) s = .next ((doAll [
        setLinkStatus l.val sp (if tget false s.ctl.host.formed2 (l.val / 2) then min width.val 8 else width.val)
          ((flit || decide (sp = 6)) && !noFlit) true,
        modLink l.val fun k => { k with
          expectDown := false
          l1 := false
          trained := if tget false s.ctl.host.formed2 (l.val / 2) then min width.val 8 else width.val }]).run s)) ∧
    (s.linkUp l.val = true → exec (.hostLinkDown l) s = .next ((linkDown l.val (s.link l.val).expectDown).run s)) ∧
    exec (.hotReset l) s = .next ((doAll [modLink l.val fun k => { k with expectDown := true }, portReset l.val]).run s) ∧
    exec (.linkDisable l) s = .next ((linkDown l.val true).run s) ∧
    (∀ (a : Accessor) (h : Fin 2) (v : Word), s.serves a (11 + h.val) →
      exec (.linkOff a h v) s = .next ((doAll [wr (HOST.CTL h.val) v.toNat,
        Prog.when (tbit v.toNat 1) (Prog.each [2 * h.val, 2 * h.val + 1] fun l => get fun u =>
          if u.linkUp l then linkDown l true else modLink l fun k => { k with expectDown := true })]).run s))

/-- R103: with L0p on, a link asks for half its width when little of it is used and for all that it trained at when much is; it enters L1 with nothing
outstanding and a tolerant host, and leaves it. -/
def Says.LinkPower : Prop :=
  ∀ (s : State) (l : Fin 4) (tx rx : Fin 101), s.powered →
    let h := l.val / 2
    let o := if l.val % 2 = 0 then 0 else 10
    let width := s.fd (HOST.LINK_STATUS h) (o + 7) (o + 3)
    let full := (s.link l.val).trained
    (s.linkUp l.val = true → s.bit (HOST.LINK_STATUS h) (o + 8) = true → s.bit (HOST.L0P_CFG h) 31 = false →
      (s.fd (HOST.L0P_CFG h) 23 16 < max tx.val rx.val → full ≠ width → exec (.l0pWidthChange l tx rx) s =
        .next ((doAll [wrF (HOST.LINK_STATUS h) (o + 7) (o + 3) full, emit (.linkAsk l.val 1 full)]).run s)) ∧
      (max tx.val rx.val ≤ s.fd (HOST.L0P_CFG h) 23 16 → max tx.val rx.val < s.fd (HOST.L0P_CFG h) 7 0 → 2 < width →
        exec (.l0pWidthChange l tx rx) s = .next ((doAll [wrF (HOST.LINK_STATUS h) (o + 7) (o + 3) (width / 2),
          emit (.linkAsk l.val 1 (width / 2))]).run s))) ∧
    (s.linkUp l.val = true → (s.ctl.host.reqs.any fun r => decide (r.port = h)) = false →
      (s.ctl.rings.posts.any fun p => decide (p.fn / 1024 = h)) = false → 40000 ≤ (s.link l.val).ltrSent →
      ∃ t, exec (.aspmL1Entry l) s = .next t ∧ (t.link l.val).l1 = true ∧ (∀ m, m ≠ l.val → t.link m = s.link m) ∧
        t.reg = s.reg ∧ t.mem = s.mem) ∧
    (∃ t, exec (.aspmL1Exit l) s = .next t ∧ (t.link l.val).l1 = false ∧ (∀ m, m ≠ l.val → t.link m = s.link m) ∧
      t.reg = s.reg ∧ t.mem = s.mem)

/-- R106, R120, R121: an error of a link is logged by its kind; a fatal one and one in the port's buffers close the shutter; a request
that gets no completion ends with HOST_ABORT, unless its function disables the timeout: its tag is quarantined and the timeout counted. -/
def Says.LinkErrors : Prop :=
  ∀ (s : State) (l : Fin 4) (hdr : List Byte), s.powered →
    (∀ b, exec (.aerError l (.cor b) hdr) s = .next ((aerCor l.val b.val).run s)) ∧
    exec (.aerError l .buffer hdr) s = .next ((doAll [aerUnc l.val 22 hdr, shutterClose l.val 3]).run s) ∧
    (∀ b, ((((aerUnc l.val b.val hdr).run s).link l.val).uncSev.getLsbD b.val = true →
      exec (.aerError l (.unc b none) hdr) s = .next ((doAll [aerUnc l.val b.val hdr, shutterClose l.val 2]).run s)) ∧
      ((((aerUnc l.val b.val hdr).run s).link l.val).uncSev.getLsbD b.val = false →
        exec (.aerError l (.unc b none) hdr) s = .next ((aerUnc l.val b.val hdr).run s))) ∧
    (∀ (h : Fin 2) (tag : Nat) (r : HostReq),
      s.ctl.host.reqs.find? (fun r => decide (r.port = h.val) && decide (r.tag = some tag)) = some r →
      (s.fnCfg r.fn).ctoDis = false → exec (.completionTimeout h tag) s = .next ((doAll [
        dropReq r.id, ctl fun c => { c with host.quar := c.host.quar ++ [(h.val, tag, r.resvTag)] },
        showTags h.val, showAts h.val, inc (HOST.CPL_TIMEOUT_CNT h.val), int (11 + h.val) 0 5,
        failReq r,
        aerUnc (s.linkOf r.fn) 14 [], fatalClose (s.linkOf r.fn) 14]).run s))

/-- R84, R126, R135, R144, R447: a configuration request gets retry status until R447 ends it and, unless it initiates a reset, while its
function is in reset; then a read is answered, a write takes effect and an MSI-X entry is written, and the answer sets the boot lock; one to a
function that does not exist is dropped, counted and answered Unsupported Request. -/
def Says.ConfigurationRequests : Prop :=
  ∀ (s : State) (f : Fin 2048) (op : CfgOp), s.powered → s.linkUp (s.linkOf f.val) = true →
    let ok := fun v : Nat => doAll [answer v, emit (.hostReply (f.val / 1024) f.val replyOk (leBytes 4 v)), setBootLock]
    (s.ctl.host.retryEnded = false ∨ ((s.fnSt f.val).busy = true ∧ op.initiatesFlr = false) ∨ s.pf = 2 →
      exec (.configRequest f op) s = .next ((emit (.hostReply (f.val / 1024) f.val replyRetry [])).run s)) ∧
    (s.ctl.host.retryEnded = true → (s.fnSt f.val).busy = false → s.pf ≠ 2 → s.fnExists f.val = false →
      exec (.configRequest f op) s = .next ((doAll [dropFor f.val, emit (.hostReply (f.val / 1024) f.val replyUR [])]).run s)) ∧
    (s.ctl.host.retryEnded = true → (s.fnSt f.val).busy = false → s.pf ≠ 2 → s.fnExists f.val = true →
      (∀ r, exec (.configRequest f (.read r)) s = .next ((cfgRead f.val r ok).run s)) ∧
      (∀ r v, exec (.configRequest f (.write r v)) s = .next ((doAll [cfgWrite f.val r v.toNat, ok 0]).run s)) ∧
      (∀ i addr data masked, i.val < s.fd (FUNC.VEC_COUNT.of f.val) 11 0 →
        exec (.configRequest f (.msixEntry i addr data masked)) s = .next ((doAll [
          modVec (s.fd (FUNC.VEC_BASE.of f.val) 13 0 + i.val) fun x =>
            { x with addr := addr.toNat, data := data.toNat, masked := masked },
          releasePending f.val, ok 0]).run s)))

/-- R136, R137, R138: a vector range is taken while the function's MSI-X is off and it overlaps no other; word 1 of a routing entry
commits both words; moderation's end raises the target of a source that has waiting events. -/
def Says.VectorsAndRouting : Prop :=
  ∀ (s : State) (a : Accessor) (src : Fin 4096) (v : Word),
    (s.serves a Pg.func → let f := s.sel a 13 0x40 % 2048
      (s.fnCfg f).msixEn = false →
      (let n := s.fd (FUNC.VEC_COUNT.of f) 11 0
       s.vecOverlap f (v.toNat % 16384) n = false → v.toNat % 16384 + n ≤ 16384 → n ≤ (if f % 1024 < 8 then 2048 else 256) →
       exec (.vectorRangeWrite a false v) s = .next ((wr (FUNC.VEC_BASE.of f) (v.toNat % 16384)).run s)) ∧
      (let b := s.fd (FUNC.VEC_BASE.of f) 13 0
       s.vecOverlap f b (v.toNat % 4096) = false → b + v.toNat % 4096 ≤ 16384 →
       v.toNat % 4096 ≤ (if f % 1024 < 8 then 2048 else 256) →
       exec (.vectorRangeWrite a true v) s = .next ((wr (FUNC.VEC_COUNT.of f) (v.toNat % 4096)).run s))) ∧
    (s.serves a Pg.func → ∃ t, exec (.ertCommit a src v) s = .next t ∧
      t.copy .committed (FUNC.ERT_W0 src.val) = (BitVec.ofNat 32 (s.rd (FUNC.ERT_W0 src.val)) &&&
        RKey.mask ⟨.committed, 13, 0, 0x1000 + 8 * src.val⟩).toNat ∧
      t.copy .committed (FUNC.ERT_W1 src.val) =
        (v &&& RKey.mask ⟨.committed, 13, 0, 0x1004 + 8 * src.val⟩).toNat ∧
      (∀ b r, r ≠ FUNC.ERT_W0 src.val → r ≠ FUNC.ERT_W1 src.val → t.copy b r = s.copy b r) ∧ t.mem = s.mem ∧ t.ctl = s.ctl) ∧
    (s.powered → 0 < tget 0 s.ctl.host.modCnt src.val → s.cfd (FUNC.ERT_W1 src.val) 23 16 ≠ 0 →
      exec (.moderationTimeout src) s = .next ((doAll [
        ctl fun c => { c with host.modCnt := nset 0 c.host.modCnt src.val 0 }, chain 24 (.raise src.val)]).run s))

/-- R115, R139, R142: a raised, unmasked vector of a function that may send is written to its address with its data once, taking a token
where its function's share is limited; a refill gives the tokens of its period, what is left over counting on, up to the burst; while the
function is held at its DMA_CAP every second refill gives none. -/
def Says.MsixSends : Prop :=
  ∀ (s : State) (f i : Fin 2048),
    let v := s.fd (FUNC.VEC_BASE.of f.val) 13 0 + i.val
    (s.runsBelow 4 → i.val < s.fd (FUNC.VEC_COUNT.of f.val) 11 0 → (s.vec v).raised = true → (s.fnSt f.val).busy = false →
      (s.fnCfg f.val).bme = true → (s.fnCfg f.val).msixEn = true → (s.vec v).masked = false → (s.fnCfg f.val).fnMask = false →
      s.linkOpen (s.linkOf f.val) = true → s.cfd (FUNC.INT_SHARE.of f.val) 15 0 = 0 ∨ (s.fnSt f.val).tokens ≠ 0 →
      ∃ t, exec (.msixSend f i) s = .next t ∧
        t.ctl.out = s.ctl.out ++ [.msix f.val i.val (s.vec v).addr (s.vec v).data] ∧ (t.vec v).raised = false ∧
        (t.fnSt f.val).tokens = (if s.cfd (FUNC.INT_SHARE.of f.val) 15 0 = 0 then (s.fnSt f.val).tokens
          else (s.fnSt f.val).tokens - 1) ∧
        (∀ w, w ≠ v → t.vec w = s.vec w) ∧ t.reg = s.reg ∧ t.mem = s.mem) ∧
    (∀ e, s.powered → s.fires e (.intBucket f.val) → exec .intBucketRefill s = .next ((doAll [leaves e false,
refill f.val, reschedule e]).run s)) ∧
    (∀ e, s.powered → s.steps e (.intBucket f.val) → exec .intBucketRefill s = .next ((doAll [leaves e true, restartAtStep e]).run s)) ∧
    (let old := s.fnSt f.val
     let now := ((refill f.val).run s).fnSt f.val
     let rate := s.cfd (FUNC.INT_SHARE.of f.val) 15 0
     let gained := old.frac + 500000 / max 1 rate * rate
     let top := max 1 (s.cfd (FUNC.INT_SHARE.of f.val) 23 16)
     (s.dmaHeld f.val = false ∨ old.half = true → now.tokens = min top (old.tokens + gained / 500000) ∧ now.half = false ∧
       now.frac = if old.tokens + gained / 500000 < top then gained % 500000 else 0) ∧
     (s.dmaHeld f.val = true → old.half = false → now.tokens = old.tokens ∧ now.half = true ∧ now.frac = old.frac))

/-- R105, R106, R107, R109, R110, R141: the request whose turn it is in its port's deficit round robin passes its checks and is issued,
is refused whole, or asks for its translation, and at a link that is shut it ends with HOST_ABORT; completions gather its data, the
last one ends it, a completion for no request is unexpected; a quarantined tag returns. The quantum of the round robin is the
model's choice (log entry 40). -/
def Says.TagsAndCompletions : Prop :=
  ∀ (s : State) (h : Fin 2) (r : HostReq),
    (∀ new, s.runsBelow 4 → s.dmaNext h.val = some (r, new) →
      let resv := (s.tagFor r).getD false
      (s.linkOpen (s.linkOf r.fn) = false → exec (.tagAllocate h) s = .next ((doAll [takeTurn r new, doAll [dropReq r.id,
        inc (HOST.SHUT_DISCARD_CNT r.port), endRead r.purpose ST.HOST_ABORT []]]).run s)) ∧
      (s.linkOpen (s.linkOf r.fn) = true → ∀ a b c, r.purpose = .ats a b c →
        exec (.tagAllocate h) s = .next ((doAll [takeTurn r new, doAll [issueReq r resv, inc (XLAT.MISS_CNT r.port)]]).run s)) ∧
      (s.linkOpen (s.linkOf r.fn) = true → (∀ a b c, r.purpose ≠ .ats a b c) →
        (∀ x, s.checkP r.fn r.pasid r.addr r.len false = .denied x →
          exec (.tagAllocate h) s = .next ((doAll [takeTurn r new, doAll [dropReq r.id,
            deny r.fn r.addr r.len false x, endRead r.purpose ST.ACCESS_DENIED []]]).run s)) ∧
        (∀ p, s.checkP r.fn r.pasid r.addr r.len false = .miss p →
          exec (.tagAllocate h) s = .next ((doAll [takeTurn r new, askXlat r.fn r.pasid p]).run s)) ∧
        (s.checkP r.fn r.pasid r.addr r.len false = .pass → exec (.tagAllocate h) s =
          .next ((doAll [takeTurn r new, doAll [issueReq r resv, noteHit r.fn r.pasid r.addr r.len]]).run s)))) ∧
    (∀ (tag : Nat) (kind : CplKind) (data : List Byte), s.powered →
      (s.ctl.host.reqs.find? (fun r => decide (r.port = h.val) && decide (r.tag = some tag) && r.isRead) = some r →
        let got := if cplGood kind then r.got ++ data else r.got
        let bad := r.bad || !cplGood kind
        exec (.hostCompletion h tag kind true data) s = .next ((doAll [dropReq r.id, showTags h.val,
          Prog.when (!r.discard) (endRead r.purpose (if bad then ST.HOST_ABORT else ST.OK)
            (if bad then [] else slice got 0 r.len))]).run s) ∧
        exec (.hostCompletion h tag kind false data) s =
          .next ((modReq r.id fun q => { q with got := got, bad := bad }).run s)) ∧
      (s.ctl.host.reqs.find? (fun r => decide (r.port = h.val) && decide (r.tag = some tag)) = none →
        ∀ last, exec (.hostCompletion h tag kind last data) s = .next ((unexpectedCpl h.val).run s)) ∧
      exec (.tagQuarantineEnd h tag) s = .next ((doAll [
        ctl fun c => { c with host.quar := c.host.quar.filter fun q => !(decide (q.1 = h.val) && decide (q.2.1 = tag)) },
        showTags h.val]).run s))

/-- R108, R111 to R114, R116, R118: a translation is entered and frees those who wait, one without any right refuses them; an invalidation
is counted and takes effect, and its completion goes out when its users are done; FLUSH invalidates a function's entries, once at a
time, and ends when its users are done; WIN_CTL commits the selected window as a whole. -/
def Says.Translations : Prop :=
  ∀ (s : State) (a : Accessor) (v : Word),
    (∀ (h : Fin 2) (tag out : Nat) (lg : Fin 64) (rd wrt : Bool) (r : HostReq) (f p page : Nat), s.powered →
      s.ctl.host.reqs.find? (fun r => decide (r.port = h.val) && decide (r.tag = some tag)) = some r →
      r.purpose = .ats f p page → r.discard = false →
      exec (.translationCompletion h tag out lg rd wrt) s = .next ((doAll [dropReq r.id, showTags h.val, showAts h.val, doAll [
        fillXl (Xl.clip ⟨h.val, f, p, page, out, lg.val, rd, wrt, 0, true⟩), peep 1 3 f,
        Prog.when (!rd && !wrt) (endWaiting f p page ST.ACCESS_DENIED), retryPosts,
        Prog.when (!rd && !wrt) (ctl fun c => { c with host.xl := c.host.xl.filter fun x => x.rd || x.wr })]]).run s)) ∧
    (∀ (f : Fin 2048) (scope : InvScope) (addr size itag : Nat), s.powered →
      exec (.invalidateRequest f scope addr size itag) s = .next ((doAll [inc (XLAT.INV_REQ_CNT (f.val / 1024)),
        invalidate (f.val / 1024) f.val scope.key addr size itag false,
        showInval (f.val / 1024)]).run s)) ∧
    (∀ (h : Fin 2) i, s.powered →
      s.ctl.host.invals.find? (fun i => decide (i.port = h.val) && !i.flush && !s.invalUsers i) = some i →
      exec (.invalidateCompletion h) s = .next ((doAll [
        ctl fun c => { c with host.invals := c.host.invals.erase i }, showInval h.val,
        emit (.invCompletion h.val i.fn i.itag), inc (XLAT.INV_CPL_CNT h.val)]).run s)) ∧
    (s.serves a Pg.xlat → s.bit XLAT.FLUSH_STATUS 0 = false → exec (.xlatFlush a v) s = .next ((doAll [
      wr XLAT.FLUSH (v.toNat % 4096), wr XLAT.FLUSH_STATUS 1,
      invalidate (field v.toNat 10 0 / 1024) (field v.toNat 10 0)
        (if tbit v.toNat 11 then some (s.fd XLAT.FLUSH_PASID 19 0 + 1) else none) 0 (2 ^ 64) 0 true]).run s)) ∧
    (s.serves a Pg.xlat → s.bit XLAT.FLUSH_STATUS 0 = true →
      exec (.xlatFlush a v) s = .next ((wr XLAT.FLUSH (v.toNat % 4096)).run s)) ∧
    (∀ i, s.powered → s.ctl.host.invals.find? (·.flush) = some i → s.invalUsers i = false →
      exec .xlatFlushDone s = .next ((doAll [ctl fun c => { c with host.invals := c.host.invals.erase i },
        wr XLAT.FLUSH_STATUS 0, int Pg.xlat 0 1]).run s)) ∧
    (s.serves a Pg.xlat → ∃ t, exec (.windowCommit a v) s = .next t ∧ t.rd XLAT.WIN_CTL = v.toNat % 8 ∧
      t.ctl.host.windows = nset Window.init s.ctl.host.windows (8 * s.fd XLAT.WIN_SEL 10 0 + s.fd XLAT.WIN_SEL 14 12)
        ⟨s.rdW XLAT.WIN_BASE, s.rdW XLAT.WIN_LIMIT, tbit v.toNat 0, tbit v.toNat 1, tbit v.toNat 2⟩ ∧
      (∀ b r, (b, r) ≠ (.live, XLAT.WIN_CTL) → t.copy b r = s.copy b r) ∧ t.mem = s.mem)

/-- R163 to R168, R154: a doorbell scans its ring, and one for no ring or for no function is counted and raised; the head entry that the scheduler picks is
confirmed and charged to its function; an arrival of the wrong pass ends the scan; a poll acts as a doorbell; a draining ring
without work goes off. -/
def Says.WorkRings : Prop :=
  ∀ (s : State), s.runsBelow 4 →
    (∀ (f : Fin 2048) (w : Fin 4096) r, s.linkOpen (s.linkOf f.val) = true → s.fnExists f.val = true →
      (s.fnSt f.val).busy = false → s.ringAt false f.val w.val = some r →
      exec (.doorbell f w) s = .next ((doAll [startScan r, peep 0 0 r]).run s)) ∧
    (∀ (f : Fin 2048) (w : Fin 4096), s.linkOpen (s.linkOf f.val) = true → s.fnExists f.val = true →
      (s.fnSt f.val).busy = false → s.ringAt false f.val w.val = none →
      exec (.doorbell f w) s = .next ((doAll [inc RING.DB_DROP_CNT, int Pg.ring 0 0]).run s)) ∧
    (∀ (f : Fin 2048) (w : Fin 4096), s.linkOpen (s.linkOf f.val) = true → s.fnExists f.val = false →
      exec (.doorbell f w) s = .next ((doAll [inc (FUNC.EVT_DROP_CNT.of f.val), int Pg.func 0 1]).run s)) ∧
    (∀ f new r turn b, s.pickRing = some (f, new, r, turn) → s.headReady r = some b →
      exec .descriptorConfirm s = .next ((doAll [Prog.when new (beginVisit f),
        modFn f fun x => { x with deficit := x.deficit - 1 },
        ctl fun c => { c with rings.visit := f }, ctl fun c => { c with rings.visiting := true },
        ctl fun c => { c with rings.turn := turn },
        ctl fun c => { c with rings.lastRing := nset 0 c.rings.lastRing f (r + 1) }, confirm r b]).run s)) ∧
    (∀ (r : Fin 65536) h b t, (s.ring r.val).held = ⟨h, some b⟩ :: t → (s.ring r.val).st = .active →
      (s.headReady r.val = none → exec (.descriptorArrival r) s = .next ((doAll [
        incBy RING.PREFETCH_DROP_CNT (s.ring r.val).held.length, Prog.each (s.ring r.val).held (fun _ => peep 0 3 r.val),
        dropHeld r.val, endScan r.val]).run s)) ∧
      ((s.headReady r.val).isSome = true → exec (.descriptorArrival r) s = .next ((noteStall r.val).run s))) ∧
    (∀ e r, s.fires e (.ringPoll r) → exec .ringPoll s = .next ((doAll [leaves e false, startScan r, reschedule e]).run s)) ∧
    (∀ r : Fin 65536, (s.ring r.val).st = .draining → (s.worksOf r.val).isEmpty = true →
      ∃ t, exec (.ringDrained r) s = .next t ∧ (t.ring r.val).st = .off ∧ (∀ q, q ≠ r.val → t.ring q = s.ring q) ∧
        t.reg = s.reg ∧ t.mem = s.mem)

/-- R158, R160, R175, R176: a head within the written entries is taken, arms the ring or raises its source, and lets waiting completions
go; any other is counted and raised; a NOP completes with OK; a scatter list grows by its element until its LAST, when a
block command's is complete and another item's source is read; one that breaks a rule ends its item with BAD_LENGTH, as its consumer ends
an item. -/
def Says.CompletionRings : Prop :=
  ∀ (s : State), s.runsBelow 4 →
    (∀ (f c : Fin 2048) (v : Word) r, s.linkOpen (s.linkOf f.val) = true → s.fnExists f.val = true →
      (s.fnSt f.val).busy = false → s.ringAt true f.val c.val = some r →
      let g := s.ring r
      let n := s.ringSize r
      let h := field v.toNat 15 0
      (h < n → (h + n - g.swHead) % n ≤ (g.widx + n - g.swHead) % n → exec (.headWrite f c v) s = .next ((doAll [
        modRing r fun x => { x with swHead := h },
        Prog.when (tbit v.toNat 31) (if g.widx = h then modRing r fun x => { x with armed := true }
          else doAll [modRing r fun x => { x with armed := false }, raiseCpl r]), kickAll]).run s)) ∧
      (n ≤ h ∨ (g.widx + n - g.swHead) % n < (h + n - g.swHead) % n →
        exec (.headWrite f c v) s = .next ((doAll [inc RING.HEAD_REJ_CNT, int Pg.ring 0 1]).run s))) ∧
    (∀ w x, s.work? w = some x → x.typ = 0 → x.stage = 0 → exec (.ringNop w) s = .next ((complete w ST.OK 0).run s)) ∧
    (∀ id st b w, s.gathered (sglPlace id) 16 = some (st, b) → s.work? id = some w →
      let gone := dropReads fun q => (sglPlace id q).isSome
      let e := (leAt b 0 8, leAt b 8 4)
      let l := w.sgl ++ [e]
      let last := tbit (leAt b 12 4) 0
      (st ≠ ST.OK → exec (.sglArrival id) s = .next ((doAll [gone, refuseWork id st]).run s)) ∧
      (st = ST.OK → e.2 = 0 ∨ (last = false ∧ 64 ≤ l.length) ∨ (last = true ∧ (l.map (·.2)).sum ≠ w.length) →
        exec (.sglArrival id) s = .next ((doAll [gone, refuseWork id ST.BAD_LENGTH]).run s)) ∧
      (st = ST.OK → e.2 ≠ 0 → last = true → (l.map (·.2)).sum = w.length → exec (.sglArrival id) s =
        .next ((doAll [gone, modWork id fun x => { x with sgl := l, stage := 2 },
          if w.typ / 16 = 3 then blockReady id else fetchSource id]).run s)) ∧
      (st = ST.OK → e.2 ≠ 0 → last = false → l.length < 64 → exec (.sglArrival id) s =
        .next ((doAll [gone, modWork id fun x => { x with sgl := l, stage := 1 }, readSgl id w l.length]).run s)))

/-- R178, R179, R186: in port mode a word written to HBM outside the regions that only read lies there, little-endian, and, outside
what the device keeps there for itself, a read of the same address answers it; no other byte of memory changes; ADDR steps by INCR. -/
def Says.TransomReadsWhatItWrote : Prop :=
  ∀ (s : State) (a : Accessor) (v : Word), s.serves a Pg.transom → s.tBurst = false → s.tSpace = 1 → s.tInst = 0 →
    s.tAddr + 4 ≤ 48 * 2 ^ 30 → s.tAddr % 4 = 0 → s.hbmReadOnly s.tAddr 4 = false →
    ∃ t, exec (.transomDataWrite a 4 v) s = .next t ∧ t.bytes 1 0 s.tAddr 4 = leBytes 4 v.toNat ∧
      (∀ k, ¬ (memKey 1 0 s.tAddr ≤ k ∧ k < memKey 1 0 s.tAddr + 4) → tget 0 t.mem k = tget 0 s.mem k) ∧
      t.tAddr = (s.tAddr + s.fd TRANSOM.INCR 15 0) % 2 ^ 48 / 4 * 4 ∧
      (s.fd TRANSOM.INCR 15 0 = 0 → s.opaqueAt 1 s.tAddr 4 = false → ∃ u, exec (.transomDataRead a 4) t = .next u ∧ u.ctl.answer = v.toNat ∧ u.mem = t.mem)

/-- R180, R181, R183: an access that the space, the range or the form refuses moves no byte: it sets REJ and its reason, is reported, and a
read answers 0; a burst write within the rules stores its bytes and counts them in FILL; ADVANCE moves the window on by 32,768;
a write of the target takes it and drops what was gathered for the old one. -/
def Says.TransomRefusalsAndBursts : Prop :=
  ∀ (s : State) (a : Accessor) (v : Word), s.serves a Pg.transom →
    (∀ len : Fin 9, s.tBurst = false → len.val ≠ 4 →
      exec (.transomDataWrite a len v) s = .next ((transomReject 3 s.tAddr).run s) ∧
      exec (.transomDataRead a len) s = .next ((doAll [transomReject 3 s.tAddr, answer 0]).run s)) ∧
    (∀ r, s.tBurst = false → s.transomRefusal true s.tAddr 4 = r → r ≠ 0 →
      exec (.transomDataWrite a 4 v) s = .next ((transomReject r s.tAddr).run s)) ∧
    (∀ (x : Fin 65536) (b : List Byte), s.tBurst = true → apertureOk x.val b.length s.tAddr = true →
      s.transomRefusal true (s.tAddr + x.val - 0x8000) b.length = 0 →
      exec (.apertureWrite a x b) s = .next ((doAll [transomStore (s.tAddr + x.val - 0x8000) b, get fun t =>
        if 32768 ≤ t.fd TRANSOM.FILL 15 0 + b.length then advance
        else wr TRANSOM.FILL (t.fd TRANSOM.FILL 15 0 + b.length)]).run s)) ∧
    (∀ (x : Fin 65536) (len : Fin 513), s.tBurst = true → apertureOk x.val len.val s.tAddr = true →
      s.transomRefusal false (s.tAddr + x.val - 0x8000) len.val = 0 →
      exec (.apertureRead a x len) s =
        .next ((transomFetch len.val (s.tAddr + x.val - 0x8000) [] fun b => answer (leVal b)).run s)) ∧
    (tbit v.toNat 0 = true → ∃ t, exec (.advance a v) s = .next t ∧ t.tAddr = (s.tAddr + 32768) % 2 ^ 48 / 4 * 4 ∧
      t.rd TRANSOM.FILL = 0 ∧ t.ctl.transom.coll = []) ∧
    (∃ t, exec (.tgtWrite a v) s = .next t ∧ t.ctl.transom.coll = [] ∧ t.ctl.transom.latched = none ∧
      t.rd TRANSOM.TGT = (v &&& RKey.mask ⟨.live, 16, 0, 0x40⟩).toNat)

/-- R251, R253, R256, R259: the learn engine takes its oldest item; a software INSERT, DELETE or FIND goes to it, at once when it is idle and
else behind its queue, and is refused with RESULT 3 while one is busy; a head of the notification ring within the written records is taken,
and any other is counted and raised. -/
def Says.LearningAndSoftwareCommands : Prop :=
  ∀ (s : State) (a : Accessor) (v : Word),
    (∀ (p : Fin 4) i t, s.runsBelow 3 → tget false s.ctl.net.resizing p.val = false → s.learnQ p.val = i :: t →
      exec (.learnEvent p) s = .next ((doAll [setLearnQ p.val t, learnItem p.val i]).run s)) ∧
    (s.serves a Pg.fwd →
      let p := s.instSel a Pg.fwd
      let item := fun op => LearnItem.command op (s.rdW (FWD.SW_MAC.of p) % 2 ^ 48) (s.fd (FWD.SW_DOM.of p) 11 0)
        (s.rd (FWD.SW_RESULT.of p)) (field v.toNat 3 2 * 2 ^ 13)
      let go := fun op (act : Prog) => (doAll [wr (FWD.SW_CTL.of p) (op + 4 * field v.toNat 3 2), act]).run s
      let runs := fun op => doAll [wr (FWD.SW_STATUS.of p) 0x10000, learnItem p (item op)]
      let waits := fun op => doAll [wr (FWD.SW_STATUS.of p) 0x10000, setLearnQ p (s.learnQ p ++ [item op])]
      let refused := wrF (FWD.SW_STATUS.of p) 1 0 3
      (s.bit (FWD.SW_STATUS.of p) 16 = false → (s.learnQ p).isEmpty = true → tget false s.ctl.net.resizing p = false →
        exec (.insert a v) s = .next (go 0 (runs 0)) ∧ exec (.delete a v) s = .next (go 1 (runs 1)) ∧
        exec (.find a v) s = .next (go 2 (runs 2))) ∧
      (s.bit (FWD.SW_STATUS.of p) 16 = false → (s.learnQ p).isEmpty = false ∨ tget false s.ctl.net.resizing p = true →
        exec (.insert a v) s = .next (go 0 (waits 0)) ∧ exec (.delete a v) s = .next (go 1 (waits 1)) ∧
        exec (.find a v) s = .next (go 2 (waits 2))) ∧
      (s.bit (FWD.SW_STATUS.of p) 16 = true → exec (.insert a v) s = .next (go 0 refused) ∧
        exec (.delete a v) s = .next (go 1 refused) ∧ exec (.find a v) s = .next (go 2 refused))) ∧
    (s.serves a Pg.fwd →
      let p := s.instSel a Pg.fwd
      let g := s.notifyRing p
      let n := 2 ^ max 6 (min 16 (s.fd (FWD.NOTIFY_CTL.of p) 5 1))
      let h := field v.toNat 15 0
      (h < n → (h + n - g.head) % n ≤ (g.widx + n - g.head) % n → exec (.notifyHeadWrite a v) s = .next ((doAll [
        modNotify p fun x => { x with head := h },
        Prog.when (v.getLsbD 31) (if g.widx = h then modNotify p fun x => { x with armed := true }
          else doAll [modNotify p fun x => { x with armed := false }, evt (s.fd (FWD.NOTIFY_CTL.of p) 27 16)])]).run s)) ∧
      (n ≤ h ∨ (g.widx + n - g.head) % n < (h + n - g.head) % n →
        exec (.notifyHeadWrite a v) s = .next ((doAll [inc RING.HEAD_REJ_CNT, int Pg.ring 0 1]).run s)))

/-- R257, R261, R262: moved keys leave the hold list when their hold and 64,000 ns more have passed; an aging event asks the arbiter for its
sweep, and the sweep's end frees it; a resize asks the arbiter, and its end places every valid entry anew under the new size and seed. -/
def Says.AgingAndResize : Prop :=
  ∀ (s : State) (a : Accessor) (v : Word) (p : Fin 4),
    (s.runsBelow 3 → ∃ t, exec (.holdExpiry p) s = .next t ∧ t.reg = s.reg ∧ t.mem = s.mem ∧
      t.holds p.val = (s.holds p.val).filter fun e => decide (wtDiff (s.wt (s.fwdDom p.val)) e.2 < s.moveHold p.val + 32000)) ∧
    (∀ e, s.runsBelow 3 → s.fires e (.aging p.val) → exec .agingSweep s = .next ((doAll [leaves e false,
      mstart MA.AGING_SWEEP p.val .periodic 0, reschedule e]).run s)) ∧
    (s.runsBelow 3 → s.mrunning MA.AGING_SWEEP p.val = true → exec (.agingSweepEnd p) s =
      .next ((doAll [mend MA.AGING_SWEEP p.val, int Pg.fwd p.val 4]).run s)) ∧
    (s.serves a Pg.fwd →
      let i := s.instSel a Pg.fwd
      let n := field v.toNat 4 0
      exec (.resize a v) s = .next ((doAll [wr (FWD.RESIZE.of i) n, mstart MA.TABLE_RESIZE i .register
        ((if n < 16 ∨ 20 < n then 20 else n) + 32 * s.rd (FWD.RESIZE_SEED.of i))]).run s)) ∧
    (∀ m, s.runsBelow 3 →
      s.ctl.maint.running.find? (fun m => decide (m.act = MA.TABLE_RESIZE) && decide (m.scope = p.val)) = some m →
      exec (.resizeDone p) s = .next ((doAll [
        Prog.each (s.hashValid p.val) (fun i => putHash p.val i (List.replicate 16 0)),
        Prog.each ((s.hashValid p.val).map fun i => (i, s.hashEntry p.val i)) (fun e => replace p.val (m.ref % 32) (m.ref / 32) e.1 e.2),
        wr (FWD.HASH_CFG.of p.val) (m.ref % 32), wr (FWD.HASH_SEED.of p.val) (m.ref / 32), wr (FWD.RESIZE_STATUS.of p.val) ST.OK,
        ctl fun c => { c with net.resizing := fset c.net.resizing p.val false },
        mend MA.TABLE_RESIZE p.val, int Pg.fwd p.val 5]).run s))

/-- R240, R241, R243, R267, R270, R486: member and indirection tables take the word written at the selected entry, which is good again; a rule counter is read with
its halves latched and then cleared, unless the reader does not hold management; a next-hop entry is written by its last word as a
whole and read from a latch that its first word loads. -/
def Says.LookupTables : Prop :=
  ∀ (s : State) (a : Accessor) (v : Word),
    (s.serves a Pg.fwd →
      let m := s.instSel a Pg.fwd * 65536 + s.sel a Pg.fwd 0x600 % 65536
      exec (.membDataWrite a v) s = .next ((doAll [
        ctl fun c => { c with net.members := nset 0 c.net.members m (v.toNat % 2 ^ 24) },
        cleanItem spMember (m / 65536) (m % 65536)]).run s)) ∧
    (s.serves a Pg.cls →
      let g := field (s.sel a Pg.cls 0x900) 6 0
      let b := field (s.sel a Pg.cls 0x900) 23 16
      exec (.indirDataWrite a v) s = .next ((doAll [
        ctl fun c => { c with net.indir := nset 0 c.net.indir ((s.instSel a Pg.cls * 128 + g) * 256 + b) (v.toNat &&& 0xC00FFFFF) },
        cleanItem spIndir (s.instSel a Pg.cls) (g * 256 + b)]).run s)) ∧
    (s.open a Pg.cls = true →
      let p := s.instSel a Pg.cls
      let k := p * 65536 + s.sel a Pg.cls 0x940 % 65536
      let c := tget (0, 0) s.ctl.net.ruleCnt k
      ∃ t, exec (.ruleCounterRead a) s = .next t ∧ t.ctl.answer = c.1 % 2 ^ 32 ∧
        t.copy .hiLatch (CLASS.CNT_PKT.of p) = c.1 / 2 ^ 32 % 2 ^ 32 ∧
        t.copy .hiLatch (CLASS.CNT_BYTE.of p) = c.2 % 2 ^ 32 ∧
        t.copy .hiLatch (CLASS.CNT_BYTE.hi.of p) = c.2 / 2 ^ 32 % 2 ^ 32 ∧
        tget (0, 0) t.ctl.net.ruleCnt k = (if s.owner a then (0, 0) else c) ∧
        ∀ j, j ≠ k → tget (0, 0) t.ctl.net.ruleCnt j = tget (0, 0) s.ctl.net.ruleCnt j) ∧
    (s.serves a Pg.lpm →
      let p := s.instSel a Pg.lpm
      ∃ t, exec (.nhW3Write a v) s = .next t ∧ t.mem = s.mem ∧
        t.nhEntry p (s.sel a Pg.lpm 0x180 % 32768) = s.rd (LPM.NH_W0.of p) + s.rd (LPM.NH_W1.of p) * 2 ^ 32 +
          s.rd (LPM.NH_W2.of p) * 2 ^ 64 + (v.toNat &&& 0x80003FFF) * 2 ^ 96) ∧
    (s.open a Pg.lpm = true →
      let p := s.instSel a Pg.lpm
      let e := s.nhEntry p (s.sel a Pg.lpm 0x180 % 32768)
      ∃ t, exec (.nhW0Read a) s = .next t ∧ t.ctl.answer = e % 2 ^ 32 ∧ tget 0 t.ctl.net.nhLatch p = e ∧
        t.reg = s.reg ∧ t.mem = s.mem)

/-- R264, R270: an INSERT of a prefix that is present, or that has a free place in its two buckets, is found there afterwards with its
result and next hop, and no other byte of memory changes; a DELETE clears the entry found; a FIND answers it; a prefix that is not
there answers 1, and one for which there is no place 2 with its cause. -/
def Says.PrefixTableCommands : Prop :=
  ∀ (s : State) (a : Accessor), s.serves a Pg.lpm →
    let p := s.instSel a Pg.lpm
    let key := s.rd (LPM.CMD_KEY.of p)
    let v6 := tbit key 8
    let len := min (if v6 then 128 else 32) (field key 7 0)
    let vrf := field key 27 16
    let pfx := maskPrefix v6 len ((List.range 4).flatMap fun i => beBytes 4 (s.rd ((LPM.CMD_PFX i).of p)))
    let hit := s.lpmFind p vrf len v6 pfx
    let room := (lpmPlaces vrf len v6 pfx).find? fun i => !tbit (leAt (s.lpmEntry p i) 17 1) 0
    let entry := fun i => memKey 1 0 (0x18000000 + p * 0x04000000 + 32 * i)
    (hit.isSome = true ∨ room.isSome = true → ∃ t i, exec (.lpmInsert a) s = .next t ∧ t.lpmFind p vrf len v6 pfx = some i ∧
      t.lpmEntry p i = lpmBytes pfx len v6 vrf (s.rd (LPM.CMD_RESULT.of p)) (s.fd (LPM.CMD_NH.of p) 15 0) ∧
      t.rd (LPM.CMD_STATUS.of p) = 0 ∧ ∀ k, ¬ (entry i ≤ k ∧ k < entry i + 32) → tget 0 t.mem k = tget 0 s.mem k) ∧
    (hit = none → room = none → exec (.lpmInsert a) s = .next ((doAll [wr (LPM.CMD_CTL.of p) 0,
      wr (LPM.CMD_STATUS.of p) 2, int Pg.lpm p 1]).run s)) ∧
    (∀ i, hit = some i → (∃ t, exec (.lpmDelete a) s = .next t ∧ t.lpmEntry p i = List.replicate 32 0 ∧
        t.rd (LPM.CMD_STATUS.of p) = 0 ∧ ∀ k, ¬ (entry i ≤ k ∧ k < entry i + 32) → tget 0 t.mem k = tget 0 s.mem k) ∧
      (∃ t, exec (.lpmFind a) s = .next t ∧ t.rd (LPM.CMD_RESULT.of p) = leAt (s.lpmEntry p i) 20 4 % 2 ^ 24 ∧
        t.rd (LPM.CMD_NH.of p) = leAt (s.lpmEntry p i) 24 2 ∧ t.rd (LPM.CMD_STATUS.of p) = 0 ∧ t.mem = s.mem)) ∧
    (hit = none → (∃ t, exec (.lpmDelete a) s = .next t ∧ t.rd (LPM.CMD_STATUS.of p) = 1 ∧ t.mem = s.mem) ∧
      (∃ t, exec (.lpmFind a) s = .next t ∧ t.rd (LPM.CMD_STATUS.of p) = 1 ∧ t.mem = s.mem))

/-- R236, R334: a control-copy refill that fires restores a pipeline's tokens; a doorbell of a core's enabled descriptor ring scans it and serves
the frames that wait for buffers; a head within its written entries is taken, and a head that is not is counted and raised. -/
def Says.ControlQueues : Prop :=
  ∀ (s : State) (a : Accessor) (v : Word),
    (∀ e p, s.runsBelow 3 → s.fires e (.ctrlLimit p) → exec .ctrlLimitRefill s = .next ((doAll [leaves e false,
      get fun u => ctl fun c => { c with net.ctrlTok := nset 0 c.net.ctrlTok p (u.cfd (CLASS.CTRL_LIMIT.of p) 15 0) },
      reschedule e]).run s)) ∧
    (∀ e p, s.runsBelow 3 → s.steps e (.ctrlLimit p) → exec .ctrlLimitRefill s = .next ((doAll [leaves e true, restartAtStep e]).run s)) ∧
    (s.serves a Pg.core → s.bit (CORE.CTRLQ_CTL.of (s.instSel a Pg.core)) 0 = true → exec (.ctrlqDb a) s = .next ((doAll [
      modCtrl (s.instSel a Pg.core) fun x => { x with scanning := true }, ctrlScan (s.instSel a Pg.core) 65536,
      ctrlServe (s.instSel a Pg.core)]).run s)) ∧
    (s.serves a Pg.core →
      let c := s.instSel a Pg.core
      let g := s.ctrlRing c
      let n := s.ctrlSize c
      let h := field v.toNat 15 0
      (h < n → (h + n - g.swHead) % n ≤ (g.widx + n - g.swHead) % n → exec (.ctrlqHeadWrite a v) s = .next ((doAll [
        modCtrl c fun x => { x with swHead := h },
        Prog.when (v.getLsbD 31) (if g.widx = h then modCtrl c fun x => { x with armed := true }
          else doAll [modCtrl c fun x => { x with armed := false }, evt (s.fd (CORE.CTRLQ_CTL.of c) 27 16)]),
        ctrlScan c 65536, ctrlServe c]).run s)) ∧
      (n ≤ h ∨ (g.widx + n - g.swHead) % n < (h + n - g.swHead) % n → exec (.ctrlqHeadWrite a v) s = .next ((doAll [inc RING.HEAD_REJ_CNT, int Pg.ring 0 1]).run s)))

/-- Thread `t` is READY between instructions with no predicted path, no STOP waits, and the flow instruction `i` at its FPC lies in
the program and in the instruction cache, not stale there, and has a VALID dispatch word, itself good (R302, R315, R322, R331, R335). -/
def State.flowAt (s : State) (t i : Nat) : Prop :=
  let h := s.thread t
  h.st = 2 ∧ h.upc = none ∧ h.spec = none ∧ h.stopPending = false ∧ h.fpc < 4096 * s.cfd (FLOW.PROG_SIZE.of (t / 16)) 19 0 ∧
    h.fpc % 8 = 0 ∧ s.memNat 2 0 (s.fpcAddr (t / 16) h.fpc) 8 = i ∧
    tget 0 s.ctl.flow.icache (t / 16 * 2 ^ 32 + h.fpc) = i + 1 ∧
    s.poisoned 3 (t / 16) (4 * insOp i) 4 = false ∧ tbit (s.dispatchWord (t / 16) (insOp i)) 15 = true

/-- A flow instruction is fetched and dispatched (R315, R322, R335). -/
def taken (s : State) (t i : Nat) : Prog := doAll [icachePut (t / 16) (s.thread t).fpc (i + 1), dispatched t i]

/-- `n` bytes of an engine's LMEM exist and hold no uncorrectable word (R299, R325). -/
def State.lmemGood (s : State) (t a n : Nat) : Prop := lmemOk a n = true ∧ s.poisoned 13 (t / 16) a n = false

/-- What a flow instruction of thread `t` leaves when it ends with the FPC at `fpc`, X[`d`] as `r` says and stores where `st`
says: micro-temporaries and flags are free, a trace record may be written, nothing else changes. -/
def State.ended (s u : State) (t d fpc : Nat) (r : Option Nat) (st : Nat → Nat → Nat → Prop) : Prop :=
  (u.thread t).fpc = fpc % 2 ^ 32 ∧ (u.thread t).upc = none ∧ (u.thread t).st = 2 ∧
  (∀ n, (u.thread t).x n = match r with
    | some v => if n = d ∧ n ≠ 0 then v % 2 ^ 64 else (s.thread t).x n
    | none => (s.thread t).x n) ∧
  (u.thread t).frame = (s.thread t).frame ∧ (u.thread t).item = (s.thread t).item ∧
  (∀ g, g ≠ t → u.thread g = s.thread g) ∧
  (∀ b q, q.page ∉ [13, 26, 37, 39] → u.copy b q = s.copy b q) ∧ u.ctl.net = s.ctl.net ∧ u.ctl.time = s.ctl.time ∧
  ∀ sp j x, ¬ (sp = 1 ∧ j = 0 ∧ 0x29000000 ≤ x) → x < 2 ^ 48 → j < 64 → ¬ st sp j x → u.byte sp j x = s.byte sp j x

/-- R299, R316: NOP, ALU, LI, JAL, JR, LD, HASH, TIME, FENCE, ST and XST: the FPC goes on by 8 or to the target, X[D] takes the
result, X0 discards it, a store puts the low bytes of X[B] at X[A] + sext(IMM), and nothing else changes. -/
def Says.FlowInstructionsCompute : Prop :=
  ∀ (s : State) (t : Fin 1024) (i : Nat), s.runsBelow 2 → s.flowAt t.val i →
    let h := s.thread t.val
    let a := addrOf i h
    let n := sizeOf2 (insFn i)
    let x := fun k => h.x k
    let ends := fun u fpc r => s.ended u t.val (insD i) fpc r fun _ _ _ => False
    (insOp i = 0x00 → ∃ u, exec (.nop t) s = .next u ∧ ends u (h.fpc + 8) none) ∧
    (insOp i = 0x01 → ∀ v, aluOp (insFn i % 16) (x (insA i)) (aluB i h) = some v →
      ∃ u, exec (.alu t) s = .next u ∧ ends u (h.fpc + 8) (some v)) ∧
    (insOp i = 0x02 → ∃ u, exec (.li t) s = .next u ∧ ends u (h.fpc + 8)
      (some (if tbit (insFn i) 0 then insImm i * 2 ^ 32 + x (insD i) % 2 ^ 32 else sx32 (insImm i)))) ∧
    (insOp i = 0x04 → ∃ u, exec (.jal t) s = .next u ∧ ends u (h.fpc + sx32 (insImm i)) (some ((h.fpc + 8) % 2 ^ 32))) ∧
    (insOp i = 0x05 → a < 2 ^ 32 → ∃ u, exec (.jr t) s = .next u ∧ ends u a (some ((h.fpc + 8) % 2 ^ 32))) ∧
    (insOp i = 0x06 → s.lmemGood t.val a n → a % n = 0 → ∃ u, exec (.ld t) s = .next u ∧ ends u (h.fpc + 8)
      (some (extend (tbit (insFn i) 2) n (leVal (s.lmem t.val a n))))) ∧
    (insOp i = 0x12 → s.lmemGood t.val (x (insA i)) (field (insImm i) 7 0) → ∃ u, exec (.hash t) s = .next u ∧ ends u (h.fpc + 8)
      (some (crc32cFrom (x (insB i) % 2 ^ 32) (s.lmem t.val (x (insA i)) (field (insImm i) 7 0))))) ∧
    (insOp i = 0x1C → ∃ u, exec (.time t) s = .next u ∧ ends u (h.fpc + 8) (some (s.wt (s.thrDom t.val)))) ∧
    (insOp i = 0x1D → ∃ u, exec (.fence t) s = .next u ∧ ends u (h.fpc + 8) none) ∧
    (insOp i = 0x07 → lmemOk a n = true → a % n = 0 → ∃ u, exec (.st t) s = .next u ∧
      u.lmem t.val a n = leBytes n (x (insB i)) ∧
      s.ended u t.val 0 (h.fpc + 8) none fun sp j y => sp = 13 ∧ j = t.val / 16 ∧ a ≤ y ∧ y < a + n) ∧
    (insOp i = 0x09 → s.xmemOk (tbit (insFn i) 3) true a n = true → ∃ u, exec (.xst t) s = .next u ∧
      u.bytes (xspace (tbit (insFn i) 3)) 0 a n = leBytes n (x (insB i)) ∧
      s.ended u t.val 0 (h.fpc + 8) none fun sp j y => sp = xspace (tbit (insFn i) 3) ∧ j = 0 ∧ a ≤ y ∧ y < a + n)

/-- R301, R309 to R316, R323, R328: the flow instructions that act on branches' prediction, memory that answers later, host copies,
channels, wheel time, latches, the flow cache, the current frame, events and the end of work: each acts as its operation says, or
makes the thread wait for it; one that the instruction cache lacks makes the thread wait for its fetch. -/
def Says.FlowInstructionsAct : Prop :=
  (∀ (s : State) (t : Fin 1024), s.runsBelow 2 → (s.thread t.val).st = 2 → (s.thread t.val).upc = none →
    s.fpcOk (t.val / 16) (s.thread t.val).fpc = true → tget 0 s.ctl.flow.icache (t.val / 16 * 2 ^ 32 + (s.thread t.val).fpc) = 0 →
    exec (.nop t) s = .next ((waitFor t.val 5 .fetch).run s)) ∧
  ∀ (s : State) (t : Fin 1024) (i : Nat), s.runsBelow 2 → s.flowAt t.val i →
    let h := s.thread t.val
    let a := addrOf i h
    let n := sizeOf2 (insFn i)
    let x := fun k => h.x k
    let imm := insImm i
    let fn := insFn i
    let go := fun p : Prog => Host.Outcome.next (φ := Fault) (ρ := Refusal) ((doAll [taken s t.val i, p]).run s)
    (insOp i = 0x03 → ∀ b, brCond (fn % 8) (x (insA i)) (x (insB i)) = some b → exec (.br t) s = go (doAll [
      Prog.when (tbit (s.dispatchWord (t.val / 16) 0x03) 14) (doAll [
        ranAhead t.val (if predicts i then (h.fpc + sx32 imm) % 2 ^ 32 else (h.fpc + 8) % 2 ^ 32) (predicts i == b),
        Prog.when (predicts i != b) (doAll [inc (FLOW.MISPREDICT_CNT.of (t.val / 16)), peep 5 2 t.val])]),
      endInstr t.val (if b then h.fpc + sx32 imm else h.fpc + 8)])) ∧
    (insOp i = 0x08 → s.xmemOk (tbit fn 3) false a n = true →
      exec (.xld t) s = go (waitFor t.val 5 (.load (xspace (tbit fn 3)) a n (tbit fn 2)))) ∧
    (insOp i = 0x0A → 0 < field imm 12 0 → field imm 12 0 ≤ 4096 → lmemOk (x (insB i)) (field imm 12 0) = true →
      exec (.hcopy t) s = go (match s.thrFn t.val with
        | none => finishOp t.val (some ST.ACCESS_DENIED)
        | some f => doAll [waitFor t.val 5 (.host (!tbit fn 0) (x (insA i)) (x (insB i)) (field imm 12 0)),
            Prog.when (!tbit fn 0) (hostRead f (x (insA i)) (field imm 12 0) (.thread t.val 0))])) ∧
    (insOp i = 0x0B → s.chanOn (field imm 10 0) = true →
      exec (.chput t) s = go (chanPut t.val (field imm 10 0) (x (insA i)) (tbit fn 0))) ∧
    (insOp i = 0x0C → s.chanOn (field imm 10 0) = true → exec (.chget t) s = go (chanGet t.val (field imm 10 0) (tbit fn 0))) ∧
    (insOp i = 0x0D → exec (.wait t) s = go (request (s.thrDom t.val) 1
      (if tbit fn 0 then .rel a else .abs (x (insA i) % 2 ^ 48)) (.threadWait t.val)
      fun st _ => if st = ST.OK then waitFor t.val 4 .time else finishOp t.val (some st))) ∧
    (insOp i = 0x0E → fn % 4 < 3 → exec (.latch t) s = go (waitFor t.val 5 (.latch (field imm 9 0) fn))) ∧
    (insOp i = 0x0F → s.lmemGood t.val (x (insA i)) 32 →
      exec (.fclook t) s = go (waitFor t.val 5 (.cache 0 (x (insA i)) (x (insB i))))) ∧
    (insOp i = 0x10 → s.lmemGood t.val (x (insA i)) 32 →
      exec (.fcput t) s = go (waitFor t.val 5 (.cache 1 (x (insA i)) (x (insB i))))) ∧
    (insOp i = 0x11 → s.lmemGood t.val (x (insA i)) 32 →
      exec (.fcdel t) s = go (waitFor t.val 5 (.cache 2 (x (insA i)) (x (insB i))))) ∧
    (insOp i = 0x13 → h.frame.isSome = true → exec (.frd t) s = go (waitFor t.val 5 (.frame 0 (x (insA i)) (x (insB i)) (field imm 13 0) fn))) ∧
    (insOp i = 0x14 → h.frame.isSome = true → exec (.fwr t) s = go (waitFor t.val 5 (.frame 1 (x (insA i)) (x (insB i)) (field imm 13 0) fn))) ∧
    (insOp i = 0x15 → h.frame.isSome = true → exec (.flen t) s = go (waitFor t.val 5 (.frame 2 (x (insA i)) (x (insB i)) 0 fn))) ∧
    (insOp i = 0x16 → h.frame.isSome = true → exec (.fout t) s = go (waitFor t.val 5 (.frame 3 (x (insA i)) (x (insB i)) 0 fn))) ∧
    (insOp i = 0x17 → exec (.fnew t) s = go (waitFor t.val 5 (.frame 4 (x (insA i)) (x (insB i)) 0 fn))) ∧
    (insOp i = 0x18 → exec (.cpl t) s = go (doAll [
      match h.item with
      | none => .skip
      | some w => if h.cplDone then inc (FLOW.CPL_DUP_CNT.of (t.val / 16))
        else doAll [completeWith w (x (insA i) % 65536) (x (insB i) % 2 ^ 32) [] none [(20, leBytes 8 (x (insD i)))],
          modThread t.val fun y => { y with cplDone := true }],
      get fun u => match h.item with
        | some w => if u.postWaits w then waitFor t.val 5 (.cpl w) else finishOp t.val none
        | none => finishOp t.val none])) ∧
    (insOp i = 0x19 → exec (.evt t) s = go (doAll [evt (field imm 11 0), finishOp t.val none])) ∧
    (insOp i = 0x1A → exec (.done t) s = go (doneWork t.val (h.fpc + 8))) ∧
    (insOp i = 0x1B → exec (.halt t) s = go (doAll [clobber t.val,
      modThread t.val fun y => { y with
        st := 6
        fpc := (h.fpc + 8) % 2 ^ 32
        fpcNext := none
        upc := none
        spec := none
        stopPending := false
        stopMem := false },
      int Pg.flow (t.val / 16) 1, settle t.val]))

/-- Thread `t` is at the microword `w` at micro-PC `u`, outside its predicted path; the word is not poisoned and its CL admits its
operation, the one numbered `mop` (R318, R320). -/
def State.atMicro (s : State) (t u w mop : Nat) : Prop :=
  (s.thread t).st = 2 ∧ (s.thread t).onPath = false ∧ (s.thread t).upc = some u ∧ s.poisoned 3 (t / 16) (4 * u) 4 = false ∧ s.microAt (t / 16) u = w ∧
    field w 31 26 = mop ∧ ∃ c ∈ minCl mop, c ≤ field w 25 24

/-- R318 to R321, R326: an operate microword gives its D the result of A and B, whether D is a temporary, X[D] or the next FPC; with
SETF it sets Z and LT; the micro-PC goes on by one; the thread's other registers, the other threads, memory and every register
page stay as they are. -/
def Says.OperateMicrowordsCompute : Prop :=
  ∀ (s : State) (t : Fin 1024) (u w mop : Nat), s.runsBelow 2 → s.atMicro t.val u w mop → u < 16383 →
    (s.thread t.val).selOk (mwD w) = true → (s.thread t.val).selOk (mwA w) = true → (s.thread t.val).selOk (mwB w) = true →
    let a := s.sel64 t.val (mwA w)
    let b := s.sel64 t.val (mwB w)
    let ends := fun (r : Res) (v : Nat) => ∃ p, r = .next p ∧
      (p.thread t.val).upc = some (u + 1) ∧ (p.thread t.val).st = 2 ∧
      (∀ n < 8, tget 0 (p.thread t.val).ts n = if n = mwD w then v % 2 ^ 64 else tget 0 (s.thread t.val).ts n) ∧
      (∀ n, (p.thread t.val).x n = if n ≠ 0 ∧ (mwD w = 8 ∧ n = insD (s.thread t.val).instr ∨ mwD w = 9 ∧ n = insA (s.thread t.val).instr ∨
          mwD w = 10 ∧ n = insB (s.thread t.val).instr) then v % 2 ^ 64 else (s.thread t.val).x n) ∧
      (p.thread t.val).fpcNext = (if mwD w = 13 then some (v % 2 ^ 32) else (s.thread t.val).fpcNext) ∧
      (p.thread t.val).fpc = (s.thread t.val).fpc ∧
      (p.thread t.val).z = (if tbit w 8 then decide (v % 2 ^ 64 = 0) else (s.thread t.val).z) ∧
      (p.thread t.val).lt = (if tbit w 8 then tbit v 63 else (s.thread t.val).lt) ∧
      (p.thread t.val).ltu = (s.thread t.val).ltu ∧ (p.thread t.val).w = (s.thread t.val).w ∧
      (p.thread t.val).stack = (s.thread t.val).stack ∧
      (∀ g, g ≠ t.val → p.thread g = s.thread g) ∧ p.reg = s.reg ∧ p.mem = s.mem
    (mop = 0x01 → ends (exec (.uadd t) s) ((a + b) % 2 ^ 64)) ∧
    (mop = 0x02 → ends (exec (.usub t) s) ((a + 2 ^ 64 - b) % 2 ^ 64)) ∧
    (mop = 0x03 → ends (exec (.uand t) s) (a &&& b)) ∧
    (mop = 0x04 → ends (exec (.uor t) s) (a ||| b)) ∧
    (mop = 0x05 → ends (exec (.uxor t) s) (a ^^^ b)) ∧
    (mop = 0x06 → ends (exec (.ushl t) s) (a * 2 ^ (b % 64) % 2 ^ 64)) ∧
    (mop = 0x07 → ends (exec (.ushr t) s) (a / 2 ^ (b % 64))) ∧
    (mop = 0x08 → ends (exec (.usar t) s) (sar64 a (b % 64))) ∧
    (mop = 0x09 → ends (exec (.umul t) s) (a * b % 2 ^ 64))

/-- R312 to R321: the microwords that compare, insert, reach memory and the host, channels, wheel time, latches, the flow cache,
frames, completions and events, each under the checks that its rule makes. -/
def Says.OtherMicrowordsAct : Prop :=
  ∀ (s : State) (t : Fin 1024) (u w mop : Nat), s.runsBelow 2 → s.atMicro t.val u w mop → u < 16383 →
    let h := s.thread t.val
    let ok := fun k => h.selOk k = true
    let v := fun k => s.sel64 t.val k
    let m := memOperand w (v (mwA w))
    let go := fun p : Prog => Host.Outcome.next (φ := Fault) (ρ := Refusal) (p.run s)
    (mop = 0x00 → exec (.unop t) s = go (nextUpc t.val)) ∧
    (mop = 0x0A → ok (mwA w) → ok (mwB w) → exec (.ucmp t) s = go (doAll [
      modThread t.val fun x => { x with
        z := decide (v (mwA w) = v (mwB w))
        lt := decide (toSigned 64 (v (mwA w)) < toSigned 64 (v (mwB w)))
        ltu := decide (v (mwA w) < v (mwB w)) },
      nextUpc t.val])) ∧
    (mop = 0x0B → ok (mwD w) → exec (.uins t) s = go (doAll [
      setSel64 t.val (mwD w) (setField (if tbit w 18 then 0 else v (mwD w)) (16 * field w 17 16 + 15) (16 * field w 17 16) (field w 15 0)),
      nextUpc t.val])) ∧
    (mop = 0x0C → ok (mwD w) → ok (mwA w) → s.lmemGood t.val m.1 m.2 → m.1 % m.2 = 0 →
      exec (.uld t) s = go (finishOp t.val (some (leVal (s.lmem t.val m.1 m.2))))) ∧
    (mop = 0x0D → ok (mwD w) → ok (mwA w) → lmemOk m.1 m.2 = true → m.1 % m.2 = 0 →
      exec (.ust t) s = go (doAll [putLmem t.val m.1 (leBytes m.2 (v (mwD w))), nextUpc t.val])) ∧
    (mop = 0x0E → ok (mwD w) → ok (mwA w) → s.xmemOk (tbit (insFn h.instr) 3) false m.1 m.2 = true →
      exec (.uxld t) s = go (waitFor t.val 5 (.load (xspace (tbit (insFn h.instr) 3)) m.1 m.2 false))) ∧
    (mop = 0x0F → ok (mwD w) → ok (mwA w) → s.xmemOk (tbit (insFn h.instr) 3) true m.1 m.2 = true →
      exec (.uxst t) s = go (doAll [poke (xspace (tbit (insFn h.instr) 3)) 0 m.1 (leBytes m.2 (v (mwD w))),
        cleanse (xspace (tbit (insFn h.instr) 3)) 0 m.1 m.2, finishOp t.val none])) ∧
    (mop = 0x10 → ok (mwD w) → exec (.uhdma t) s = go (hcopy t.val (tbit (v 7) 16) (v 5) (v 6) (field (v 7) 12 0))) ∧
    (mop = 0x11 → ok (mwA w) → ok (mwB w) →
      exec (.uchput t) s = go (chanPut t.val (field (v (mwB w)) 10 0) (v (mwA w)) (tbit (mwFn w) 0))) ∧
    (mop = 0x12 → ok (mwD w) → ok (mwB w) →
      exec (.uchget t) s = go (chanGet t.val (field (v (mwB w)) 10 0) (tbit (mwFn w) 0))) ∧
    (mop = 0x13 → ok (mwD w) → ok (mwA w) → exec (.uwait t) s = go (timeWait t.val (.abs (v (mwA w) % 2 ^ 48)))) ∧
    (mop = 0x14 → ok (mwD w) → ok (mwB w) → mwFn w % 4 < 3 →
      exec (.ulatch t) s = go (waitFor t.val 5 (.latch (field (v (mwB w)) 9 0) (mwFn w)))) ∧
    (mop = 0x15 → ok (mwD w) → ok (mwA w) → ok (mwB w) → mwFn w ≤ 2 → s.lmemGood t.val (v (mwA w)) 32 →
      exec (.ufc t) s = go (waitFor t.val 5 (.cache (mwFn w) (v (mwA w)) (v (mwB w))))) ∧
    (mop = 0x16 → ok (mwD w) → ok (mwA w) → ok (mwB w) → s.lmemGood t.val (v (mwA w)) (mwFn w) →
      exec (.uhash t) s = go (finishOp t.val (some (crc32cFrom (v (mwB w) % 2 ^ 32) (s.lmem t.val (v (mwA w)) (mwFn w)))))) ∧
    (mop = 0x17 → ok (mwD w) → ok (mwA w) → ok (mwB w) → mwFn w ≤ 4 → (mwFn w < 4 → h.frame.isSome = true) →
      exec (.uframe t) s = go (waitFor t.val 5 (.frame (mwFn w) (v (mwA w)) (v (mwB w)) (field (v 6) 13 0) (v 7 % 512)))) ∧
    (mop = 0x18 → ok (mwA w) → ok (mwB w) → exec (.ucpl t) s = go (cplItem t.val (v (mwA w)) (v (mwB w)) (v 7))) ∧
    (mop = 0x19 → ok (mwB w) → exec (.uevt t) s = go (doAll [evt (field (v (mwB w)) 11 0), nextUpc t.val])) ∧
    (mop = 0x1A → exec (.udone t) s = go (
      let next := h.fpcNext.getD (h.fpc + 8)
      if tbit (mwFn w) 0 then haltThread t.val next else doneWork t.val next))

/-- R303, R304, R321 to R327: the next-address microwords: the micro-PC each leaves, the stack of four, the end of a flow
instruction with its STOP or into its predicted path, the resolution of a branch, the return from a trap, and the two that end a
routine; and at a boundary the instruction is dispatched, and predicted, before its first microword issues. -/
def Says.NextAddressMicrowords : Prop :=
  (∀ (s : State) (t : Fin 1024) (i : Nat), s.runsBelow 2 → s.flowAt t.val i →
    let d := s.dispatchWord (t.val / 16) (insOp i)
    field (s.microAt (t.val / 16) (field d 13 0)) 31 26 = 0x00 → exec (.unop t) s = .next ((doAll [taken s t.val i,
      modThread t.val fun x => { x with
        upc := some (field d 13 0)
        spec := if tbit d 14 then some (x.predicted i) else none },
      Prog.when (tbit d 14) (doAll [modThread t.val Thread.pathIn, pathDispatch t.val, modThread t.val Thread.pathOut]),
      issue 0x00 t.val fun _ => canAdvance t.val (nextUpc t.val)]).run s)) ∧
  ∀ (s : State) (t : Fin 1024) (u w mop : Nat), s.runsBelow 2 → s.atMicro t.val u w mop →
    let h := s.thread t.val
    let set := fun f : Thread → Thread => Host.Outcome.next (φ := Fault) (ρ := Refusal) ((modThread t.val f).run s)
    (mop = 0x20 → exec (.ujmp t) s = set fun x => { x with upc := some (field w 13 0) }) ∧
    (mop = 0x21 → (h.cond (field w 23 20) = some true → exec (.ubr t) s = set fun x => { x with upc := some (field w 13 0) }) ∧
      (h.cond (field w 23 20) = some false → u < 16383 →
        exec (.ubr t) s = set fun x => { x with upc := x.upc.map (· + 1), st := 2, wait := .none })) ∧
    (mop = 0x22 → h.stack.length < 4 → u < 16383 →
      exec (.ucall t) s = set fun x => { x with stack := (u + 1) :: x.stack, upc := some (field w 13 0) }) ∧
    (∀ v r, mop = 0x23 → h.stack = v :: r → exec (.uret t) s = set fun x => { x with upc := some v, stack := r }) ∧
    (let next := h.fpcNext.getD ((h.fpc + 8) % 2 ^ 32)
      let follows := fun q : Spec => q.resolved && decide (q.start = next) && !s.stopsHere t.val
      mop = 0x24 → (∀ q, h.spec = some q → follows q = true → exec (.uend t) s = .next ((pathTaken t.val q).run s)) ∧
      ((∀ q, h.spec = some q → follows q = false) → ∃ p, exec (.uend t) s = .next p ∧ (p.thread t.val).upc = none ∧
        (p.thread t.val).fpc = next ∧ (p.thread t.val).spec = none ∧
        (p.thread t.val).st = (if h.stopPending && !h.inTrap then (if s.thrMode t.val = 0 then 0 else 6) else 2) ∧
        (∀ g, g ≠ t.val → p.thread g = s.thread g) ∧ p.reg = s.reg ∧ p.mem = s.mem)) ∧
    (∀ taken, mop = 0x25 → h.cond (field w 23 20) = some taken → u < 16383 → ∃ p, exec (.ufbr t) s = .next p ∧
      (p.thread t.val).upc = some (u + 1) ∧
      (p.thread t.val).spec = (match h.spec with
        | some q => if q.resolved then some q else if q.taken = taken then some { q with resolved := true } else none
        | none => none) ∧
      (p.thread t.val).fpcNext = (if taken then some ((h.fpc + sx32 (insImm h.instr)) % 2 ^ 32) else h.fpcNext) ∧
      p.rd (FLOW.MISPREDICT_CNT.of (t.val / 16)) = min (s.rd (FLOW.MISPREDICT_CNT.of (t.val / 16)) +
        b2n ((h.spec.map fun q => !q.resolved && (q.taken != taken)).getD false)) (2 ^ 32 - 1)) ∧
    (mop = 0x26 → h.inTrap = true → 1 < h.cause → exec (.urtt t) s = set fun x => { x with
      ts := x.shadow.ts
      z := x.shadow.z
      lt := x.shadow.lt
      ltu := x.shadow.ltu
      w := x.shadow.w
      stack := x.shadow.stack
      inTrap := false
      upc := some x.shadow.upc }) ∧
    (mop = 0x27 → exec (.uabort t) s = .next ((abortThread t.val ST.ENGINE_FAULT u).run s)) ∧
    (mop = 0x28 → exec (.utrap t) s = .next ((trapTo t.val 15 none u).run s))

/-- R304, R315, R319, R322, R325, R326: what raises which micro-trap: a bad fetch and an opcode without a VALID dispatch word, a
reserved ALU or BR function, LMEM and external addresses, a disabled channel, the missing frame, and the four of microwords. -/
def Says.MicroTrapsAreRaised : Prop :=
  (∀ (s : State) (t : Fin 1024), s.runsBelow 2 → (s.thread t.val).st = 2 → (s.thread t.val).upc = none →
    4096 * s.cfd (FLOW.PROG_SIZE.of (t.val / 16)) 19 0 ≤ (s.thread t.val).fpc ∨ (s.thread t.val).fpc % 8 ≠ 0 →
    exec (.nop t) s = .next ((trapTo t.val 1 none 0x3FFF).run s)) ∧
  (∀ (s : State) (t : Fin 1024) (i : Nat), s.runsBelow 2 → s.flowAt t.val i →
    let h := s.thread t.val
    let a := addrOf i h
    let n := sizeOf2 (insFn i)
    let go := fun p : Prog => Host.Outcome.next (φ := Fault) (ρ := Refusal) ((doAll [taken s t.val i, p]).run s)
    (insOp i = 0x01 → aluOp (insFn i % 16) (h.x (insA i)) (aluB i h) = none → exec (.alu t) s = go (raise t.val 2 none)) ∧
    (insOp i = 0x03 → brCond (insFn i % 8) (h.x (insA i)) (h.x (insB i)) = none → exec (.br t) s = go (raise t.val 2 none)) ∧
    (insOp i = 0x05 → 2 ^ 32 ≤ a → exec (.jr t) s = go (trapTo t.val 1 none 0x3FFF)) ∧
    (insOp i = 0x06 → lmemOk a n = false ∨ a % n ≠ 0 → exec (.ld t) s = go (raise t.val 4 (some a))) ∧
    (insOp i = 0x08 → s.xmemOk (tbit (insFn i) 3) false a n = false → exec (.xld t) s = go (raise t.val 5 (some a))) ∧
    (insOp i = 0x09 → s.xmemOk (tbit (insFn i) 3) true a n = false → exec (.xst t) s = go (raise t.val 5 (some a))) ∧
    (insOp i = 0x0C → s.chanOn (field (insImm i) 10 0) = false → exec (.chget t) s = go (raise t.val 8 none)) ∧
    (insOp i = 0x13 → h.frame = none → exec (.frd t) s = go (raise t.val 10 none))) ∧
  (∀ (s : State) (t : Fin 1024) (u w mop : Nat), s.runsBelow 2 → s.atMicro t.val u w mop →
    let h := s.thread t.val
    let go := fun cause => Host.Outcome.next (φ := Fault) (ρ := Refusal) ((raise t.val cause none).run s)
    (mop = 0x01 → h.selOk (mwD w) = false → exec (.uadd t) s = go 2) ∧
    (mop = 0x00 → u = 16383 → exec (.unop t) s = go 7) ∧
    (mop = 0x22 → 4 ≤ h.stack.length → exec (.ucall t) s = go 6) ∧
    (mop = 0x23 → h.stack = [] → exec (.uret t) s = go 6)) ∧
  (∀ (s : State) (t : Fin 1024) (u w : Nat), s.runsBelow 2 → (s.thread t.val).st = 2 → (s.thread t.val).upc = some u →
    s.poisoned 3 (t.val / 16) (4 * u) 4 = false → s.microAt (t.val / 16) u = w → field w 31 26 = 0x09 → field w 25 24 < 2 →
    exec (.umul t) s = .next ((raise t.val 3 none).run s))

/-- R302, R305 to R307: the lowest-numbered IDLE POOL thread of an engine that is not reloaded and has no error takes the oldest queued item, with the record in its area of
LMEM, X1 to X3 and the FPC of the entry point. -/
def Says.WorkItemsAreTaken : Prop :=
  ∀ (s : State) (e : Fin 64) (k : Nat) (item : FlowItem) (rest : List FlowItem), s.runsBelow 2 →
    (List.range 16).find? (fun k => decide ((s.thread (16 * e.val + k)).st = 1) && decide (s.thrMode (16 * e.val + k) = 1)) = some k → s.workQueue e.val = item :: rest →
    s.fd (FLOW.CS_STATUS.of e.val) 1 0 = 0 → s.bit (FLOW.ENG_STATUS.of e.val) 1 = false →
    let t := 16 * e.val + k
    let area := 0x3C000 + 0x400 * k
    let start := fun (kind x3 entry : Nat) (record : List Byte) (f : Option Frame) (w : Option Nat) =>
      Host.Outcome.next (φ := Fault) (ρ := Refusal) ((doAll [
        setWorkQueue e.val rest, putLmem t area record, setX t 1 kind, setX t 2 area, setX t 3 x3,
        modThread t fun h => { h with
          st := 2
          fpc := s.cfg ((FLOW.ENTRY entry).of e.val)
          fpcNext := none
          upc := none
          spec := none
          inTrap := false
          frame := f
          item := w
          itemFn := ((w.bind s.work?).map (·.fn)).getD 0
          cplDone := false }]).run s)
    (∀ f, item = .frame f → exec (.workItemTake e) s = start 0 f.flowEntry (f.flowEntry % 16) f.record (some f) none) ∧
    ∀ w x, item = .ring w → s.work? w = some x →
      exec (.workItemTake e) s = start 1 (x.at 20 2) (field (x.at 20 2) 11 8) x.record none (some w)

/-- R302 to R304: a write of THRt_CTL: STOP at the next boundary, at once for a thread that waits on a channel or on time, after the
access for one that waits on memory, and after the routine in a trap; RUN of a STOPPED thread; ABORT; RESTART of a FAULTED one. -/
def Says.ThreadsAreControlled : Prop :=
  ∀ (s : State) (a : Accessor) (k : Fin 16), s.serves a Pg.flow →
    let t := 16 * s.instSel a Pg.flow + k.val
    let h := s.thread t
    let go := fun p : Prog => Host.Outcome.next (φ := Fault) (ρ := Refusal) (p.run s)
    (h.st = 5 → exec (.threadStop a k) s = go (modThread t fun x => { x with stopPending := true, stopMem := true })) ∧
    (h.st ∈ [2, 3, 4] → h.inTrap = true ∨ h.st = 2 ∧ h.upc.isSome = true →
      exec (.threadStop a k) s = go (modThread t fun x => { x with stopPending := true, stopMem := false })) ∧
    (h.st = 2 → h.upc = none → h.inTrap = false → h.onPath = false → exec (.threadStop a k) s = go (doAll [
      modThread t fun x => { x with st := 6, stopPending := false, stopMem := false }, settle t])) ∧
    (h.st = 3 ∨ h.st = 4 → h.inTrap = false → exec (.threadStop a k) s = go (doAll [cancelWaits t, clobber t,
      modThread t fun x => { x with st := 6, upc := none, fpcNext := none, spec := none }, settle t])) ∧
    (h.st = 6 → exec (.threadRun a k) s = go (modThread t fun x => { x with st := 2 })) ∧
    (h.st ≠ 0 → h.onPath = false → ∀ u, h.upc = some u → exec (.threadAbort a k) s = go (trapTo t 14 none u)) ∧
    (h.st = 7 → exec (.threadRestart a k) s = go (modThread t fun x => { x with
      st := if s.thrMode t = 1 then 1 else if s.thrMode t = 2 then 2 else 0
      fpc := if s.thrMode t = 2 then s.cfg ((FLOW.THR_START (t % 16)).of (t / 16)) else x.fpc
      upc := none
      fpcNext := none
      spec := none
      inTrap := false })) ∧
    (h.st ∈ [0, 1, 2, 3, 4, 5] → exec (.threadRun a k) s = .next s ∧ exec (.threadRestart a k) s = .next s)

/-- R301, R302, R310, R312 to R314, R316, R317, R325, R328: the waits of a thread end: the longest wait of a channel; a load, a host
copy, an operation of the flow cache, a fetch, a latch or frame operation and a CPL that waits, each in MEMORY_OP_DONE; and wheel time with
OK or STEPPED. -/
def Says.ThreadWaitsEnd : Prop :=
  ∀ (s : State) (t : Fin 1024), s.runsBelow 2 →
    let h := s.thread t.val
    let go := fun p : Prog => Host.Outcome.next (φ := Fault) (ρ := Refusal) (p.run s)
    let rest := fun p : Prog => go (.seq p (pathRest t.val))
    (∀ c v, h.st = 3 → h.wait = .chan c (some v) → ((s.chan c).waiters.find? fun w => w.2.isSome).map (·.1) = some t.val →
      (s.chan c).words.length < 4 → exec (.channelWaitDone t) s = go (doAll [
        modChan c fun x => { x with waiters := x.waiters.filter fun w => !decide (w.1 = t.val) },
        chanPush c v, finishOp t.val none, setW t.val false])) ∧
    (∀ c v l, h.st = 3 → h.wait = .chan c none → ((s.chan c).waiters.find? fun w => !w.2.isSome).map (·.1) = some t.val →
      (s.chan c).words = v :: l → exec (.channelWaitDone t) s = go (doAll [
        modChan c fun x => { x with waiters := x.waiters.filter fun w => !decide (w.1 = t.val) },
        chanPop c, finishOp t.val (some v), setW t.val false])) ∧
    (∀ sp a n sg, h.st = 5 → h.wait = .load sp a n sg →
      (s.poisoned sp 0 a n = false → exec (.memoryOpDone t .none) s = rest (doAll [MemErr.none.note,
        if s.opaqueAt sp a n then fresh fun v => finishOp t.val (some (extend sg n (v % 2 ^ (8 * n))))
        else finishOp t.val (some (extend sg n (s.memNat sp 0 a n)))])) ∧
      (s.poisoned sp 0 a n = true → exec (.memoryOpDone t .none) s = rest (doAll [MemErr.none.note, raise t.val 5 (some a)])) ∧
      ∀ sp' p, exec (.memoryOpDone t (.ue sp' p)) s = rest (doAll [(MemErr.ue sp' p).note, raise t.val 5 (some a)])) ∧
    (∀ toL ad lm n, h.st = 5 → h.wait = .host toL ad lm n → ∀ e, exec (.memoryOpDone t e) s = rest (hcopyDone t.val toL ad lm n)) ∧
    (∀ op k v, h.st = 5 → h.wait = .cache op k v → exec (.memoryOpDone t .none) s = rest (doAll [MemErr.none.note, fcOp t.val op k v])) ∧
    (h.st = 5 → h.wait = .fetch →
      (s.poisoned 2 0 (s.fpcAddr (t.val / 16) h.fpc) 8 = false → exec (.memoryOpDone t .none) s = rest (doAll [MemErr.none.note,
        icachePut (t.val / 16) h.fpc (s.memNat 2 0 (s.fpcAddr (t.val / 16) h.fpc) 8 + 1),
        modThread t.val fun x => { x with st := 2, wait := .none }, boundary t.val])) ∧
      ∀ sp' p, exec (.memoryOpDone t (.ue sp' p)) s = rest (doAll [(MemErr.ue sp' p).note, trapTo t.val 1 none 0x3FFF])) ∧
    (∀ n fn e, h.st = 5 → h.wait = .latch n fn → fn % 4 < 3 → exec (.memoryOpDone t e) s = rest (match fn % 4 with
      | 0 => acquireLatch n (ownerThread t.val) fun w => finishOp t.val (some (w % 65536))
      | 1 => doAll [releaseLatch n (ownerThread t.val), finishOp t.val none]
      | _ => doAll [clrBrokenLatch n (ownerThread t.val), finishOp t.val none])) ∧
    (∀ op a b n fn, h.st = 5 → h.wait = .frame op a b n fn →
      (exec (.memoryOpDone t .none) s = rest (doAll [MemErr.none.note, match op with
        | 0 => frameRead t.val a b n
        | 1 => frameWrite t.val a b n
        | 2 => frameLen t.val fn a
        | 3 => frameOut t.val fn a b
        | _ => frameNew t.val])) ∧
      ∀ sp' p, op < 4 → exec (.memoryOpDone t (.ue sp' p)) s = rest (doAll [(MemErr.ue sp' p).note,
        inc (FLOW.FRAME_LEAK_CNT.of (t.val / 16)), setFrame t.val none, raise t.val 10 none])) ∧
    (∀ w e, h.st = 5 → h.wait = .cpl w → exec (.memoryOpDone t e) s = rest (Prog.when (!s.postWaits w) (finishOp t.val none))) ∧
    (∀ e, h.st = 4 →
      (s.fires e (.threadWait t.val) → exec .threadWaitDone s = go (doAll [leaves e false, finishOp t.val (some ST.OK)])) ∧
      (s.steps e (.threadWait t.val) → exec .threadWaitDone s = go (doAll [leaves e true, finishOp t.val (some ST.STEPPED)])))

/-- R89, R304, R329 to R331, R335: a control store is reloaded in its steps, by a control core only; a self-test ends OK where its patterns and
its control store are right, and otherwise puts the engine in error; a reset of an engine aborts its threads and items, breaks their
latches and empties its channels; its instruction cache is emptied; a sweep ends the near copies filled before the last one. -/
def Says.EnginesAreReloadedTestedAndReset : Prop :=
  ∀ (s : State) (a : Accessor) (e : Fin 64),
    let i := s.instSel a Pg.flow
    let ts := (List.range 16).map (16 * e.val + ·)
    let phase := s.fd (FLOW.CS_STATUS.of e.val) 1 0
    let testing := tget 0 s.ctl.flow.testing e.val
    let go := fun p : Prog => Host.Outcome.next (φ := Fault) (ρ := Refusal) (p.run s)
    (s.serves a Pg.flow →
      exec (.reload a) s = go (if a.isPort then wrF (FLOW.CS_STATUS.of i) 31 16 ST.ACCESS_DENIED else mstart MA.CS_RELOAD i .register 0) ∧
      exec (.selftest a) s = go (mstart MA.ENGINE_SELFTEST i .register 0) ∧
      (s.fd (FLOW.CS_STATUS.of i) 1 0 = 2 → exec (.loadDone a) s = go (wrF (FLOW.CS_STATUS.of i) 1 0 3)) ∧
      exec (.engineReset a) s = go (doAll [
        Prog.each (List.range 16) fun k => doAll [
          withUpc (16 * i + k) fun u => abortThread (16 * i + k) ST.ABORTED u,
          modThread (16 * i + k) fun h => { h with xs := [] }],
        breakLatches (fun o => (List.range 16).any fun k => decide (o = ownerThread (16 * i + k))),
        Prog.each (s.workQueue i) fun q => match q with
          | .ring w => complete w ST.ABORTED 0
          | .frame _ => .skip,
        setWorkQueue i [], emptyChans i]) ∧
      ∃ u, exec (.icacheInv a) s = .next u ∧ u.reg = s.reg ∧ u.mem = s.mem ∧
        u.ctl.flow.icache = s.ctl.flow.icache.filter fun x => !decide (x.1 / 2 ^ 32 = i)) ∧
    (s.runsBelow 2 → phase = 1 → testing ≠ 2 →
      let busy := ts.filter fun t => decide ((s.thread t).st ∈ [2, 3, 4, 5])
      ∀ timeout, busy.isEmpty = true ∨ timeout = true → exec (.csDrainDone e timeout) s = go (doAll [
        Prog.each (if testing = 1 then busy else ts.filter fun t => !decide ((s.thread t).st ∈ [0, 7])) fun t =>
          withUpc t fun u => abortThread t ST.ABORTED u,
        if testing = 1 then ctl fun c => { c with flow.testing := nset 0 c.flow.testing e.val 2 }
        else doAll [breakLatches (fun o => ts.any fun t => decide (o = ownerThread t)), wrF (FLOW.CS_STATUS.of e.val) 1 0 2]])) ∧
    (s.runsBelow 2 → phase = 3 →
      (s.csCrc e.val = s.rd (FLOW.CS_CRC.of e.val) → exec (.csCheckDone e) s = go (doAll [
        Prog.each (List.range 16) fun k => startState (16 * e.val + k),
        setCs e.val 0, csStatus e.val ST.OK, wrB (FLOW.ENG_STATUS.of e.val) 1 false, int Pg.flow e.val 3,
        mend MA.CS_RELOAD e.val])) ∧
      (s.csCrc e.val ≠ s.rd (FLOW.CS_CRC.of e.val) → exec (.csCheckDone e) s = go (doAll [csStatus e.val ST.BAD_FIELD, setCs e.val 2]))) ∧
    (s.runsBelow 2 → testing = 2 → ∀ ok, exec (.selftestDone e ok) s = go (doAll [
      ctl fun c => { c with flow.testing := nset 0 c.flow.testing e.val 0 },
      freeBytes 0x40000 fun b => poke 13 e.val 0 b, cleanse 13 e.val 0 0x40000,
      emptyChans e.val, setCs e.val 0,
      if ok && s.storeGood e.val then csStatus e.val ST.OK else doAll [csStatus e.val ST.ENGINE_FAULT, engineError e.val],
      mend MA.ENGINE_SELFTEST e.val])) ∧
    (s.runsBelow 2 → s.bit FLOW.FC_CFG 8 = false → ∀ w, s.fires w (.aging 4) → exec .flowCacheSweep s = go (doAll [
      leaves w false,
      ctl fun c => { c with flow := { c.flow with
        sweeps := c.flow.sweeps + 1
        near := c.flow.near.filter fun n => decide (c.flow.sweeps ≤ n.sweep) } },
      nextPeriod w false]))

/-- R311 to R313, R333, R337: channels and cores through their pages: a put and a get complete or set OVF or UNF, a core starts at
BOOT_ADDR, is interrupted by NMI, halts with its cause, and loses its latches by a halt or a reset. -/
def Says.ChannelsAndCoresByTheirPages : Prop :=
  ∀ (s : State) (a : Accessor) (k : Fin 32),
    let i := s.instSel a Pg.chan
    let ch := 32 * i + k.val
    let c := s.instSel a Pg.core
    let go := fun p : Prog => Host.Outcome.next (φ := Fault) (ρ := Refusal) (p.run s)
    (s.serves a Pg.chan → ∀ v : Word,
      (s.chanOn ch = true → (s.chan ch).canPut = true → ∃ u, exec (.putWrite a k v) s = .next u ∧ u.reg = s.reg ∧ u.mem = s.mem ∧
        (u.chan ch).words = (s.chan ch).words ++ [(s.copy .loHold ((CHAN.PUT k.val).of i) + 2 ^ 32 * v.toNat) % 2 ^ 64] ∧
        ∀ d, d ≠ ch → u.chan d = s.chan d) ∧
      ((s.chanOn ch && (s.chan ch).canPut) = false →
        exec (.putWrite a k v) s = go (wrB ((CHAN.CH_STATUS k.val).of i) 6 true))) ∧
    (s.open a Pg.chan = true →
      (∀ v l, (s.chan ch).canGet = true → (s.chan ch).words = v :: l → ∃ u, exec (.getRead a k) s = .next u ∧
        u.ctl.answer = v % 2 ^ 32 ∧ u.copy .hiLatch ((CHAN.GET k.val).of i) = v / 2 ^ 32 % 2 ^ 32 ∧
        (∃ l', (u.chan ch).words = l ++ l') ∧ ∀ d, d ≠ ch → u.chan d = s.chan d) ∧
      ((s.chan ch).canGet = false → exec (.getRead a k) s = go (doAll [wrB ((CHAN.CH_STATUS k.val).of i) 7 true,
        setCopy .hiLatch ((CHAN.GET k.val).of i) 0, answer 0]))) ∧
    (s.serves a Pg.core →
      exec (.coreReset a) s = go (doAll [wrF (CORE.CORE_STATUS.of c) 1 0 0, breakLatches (fun o => decide (o = ownerCore c))]) ∧
      (s.coreState c = 0 → exec (.coreRun a) s = go (doAll [wrF (CORE.CORE_STATUS.of c) 1 0 1,
        emit (.ctrlBus 0 c (leBytes 8 (s.rdW (CORE.BOOT_ADDR.of c))))])) ∧
      (s.coreState c ∈ [1, 2] → exec (.nmi a) s = go (doAll [wrF (CORE.CORE_STATUS.of c) 1 0 1, emit (.ctrlBus 1 c [])]))) ∧
    (s.runsBelow 4 → ∀ (n : Fin 48) (cause : Word) (epc : DWord), s.coreState n.val ∈ [1, 2] → exec (.coreFatal n cause epc) s = go (doAll [
      wrF (CORE.CORE_STATUS.of n.val) 1 0 3,
      wrF (CORE.CORE_STATUS.of n.val) 31 16 (s.fd (CORE.CORE_STATUS.of n.val) 31 16 + 1),
      wr (CORE.FATAL_CAUSE.of n.val) cause.toNat, wrW (CORE.FATAL_EPC.of n.val) epc.toNat,
      breakLatches (fun o => decide (o = ownerCore n.val)), int Pg.core n.val 0]))

/-- The work request `w` is the next one of its queue pair, whose ring holds it (R344, R347). -/
def State.wrNext (s : State) (w : Nat) (x : Work) : Prop :=
  s.work? w = some x ∧ (s.newWrs x.qpn).head? = some (w, x) ∧ x.ring = s.qpSq x.qpn

/-- Such a work request starts: its packets join those to send, the next PSN moves past them, what may be sent is, and those after it that
have failed take their place (R338, R348, R351). -/
def wrStart (s : State) (w : Nat) (x : Work) : Prog :=
  let l := s.wrPackets x.qpn w x
  doAll [
    modWork w fun y => { y with stage := 3 },
    modQp x.qpn fun y => { y with
      armedWait := false
      wrs := y.wrs ++ [⟨w, none⟩]
      out := y.out ++ l
      spsn := psnAdd y.spsn ((l.map (·.n)).sum)
      sinceAck := (y.sinceAck + l.length) % max 1 (s.fd RDMA.ACK_EVERY 5 0) },
    pumpAll x.qpn, badHeadsAll x.qpn]

/-- Nothing holds a work request of a queue pair in RTS: it and its source have come, no fence and no limit of outstanding READs and ATOMICs
is before it, and if it is armed its counter has released it and its source, where it has one, has been read since (R347, R348, R353). -/
def State.wrMayStart (s : State) (x : Work) : Prop :=
  let started := (s.qp x.qpn).wrs.filter fun e => e.fin.isNone && isReadWr (((s.work? e.wr).map (·.typ)).getD 0)
  (s.qp x.qpn).st = 3 ∧ x.stage ≠ 1 ∧ x.reads = 0 ∧ x.status = ST.OK ∧ (x.flag 9 = true → started = []) ∧
    (isReadWr x.typ = true → started = [] ∨ started.length < s.cfd (RDMA.QP_TIMERS.of x.qpn) 19 16) ∧
    (x.flag 8 = false ∨ x.aux ≠ 0 ∨ (s.triggered x = true ∧ (x.typ ∉ [0x41, 0x43] ∨ x.length = 0)))

/-- R338, R344 to R351, R353: a work request that is its queue pair's next and that nothing holds starts in RTS; one that waits for its
trigger is marked; an armed SEND or WRITE that its trigger releases reads its source first; one whose source could not be read takes its
place among the completions; in RESET and ERROR it completes with QP_FLUSHED. The trigger's counter takes what software writes. -/
def Says.WorkRequestsStart : Prop :=
  (∀ (s : State) (w : Nat) (x : Work), s.runsBelow 4 → s.wrNext w x →
    let q := x.qpn
    let flushed := Host.Outcome.next (φ := Fault) (ρ := Refusal) ((doAll [wrDone q w ST.QP_FLUSHED 0 none, badHeadsAll q]).run s)
    let marked := Host.Outcome.next (φ := Fault) (ρ := Refusal) ((modQp q fun y => { y with armedWait := true }).run s)
    let source := Host.Outcome.next (φ := Fault) (ρ := Refusal) ((doAll [modQp q fun y => { y with armedWait := false },
      modWork w fun y => { y with aux := 1 }, gather w x.fn x.pieces 0]).run s)
    let failed := Host.Outcome.next (φ := Fault) (ρ := Refusal) ((badHeadsAll q).run s)
    (s.wrMayStart x →
      (x.typ = 0x41 → exec (.send w) s = .next ((wrStart s w x).run s)) ∧
      (x.typ = 0x43 → exec (.write w) s = .next ((wrStart s w x).run s)) ∧
      (x.typ = 0x45 → exec (.read w) s = .next ((wrStart s w x).run s)) ∧
      (x.typ = 0x46 → exec (.cas w) s = .next ((wrStart s w x).run s)) ∧
      (x.typ = 0x47 → exec (.faa w) s = .next ((wrStart s w x).run s)) ∧
      (x.typ = 0x48 → exec (.flush w) s = .next ((wrStart s w x).run s)) ∧
      ∀ k : Fin 262144, k.val = q → (s.qp q).armedWait = true → x.flag 8 = true → s.triggered x = true →
        exec (.armedWrTrigger k) s = .next ((wrStart s w x).run s)) ∧
    ((s.qp q).st = 3 → x.flag 8 = true → x.aux = 0 → s.triggered x = true → x.stage ≠ 1 → x.reads = 0 → x.status = ST.OK → x.length ≠ 0 →
      (x.typ = 0x41 → exec (.send w) s = source) ∧ (x.typ = 0x43 → exec (.write w) s = source) ∧
      ∀ k : Fin 262144, k.val = q → (s.qp q).armedWait = true → x.typ ∈ [0x41, 0x43] → exec (.armedWrTrigger k) s = source) ∧
    ((s.qp q).st = 3 → x.flag 8 = true → x.aux = 0 → s.triggered x = false →
      (x.typ = 0x41 → exec (.send w) s = marked) ∧ (x.typ = 0x43 → exec (.write w) s = marked) ∧
      (x.typ = 0x45 → exec (.read w) s = marked) ∧ (x.typ = 0x46 → exec (.cas w) s = marked) ∧
      (x.typ = 0x47 → exec (.faa w) s = marked) ∧ (x.typ = 0x48 → exec (.flush w) s = marked)) ∧
    ((s.qp q).st = 3 → x.flag 8 = false → x.stage ≠ 1 → x.reads = 0 → x.status ≠ ST.OK →
      (x.typ = 0x41 → exec (.send w) s = failed) ∧ (x.typ = 0x43 → exec (.write w) s = failed)) ∧
    ((s.qp q).st = 0 ∨ (s.qp q).st = 4 →
      (x.typ = 0x41 → exec (.send w) s = flushed) ∧ (x.typ = 0x43 → exec (.write w) s = flushed) ∧
      (x.typ = 0x45 → exec (.read w) s = flushed) ∧ (x.typ = 0x46 → exec (.cas w) s = flushed) ∧
      (x.typ = 0x47 → exec (.faa w) s = flushed) ∧ (x.typ = 0x48 → exec (.flush w) s = flushed))) ∧
  ∀ (s : State) (a : Accessor) (v : Word), s.serves a Pg.rdma → exec (.trigValWrite a v) s =
    .next ((ctl fun c => { c with rdma.trig := nset 0 c.rdma.trig (s.sel a Pg.rdma 0x300 % 65536) v.toNat }).run s)

/-- The periodic consumer that a retry asks for again (R57). -/
def retried (k : PeriodicKind) (i : Nat) : Option Consumer :=
  match k with
  | .shaper => some (.shaperRefill (i % 168))
  | .policer => some (.polBlock (i % 1024))
  | .control => some (.ctrlLimit (i % 4))
  | .bucket => some (.intBucket (i % 2048))
  | .aging => some (.aging (i % 5))
  | .telemetry => some .telemetry
  | .poll => some (.ringPoll (i % 65536))
  | .heartbeat => some .hbSend
  | .queuePair => none
  | .flushTimer => some (.flushDeadline (i % 16384))
  | .deadPeer => some .deadPeer

/-- R16, R21, R56, R57, R208, R351, R356, R357, R359: what the wheel and the ports bring to queue pairs and other consumers: room in the
retransmit store lets a queue pair send on; a pacing instant too, afresh where an arming fires it; a retransmit timeout is counted, halves
the rate under congestion control and uses one retry, or is the last; after an RNR wait sending goes on. The retry of a refused reschedule asks
again, at the first grid point after now or the one that is still ahead, and is over once it is accepted; a queue pair's asks for what it
was refused. The end of a frame's sending completes it, and an uncorrectable error drops it. -/
def Says.QueuePairsAreResumed : Prop :=
  ∀ (s : State), s.runsBelow 4 →
    let go := fun p : Prog => Host.Outcome.next (φ := Fault) (ρ := Refusal) (p.run s)
    (∀ (q : Fin 262144) p, (s.qp q.val).out[(s.qp q.val).next]? = some p → (s.qp q.val).rtxWait = true →
      s.rtxBytes + p.payload.length ≤ s.fd RDMA.RTX_SIZE 15 0 * 2 ^ 20 →
      exec (.rtxResume q) s = go (doAll [modQp q.val fun y => { y with rtxWait := false }, pumpAll q.val])) ∧
    (∀ e q, (s.fires e (.pacing q) → exec .pacingRelease s = go (doAll [leaves e false, pumpAll q])) ∧
      (s.steps e (.pacing q) → exec .pacingRelease s = go (doAll [leaves e true, modQp q fun y => { y with pace := none }, pumpAll q]))) ∧
    (∀ e q, s.fires e (.retx q) → exec .retransmitTimeout s = go (doAll [leaves e false, inc RDMA.TIMEOUT_CNT,
      Prog.when (s.cbit (RDMA.QP_CC.of q) 0) (modQp q fun y => { y with rate := y.rate / 2 }),
      if s.cfd (RDMA.QP_TIMERS.of q) 7 5 ≤ (s.qp q).retries then enterError q ST.RETRY_EXCEEDED ((s.qp q).out.head?.map (·.wr))
      else doAll [modQp q fun y => { y with retries := y.retries + 1 }, resendOldest q]])) ∧
    (∀ e q, (s.fires e (.rnr q) → exec .rnrWaitExpiry s = go (doAll [leaves e false, startTimer q, pumpAll q])) ∧
      (s.steps e (.rnr q) → exec .rnrWaitExpiry s = go (doAll [leaves e true, resendOldest q]))) ∧
    (∀ k i c r, retried k i = some c → s.ctl.time.retry.find? (fun r => decide (r.consumer = c)) = some r → ∀ dom p, s.period c = some (dom, p) →
      let now := s.wt r.dom
      let behind := (now + 2 ^ 48 - r.last % 2 ^ 48) % 2 ^ 48
      let again := fun target : Nat => request r.dom 1 (.rel ((target % 2 ^ 48 + 2 ^ 48 - now) % 2 ^ 48)) c fun st _ =>
        Prog.when (decide (st = ST.OK)) (ctl fun x => { x with time.retry := x.time.retry.filter fun y => !decide (y.consumer = c) })
      (wtDiff r.last now ≤ 0 → exec (.rescheduleRetry k i) s = .next ((again (r.last + (behind / max 1 p + 1) * p)).run s)) ∧
      (0 < wtDiff r.last now → exec (.rescheduleRetry k i) s = .next ((again r.last).run s))) ∧
    (∀ i kind tick l, (s.qp (i % 262144)).again = (kind, tick) :: l → exec (.rescheduleRetry .queuePair i) s = go (doAll [
      modQp (i % 262144) fun y => { y with again := l },
      if kind = 1 then startTimer (i % 262144) else qpEvent (i % 262144) kind tick])) ∧
    (∀ (p : Fin 512) x, s.sending p.val = some x → x.copy.confirmed = true →
      exec (.frameTxEnd p .none) s = go (doAll [MemErr.none.note, txDone x, packetsLeft]) ∧
      ∀ m ad, exec (.frameTxEnd p (.ue m ad)) s = go (doAll [(MemErr.ue m ad).note, setSending p.val none,
        copyGone x.copy ST.UNCORRECTABLE none, pauseOf x.copy]))

/-- A transport frame held for its queue pair, the oldest of that queue pair, whose context is not poisoned (R339, R340, R486). -/
def State.oldestRx (s : State) (id : Nat) (f : Frame) : Prop :=
  s.qpBad f.rocePkt.qpn = false ∧
  s.ctl.rdma.rx.find? (fun f => decide (f.id = id)) = some f ∧
    ((s.ctl.rdma.rx.takeWhile fun g => !decide (g.id = id)).any fun g => decide (g.rocePkt.qpn = f.rocePkt.qpn)) = false

/-- R339 to R343, R354, R355: a received packet: a foreign P_Key, a bad ICRC and a congestion notification end it, each counted; one for QPN 1
goes to the cores, unless its copy has; a request ahead of the expected PSN is answered by one sequence NAK, a SEND, WRITE or FLUSH behind it by an acknowledgement, and
one at it is executed: a WRITE of one packet that the region table grants and the host port passes is put to the host and acknowledged. -/
def Says.PacketsAreReceived : Prop :=
  ∀ (s : State) (id : Nat) (f : Frame), s.runsBelow 4 → s.oldestRx id f →
    let p := f.rocePkt
    let x := s.qp p.qpn
    let go := fun p : Prog => Host.Outcome.next (φ := Fault) (ρ := Refusal) (p.run s)
    let key := p.pkey = 0xFFFF ∨ p.pkey = 0x7FFF
    (¬ key → exec (.rdmaPacketRx id) s = go (doAll [dropRx id, inc RDMA.BAD_HDR_CNT])) ∧
    (key → p.icrcOk = false → exec (.rdmaPacketRx id) s = go (doAll [dropRx id, inc RDMA.ICRC_ERR_CNT, int Pg.rdma 0 2])) ∧
    (key → p.icrcOk = true → p.op = opCnp → exec (.rdmaPacketRx id) s = go (doAll [dropRx id, inc RDMA.CNP_RX_CNT])) ∧
    (key → p.icrcOk = true → p.op ≠ opCnp → p.qpn = 1 → exec (.rdmaPacketRx id) s = go (doAll [dropRx id,
      Prog.when (!actFlag f.dec.act actCopyCtrl) (limitedToCores f)])) ∧
    (s.rxGood p = true → isRequest p.op = true → p.op < 0x20 → x.flush = none → (x.resp.any fun r => r.err.isSome) = false →
      (0 < psnDiff p.psn x.rpsn → exec (.rdmaPacketRx id) s = go (doAll [acceptRx id p.qpn,
        Prog.when (!x.naked) (doAll [modQp p.qpn fun y => { y with naked := true }, sendSeqNak p.qpn])])) ∧
      (psnDiff p.psn x.rpsn < 0 → isSendOp p.op = true ∨ isWriteOp p.op = true ∨ p.op = opFlush →
        exec (.rdmaPacketRx id) s = go (doAll [inc RDMA.DUP_CNT, acceptRx id p.qpn,
          sendAck p.qpn (psnAdd x.rpsn (2 ^ 24 - 1)) synAck])) ∧
      (psnDiff p.psn x.rpsn = 0 →
        (isSendOp p.op = true → exec (.rdmaPacketRx id) s = go (runSend f p)) ∧
        (isWriteOp p.op = true → exec (.rdmaPacketRx id) s = go (runWrite f p)) ∧
        (x.inb = none → p.op = opReadReq → exec (.rdmaPacketRx id) s = go (runRead f p none)) ∧
        (x.inb = none → p.op = opCas ∨ p.op = opFaa → exec (.rdmaPacketRx id) s = go (runAtomic f p)) ∧
        (x.inb = none → p.op = opFlush → exec (.rdmaPacketRx id) s = go (runFlush f p)) ∧
        ∀ g, p.op = 0x0A → x.inb = none → beAt p.body 12 4 ≤ 2 ^ 31 →
          let va := beAt p.body 0 8
          let rkey := beAt p.body 8 4
          let len := beAt p.body 12 4
          let data := p.body.drop 16
          s.mrBad rkey = false → tget none s.ctl.rdma.uses id = none → s.mrGrant p.qpn rkey va len 2 1 = some g →
          data.length = len → len ≤ s.qpMtu p.qpn → 0 < len →
          s.linkOpen (s.linkOf g.1) = true → s.dmaHeld g.1 = false → s.checkFor g.1 g.2 va len true = .pass → s.waitRes (.frame id) = none →
          exec (.rdmaPacketRx id) s = go (doAll [
            ctl fun c => { c with rdma.uses := nset none c.rdma.uses id (some ⟨rkey, g.1, pasCode g.2, none⟩) },
            endWait (.frame id), putHost g.1 g.2 [(va, data)], modQp p.qpn fun y => { y with inb := none },
            executed id p.qpn 1 true, Prog.when p.ackReq (sendAck p.qpn p.psn synAck)])))

/-- R340, R341, R347, R349, R350, R352, R356 to R358, R360: at the requester an acknowledgement frees packets, a sequence NAK uses a retry and
resends, another NAK is the end for the work request it names, an RNR NAK is waited on while RNR retries are left, and a READ's only response is put to
the host and ends it; a RECV supplies its buffer; a FLUSH is answered as its read ended; the last words of an entry of the region table and of a local
address put the whole entry in place. -/
def Says.RequesterAndTables : Prop :=
  (∀ (s : State) (id : Nat) (f : Frame), s.runsBelow 4 → s.oldestRx id f → s.rxGood f.rocePkt = true → (s.qp f.rocePkt.qpn).st = 3 →
    let p := f.rocePkt
    let q := p.qpn
    let syn := beAt p.body 0 1
    let lim := s.cfd (RDMA.QP_TIMERS.of q) 10 8
    let before := ackPsn q (psnAdd p.psn (2 ^ 24 - 1)) f false
    let go := fun p : Prog => Host.Outcome.next (φ := Fault) (ρ := Refusal) ((doAll [acceptRx id q, p]).run s)
    (p.op = opAck → syn / 32 = 0 → exec (.ackRx id) s = go (ackPsn q p.psn f true)) ∧
    (p.op = opAck → syn = synSeq → exec (.nakRx id) s = go (doAll [before, inc RDMA.SEQ_NAK_RX_CNT,
      get fun t => useRetry q (t.wrAt q p.psn) (resendFrom q p.psn)])) ∧
    (p.op = opAck → syn / 32 = 3 → syn ≠ synSeq → exec (.nakRx id) s = go (doAll [before,
      get fun t => enterError q (if syn = synAccess then ST.REMOTE_ACCESS else ST.REMOTE_OP) (t.wrAt q p.psn)])) ∧
    (p.op = opAck → syn / 32 = 1 → lim = 7 ∨ (s.qp q).rnrs < lim → exec (.rnrNakRx id) s = go (doAll [inc RDMA.RNR_NAK_RX_CNT, before,
      modQp q fun y => { y with
        rnrs := y.rnrs + 1
        next := (y.out.takeWhile fun r => decide (psnDiff p.psn (psnAdd r.psn (r.n - 1)) > 0)).length
        again := y.again.filter fun a => decide (a.1 = 3) },
      cancelFor (fun c => decide (c ∈ [Consumer.retx q, .rnr q])),
      qpEvent q 2 ((s.wt (s.qpDom q) + 5000 * rnrTime syn) % 2 ^ 48)])) ∧
    (p.op = opAck → syn / 32 = 1 → lim ≠ 7 → lim ≤ (s.qp q).rnrs → exec (.rnrNakRx id) s = go (doAll [inc RDMA.RNR_NAK_RX_CNT, before,
      get fun t => enterError q ST.RNR_EXCEEDED (t.wrAt q p.psn)])) ∧
    (∀ r x, p.op = opRespOnly → (s.qp q).out.find? (·.needsResp) = some r → s.work? r.wr = some x → r.sent = true → r.got = 0 → r.n = 1 →
      p.psn = psnAdd r.psn 0 → r.op = opReadReq →
      let data := (p.body.drop 4).take x.length
      let l := piecesFrom x.pieces 0 data.length
      s.linkOpen (s.linkOf x.fn) = true → s.dmaHeld x.fn = false → s.checkAll x.fn none l true = .pass → s.waitRes (.frame f.id) = none →
      exec (.readAtomicResponseRx id) s = .next ((doAll [endWait (.frame f.id), acceptRx id q,
        ackPsn q (psnAdd r.psn (2 ^ 24 - 1)) f true, putHost x.fn none (scatter l data),
        freePackets q 1 true,
        get fun t =>
          let st := ((t.work? r.wr).map (·.status)).getD ST.OK
          wrEnds q r.wr st (if st = ST.OK then x.length else 0) (if st = ST.OK then some f.ts.wt else none),
        pumpAll q]).run s))) ∧
  (∀ (s : State) (w : Nat) (x : Work), s.runsBelow 4 → s.work? w = some x → x.typ = 0x51 → x.stage ∉ [1, 3] →
    exec (.recv w) s = .next ((modWork w fun y => { y with aux := 1 }).run s)) ∧
  (∀ (s : State) (q : Fin 262144) psn id st b, s.runsBelow 4 → (s.qp q.val).flush = some (psn, id) → s.readResult id 4 = some (st, b) →
    exec (.responderFlushAck q) s = .next ((doAll [dropRx id, modQp q.val fun y => { y with flush := none },
      if st = ST.OK then sendAck q.val psn synAck
      else if st = ST.ACCESS_DENIED then sendLastNak q.val psn synAccess ST.REMOTE_ACCESS
      else sendLastNak q.val psn synOp ST.REMOTE_OP]).run s)) ∧
  ∀ (s : State) (a : Accessor) (v : Word), s.serves a Pg.rdma →
    (let i := s.sel a Pg.rdma 0x10C % 2 ^ 20
     i < s.mrCount → ∃ t, exec (.mrW7Write a v) s = .next t ∧ t.rd (RDMA.MR_W 7) = 0 ∧
      t.mrEntry i = ((List.range 7).flatMap fun k => leBytes 4 (s.rd (RDMA.MR_W k))) ++ leBytes 4 0 ∧
      (∀ b r, (b, r) ≠ (.live, RDMA.MR_W 7) → t.copy b r = s.copy b r) ∧
      (s.rdW RDMA.MR_BASE < 2 ^ 47 → ∀ sp j x, x < 2 ^ 48 → j < 64 → ¬ (sp = 2 ∧ j = 0 ∧ s.rdW RDMA.MR_BASE / 4096 * 4096 + 32 * i ≤ x ∧
        x < s.rdW RDMA.MR_BASE / 4096 * 4096 + 32 * i + 32) → t.byte sp j x = s.byte sp j x)) ∧
    ∃ t, exec (.lipCtlWrite a v) s = .next t ∧ t.rd RDMA.LIP_CTL = v.toNat % 4 ∧
      tget none t.ctl.rdma.lips (s.sel a Pg.rdma 0x160 % 16) = (if tbit v.toNat 0 then
        some ⟨tbit v.toNat 1, (List.range (if tbit v.toNat 1 then 4 else 1)).flatMap fun j => beBytes 4 (s.rd (RDMA.LIP_W j))⟩ else none) ∧
      (∀ k, k ≠ s.sel a Pg.rdma 0x160 % 16 → tget none t.ctl.rdma.lips k = tget none s.ctl.rdma.lips k) ∧ t.mem = s.mem

/-- A BLOCK descriptor of a TYPE, new on a ring of the front-end (R371). -/
def State.newCmd (s : State) (id typ : Nat) (w : Work) : Prop :=
  s.work? id = some w ∧ w.typ = typ ∧ s.ringConsumer w.ring = 3 ∧ w.aux = 0 ∧ w.stage ≠ 1

/-- A block command that has passed R373 and R376 waits: for its scatter list, which is read first, or for an earlier command of its
ring; else it starts as `start` says. -/
def blockGoes (s : State) (id : Nat) (w : Work) (start : Prog) : Prog :=
  if w.listed then doAll [modWork id fun x => { x with aux := 7, stage := 1 }, readSgl id w 0]
  else if s.blockHeld id w then doAll [modWork id fun x => { x with aux := 1 }, inc BLKF.HAZARD_WAIT_CNT]
  else start

/-- What a new block command does that starts as `start` says: the first check of R373 that it fails refuses it, a deferred error with
the error's record, the others with their STATUS and count. -/
def blockAnswer (s : State) (id : Nat) (w : Work) (start : Prog) : Prog :=
  let st := s.blockCheck w
  if st = ST.DEFERRED_ERROR then takeDeferred id w.vol
  else if st ≠ ST.OK then doAll [
    Prog.when (decide (st = ST.ATOMIC_BOUNDARY)) (inc BLKF.ATOMIC_REJ_CNT),
    Prog.when (decide (st = ST.MEDIA_ERROR)) (inc BLKF.SPACE_REJ_CNT),
    blockCpl id st 0 [] []]
  else blockGoes s id w start

/-- A WRITE or ZERO starts: it gathers its data into staging, or waits at the dirty limit behind those that wait there (R380). -/
def stagingStarts (s : State) (id : Nat) (w : Work) : Prog :=
  if decide (s.needs w = 0) || (s.dirtyWaiters.isEmpty && s.ctl.pair.held.isEmpty && s.dirtyFits w) then doAll [
    modWork id fun x => { x with aux := 2, stage := 3 },
    Prog.when (decide (w.typ = btWrite)) (gather id w.fn w.pieces 0)]
  else doAll [modWork id fun x => { x with aux := 3, stage := 3 }, inc BLKF.DIRTY_WAIT_CNT, int Pg.blkf 0 1]

/-- A FLUSH starts: it wants placed what was acknowledged before it, and completes when that is (R371). -/
def flushStarts (s : State) (id : Nat) (w : Work) : Prog := doAll [
  modWork id fun x => { x with aux := 5, stage := 3 },
  wantPieces (s.ctl.blk.pieces.filter fun p => decide (p.vol = w.vol) &&
    (s.ctl.blk.recs.any fun r => decide (r.seq = p.seq) && decide (r.ack ≠ 0) && decide (r.ack ≤ w.res))),
  endFlushes]

/-- R371, R373, R376, R377, R380 to R382: a READ, WRITE, FLUSH or ZERO is checked, refused with the STATUS of the first check it fails, has its
scatter list read, is held while an earlier command of its ring conflicts or is ordered, or starts: a READ takes what is staged and asks
the SSDs for the rest, a WRITE and a ZERO go to staging or wait at the dirty limit, a FLUSH wants what was acknowledged before it placed;
a held one starts when nothing holds it. A READ that meets an uncorrectable word completes with UNCORRECTABLE. A write whose data has
all come is recorded, sent to the peer and acknowledged as R382 says, or fails as its reads did. -/
def Says.BlockCommandsStart : Prop :=
  ∀ (s : State) (id : Nat) (w : Work), s.runsBelow 4 →
    let v := w.vol
    (s.newCmd id btRead w → exec (.blockRead id .none) s = .next ((blockAnswer s id w (startReadCmd id w)).run s)) ∧
    (s.newCmd id btWrite w → exec (.blockWrite id) s = .next ((blockAnswer s id w (stagingStarts s id w)).run s)) ∧
    (s.newCmd id btZero w → exec (.zero id) s = .next ((blockAnswer s id w (stagingStarts s id w)).run s)) ∧
    (s.newCmd id btFlush w → exec (.blockFlush id) s = .next ((blockAnswer s id w (flushStarts s id w)).run s)) ∧
    (s.newCmd id btRead w → ∀ m ad, ((ueSeen m.val ad false).run s).blockCheck w = ST.OK →
      exec (.blockRead id (.ue m ad)) s = .next ((doAll [ueSeen m.val ad false,
        Prog.when (decide (4 ≤ m.val)) (doAll [inc MAP.MAP_UE_CNT, int Pg.map 0 1]),
        inc BLKF.READ_CNT, blockCpl id ST.UNCORRECTABLE 0 [] []]).run s)) ∧
    (s.work? id = some w → w.aux = 1 → s.ringConsumer w.ring = 3 → s.blockHeld id w = false →
      (w.typ = btRead → exec (.blockCommandStart id) s = .next ((startReadCmd id w).run s)) ∧
      (w.typ = btFlush → exec (.blockCommandStart id) s = .next ((flushStarts s id w).run s)) ∧
      (w.typ = btTask → exec (.blockCommandStart id) s = .next ((startTask id w).run s)) ∧
      (w.typ ∈ [btWrite, btZero] → exec (.blockCommandStart id) s = .next ((stagingStarts s id w).run s))) ∧
    (s.work? id = some w → w.typ ∈ [btWrite, btZero] → s.ringConsumer w.ring = 3 → w.aux = 2 → w.reads = 0 →
      (w.status ≠ ST.OK → exec (.stagingRecord id) s = .next ((blockCpl id w.status 0 [] []).run s)) ∧
      (w.status = ST.OK → exec (.stagingRecord id) s = .next ((doAll [
        modWork id fun x => { x with aux := 4 },
        record v w.tag (some id) w.lba (s.blockLen w) (decide (w.typ = btZero)) w.placed (s.volPair v && decide (s.pairState = prPaired))
          none w.buf fun q => doAll [
            mirrorRec q w (s.blockLen w),
            if w.placed then get fun t => wantPieces (t.ctl.blk.pieces.filter fun p => decide (p.seq = q))
            else Prog.when (!(s.volPair v && decide (s.pairState = prPaired))) (ackRec q (s.volPair v))],
        placeHigh]).run s)))

/-- What a new TASK does that runs as `runs` says: refused by a check of R373 or with TASK_BUSY, or it takes its function's window, and
runs when its scatter list has come and nothing of its ring holds it (R373, R376, R390). -/
def taskAnswer (s : State) (id : Nat) (w : Work) (runs : Prog) : Prog :=
  if s.blockCheck w ≠ ST.OK then blockCpl id (s.blockCheck w) 0 [] []
  else if (s.window? w.fn).isSome then doAll [inc BLKF.TASK_BUSY_CNT, blockCpl id ST.TASK_BUSY 0 [] []]
  else doAll [modBlk fun b => { b with tasks := nset 0 b.tasks w.fn (id + 1) },
    blockGoes s id w (doAll [modWork id fun x => { x with aux := 6, stage := 3 }, runs])]

/-- R386, R390 to R392: a TASK takes its function's empty window and runs: information and the error record are answered, VOL_MODE waits for
the volume's boundary, an SSD activity for the arbiter if the SSD's state suits it. A TASK for a window that is taken is answered with
TASK_BUSY. TASK_ABORT completes the window's command with ABORTED, having taken back what it waits for. -/
def Says.TasksUseTheirWindow : Prop :=
  (∀ (s : State) (id : Nat) (w : Work), s.runsBelow 4 → s.newCmd id btTask w →
    let v := w.vol
    let d := s.vol v
    (w.taskOp = 1 → exec (.volInfo id) s = .next ((taskAnswer s id w (taskDone id ST.OK (scatter w.pieces (slice (Config.layout 2
      [s.volBs v, s.volExts v, s.volMode v, b2n (s.volPair v), b2n d.solo, s.setState (s.volSet v)]) 0 64)))).run s)) ∧
    (w.taskOp = 2 → exec (.errRead id) s = .next ((taskAnswer s id w (taskDone id ST.OK (scatter w.pieces (slice (Config.layout 3
      [b2n d.pend, b2n d.multi, d.tag, d.status, d.lba]) 0 32)))).run s)) ∧
    (w.taskOp = 3 → exec (.volMode id) s = .next ((taskAnswer s id w (modVol v fun x => { x with mode := some (w.lba % 4) })).run s)) ∧
    (w.taskOp = 4 → exec (.ssdAct id) s = .next ((taskAnswer s id w (
      if !s.suits (w.lba % 16) (field w.lba 5 4) then taskDone id ST.BAD_FIELD []
      else mstart (ssdActivity (field w.lba 5 4)) (w.lba % 16) .ring (actRef (field w.lba 10 8) (id + 1)))).run s))) ∧
  ∀ (s : State) (a : Accessor) (v : Word) (id : Nat), s.serves a Pg.blkf → tbit v.toNat 0 = true →
    s.window? (s.sel a 29 0x140 % 2048) = some id → exec (.taskAbort a v) s = .next ((doAll [
      withWork id fun w => Prog.when (decide (w.taskOp = 3)) (modVol w.vol fun x => { x with mode := none }),
      ctl fun c => { c with maint.waiting := c.maint.waiting.filter fun m =>
        !(decide (m.act ∈ [MA.SSD_SCRUB, MA.SANITISE, MA.FORMAT]) && decide (m.ref / 8 = id + 1)) },
      dropReads fun p => (sglPlace id p).isSome,
      taskDone id ST.ABORTED []]).run s)

/-- R369, R377, R383, R384, R396, R399, R473: a durable journal record changes the map, lets the old physical extents go, deallocated where
DSM_EN asks for it, writes its checkpoint pages and goes to the peer while this unit mirrors; the placement's end frees its staging space and
acknowledges PLACED writes; a deadline wants everything of its volume placed. -/
def Says.PlacementEnds : Prop :=
  ∀ s : State, s.powered →
    let go := fun p : Prog => Host.Outcome.next (φ := Fault) (ρ := Refusal) (p.run s)
    (∀ r, s.settles = true → s.jrnlReady = some r →
      let olds := r.changes.filterMap fun c => match s.volOfExt c.1 with
        | some v => if eMapped (s.entry c.1) && !decide (ePext (s.entry c.1) = ePext c.2 ∧ eMapped c.2 = true)
            then some (s.volSet v, ePext (s.entry c.1)) else none
        | none => none
      exec .journalDurable s = go (doAll [
        Prog.each r.changes (fun c => setEntry c.1 c.2),
        wrW MAP.JRNL_SEQ r.seq, inc MAP.JRNL_REC_CNT,
        modBlk fun b => { b with jrecs := b.jrecs.map fun x => if x.seq = r.seq then { x with durable := true } else x },
        Prog.when (s.bit BLKB.BE_CFG 0) (doAll [modBlk fun b => { b with deallocs := b.deallocs ++ olds }, deallocNext]),
        writeCkpt r,
        match r.pl with
        | some id => doAll [modPl id fun p => { p with stage := 4 },
            match s.placing? id with
            | some p => Prog.when (s.volPair p.vol && s.mirrors && !(s.placedSeqs id).isEmpty)
                (sendMsg clsJournal (.journal (s.placedSeqs id)))
            | none => .skip]
        | none => .skip,
        freeRecords r.seq])) ∧
    (∀ id p, s.settles = true → s.placing? id = some p → p.stage = 4 →
      let gone := (s.ctl.blk.pieces.filter fun x => decide (x.taken = some id)).map (·.seq)
      let left := (s.ctl.blk.pieces.filter fun x => !decide (x.taken = some id)).map (·.seq)
      exec (.placementDone id) s = go (doAll [
        Prog.each ((gone.dedup).filter fun q => !decide (q ∈ left)) (fun q => get fun t =>
          match t.rec? q with
          | some r => Prog.when r.placed (ackRec q false)
          | none => .skip),
        modBlk fun b => { b with
          placings := b.placings.filter fun x => !decide (x.id = id)
          pieces := b.pieces.filter fun x => !decide (x.taken = some id)
          restored := b.restored.filter fun q => !(decide (q ∈ gone) && !decide (q ∈ left)) },
        freeKey p, peep 6 2 p.vol, afterRelease])) ∧
    ∀ e v b, s.nextEvent = some (e, b) → e.consumer = .flushDeadline v → (b = false → e.due = some s.dispatchSlot.1) →
      exec .flushDeadline s = go (doAll [leaves e b,
        get fun t => wantPieces (t.ctl.blk.pieces.filter fun p => decide (p.vol = v))])

/-- R361 to R363, R387 to R389: the SSDs: a completion serves what waited for it, and each address outside staging is counted and refused; a timeout
sends the Abort and is counted; a reset of the controller sends each command once more, or the SSD is FAILED where it fails or is the third in 60 s;
an SSD that is lost is FAILED; an enabled one whose link comes up is identified, takes the state of its ROLE where its namespace suits and is
FAILED with BAD_FIELD where it does not. -/
def Says.DrivesAnswerAndFail : Prop :=
  ∀ s : State, s.powered →
    let go := fun p : Prog => Host.Outcome.next (φ := Fault) (ρ := Refusal) (p.run s)
    (∀ id c st data dma, s.ctl.blk.cmds.find? (fun c => decide (c.id = id)) = some c →
      exec (.nvmeCompletion id st data dma) s = go (doAll [
        incBy BLKB.INBOUND_DENY_CNT (dma.filter fun a => !s.inStaging a).length,
        Prog.each (dma.filter fun a => !s.inStaging a) (fun a => emit (.ssdRefused c.ssd a)),
        dropCmd id, peep 7 1 c.ssd, if st = .ok then goodCmd c data else badCmd c, deallocNext, scrubAll, kickPlace])) ∧
    (∀ id c, s.ctl.blk.cmds.find? (fun c => decide (c.id = id)) = some c → c.aborting = false →
      exec (.nvmeTimeout id) s = go (doAll [
        modBlk fun b => { b with cmds := b.cmds.map fun x => if x.id = id then { x with aborting := true } else x },
        sendNvme c.ssd 7 id 0 [], inc (BLKB.SSD_TIMEOUT_CNT c.ssd), int Pg.blkb 0 3, peep 7 2 c.ssd])) ∧
    (∀ i : Fin 16, (s.ctl.blk.cmds.any fun c => decide (c.ssd = i.val) && c.aborting) = true →
      let now := s.ctl.health.sysSec
      let times := ((tget [] s.ctl.blk.resets i.val).filter fun t => decide (now ≤ t + 60)) ++ [now]
      let mine := s.ctl.blk.cmds.filter fun c => decide (c.ssd = i.val)
      let head := doAll [sendNvme i.val 8 0 0 [], modBlk fun b => { b with resets := nset [] b.resets i.val times }]
      exec (.controllerReset i false) s = go (doAll [head, failSsd i.val]) ∧
      (3 ≤ times.length → exec (.controllerReset i true) s = go (doAll [head, failSsd i.val])) ∧
      (times.length < 3 → exec (.controllerReset i true) s = go (doAll [head,
        modBlk fun b => { b with cmds := (b.cmds.filter fun c => !(decide (c.ssd = i.val) && c.again)).map fun c =>
          if c.ssd = i.val then { c with aborting := false, again := true } else c },
        Prog.each (mine.filter fun c => !c.again) (fun c => sendNvme c.ssd c.op c.lba c.n c.bytes),
        Prog.each (mine.filter fun c => c.again) badCmd]))) ∧
    (∀ i : Fin 16,
      exec (.ssdLinkDown i) s = go (doAll [wrB (BLKB.SSD_STATUS i.val) 3 false, failSsd i.val, actFails i.val]) ∧
      exec (.ssdCriticalWarning i) s = go (failSsd i.val) ∧
      (s.ssdEn i.val = true → s.ssd i.val = ssdAbsent →
        (s.ctl.blk.cmds.any fun c => decide (c.ssd = i.val) && decide (c.job = .identify)) = false →
        exec (.ssdLinkUp i) s = go (doAll [wrB (BLKB.SSD_STATUS i.val) 3 true, nvme i.val 0 0 0 [] .identify])) ∧
      ((s.ctl.blk.cmds.any fun c => decide (c.ssd = i.val) && decide (c.job = .identify)) = true → ∀ lbas,
        let drop := modBlk fun b => { b with cmds := b.cmds.filter fun c => !(decide (c.ssd = i.val) && decide (c.job = .identify)) }
        let role := s.cfd (BLKB.SSD_CFG i.val) 2 1
        exec (.ssdIdentify i true lbas) s = go (doAll [drop, modBlk fun b => { b with caps := nset 0 b.caps i.val lbas },
          sendNvme i.val 9 7 16 [], sendNvme i.val 10 7 0 [],
          Prog.when (s.ssdEn i.val) (setSsd i.val (if role = 1 then ssdMember else if role = 2 then ssdSpare else ssdFree)), kickPlace]) ∧
        exec (.ssdIdentify i false lbas) s = go (doAll [drop, setSsd i.val ssdDead, wrF (BLKB.SSD_STATUS i.val) 31 16 ST.BAD_FIELD,
          int Pg.blkb 0 0, lifeAdd 21 1, actFails i.val])))

/-- R392 to R395, R397, R415, R440: SANITISE, FORMAT and SCRUB ask the arbiter with their ARG where the SSD's state suits, and are refused with
BAD_FIELD where it does not; the log of a sanitise is read at each poll, makes a progress record each 10 % and at its end starts the verify of 256 LBAs of the
namespace; an activity ends with what its verify found, with MEDIA_ERROR where the SSD reports so and with ENTROPY_FAILED where the entropy source has
FAILED; a REBUILD asks the arbiter with what the SSDs hold, and its end shows the dump restored and brings the volumes online. -/
def Says.DriveActivities : Prop :=
  (∀ (s : State) (a : Accessor) (i : Fin 16) (v : Word), s.serves a Pg.blkb → tbit v.toNat 31 = true →
    let asks := fun op : Nat => doAll [wr (BLKB.SSD_CMD i.val) (v.toNat % 2 ^ 31),
      if s.suits i.val op then mstart (ssdActivity op) i.val .register (actRef (field v.toNat 10 8) 0)
      else wrF (BLKB.SSD_STATUS i.val) 31 16 ST.BAD_FIELD]
    (field v.toNat 1 0 = 1 → exec (.sanitise a i v) s = .next ((asks 1).run s)) ∧
    (field v.toNat 1 0 = 2 → exec (.format a i v) s = .next ((asks 2).run s)) ∧
    (field v.toNat 1 0 = 3 → exec (.ssdScrub a i v) s = .next ((asks 3).run s))) ∧
  (∀ (s : State) (i : Fin 16) (x : SsdAct), s.powered → s.act? i.val = some x →
    let go := fun p : Prog => Host.Outcome.next (φ := Fault) (ρ := Refusal) (p.run s)
    (x.act = 1 → x.stage = 1 →
      (∀ p, exec (.sanitizePoll i (.running p)) s = go (doAll [sendNvme i.val 6 0 0 [],
        setAct i.val (some { x with pct := min 100 p }), wrF (BLKB.SSD_STATUS i.val) 15 8 (min 100 p),
        Prog.when (decide (x.pct / 10 < min 100 p / 10)) (progressRecord i.val 1)])) ∧
      (s.rngState = 1 → 0 < tget 0 s.ctl.blk.caps i.val → exec (.sanitizePoll i .completed) s = go (doAll [sendNvme i.val 6 0 0 [],
        setAct i.val (some { x with stage := 2, pct := 100 }), wrF (BLKB.SSD_STATUS i.val) 15 8 100,
        Prog.each (List.range 256) fun _ => fresh fun n => sendNvme i.val 1 (n % tget 0 s.ctl.blk.caps i.val) 1 []]))) ∧
    (∀ reads, x.stage = 4 → ∀ b, exec (.ssdActivityEnd i b reads) s = go (endAct i.val x ST.MEDIA_ERROR)) ∧
    (∀ reads, x.act = 1 → x.stage = 2 → s.rngState = 2 →
      exec (.ssdActivityEnd i false reads) s = go (endAct i.val x ST.ENTROPY_FAILED)) ∧
    (∀ reads, x.act = 1 → x.stage = 2 → s.rngState ≠ 2 → reads.length = 256 →
      exec (.ssdActivityEnd i false reads) s = go (endAct i.val x (if reads.all (sanitised x.arg) then ST.OK else ST.MEDIA_ERROR))) ∧
    (x.act = 2 → x.stage = 3 → exec (.ssdActivityEnd i false []) s = go (endAct i.val x ST.OK)) ∧
    (x.act = 3 → x.stage ≠ 4 → x.todo = [] → exec (.ssdActivityEnd i false []) s = go (endAct i.val x ST.OK))) ∧
  (∀ (s : State) (a : Accessor) (v : Word) (d : RebuildData), s.serves a Pg.map → tbit v.toNat 0 = true →
    s.bit MAP.REBUILD_STATUS 8 = false → exec (.rebuild a v d) s = .next ((doAll [
      modBlk fun b => { b with rebuild := some d }, mstart MA.MAP_REBUILD 0xFF .register 0]).run s)) ∧
  ∀ (s : State) (d : RebuildData), s.powered → s.bit MAP.REBUILD_STATUS 8 = true → s.ctl.blk.rebuild = some d → s.ctl.blk.restored = [] →
    s.pf = 0 → s.ctl.blk.unrestored = false → exec .rebuildDone s = .next ((doAll [
      Prog.when (decide (d.marker < d.dumpId)) (wr SUPPLY.LAST_DUMP_STATUS ((if d.good.length = d.batches.length then 1 else 2) +
        256 * (d.good.length % 256) + 65536 * (d.dumpId % 65536))),
      modBlk fun b => { b with rebuilt := true, unrestored := false }, endRebuild ST.OK,
      wrF MAP.REBUILD_STATUS 7 0 100, int Pg.map 0 2]).run s)

/-- A message of a reliable class that arrives with this unit's epoch and the sequence expected (R464, R467). -/
def State.expects (s : State) (c : Nat) (seq epoch : Word) : Prop :=
  s.powered ∧ s.pairEn = true ∧ seqDiff seq.toNat (s.stream c).expect = 0 ∧
    (epoch.toNat = s.rd PAIR.EPOCH ∨ (s.pairState = prJoining ∧ s.ctl.pair.admEpoch = some epoch.toNat))

/-- What every message in order does before its own effect (R464, R467). -/
def heard (epoch : Word) (c : Nat) : Prog := doAll [wr PAIR.PEER_EPOCH epoch.toNat, peep 9 1 c,
  modStream c fun x => { x with expect := (x.expect + 1) % 2 ^ 32, naked := none }]

/-- R464, R467, R468, R472, R473, R475, R476: messages in order act and are acknowledged: HELLO, mirrored writes, journal, copies
and notifications; a newer epoch fences, and what acknowledges frees its stream. -/
def Says.PairMessagesAct : Prop :=
  ∀ (s : State) (seq epoch : Word),
    let go := fun p : Prog => Host.Outcome.next (φ := Fault) (ρ := Refusal) (p.run s)
    ((s.expects clsMgmt seq epoch ∨ s.powered ∧ s.admits epoch.toNat = true ∧ seqDiff seq.toNat (s.stream clsMgmt).expect = 0) →
      ∀ unit st surv adm,
      (unit.val = s.cfd PAIR.CFG 1 1 → s.ctl.pair.asked = 0 → adm = none → exec (.helloRx seq epoch unit st surv adm) s = go (doAll [
        heard epoch clsMgmt, wrB PAIR.STATUS 6 surv, modPair fun p => { p with clash := true }, sendPairAck clsMgmt seq.toNat])) ∧
      (unit.val = s.cfd PAIR.CFG 1 1 → s.ctl.pair.asked ≠ 0 → adm = none → exec (.helloRx seq epoch unit st surv adm) s = go (doAll [
        heard epoch clsMgmt, wrB PAIR.STATUS 6 surv, modPair fun p => { p with clash := true },
        int Pg.pair 0 2, wrF PAIR.RESYNC_STATUS 31 16 ST.BAD_FIELD, sendPairAck clsMgmt seq.toNat])) ∧
      (unit.val ≠ s.cfd PAIR.CFG 1 1 →
        let split := surv && s.bit PAIR.STATUS 5 && decide (epoch.toNat = s.rd PAIR.EPOCH) && decide (s.cfd PAIR.CFG 1 1 = 1)
        exec (.helloRx seq epoch unit st surv adm) s = go (doAll [heard epoch clsMgmt, wrB PAIR.STATUS 6 surv,
          modPair fun p => { p with clash := false },
          if split then enterFenced 3 else match adm with
            | some true => doAll [modPair fun p => { p with theirs := true },
                Prog.when (s.ctl.pair.mine && decide (s.pairState ≠ prJoining)) enterJoining]
            | some false => Prog.when (decide (s.ctl.pair.asked ≠ 0)) (endAdmission ST.CONFLICT)
            | none => .skip,
          sendPairAck clsMgmt seq.toNat]))) ∧
    (s.powered → s.pairEn = true → s.rd PAIR.EPOCH < epoch.toNat →
      exec (.fenceOrderRx seq epoch) s = go (doAll [wr PAIR.PEER_EPOCH epoch.toNat, enterFenced 1,
        rxReliable clsMgmt seq.toNat (fun _ => false) .skip])) ∧
    (s.powered → s.pairEn = true → epoch.toNat = s.rd PAIR.EPOCH → s.beats = true →
      exec (.heartbeatRx epoch) s = go (doAll [wr PAIR.PEER_EPOCH epoch.toNat, inc PAIR.HB_RX_CNT, restartDead])) ∧
    (s.expects clsStage seq epoch → s.runsBelow 4 → ∀ m,
      (s.mirrorGoes m = true → exec (.stageMessageRx seq epoch m) s = go (doAll [
        heard epoch clsStage, recordMirror m, sendPairAck clsStage seq.toNat])) ∧
      (s.mirrorGoes m = false → exec (.stageMessageRx seq epoch m) s = go (doAll [
        heard epoch clsStage, modPair fun p => { p with held := p.held ++ [(seq.toNat, s.ctl.rings.nextWork, m)] },
        Prog.when (decide (s.mirrorNeeds m ≠ 0)) (doAll [inc BLKF.DIRTY_WAIT_CNT, int Pg.blkf 0 1])]))) ∧
    (s.runsBelow 4 → ∀ q n m l, s.ctl.pair.held = (q, n, m) :: l → (∀ e, s.dirtyWaiters.head? = some e → n ≤ e.1) →
      s.mirrorFits m = true → exec .dirtyWaitRelease s = go (doAll [
        modPair fun p => { p with held := l }, recordMirror m, sendPairAck clsStage q])) ∧
    (s.runsBelow 4 → ∀ id w l, s.dirtyWaiters = (id, w) :: l → (∀ e, s.ctl.pair.held.head? = some e → id < e.2.1) →
      s.dirtyFits w = true → exec .dirtyWaitRelease s = go (doAll [modWork id fun x => { x with aux := 2, stage := 3 },
        Prog.when (decide (w.typ = btWrite)) (gather id w.fn w.pieces 0)])) ∧
    (s.expects clsJournal seq epoch → ∀ l, exec (.journalMessageRx seq epoch l) s = go (doAll [heard epoch clsJournal,
      modPair fun p => { p with orders := p.orders ++ [l] }, nextOrder,
      sendPairAck clsJournal seq.toNat])) ∧
    (s.expects clsResync seq epoch → ∀ g d, exec (.resyncMessageRx seq epoch g d) s = go (doAll [heard epoch clsResync,
      match s.volOfExt g, d with
      | some v, some d =>
        let off := (g - s.volFirst v) * 65536
        let q := s.ctl.blk.seq + 1
        Prog.when (decide (s.pf = 0)) (stageData off (some (slice d 0 65536)) fun room => doAll [
          modBlk fun b => { b with
            seq := q
            recs := ⟨q, v, 0, none, off / s.volBs v, 65536, false, 0, false, false, some 0⟩ :: b.recs
            pieces := ⟨q, v, off / 262144, off, 65536, some (slice d 0 65536), none, room, true⟩ :: b.pieces },
          stageRecord q v 0 (off / s.volBs v) 65536 false, showStage,
          get fun t => wantPieces (t.ctl.blk.pieces.filter fun p => decide (p.seq = q))])
      | _, _ => .skip,
      sendPairAck clsResync seq.toNat])) ∧
    (s.expects clsMgmt seq epoch → ∀ pipe b, s.bit (FWD.NOTIFY_CTL.of pipe.val) 0 = true →
      exec (.notificationMirrorRx seq epoch pipe b) s = go (doAll [heard epoch clsMgmt,
        putNotify pipe.val (slice (splice b 18 (leBytes 2 (leAt b 18 2 % 32768 + 32768))) 0 32),
        sendPairAck clsMgmt seq.toNat])) ∧
    (s.powered → s.pairEn = true → epoch.toNat = s.rd PAIR.EPOCH → ∀ upto : Word,
      exec (.stageAckRx epoch upto) s = go (doAll [wr PAIR.PEER_EPOCH epoch.toNat, get fun s => doAll [
        Prog.each ((s.stream clsStage).kept.filter fun e => decide (seqDiff e.1 upto.toNat ≤ 0)) (fun e =>
          match e.2 with
          | .stage m => get fun t => match t.rec? m.seq with
            | some r => doAll [modRec m.seq fun x => { x with waitPeer := false },
                Prog.when (r.waitPeer && !r.placed) (ackRec m.seq false)]
            | none => .skip
          | _ => .skip),
        ackStream clsStage upto.toNat]]) ∧
      (∀ c : Fin 6, c.val ∈ [clsMgmt, clsJournal, clsResync] →
        exec (.pairAckRx c epoch upto) s = go (doAll [wr PAIR.PEER_EPOCH epoch.toNat, ackStream c.val upto.toNat])) ∧
      ∀ c : Fin 6, c.val ∈ [clsMgmt, clsStage, clsJournal, clsResync] →
        exec (.pairNakRx c epoch upto) s = go (doAll [wr PAIR.PEER_EPOCH epoch.toNat, inc PAIR.RETX_CNT, resendStream c.val upto.toNat]))

/-- R462, R464, R469, R470, R474, R476: the link goes down and comes up by its groups of lanes, HELLO, heartbeats and time go out,
silence is answered by resending, and a peer that is silent too long is declared dead or the pair suspends. -/
def Says.PairLinkAndBeats : Prop :=
  ∀ s : State, s.powered →
    let go := fun p : Prog => Host.Outcome.next (φ := Fault) (ρ := Refusal) (p.run s)
    (s.pairUp = true → exec .xindaordLinkDown s = go pairDown ∧
      ∃ t, exec .xindaordLinkDown s = .next t ∧ (s.pairState ∉ [prPaired, prJoining] → t.pairUp = false)) ∧
    (s.pairUp = false → s.clockRuns 3 = true → ∀ bad : Fin 256,
      (bad.val % 16 = 0 ∨ bad.val / 16 = 0 → exec (.xindaordLinkUp bad) s = go (doAll [
        wrB PAIR.STATUS 3 true, wrB PAIR.STATUS 4 (decide (bad.val ≠ 0)), pumpStreams])) ∧
      (bad.val % 16 ≠ 0 → bad.val / 16 ≠ 0 → exec (.xindaordLinkUp bad) s = .next s)) ∧
    (s.pairUp = true → s.pairEn = true →
      exec .helloSend s = go (sendMsg clsMgmt (.hello (s.cfd PAIR.CFG 1 1) s.pairState (s.bit PAIR.STATUS 5)))) ∧
    (s.beats = true → ∀ e, s.fires e .hbSend → exec .heartbeatSend s = go (doAll [leaves e false,
      pairOut clsHb 0 .heartbeat, inc PAIR.HB_TX_CNT, nextPeriod e false])) ∧
    (∀ e, (s.steps e .deadPeer → exec .deadPeerTimeout s = go (doAll [leaves e true, restartAtStep e])) ∧
      (s.fires e .deadPeer → s.beats = true → (s.cbit PAIR.CFG 3 = true → exec .deadPeerTimeout s = go (doAll [leaves e false, declareDead])) ∧
        (s.cbit PAIR.CFG 3 = false → s.pairState ≠ prJoining → exec .deadPeerTimeout s = go (doAll [leaves e false,
          leavePaired prSuspended, int Pg.pair 0 4])))) ∧
    (∀ (n : Fin 8) (m : TimeMsg), s.pairUp = true → s.pairState ≠ prOff → s.pairState ≠ prFenced → s.cbit PAIR.MIRROR_CFG n.val = true →
      (s.pairEn = true → m.epoch.toNat = s.rd PAIR.EPOCH → exec (.timeExchange n m) s = go (doAll [
        pairOut clsTime 0 (.stamp n.val), wr PAIR.PEER_EPOCH m.epoch.toNat, wrW (PAIR.TOFF n.val) m.off.toNat,
        Prog.when (decide (s.fd PAIR.TIME_ALARM_NS 19 0 * 256 < (toSigned 64 m.off.toNat).natAbs)) (int Pg.pair 0 5)])) ∧
      (s.pairEn = true → s.rd PAIR.EPOCH < m.epoch.toNat → s.pairState ≠ prJoining → exec (.timeExchange n m) s = go (doAll [
        pairOut clsTime 0 (.stamp n.val), wr PAIR.PEER_EPOCH m.epoch.toNat, enterFenced 2]))) ∧
    ∀ (c : Fin 6) e l, (s.stream c.val).kept = e :: l → s.mayTalk c.val = true → exec (.pairRto c) s = go (doAll [
      modStream c.val fun x => { x with tries := x.tries + 1 }, inc PAIR.RETX_CNT, resendStream c.val e.1,
      Prog.when (decide (max 1 (s.cfd PAIR.LINK_CFG 15 8) ≤ (s.stream c.val).tries + 1)) (doAll [
        modStream c.val fun x => { x with tries := 0 }, pairDown])])

/-- R465, R466, R469, R476, R477: FORM, JOIN, ADMIT and DECLARE in the states that allow them, and the admission's end: both
PAIRED, the joiner at the leader's epoch. -/
def Says.PairsFormAndJoin : Prop :=
  (∀ (s : State) (a : Accessor), s.serves a Pg.pair →
    let go := fun p : Prog => Host.Outcome.next (φ := Fault) (ρ := Refusal) (p.run s)
    (s.pairState = prAlone → s.rd PAIR.EPOCH = 0 → ∃ t, exec (.form a) s = .next t ∧ t.rd PAIR.EPOCH = 1 ∧ t.ctl.pair.formed = true ∧
      (∀ c, (t.stream c).kept = [] ∧ (t.stream c).queue = []) ∧ t.ctl.pair.held = [] ∧ t.mem = s.mem) ∧
    (s.pairEn = true → s.pairState ∈ [prAlone, prFenced] → s.ctl.pair.asked = 0 → exec (.join a) s = go (askAdmission 2)) ∧
    (s.pairEn = true → s.pairState = prAlone → s.bit PAIR.STATUS 5 = true ∨ s.ctl.pair.formed = true → s.ctl.pair.asked = 0 →
      exec (.admitJoin a) s = go (askAdmission 1)) ∧
    (a.isPort = false → s.pairState = prSuspended → exec (.declare a) s = go declareDead)) ∧
  ∀ (s : State) (epoch : Word), s.powered → s.pairState = prJoining → s.ctl.pair.clash = false →
    (s.ctl.pair.asked = 1 → s.resyncOver = true) → exec (.admissionComplete epoch) s = .next ((doAll [
      Prog.when (decide (s.ctl.pair.asked ≠ 1)) (doAll [wr PAIR.EPOCH epoch.toNat, dropStreams]),
      setPair prPaired, wrB PAIR.STATUS 5 false,
      modBlk fun b => { b with vols := b.vols.map fun e => if s.volPair e.1 then (e.1, { e.2 with solo := false }) else e },
      wr PAIR.RESYNC_STATUS 100, int Pg.pair 0 3, mend MA.PAIR_RESYNC 0xFF, Prog.when s.ctl.pair.wasFenced leaveFenced,
      modPair fun p => { p with
        asked := 0
        mine := false
        theirs := false
        wasFenced := false
        resyncing := false
        admEpoch := none }]).run s)

/-- R18, R401, R402, R404: the guard and the power-fail state: a tripped rail or PFAIL sets the guard, counted once; the rail's
samples above the hysteresis clear its bit, and the last of them lets what waited start; PFAIL abandons what waited and plans the
dump; a glitch is counted. -/
def Says.GuardAndPowerFail : Prop :=
  ∀ s : State, s.powered →
    let go := fun p : Prog => Host.Outcome.next (φ := Fault) (ρ := Refusal) (p.run s)
    (∀ (m : Fin 8) (mv : Fin 4096), mv.val < s.cfd (SUPPLY.MON_CFG m.val) 11 0 → exec (.monitorTrip m mv) s = go (doAll [
      wrB (SUPPLY.MON_STATUS m.val) 17 true,
      wr (SUPPLY.MON_MIN m.val) (min mv.val (s.rd (SUPPLY.MON_MIN m.val))),
      wrB SUPPLY.GUARD_STATUS (8 + m.val) true,
      Prog.when (!s.guarded) (doAll [
        wrB SUPPLY.GUARD_STATUS 0 true, inc SUPPLY.GUARD_TRIP_CNT, lifeAdd 4 1, int Pg.supply 0 0])])) ∧
    (∀ (m : Fin 8) (mv : Fin 4096), tbit s.tripped m.val = true →
      s.cfd (SUPPLY.MON_CFG m.val) 11 0 + s.cfd (SUPPLY.MON_CFG m.val) 23 16 ≤ mv.val → exec (.monitorClear m mv) s = go (doAll [
        wrB (SUPPLY.MON_STATUS m.val) 17 false,
        wr (SUPPLY.MON_MIN m.val) (min mv.val (s.rd (SUPPLY.MON_MIN m.val))), wrB SUPPLY.GUARD_STATUS (8 + m.val) false,
        get fun t => Prog.when (t.guarded && decide (t.tripped = 0) && decide (t.pf = 0)) (doAll [
          wrB SUPPLY.GUARD_STATUS 0 false, int Pg.supply 0 1, takeNv releaseNv])])) ∧
    (s.pf = 0 → exec .pfailNFall s = go (doAll [
      modBoot fun b => { b with pfailLow := true }, wrB SUPPLY.GUARD_STATUS 16 true,
      wrF SUPPLY.PF_STATE 1 0 1, setGuard, int Pg.supply 0 2, lifeAdd 3 1, takeNv abandonNv,
      get fun t => Prog.when (t.bit SUPPLY.DUMP_CTL 0 && t.ctl.blk.rebuilt && !t.ctl.blk.unrestored && !t.bit MAP.REBUILD_STATUS 8)
        (modBlk fun b => { b with dump := some ⟨b.lastDump + 1, [], [], [], [], 0, 0, false⟩ })])) ∧
    (s.pf ≠ 0 → exec .pfailNFall s = go (doAll [modBoot fun b => { b with pfailLow := true }, wrB SUPPLY.GUARD_STATUS 16 true])) ∧
    ∃ t, exec .pfailGlitch s = .next t ∧ t.rd SUPPLY.PFAIL_GLITCH_CNT = min (s.rd SUPPLY.PFAIL_GLITCH_CNT + 1) (2 ^ 32 - 1) ∧
      (∀ b r, (b, r) ≠ (.live, SUPPLY.PFAIL_GLITCH_CNT) → t.copy b r = s.copy b r) ∧ t.mem = s.mem ∧ t.ctl = s.ctl

/-- R406 to R410, R412, R416, R508: the dump: an SSD's writes start, a batch ends, the last one is followed by DUMPED and a
deferred reset; MEASURE, EN and ENFORCE through DUMP_CTL, and the rate that a measurement leaves. -/
def Says.DumpsRunInBatches : Prop :=
  (∀ (s : State) (d : DumpSt), s.powered → s.ctl.blk.dump = some d → s.pf = 1 →
    let go := fun p : Prog => Host.Outcome.next (φ := Fault) (ρ := Refusal) (p.run s)
    (∀ i : Fin 16, s.bit SUPPLY.DUMP_MASK i.val = true → i.val ∉ d.started → exec (.dumpWriteStart i) s = go (doAll [
      planDump d,
      modBlk fun b => { b with
        cmds := b.cmds.filter fun c => !decide (c.ssd = i.val)
        dump := b.dump.map fun x => { x with started := x.started ++ [i.val] } },
      if d.next < (if d.started = [] then s.dumpBatches else d.batches).length then dumpPieces d.next i.val else dumpNext])) ∧
    (d.started.length = s.dumpSsds.length → (s.ctl.blk.cmds.any fun c => decide (c.job = .dump d.next false)) = false →
      1 ≤ d.records → d.next < d.batches.length → exec .dumpBatchDurable s = go (doAll [
        modBlk fun b => { b with dump := some { d with next := d.next + 1, records := 0 } }, dumpNext])) ∧
    (s.dumpSsds = [] ∨ d.closing = true ∧ (s.ctl.blk.cmds.any fun c => decide (c.job = .closing)) = false →
      exec .dumped s = go (doAll [wrF SUPPLY.PF_STATE 1 0 2, deferredReset]))) ∧
  (∀ s : State, s.powered → s.pf = 1 → s.ctl.blk.dump = none → exec .dumped s = .next ((doAll [wrF SUPPLY.PF_STATE 1 0 2,
    deferredReset]).run s)) ∧
  (∀ (s : State) (a : Accessor) (v : Word), s.serves a Pg.supply →
    (tbit v.toNat 0 = false ∨ s.mayDump = true → tbit v.toNat 2 = false →
      exec (.dumpEnWrite a v) s = .next ((doAll [wrF SUPPLY.DUMP_CTL 1 0 (v.toNat % 4), holdupCheck]).run s)) ∧
    (tbit v.toNat 0 = true → s.mayDump = false →
      exec (.dumpEnWrite a v) s = .next ((err Pg.supply 0 EC.CONFIG RS.VALUE_REJ (bar0 Pg.supply 0x4C)).run s)) ∧
    (tbit v.toNat 0 = false ∨ s.mayDump = true → tbit v.toNat 2 = true → s.ctl.blk.unrestored = false →
      s.rd BLKF.STAGE_USED = 0 → s.bit SUPPLY.DUMP_CTL 3 = false → s.dumpSsds ≠ [] → 0 < s.fd SUPPLY.DUMP_AREA_MIB 15 0 →
      exec (.measure a v) s = .next ((doAll [wrF SUPPLY.DUMP_CTL 1 0 (v.toNat % 4), holdupCheck,
        wrB SUPPLY.DUMP_CTL 3 true, modBlk fun b => { b with measuring := 512 },
        Prog.each (List.range 512) fun k => nvme (s.dumpSsds.getD (k % s.dumpSsds.length) 0) 2
          (s.rdW SUPPLY.DUMP_LBA % 2 ^ 48 + k / s.dumpSsds.length % s.fd SUPPLY.DUMP_AREA_MIB 15 0 * 256) 256 [] .measure]).run s))) ∧
  ∀ (s : State) (us : Nat), s.runsBelow 4 → s.bit SUPPLY.DUMP_CTL 3 = true → s.ctl.blk.measuring = 0 →
    exec (.measureDone us) s = .next ((doAll [wrB SUPPLY.DUMP_CTL 3 false,
      wr SUPPLY.DUMP_RATE (2 ^ 31 + min 200000 (536870912 / max 1 us)), int Pg.supply 0 3, holdupCheck]).run s)

/-- R11, R101, R129, R143, R491, R502, R505, R507, R508: the reset pins: power-on, the fall of PWROK and of SYS_RST_N (which a dump
defers), the rise of SYS_RST_N that boots, and PERST_N of each link. -/
def Says.ResetPins : Prop :=
  ∀ s : State,
    let go := fun p : Prog => Host.Outcome.next (φ := Fault) (ρ := Refusal) (p.run s)
    (s.ctl.boot.pwrok = false → exec .pwrokRise s = go (doAll [
      Prog.when s.ctl.boot.tripped (emit (.pin 1 0 true)),
      modBoot fun b => { b with pwrok := true, tripped := false }, loadLife, lifeAdd 1 1])) ∧
    (s.wf = true → s.ctl.boot.pwrok = true → ∃ t, exec .pwrokFall s = .next t ∧ t.ctl.boot.pwrok = false ∧ t.ctl.boot.sysRst = false ∧
      (∀ r : Reg, r.page ∉ [6, 40] → t.rd r = resetAt r.page r.off % 2 ^ 32)) ∧
    (s.powered → s.pf ≠ 1 → exec .sysRstNFall s = go (doAll [deviceReset, loadLife, lifeAdd 2 1])) ∧
    (s.powered → s.pf = 1 → exec .sysRstNFall s = go (modBoot fun b => { b with rstWaits := true, rose := none })) ∧
    (∀ p, s.ctl.boot.rstWaits = true → exec (.sysRstNRise p) s = go (modBoot fun b => { b with rose := some p })) ∧
    (∀ p, s.ctl.boot.rstWaits = false → s.ctl.boot.pwrok = true → s.ctl.boot.sysRst = false →
      exec (.sysRstNRise p) s = go (startBoot p)) ∧
    (∀ l : Fin 4, ∃ t, exec (.perstNRise l) s = .next t ∧ tget false t.ctl.host.perst l.val = true ∧
      (s.powered → l.val % 2 = 0 → tget false t.ctl.host.formed2 (l.val / 2) = s.bit (HOST.LINK_CFG (l.val / 2)) 0) ∧
      t.reg = s.reg ∧ t.mem = s.mem) ∧
    ∀ l : Fin 4, s.powered → s.linkFormed l.val = true → exec (.perstNFall l) s = go (doAll [
      ctl fun c => { c with host.perst := fset c.host.perst l.val false },
      if s.linkUp l.val then linkDown l.val true else portReset l.val])

/-- R446, R447, R449, R450, R452, R457 to R459, R463, R521: booting: an attempt ends, the host lets its image be verified, the image
runs, the configuration is ready, the peer is given the image, the flash has answered; a burn is asked for, counted and ended. -/
def Says.BootAndFuses : Prop :=
  (∀ s : State, s.runsBelow 4 →
    let go := fun p : Prog => Host.Outcome.next (φ := Fault) (ρ := Refusal) (p.run s)
    let st := s.fd BOOT.STATE 2 0
    (∀ e src slot l, (s.ctl.lsio.nvWait.any fun x => match x with | .trial _ => true | _ => false) = false →
      s.ctl.boot.order = (src, slot) :: l → s.ctl.boot.image = none → src ≠ 3 → (∀ b, e ≠ .peer b) →
      st = 0 ∧ src ≠ 2 ∨ st = 1 ∧ s.ctl.boot.verifying = true →
      exec (.imageAttemptEnd e) s = go (endAttempt src slot (s.attempt src slot e))) ∧
    (∀ us src slot b, s.ctl.boot.image = some (src, slot, b) → st < 2 → exec (.imageLoadDone us) s = go (doAll [
      Prog.each (imgSections b) (loadSection (imgBody b)),
      wrF BOOT.STATE 9 8 src, wrF BOOT.STATE 10 10 slot, wrF BOOT.STATE 2 0 2,
      wr BOOT.IMG_SECVER (leAt b 8 4), wr BOOT.IMG_BUILD (leAt b 12 4), wr BOOT.IMG_KEY (leAt b 6 2),
      wr BOOT.BOOT_TIME us.toNat, lifeAdd 5 1,
      wrF (CORE.CORE_STATUS.of 0) 1 0 1, emit (.ctrlBus 0 0 (leBytes 8 (leAt b 24 8)))])) ∧
    ∀ src slot b, s.ctl.boot.image = some (src, slot, b) → st = 2 → s.pairUp = true →
      exec .peerImageRequestRx s = go (doAll [Prog.when s.pairEn (wr PAIR.PEER_EPOCH (s.rd PAIR.EPOCH)), peep 9 1 clsMgmt,
        modStream clsMgmt fun x => { x with expect := (x.expect + 1) % 2 ^ 32, naked := none }, sendMsg clsMgmt (.image b),
        sendPairAck clsMgmt (s.stream clsMgmt).expect])) ∧
  (∀ (s : State) (a : Accessor) (v : Word),
    (s.serves a Pg.boot → tbit v.toNat 1 = true → s.fd BOOT.STATE 2 0 = 1 → s.ctl.boot.image = none →
      exec (.hostGo a v) s = .next ((modBoot fun b => { b with verifying := true, hostLen := s.fd BOOT.HOST_LEN 26 0 }).run s)) ∧
    (s.serves a Pg.boot → tbit v.toNat 0 = true → a.isPort = false →
      exec (.cfgReady a v) s = .next ((ctl fun c => { c with host.retryEnded := true }).run s)) ∧
    (s.serves a Pg.fuse → a.isPort = false → tbit v.toNat 31 = true → s.bit FUSE.BURN_STATUS 0 = false →
      let ctlv := wr FUSE.BURN_CTL (v.toNat % 2 ^ 31)
      let asks := fun (op : Nat) (r : Res) => field v.toNat 2 0 = op →
        r = .next ((doAll [ctlv, wr FUSE.BURN_STATUS 1, mstart MA.FUSE_BURN 0xFF .register (burnRef v.toNat)]).run s)
      let minv := s.fd BOOT.MIN_VER 7 0
      let key := field v.toNat 5 4
      (s.fd FUSE.FUSE_VER 7 0 < minv → minv ≤ s.rd BOOT.IMG_SECVER → minv ≤ 128 → asks 1 (exec (.versionCommit a v) s)) ∧
      (minv ≤ s.fd FUSE.FUSE_VER 7 0 → field v.toNat 2 0 = 1 → exec (.versionCommit a v) s = .next ((doAll [ctlv,
        wr FUSE.BURN_STATUS 0, endBurn ST.OK]).run s)) ∧
      (s.bit FUSE.KEY_STATE key = false → asks 2 (exec (.progKey a v) s)) ∧
      ((∃ k < 4, k ≠ key ∧ s.bit FUSE.KEY_STATE k = true ∧ s.bit FUSE.KEY_STATE (4 + k) = false) → asks 3 (exec (.revoke a v) s)) ∧
      asks 4 (exec (.lockOrder a v) s)) ∧
    (s.serves a Pg.fuse → a.isPort = true → tbit v.toNat 31 = true →
      exec (.lockOrder a v) s = .next ((doAll [wrF FUSE.BURN_STATUS 31 16 ST.ACCESS_DENIED, int Pg.fuse 0 0]).run s))) ∧
  ∀ s : State, s.powered →
    (∀ b l, s.ctl.boot.burning = b :: l → NvWrite.fuse ∉ s.ctl.lsio.nvWait → exec .fuseBitBurned s = .next ((doAll [
      burnBit b, modBoot fun x => { x with burning := l },
      wrF FUSE.BURN_STATUS 15 8 (s.fd FUSE.BURN_STATUS 15 8 + 1), nextBit]).run s)) ∧
    ∀ (i : Fin 2) data, s.bit (LSIO.OSPI_STATUS i.val) 0 = true → s.bit (LSIO.OSPI_STATUS i.val) 1 = false →
      let o := s.ospiOp i.val
      (∀ st, tget none s.ctl.lsio.ospiSt i.val = some st → exec (.ospiDone i data) s = .next ((endOspi i.val st).run s)) ∧
      (tget none s.ctl.lsio.ospiSt i.val = none → field o.cmd 23 22 = 1 ∨ field o.cmd 23 22 = 2 ∧ i.val = 1 →
        exec (.ospiDone i data) s = .next ((endOspi i.val ST.OK).run s)) ∧
      (tget none s.ctl.lsio.ospiSt i.val = none → field o.cmd 23 22 = 2 → i.val = 0 →
        exec (.ospiDone i data) s = .next ((doAll [poke 14 (b2n (tbit o.cmd 20)) o.addr data,
          get fun t => wr BOOT.MIN_VER (t.minVer % 256), showLife, endOspi i.val ST.OK]).run s)) ∧
      (tget none s.ctl.lsio.ospiSt i.val = none → field o.cmd 23 22 = 0 →
        exec (.ospiDone i data) s = .next ((doAll [
          Prog.each (List.range (((slice data 0 o.len).length + 3) / 4)) fun k => wr (ospiBuf i.val k)
            (leVal (splice (leBytes 4 (s.rd (ospiBuf i.val k))) 0 (((slice data 0 o.len).drop (4 * k)).take 4))),
          endOspi i.val ST.OK]).run s))

/-- A cipher job of a TYPE whose reads have come, on a cipher whose masks are fresh (R426, R442). -/
def State.jobReady (s : State) (id typ : Nat) (w : Work) : Prop :=
  s.work? id = some w ∧ w.typ = typ ∧ w.stage = 3 ∧ w.reads = 0 ∧ w.status = ST.OK ∧ s.maskStopped = false

/-- R432, R433: a use of a key slot is counted before the key is used, up to its limit. -/
def keyed (s : State) (slot n : Nat) (run : Nat → Prog) : Prog := doAll [
  setSlot slot { s.slot slot with use := (s.slot slot).use + n }, markSlot slot, peep 10 0 slot, run (s.slot slot).material]

/-- R426, R427, R432, R433, R440, R441: cipher jobs: with a key of the kind, permitted to jobs and within its limit, the use is
counted and the output is the algorithm's; without, the job is refused and nothing is counted; RANDOM is served, held or failed by
the source's state. -/
def Says.CipherJobs : Prop :=
  ∀ (s : State) (id : Nat) (w : Work), s.runsBelow 2 →
    let go := fun p : Prog => Host.Outcome.next (φ := Fault) (ρ := Refusal) (p.run s)
    let x := s.slot w.jobKey
    let answers := fun (r : Res) (kinds : List Nat) (n : Nat) (run : Nat → Prog) =>
      (16384 ≤ w.jobKey ∨ x.kind ∉ kinds ∨ tbit x.attr atJob = false → r = go (complete id ST.KEY_INVALID 0)) ∧
      (w.jobKey < 16384 → x.kind ∈ kinds → tbit x.attr atJob = true →
        (x.limit < x.use + n → r = go (complete id ST.KEY_SPENT 0)) ∧ (x.use + n ≤ x.limit → r = go (keyed s w.jobKey n run)))
    let aad := w.buf.take w.aadLen
    let pt := w.buf.drop w.aadLen
    let ct := (w.buf.drop w.aadLen).take (w.length - w.aadLen - 16)
    (s.jobReady id 0x61 w → answers (exec (.gcmEnc id) s) [1, 2] 1 fun key =>
      jobDone id ST.OK w (cipherOut opEnc key w.gcmIV aad pt pt.length ++ tagOut opTag key w.gcmIV aad pt)) ∧
    (s.jobReady id 0x62 w → answers (exec (.gcmDec id) s) [1, 2] 1 fun key =>
      let out := cipherOut opDec key w.gcmIV aad ct ct.length
      jobDone id (if tagOut opTag key w.gcmIV aad out = w.buf.drop (w.length - 16) then ST.OK else ST.AUTH_FAIL) w out) ∧
    (s.jobReady id 0x63 w → answers (exec (.gmacGen id) s) [1, 2] 1 fun key =>
      jobDone id ST.OK w (tagOut opTag key w.gcmIV aad [])) ∧
    (s.jobReady id 0x64 w → answers (exec (.gmacVer id) s) [1, 2] 1 fun key =>
      jobDone id (if tagOut opTag key w.gcmIV aad [] = slice w.buf w.aadLen 16 then ST.OK
        else ST.AUTH_FAIL) w []) ∧
    (s.jobReady id 0x65 w → answers (exec (.xtsEnc id) s) [3] (w.length / max 1 w.duLen) fun key =>
      jobDone id ST.OK w (xtsUnits opEnc key w.duLen (w.at 24 16) w.buf)) ∧
    (s.jobReady id 0x66 w → answers (exec (.xtsDec id) s) [3] (w.length / max 1 w.duLen) fun key =>
      jobDone id ST.OK w (xtsUnits opDec key w.duLen (w.at 24 16) w.buf)) ∧
    (s.jobReady id 0x67 w →
      let head := modWork id fun y => { y with stage := 4 }
      (s.rngState = 1 → exec (.random id) s = go (doAll [head, fresh (serveRandom id)])) ∧
      (s.rngState = 2 → exec (.random id) s = go (doAll [head, inc RNG.HELD_FAIL_CNT, complete id ST.ENTROPY_FAILED 0])) ∧
      (s.rngState ∉ [1, 2] → exec (.random id) s = go (doAll [head,
        ctl fun c => { c with ciph.held := c.ciph.held ++ [.job id] }, showHeld])))

/-- R434 to R438, R444: a GO of the vault: refused while BUSY; otherwise BUSY, OUT cleared, and the operation decided. -/
def Says.VaultCommands : Prop :=
  ∀ (s : State) (a : Accessor) (v : Word), s.serves a Pg.vault →
    let go := fun p : Prog => Host.Outcome.next (φ := Fault) (ρ := Refusal) (p.run s)
    let refused := doAll [wr VAULT.CMD (v.toNat % 256), wrB VAULT.STATUS 1 true]
    let slot := s.fd VAULT.SLOT 13 0
    let arg := s.rd VAULT.ARG
    let c : Nat → VaultCmd := fun op => ⟨op, slot, arg, s.vaultIn, none, []⟩
    let x := s.slot slot
    let starts := fun (op : Nat) (r : Res) (p : Prog) =>
      (s.bit VAULT.STATUS 0 = true → r = go refused) ∧
      (s.bit VAULT.STATUS 0 = false → r = go (doAll [wr VAULT.CMD (v.toNat / 256 % 2 ^ 23 * 256 + op), wrB VAULT.STATUS 0 true,
        writeOut [], setVault (some (c op)), p]))
    let served := fun (serve : Nat → Prog) => if s.rngState = 1 then fresh serve
      else if s.rngState = 2 then doAll [inc RNG.HELD_FAIL_CNT, vaultResult ST.ENTROPY_FAILED []]
      else doAll [ctl fun c => { c with ciph.held := c.ciph.held ++ [.vault] }, showHeld]
    let kek := field arg 13 0
    let withKek := fun (run : Nat → Prog) =>
      if 16384 ≤ kek ∨ (s.slot kek).kind ∉ [4] ∨ tbit (s.slot kek).attr atWrap = false then vaultResult ST.KEY_INVALID []
      else if (s.slot kek).limit < (s.slot kek).use + 1 then vaultResult ST.KEY_SPENT []
      else keyed s kek 1 run
    starts 1 (exec (.generate a v) s) (if x.kind ≠ 0 ∨ argKind arg = 0 ∨ 6 < argKind arg then vaultResult ST.BAD_FIELD []
      else served (serveGenerate (c 1))) ∧
    starts 2 (exec (.unwrap a v) s) (if x.kind ≠ 0 then vaultResult ST.BAD_FIELD [] else withKek fun key =>
      match Config.unwrapBlob key s.vaultIn with
      | none => vaultResult ST.AUTH_FAIL []
      | some m =>
        let hd := leBytes 32 m
        doAll [newSlot slot (leAt hd 0 1) (leAt hd 1 1 % 64) (leAt hd 8 8) (leAt hd 16 8) (leAt hd 24 8) (m / 2 ^ 256),
          vaultResult ST.OK []]) ∧
    starts 3 (exec (.wrap a v) s) (if x.kind = 0 ∨ tbit x.attr atExport = false then vaultResult ST.KEY_INVALID []
      else withKek fun key => get fun t =>
        let y := t.slot slot
        let hd := leBytes 1 y.kind ++ leBytes 1 y.attr ++ leBytes 6 0 ++ leBytes 8 y.use ++ leBytes 8 y.warn ++ leBytes 8 y.limit
        vaultResult ST.OK (slice (Config.wrapBlob key y.material hd) 0 (keyBytes y.kind + 40))) ∧
    starts 4 (exec (.erase a v) s) (if slot = 0 then vaultResult ST.KEY_INVALID []
      else doAll [setSlot slot KeySlot.empty,
        get fun t => wr VAULT.SLOTS_USED (t.ctl.ciph.slots.filter fun e => decide (e.2.kind ≠ 0)).length, vaultResult ST.OK []]) ∧
    starts 5 (exec (.setLimit a v) s) (if x.kind = 0 then vaultResult ST.KEY_INVALID []
      else if x.warn < leAt s.vaultIn 0 8 ∨ x.limit < leAt s.vaultIn 8 8 then vaultResult ST.BAD_FIELD []
      else doAll [setSlot slot { x with warn := leAt s.vaultIn 0 8, limit := leAt s.vaultIn 8 8 }, markSlot slot,
        vaultResult ST.OK []]) ∧
    starts 6 (exec (.pubkey a v) s) (if x.kind ∉ [5, 6] then vaultResult ST.KEY_INVALID []
      else vaultResult ST.OK (slice (Config.publicKey x.kind x.material) 0 (if x.kind = 5 then 97 else 2592))) ∧
    starts 7 (exec (.sign a v) s) (served (serveSign (c 7))) ∧
    starts 8 (exec (.verify a v) s) (if argKind arg ∉ [5, 6] then vaultResult ST.BAD_FIELD [] else
      let pk := if argKind arg = 5 then 97 else 2592
      let sg := if argKind arg = 5 then 96 else 4627
      vaultResult (if Config.verifies (argKind arg) (s.vaultIn.take pk) (slice s.vaultIn pk sg) (s.vaultIn.drop (pk + sg)) then ST.OK
        else ST.AUTH_FAIL) []) ∧
    starts 9 (exec (.vaultHash a v) s) (if argKind arg = 0 ∨ 3 < argKind arg then vaultResult ST.BAD_FIELD []
      else vaultResult ST.OK (slice (Config.digest (argKind arg) s.vaultIn) 0 (if argKind arg = 1 then 48 else 64)))

/-- R434, R436 to R442, R445: the vault's command ends, every slot but slot 0 is zeroised, and the entropy source fails, restarts and
is restarted; the masks are reseeded or stop. -/
def Says.VaultEndsAndEntropy : Prop :=
  ∀ s : State,
    let go := fun p : Prog => Host.Outcome.next (φ := Fault) (ρ := Refusal) (p.run s)
    (s.runsBelow 4 →
      (∀ c st, s.ctl.ciph.vault = some c → c.status = some st → c.op ≠ 4 → c.op ≠ 7 → ∀ b,
        exec (.vaultCommandDone b) s = go (vaultEnd c st)) ∧
      (∀ c st, s.ctl.ciph.vault = some c → c.status = some st → c.op = 7 → (s.slot c.slot).kind = 6 →
        exec (.vaultCommandDone true) s = go (vaultEnd { c with out := [] } ST.ABORTED)) ∧
      (∀ c, s.ctl.ciph.vault = some c → c.op = 4 → c.slot ∉ s.ctl.ciph.keysBusy →
        exec .eraseDone s = go (vaultEnd c (c.status.getD 0))) ∧
      (s.rngState = 1 →
        (∀ h n, (match h with | HealthSeen.rct k => s.rctFails k | HealthSeen.apt k => s.aptFails k) = true →
          exec (.healthTestFail h n) s = go (doAll [
          inc (match h with | .rct _ => RNG.RCT_FAIL_CNT | .apt _ => RNG.APT_FAIL_CNT), incBy RNG.DISCARD_CNT n,
          wrF RNG.STATUS 31 16 (s.fd RNG.STATUS 31 16 + 1), int Pg.rng 0 0,
          if s.consec = 2 then sourceFailed else wrF RNG.STATUS 3 0 (4 * (s.consec + 1))])) ∧
        exec .consecClear s = go (wrF RNG.STATUS 3 2 0) ∧ exec .maskReseed s = go (doAll [
          drbgRequest 32 false, wr CIPH.MASK_STATUS 128, Prog.when s.maskStopped resumeStore])) ∧
      (s.rngState = 0 →
        ∀ t : StartUp,
        (s.rctFails t.run = false → s.aptFails t.count = false →
          exec (.rngRestartDone t) s = go (doAll [seedDrbg, wrF RNG.STATUS 1 0 1, int Pg.rng 0 2,
            ctl fun c => { c with ciph.held := [] }, Prog.each s.ctl.ciph.held serveHeld, showHeld])) ∧
        (s.rctFails t.run = true ∨ s.aptFails t.count = true →
          exec (.rngRestartDone t) s = go (doAll [wrF RNG.STATUS 31 16 (s.fd RNG.STATUS 31 16 + 1),
            Prog.when (s.rctFails t.run) (inc RNG.RCT_FAIL_CNT), Prog.when (s.aptFails t.count) (inc RNG.APT_FAIL_CNT),
            if s.consec < 2 then wrF RNG.STATUS 3 2 (s.consec + 1) else sourceFailed]))) ∧
      (∀ q l, s.ctl.ciph.held = q :: l → exec .entropyHoldTimeout s = go (doAll [ctl fun c => { c with ciph.held := l },
        failHeld q, showHeld])) ∧
      (s.rngState ≠ 1 → s.maskStopped = false → exec .maskReseed s = go (doAll [
        Prog.when (!s.bit CIPH.MASK_STATUS 8) (doAll [wrB CIPH.MASK_STATUS 8 true, int Pg.ciph 0 4]),
        wrF CIPH.MASK_STATUS 7 0 (s.fd CIPH.MASK_STATUS 7 0 - 1),
        Prog.when (decide (s.fd CIPH.MASK_STATUS 7 0 ≤ 1)) maskStop])) ∧
      (s.bit CIPH.MASK_STATUS 8 = true → s.maskStopped = false →
        exec .maskStop s = go (doAll [wrB CIPH.MASK_STATUS 9 true, int Pg.ciph 0 5]))) ∧
    (∃ t, exec .vaultZeroise s = .next t ∧ (∀ k, k ≠ 0 → t.ctl.ciph.slots.find? (fun e => decide (e.1 = k)) = none) ∧
      t.ctl.ciph.slots.find? (fun e => decide (e.1 = 0)) = s.ctl.ciph.slots.find? (fun e => decide (e.1 = 0)) ∧
      t.rd VAULT.SLOTS_USED = 1) ∧
    ∀ a : Accessor, s.serves a Pg.rng →
      (a.isPort = false → s.rngState = 2 → exec (.restart a) s = go (wrF RNG.STATUS 3 0 0)) ∧
      (s.rngState = 1 → exec (.reseed a) s = go seedDrbg) ∧ (s.rngState ≠ 1 → exec (.reseed a) s = .next s)

/-- R425, R430: an SA entry takes its sixteen words and its replay window starts anew; a parity fault of the cipher ends the frame
or the job it met, or counts towards the stop of the storage datapath. -/
def Says.SaEntriesAndCipherFaults : Prop :=
  (∀ (s : State) (a : Accessor) (v : Word), s.serves a Pg.ciph →
    let i := s.sel a 32 0x40 % 32768
    ∃ t, exec (.saW15Write a v) s = .next t ∧
      t.sa i = ((List.range 10).flatMap fun w => leBytes 4 (s.rd (CIPH.SA_W w))) ++ (s.sa i).drop 40 ∧
      (∀ j, j ≠ i → j < 32768 → t.sa j = s.sa j) ∧ tget [] t.ctl.ciph.saSeen i = [] ∧
      (∀ j, j ≠ i → tget [] t.ctl.ciph.saSeen j = tget [] s.ctl.ciph.saSeen j) ∧
      (∀ sp n x, sp ≠ 17 → n < 64 → x < 2 ^ 48 → t.byte sp n x = s.byte sp n x) ∧
      ∀ b r, (b, r) ≠ (.live, CIPH.SA_W 15) → t.copy b r = s.copy b r) ∧
  ∀ s : State, s.runsBelow 2 →
    let seen := doAll [inc CIPH.FAULT_CNT, int Pg.ciph 0 0]
    (∀ id, ((s.ctl.net.frames.any fun f => decide (f.id = id)) || s.copies.any fun k => decide (k.frame = id)) = true →
      exec (.cipherParityFault (.frame id)) s = .next ((doAll [seen, abortFrame id ST.ABORTED]).run s)) ∧
    (∀ w n x, s.work? w = some x → 0x61 ≤ x.typ → x.typ ≤ 0x67 → 3 ≤ x.stage →
      exec (.cipherParityFault (.job w n)) s = .next ((jobStarts w x (
        let n := min n (jobOutput x).2
        doAll [seen, freeBytes n fun b => completeWith w ST.CIPHER_FAULT n (if n = 0 then [] else [((jobOutput x).1, b)]) none []])).run s)) ∧
    exec (.cipherParityFault .store) s = .next ((doAll [seen, storeFault]).run s)

/-- R515 to R517, R523, R525: pads switch in two pad ticks, the second of which is the commit boundary; an edge on a GPIO pad is
seen only where its enable is set; SET and CLR change the bits written 1 of one half. -/
def Says.PadsAndGpio : Prop :=
  ∀ s : State,
    let go := fun p : Prog => Host.Outcome.next (φ := Fault) (ρ := Refusal) (p.run s)
    (s.powered → s.isPending Pg.pad 0 = true → s.ctl.lsio.switching = [] → s.funcChanges .pending ≠ [] →
      exec .padSwitchDisconnect s = go (doAll [modLsio fun x => { x with switching := s.funcChanges .pending },
        wrB PAD.PAD_STATUS 0 true, showPads])) ∧
    (s.powered → s.ctl.lsio.switching ≠ [] → ∀ levels : DWord, exec (.padSwitchConnect levels) s = go (doAll [
      endCommit Pg.pad 0,
      modLsio fun x => { x with
        switching := []
        levels := levels.toNat },
      wrB PAD.PAD_STATUS 0 false, showPads, int Pg.pad 0 0])) ∧
    (s.powered → ∀ p : Fin 64, p.val ∉ s.ctl.lsio.switching →
      let level := !tbit s.ctl.lsio.levels p.val
      let on := decide (s.padFunc p.val = 0) && s.bit ⟨4, (if level then 0x528 else 0x530) + 4 * (p.val / 32), 0⟩ (p.val % 32)
      exec (.gpioEdge p) s = go (doAll [
        modLsio fun x => { x with levels := setField x.levels p.val p.val (b2n level) }, showPads,
        Prog.when on (doAll [wrB ⟨4, 0x538 + 4 * (p.val / 32), 0⟩ (p.val % 32) true, int Pg.lsio 0 14])])) ∧
    ∀ (a : Accessor) (h : Fin 2) (v : Word), s.serves a Pg.lsio →
      let r : Reg := ⟨4, 0x500 + 4 * h.val, 0⟩
      (∃ t, exec (.gpioSet a h v) s = .next t ∧ (∀ i < 32, t.bit r i = (s.bit r i || tbit v.toNat i)) ∧
        (∀ b q, (b, q) ≠ (.live, r) → t.copy b q = s.copy b q) ∧ t.mem = s.mem ∧ t.ctl = s.ctl) ∧
      ∃ t, exec (.gpioClr a h v) s = .next t ∧ (∀ i < 32, t.bit r i = (s.bit r i && !tbit v.toNat i)) ∧
        (∀ b q, (b, q) ≠ (.live, r) → t.copy b q = s.copy b q) ∧ t.mem = s.mem ∧ t.ctl = s.ctl

/-- R518, R519, R525: an I2C controller: GO by its state, recovery first, the transfer's end with its result and bytes, the SMBus
timeout, the recovery that a stuck SDA starts and its end, and the bytes a read takes. -/
def Says.I2cTransfers : Prop :=
  ∀ (s : State) (n : Fin 4),
    let st := s.i2c n.val
    let go := fun p : Prog => Host.Outcome.next (φ := Fault) (ρ := Refusal) (p.run s)
    (∀ (a : Accessor) (v : Word), s.serves a Pg.lsio →
      let cmd := wr (LSIO.I2C_CMD n.val) (v.toNat % 2 ^ 30)
      (tbit v.toNat 31 = true → tbit v.toNat 30 = false →
        (st = 0 → exec (.i2cGo a n v) s = go (doAll [cmd, startI2c n.val])) ∧
        (st = 2 → exec (.i2cGo a n v) s = go (doAll [cmd, modLsio fun x => { x with i2cGo := fset x.i2cGo n.val true }])) ∧
        (st = 3 → exec (.i2cGo a n v) s = go (doAll [cmd, endI2c n.val 3 7]))) ∧
      (tbit v.toNat 30 = true → tbit v.toNat 31 = false → st ≠ 4 →
        exec (.recover a n v) s = go (doAll [cmd, wrF (LSIO.I2C_STATUS n.val) 2 0 2]))) ∧
    (s.powered →
      (∀ r data, st = 1 → exec (.i2cTransferDone n r data) s = go (doAll [
        Prog.when (s.bit (LSIO.I2C_CMD n.val) 7)
          (modLsio fun x => { x with i2cRx := nmod [] x.i2cRx n.val (· ++ data.take (s.fd (LSIO.I2C_CMD n.val) 13 8)) }),
        endI2c n.val 0 r.val])) ∧
      (st = 1 → s.cbit (LSIO.I2C_CTL n.val) 3 = true → exec (.i2cSclTimeout n) s = go (endI2c n.val 0 4)) ∧
      (st = 0 → exec (.sdaStuckLow n) s = go (wrF (LSIO.I2C_STATUS n.val) 2 0 2)) ∧
      (st = 2 → tget false s.ctl.lsio.i2cGo n.val = false → ∀ pulses,
        let clear := modLsio fun x => { x with i2cGo := fset x.i2cGo n.val false }
        exec (.recoveryEnd n pulses true) s = go (doAll [clear, wrF (LSIO.I2C_STATUS n.val) 15 12 pulses.val,
          inc (LSIO.I2C_RECOV_CNT n.val), wrF (LSIO.I2C_STATUS n.val) 2 0 0]) ∧
        exec (.recoveryEnd n pulses false) s = go (doAll [clear, wrF (LSIO.I2C_STATUS n.val) 2 0 3,
          wrF (LSIO.I2C_STATUS n.val) 11 8 7, int Pg.lsio 0 (4 + n.val), err Pg.lsio 0 EC.OTHER (4 + n.val) 0]))) ∧
    ∀ a : Accessor, s.open a Pg.lsio = true → ∀ b l, tget [] s.ctl.lsio.i2cRx n.val = b :: l → ∃ t,
      exec (.i2cDataRead a n) s = .next t ∧ t.ctl.answer = b.toNat ∧ t.reg = s.reg ∧ t.mem = s.mem ∧
      tget [] t.ctl.lsio.i2cRx n.val = if s.owner a then l else b :: l

/-- R74, R520, R525: a UART: a character is received into the FIFO of 64 or counted as lost, a character written waits to be sent,
the oldest is sent, and a read takes the oldest received with VALID. -/
def Says.UartFifos : Prop :=
  ∀ (s : State) (u : Fin 2),
    let rx := tget [] s.ctl.lsio.uartRx u.val
    let tx := tget [] s.ctl.lsio.uartTx u.val
    let go := fun p : Prog => Host.Outcome.next (φ := Fault) (ρ := Refusal) (p.run s)
    (s.powered → s.cbit (LSIO.UART_CTL u.val) 0 = true → ∀ b frame parity brk,
      exec (.uartRxChar u b frame parity brk) s = go (doAll [
        wrB (LSIO.UART_STATUS u.val) 16 brk, Prog.when frame (wrB (LSIO.UART_STATUS u.val) 17 true),
        Prog.when (parity && s.cbit (LSIO.UART_CTL u.val) 1) (wrB (LSIO.UART_STATUS u.val) 18 true),
        if rx.length < 64 then doAll [modLsio fun x => { x with uartRx := nset [] x.uartRx u.val (rx ++ [b]) },
          showUart u.val, int Pg.lsio 0 (8 + u.val)]
        else inc (LSIO.UART_RX_OVR_CNT u.val)])) ∧
    (∀ (a : Accessor) (v : Word), s.serves a Pg.lsio → tx.length < 64 → ∃ t, exec (.uartDataWrite a u v) s = .next t ∧
      tget [] t.ctl.lsio.uartTx u.val = tx ++ [v.setWidth 8] ∧ t.fd (LSIO.UART_STATUS u.val) 14 8 = tx.length + 1 ∧
      (∀ b r, (b, r) ≠ (.live, LSIO.UART_STATUS u.val) → t.copy b r = s.copy b r) ∧ t.mem = s.mem) ∧
    (s.powered → s.cbit (LSIO.UART_CTL u.val) 0 = true → ∀ b l, tx = b :: l → exec (.uartTxChar u) s = go (doAll [
      emit (.ctrlBus 17 u.val [b]), modLsio fun x => { x with uartTx := nset [] x.uartTx u.val l }, showUart u.val])) ∧
    ∀ a : Accessor, s.open a Pg.lsio = true → ∀ b l, rx = b :: l → ∃ t, exec (.uartDataRead a u) s = .next t ∧
      t.ctl.answer = b.toNat + 2 ^ 31 ∧ t.mem = s.mem ∧ tget [] t.ctl.lsio.uartRx u.val = if s.owner a then l else rx

/-- R402, R521, R522: GO of an octal-SPI controller and of an MDIO master, enabled and idle, sets BUSY and sends; a program or erase
of the protected range is refused to a host, waits under the guard, or is ABORTED once power fails; an MDIO frame's end. -/
def Says.FlashAndMdioCommands : Prop :=
  ∀ (s : State) (a : Accessor) (v : Word),
    let go := fun p : Prog => Host.Outcome.next (φ := Fault) (ρ := Refusal) (p.run s)
    (∀ i : Fin 2, s.serves a Pg.lsio → tbit v.toNat 31 = true → s.cbit (LSIO.OSPI_CTL i.val) 0 = true →
      s.bit (LSIO.OSPI_STATUS i.val) 0 = false →
      let head := doAll [wr (LSIO.OSPI_CMD i.val) (v.toNat % 2 ^ 31), wrB (LSIO.OSPI_STATUS i.val) 0 true,
        modLsio fun x => { x with
          ospiHost := fset x.ospiHost i.val a.isPort
          ospiOp := nset OspiOp.none x.ospiOp i.val ⟨v.toNat % 2 ^ 31, s.rd (LSIO.OSPI_ADDR i.val), s.ospiLen i.val,
            if field v.toNat 23 22 = 0 then [] else s.ospiBytes i.val (s.ospiLen i.val)⟩ }]
      (field v.toNat 23 22 = 0 → exec (.ospiRead a i v) s = go (doAll [head, sendOspi i.val])) ∧
      (field v.toNat 23 22 = 1 → exec (.ospiRegisterWrite a i v) s = go (doAll [head, sendOspi i.val])) ∧
      (field v.toNat 23 22 = 2 → exec (.programOrErase a i v) s = go (doAll [head, get fun t =>
        if a.isPort && t.ospiProtected i.val then
          modLsio fun x => { x with ospiSt := nset none x.ospiSt i.val (some ST.ACCESS_DENIED) }
        else if s.pf ≠ 0 then modLsio fun x => { x with ospiSt := nset none x.ospiSt i.val (some ST.ABORTED) }
        else if s.guarded then doAll [wrB (LSIO.OSPI_STATUS i.val) 1 true, inc SUPPLY.NV_BLOCK_CNT,
          modLsio fun x => { x with nvWait := x.nvWait ++ [.ospi i.val] }]
        else sendOspi i.val]))) ∧
    (∀ m : Fin 2, s.serves a Pg.lsio → tbit v.toNat 31 = true → s.cbit (LSIO.MDIO_CTL m.val) 0 = true →
      s.bit (LSIO.MDIO_STATUS m.val) 0 = false →
      let sends := fun (op : Nat) (r : Res) => field v.toNat 12 10 = op → r = go (doAll [
        wr (LSIO.MDIO_CMD m.val) (v.toNat % 2 ^ 31), wrB (LSIO.MDIO_STATUS m.val) 0 true,
        modLsio fun x => { x with mdioOp := nset 0 x.mdioOp m.val op },
        emit (.ctrlBus 19 m.val (leBytes 2 (field v.toNat 12 0) ++ leBytes 2 (s.fd (LSIO.MDIO_DATA m.val) 15 0)))])
      sends 0 (exec (.c22Write a m v) s) ∧ sends 1 (exec (.c22Read a m v) s) ∧ sends 2 (exec (.c45Address a m v) s) ∧
      sends 3 (exec (.c45Write a m v) s) ∧ sends 4 (exec (.c45Read a m v) s) ∧ sends 5 (exec (.c45ReadIncrement a m v) s)) ∧
    ∀ m : Fin 2, s.powered → s.bit (LSIO.MDIO_STATUS m.val) 0 = true → ∀ data driven,
      let op := tget 0 s.ctl.lsio.mdioOp m.val
      exec (.mdioDone m data driven) s = go (doAll [wrB (LSIO.MDIO_STATUS m.val) 0 false,
        Prog.when (decide (op ∈ [1, 4, 5])) (wr (LSIO.MDIO_DATA m.val) data.toNat),
        wrB (LSIO.MDIO_STATUS m.val) 1 (decide (op = 1) && !driven), int Pg.lsio 0 (12 + m.val)])

/-- R483 to R485, R498: the recorder takes the oldest report of the intake into the log while a record is free, and counts it as
lost otherwise; REC_HEAD frees records up to the tail, and any other value is refused. -/
def Says.ErrorLog : Prop :=
  (∀ (s : State) (r : Report) (l : List Report), s.powered → s.ctl.health.intake = r :: l →
    let sev := s.fd (ERR.CLASS_CTL (r.code / 4096)) 2 1
    let i := s.fd ERR.REC_TAIL 7 0
    let take := ctl fun c => { c with health := { c.health with intake := l } }
    (s.unread < 256 → exec .errorRecordWrite s = .next ((doAll [take, putRecord (fun k => ERR.REC (8 * i + k)) (r.bytes sev),
      showTail (i + 1) (s.unread + 1), int Pg.err 0 sev]).run s)) ∧
    (256 ≤ s.unread → exec .errorRecordWrite s = .next ((doAll [take, loseReport r, int Pg.err 0 4]).run s))) ∧
  ∀ (s : State) (a : Accessor) (v : Word), s.serves a Pg.err →
    let d := (v.toNat % 256 + 256 - s.fd ERR.REC_HEAD 7 0) % 256
    (d ≤ s.unread → exec (.recHeadWrite a v) s = .next ((doAll [wr ERR.REC_HEAD (v.toNat % 256),
      showTail (s.fd ERR.REC_TAIL 7 0) (s.unread - d)]).run s)) ∧
    (s.unread < d → exec (.recHeadWrite a v) s = .next ((err Pg.err 0 EC.ACCESS RS.WRONG_STATE (bar0 Pg.err 0x40)).run s))

/-- R3, R487 to R490, R496, R497, R499, R512: the life log's second and its commits, the thermal trip that stays until power-on, the
clearing of the counters, and the TAP's instructions. -/
def Says.LifeLogAndTap : Prop :=
  ∀ s : State,
    let go := fun p : Prog => Host.Outcome.next (φ := Fault) (ρ := Refusal) (p.run s)
    let asks := fun o => doAll [wrB LIFE.STATUS 0 true, mstart MA.LIFE_COMMIT 0xFF o 0]
    (s.runsBelow 4 → s.bit LIFE.STATUS 0 = false →
      (match s.ctl.health.lifeRetry with
        | some t => t + 60 ≤ s.ctl.health.sysSec
        | none => 86400 ≤ s.ctl.health.lifeSince) → exec .lifeCommitPeriod s = go (asks .periodic)) ∧
    (∀ (a : Accessor) (v : Word), s.serves a Pg.life →
      (a.isPort = false → s.bit LIFE.STATUS 0 = false → tbit v.toNat 0 = true → exec (.lifeCommitRequest a v) s = go (asks .register)) ∧
      (a.isPort = true ∨ s.bit LIFE.STATUS 0 = true ∨ tbit v.toNat 0 = false → exec (.lifeCommitRequest a v) s =
        go (err Pg.life 0 EC.ACCESS RS.WRONG_STATE (bar0 Pg.life 0x40)))) ∧
    (s.powered → s.mrunning MA.LIFE_COMMIT 0xFF = true → NvWrite.life ∉ s.ctl.lsio.nvWait →
      let i := match s.lifeNewest with
        | some (i, _) => (i + 1) % 208
        | none => 0
      let q := match s.lifeNewest with
        | some (_, q) => (q + 1) % 2 ^ 32
        | none => 1
      exec .lifeCommitDone s = go (doAll [
        Prog.when (decide (i % 16 = 0)) (doAll [eraseFlash 0 (lifeAt i) 65536, lifeAdd 9 1]),
        poke 14 0 (lifeAt i) (lifeRecord q s.ctl.health.lifeSnap), lifeAdd 8 1,
        ctl fun c => { c with health := { c.health with lifeSince := 0 } },
        wr LIFE.SINCE_S 0, showLife, wr LIFE.STATUS 0, int Pg.life 0 0, mend MA.LIFE_COMMIT 0xFF])) ∧
    (s.powered → ∀ (tj : BitVec 16) watts, ∃ t, exec (.lifeSample tj watts) s = .next t ∧
      t.ctl.health.sysSec = s.ctl.health.sysSec + 1 ∧ t.ctl.health.lifeSince = s.ctl.health.lifeSince + 1 ∧
      t.rd LIFE.SINCE_S = (s.ctl.health.lifeSince + 1) % 2 ^ 32 ∧
      t.rd LIFE.TJ_NOW = tj.toNat ∧ t.life 0 = satAdd 64 (s.life 0) 1 ∧
      t.ctl.boot.warm = (if 1680 ≤ tj.toInt then true else if tj.toInt ≤ 1600 then false else s.ctl.boot.warm)) ∧
    (s.ctl.boot.pwrok = true → s.ctl.boot.tripped = false → ∃ t, exec .thermtrip s = .next t ∧ t.ctl.boot.tripped = true ∧
      t.ctl.out = s.ctl.out ++ [.pin 1 0 false] ∧ t.reg = s.reg ∧ t.mem = s.mem) ∧
    (∀ (a : Accessor) (v : Word), s.wf = true → s.serves a Pg.peep → tbit v.toNat 0 = true → ∃ t, exec (.cntClr a v) s = .next t ∧
      (∀ r : Reg, r.page = Pg.peep → 0x1000 ≤ r.off → r.off < 0x3000 → t.rd r = 0) ∧
      (∀ b r, b ≠ .live ∨ r.page ≠ Pg.peep ∨ r.off < 0x1000 ∨ 0x3000 ≤ r.off → t.copy b r = s.copy b r) ∧ t.mem = s.mem ∧ t.ctl = s.ctl) ∧
    (s.ctl.boot.pwrok = true → ∀ i : Fin 4,
      let free_ := decide (s.fd FUSE.BOOT_CFG 9 8 = 0) && !s.bit FUSE.BOOT_CFG 6
      exec (.jtagInstruction i) s = go (emit (if i.val = 0 then .ctrlBus 20 0 (leBytes 4 s.idcode)
        else if i.val = 2 ∧ free_ = true then .ctrlBus 22 0 [] else .ctrlBus 21 0 [])))

/-- R119, R121, R126, R135, R162, R163: an inbound request: one to no function is counted and answered UR; one that reaches past its
window, or a BAR0 request to another function, is refused whole, and closes the shutter where UR is Fatal; a shut link answers the
doorbell page with UR; a 32-bit write to BAR0 is the register write of the port, a read is answered with what the register answers; a
write to a slot of the doorbell page rings it. That a request of no length is refused too is the model's choice (log entry 125). -/
def Says.InboundRequests : Prop :=
  ∀ (s : State) (f : Fin 2048) (off : Fin 4194304) (len : Fin 4097) (data : Option (List Byte)) (bar2 : Bool),
    let n := match data with | some b => b.length | none => len.val
    let ur := Prog.when data.isNone (emit (.hostReply (f.val / 1024) f.val replyUR []))
    s.powered → s.linkUp (s.linkOf f.val) = true → s.pf ≠ 2 →
    (s.fnExists f.val = false → exec (.inboundMemoryRequest f bar2 off len data) s = .next ((doAll [
      inc (FUNC.EVT_DROP_CNT.of f.val), int Pg.func 0 1, ur]).run s)) ∧
    (s.fnExists f.val = true → (bar2 = false ∧ f.val % 1024 ≠ 0 ∨ n = 0 ∨ (if bar2 then 65536 else 4194304) < off.val + n) →
      exec (.inboundMemoryRequest f bar2 off len data) s = .next ((doAll [
        fresh fun v => aerUnc (s.linkOf f.val) 20 (leBytes 16 v),
        get fun t => Prog.when ((t.link (s.linkOf f.val)).uncSev.getLsbD 20) (shutterClose (s.linkOf f.val) 2),
        inc (HOST.INBOUND_DENY_CNT (f.val / 1024)), ur]).run s)) ∧
    (s.fnExists f.val = true → s.linkOpen (s.linkOf f.val) = false → bar2 = true → 0 < n → off.val + n ≤ 65536 →
      exec (.inboundMemoryRequest f bar2 off len data) s = .next (ur.run s)) ∧
    (s.fnExists f.val = true → s.linkOpen (s.linkOf f.val) = true → off.val + n ≤ (if bar2 then 65536 else 4194304) →
      (bar2 = false → f.val % 1024 = 0 → off.val % 4 = 0 → ∀ page : Fin 41, ∀ o : Fin 65536, off.val = 65536 * page.val + o.val →
        ¬ (page.val = 16 ∧ (0x8000 ≤ o.val ∨ o.val = 0x50)) →
        (∀ v : Word, data = some (leBytes 4 v.toNat) → ∃ t, exec (.registerWrite (.port (idx 1 (f.val / 1024))) page o v) s = .next t ∧
          exec (.inboundMemoryRequest f bar2 off len data) s = .next t) ∧
        (data = none → len.val = 4 → ∃ t, routeRead (.port (idx 1 (f.val / 1024))) page.val o.val s = .next t ∧
          exec (.inboundMemoryRequest f bar2 off len data) s =
            .next ((emit (.hostReply (f.val / 1024) f.val replyOk (leBytes 4 t.ctl.answer))).run t))) ∧
      (bar2 = true → ∀ b, data = some b → b.length = 4 → off.val % 4 = 0 → off.val / 8 < 4096 →
        ∃ t, exec (.doorbell f (idx 4095 (off.val / 8))) s = .next t ∧ exec (.inboundMemoryRequest f bar2 off len data) s = .next t))

end Sys2Proof.Machine

/-- A step takes the command at the front of the queue and answers what `exec` answers with the queue's rest. What a step does with no
command waiting, one REFCLK edge, is the model's choice (log entry 1). -/
def Obligations.StepRunsTheFrontCommand : Prop :=
  Sys2Proof.Machine.Says.StepRunsTheFrontCommand

/-- Every command has an effect: `exec` answers a next state in every state, and leaves the waiting commands as they are. -/
def Obligations.EveryCommandAnswersAndKeepsTheQueue : Prop :=
  Sys2Proof.Machine.Says.EveryCommandAnswersAndKeepsTheQueue

/-- R5: from every state in which memory and registers are in canonical form and no register copy has a bit that its register does
not implement, every step answers a state of which the same holds: a reserved bit never reads 1, whatever is written. That a byte
nobody has written reads 0 is the model's choice (log entry 2). -/
def Obligations.StepsKeepTheCanonicalForm : Prop :=
  Sys2Proof.Machine.Says.StepsKeepTheCanonicalForm

/-- R2, R5, R41, R82, R86: after device reset no command waits, memory lists nothing, every copy of every register holds its reset value, the
three sets among them, and a HI latch 0; every latch is FREE and no one's, every domain FREE at 6.4 ns to an edge; DEVICE_ID reads the part, family,
package and grade; the invariant holds. -/
def Obligations.ResetLeavesItsValues : Prop :=
  Sys2Proof.Machine.Says.ResetLeavesItsValues

/-- `Says.RefusedAccessesAreOnlyRecorded`, `Says.OwnerAndLock`: all of them.
It says, under conditions on the state and the operands alone, that exec answers a next state for misalignedAccess,
unmappedPageAccess, notOwnerWrite, mgmtOwnerWrite, bootLock. -/
def Obligations.AccessesAreRefusedAndOwned : Prop :=
  Sys2Proof.Machine.Says.RefusedAccessesAreOnlyRecorded ∧
  Sys2Proof.Machine.Says.OwnerAndLock

/-- R75: the first error while VALID = 0 is frozen with its class, reason and INFO; every later one sets OVF and changes neither;
ERR_COUNT steps by one and holds at its limit. Said of a misaligned write; the headers of FUNC, ERR and PEEP may meet a second
error that the first one sets off, so they are in `RefusedAccessesAreOnlyRecorded` only.
It says, under conditions on the state and the operands alone, that exec answers a next state for misalignedAccess. -/
def Obligations.FirstErrorIsFrozen : Prop :=
  Sys2Proof.Machine.Says.FirstErrorIsFrozen

/-- R5, R7: a write of a word register takes each bit by its access type: an RW bit takes the value, a W1C bit written 1 clears, a
bit of another type keeps its value, so a reserved bit stays as it is; ST bits go to the staged set; nothing else changes. The
pages are those in which no word register has a command of its own.
It says, under conditions on the state and the operands alone, that exec answers a next state for registerWrite. -/
def Obligations.WritesFollowTheFieldTypes : Prop :=
  Sys2Proof.Machine.Says.WritesFollowTheFieldTypes

/-- `Says.CausesClearWhereOneIsWritten`, `Says.InterruptRegisterWrites`: all of them.
It says, under conditions on the state and the operands alone, that exec answers a next state for registerWrite, intSet,
intMaskWrite, intSevWrite. -/
def Obligations.InterruptCausesAndMasks : Prop :=
  Sys2Proof.Machine.Says.CausesClearWhereOneIsWritten ∧
  Sys2Proof.Machine.Says.InterruptRegisterWrites

/-- R73: an accessor's write of INST_SEL moves its own copy and no other accessor's; a number beyond the page's copies is recorded
and moves nothing.
It says, under conditions on the state and the operands alone, that exec answers a next state for instSelWrite. -/
def Obligations.EachAccessorSelectsForItself : Prop :=
  Sys2Proof.Machine.Says.EachAccessorSelectsForItself

/-- R6: a write of a pair's LO half loads the holding register and nothing else; a write of its HI half gives the pair the holding
register and the value together; a read of the LO half answers it and loads the latch with the HI half of that moment; a read of
the HI half answers the latch and changes nothing.
It says, under conditions on the state and the operands alone, that exec answers a next state for pairLoWrite, pairHiWrite,
pairLoRead, clearOnRead. -/
def Obligations.PairsMoveTogether : Prop :=
  Sys2Proof.Machine.Says.PairsMoveTogether

/-- R7, R74: a read of a word register answers the value it had, and then its RC bits take their reset value, unless the reader is
the port that does not hold management; nothing else of the registers changes.
It says, under conditions on the state and the operands alone, that exec answers a next state for clearOnRead. -/
def Obligations.ReadsClearAfterwards : Prop :=
  Sys2Proof.Machine.Says.ReadsClearAfterwards

/-- `Says.CommitTakesTheStagedSet`, `Says.DiscardRestoresTheCommittedSet`, `Says.CommitAllBeginsEveryCopy`: all of them.
It says, under conditions on the state and the operands alone, that exec answers a next state for commit, discard, commitAll. -/
def Obligations.CommitsTakeAndDiscardsRestore : Prop :=
  Sys2Proof.Machine.Says.CommitTakesTheStagedSet ∧
  Sys2Proof.Machine.Says.DiscardRestoresTheCommittedSet ∧
  Sys2Proof.Machine.Says.CommitAllBeginsEveryCopy

/-- R79: COMMIT while the selected copy is PENDING, COMMIT of ALL while any copy is, and COMMIT together with DISCARD have no effect
but COMMIT_REJ and the report of the refusal. -/
def Obligations.RefusedCommitOnlySetsCommitRej : Prop :=
  Sys2Proof.Machine.Says.RefusedCommitOnlySetsCommitRej

/-- `Says.BoundaryReplacesTheCommittedSet`, `Says.BoundariesOfTheOtherPages`: all of them.
It says, under conditions on the state and the operands alone, that exec answers a next state for commitBoundary. -/
def Obligations.BoundariesReplaceTheCommittedSet : Prop :=
  Sys2Proof.Machine.Says.BoundaryReplacesTheCommittedSet ∧
  Sys2Proof.Machine.Says.BoundariesOfTheOtherPages

/-- `Says.LatchTable`, `Says.AcquireFollowsTheTable`, `Says.OnlyTheOwnerReleases`: all of them.
It says, under conditions on the state and the operands alone, that exec answers a next state for latchAcquire, latchRelease,
clrBroken, clrBrokenAndRelease. -/
def Obligations.LatchesFollowTheirTable : Prop :=
  Sys2Proof.Machine.Says.LatchTable ∧
  Sys2Proof.Machine.Says.AcquireFollowsTheTable ∧
  Sys2Proof.Machine.Says.OnlyTheOwnerReleases

/-- R92 to R94: the start that comes first is decided: with no running activity that conflicts with it on an overlapping scope it
runs and its block goes on; else it is refused, counted and shown with the blocker that comes first. The command is one clock of
the arbiter, the model's choice (log entry 33).
It says, under conditions on the state and the operands alone, that exec answers a next state for maintArbitrate. -/
def Obligations.ArbiterDecidesTheFirstStart : Prop :=
  Sys2Proof.Machine.Says.ArbiterDecidesTheFirstStart

/-- R92: which activities conflict: an activity with itself, and the pairs that the rule names, both ways round; a start is blocked by
the running activities that conflict with it on an equal scope or where either scope is 0xFF; COMPATi shows the matrix.
It says, under conditions on the state and the operands alone, that exec answers a next state for clearOnRead. -/
def Obligations.ConflictsOfActivities : Prop :=
  Sys2Proof.Machine.Says.ConflictsOfActivities

/-- `Says.ClockInputs`, `Says.LowPowerStates`, `Says.PatrolScrub`: all of them.
It says, under conditions on the state and the operands alone, that exec answers a next state for clockLost, clockRestored,
refclkMeasure, pstateSelect, pstateEnter, pstateWake, pstateExitDone, partnerLpiExit, scrubSegmentStart, scrubSegmentEnd. -/
def Obligations.ClocksPowerStatesAndScrub : Prop :=
  Sys2Proof.Machine.Says.ClockInputs ∧
  Sys2Proof.Machine.Says.LowPowerStates ∧
  Sys2Proof.Machine.Says.PatrolScrub

/-- R36, R37: at a REFCLK edge every domain advances by its increment, in units of 2^-40 ns, and carries into the seconds, which wrap
modulo 2^48; then follow the commit boundaries that are due, the writes that a cap lets go, the spares that failed members get, the pair
link's messages, and what the FECs corrected. That an edge is what a step does with no
command waiting is the model's choice (log entry 1). Said of a domain that neither slews nor steps at this edge. -/
def Obligations.EdgeAdvancesEveryDomain : Prop :=
  Sys2Proof.Machine.Says.EdgeAdvancesEveryDomain

/-- `Says.ArmFlushesTheDomain`, `Says.StepOfAnArmedDomain`: all of them.
It says, under conditions on the state and the operands alone, that exec answers a next state for arm, domainFlushDone, step. -/
def Obligations.ArmedDomainsStepOnce : Prop :=
  Sys2Proof.Machine.Says.ArmFlushesTheDomain ∧
  Sys2Proof.Machine.Says.StepOfAnArmedDomain

/-- `Says.IncrementAndSlew`, `Says.HoldoverAndSnapshots`: all of them.
It says, under conditions on the state and the operands alone, that exec answers a next state for domIncrWrite, slew, slewDone,
holdSet, holdClr, keepalive, snap, snapAll, disciplineTimeout. -/
def Obligations.RatesSlewsHoldoverAndSnapshots : Prop :=
  Sys2Proof.Machine.Says.IncrementAndSlew ∧
  Sys2Proof.Machine.Says.HoldoverAndSnapshots

/-- `Says.PulsesAndReference`, `Says.WheelRequests`: all of them.
It says, under conditions on the state and the operands alone, that exec answers a next state for ppsInEdge, ppsCapNsRead,
ppsOutEnable, periodOutputEdge, ppsOutInactiveEdge, ref10mMeasure, ref10mLost, go, cancel, softwareEventFire. -/
def Obligations.PulsesAndWheelRequests : Prop :=
  Sys2Proof.Machine.Says.PulsesAndReference ∧
  Sys2Proof.Machine.Says.WheelRequests

/-- `Says.MeterColours`, `Says.Refills`: all of them.
It says, under conditions on the state and the operands alone, that exec answers a next state for shaperRefill, policerRefill. -/
def Obligations.MetersAndRefills : Prop :=
  Sys2Proof.Machine.Says.MeterColours ∧
  Sys2Proof.Machine.Says.Refills

/-- `Says.TrafficTables`, `Says.LouvreEvents`, `Says.LaunchesAndTelemetry`, `Says.LatencyReports`: all of them.
It says, under conditions on the state and the operands alone, that exec answers a next state for polW4Write, replCtlWrite,
lvW1Write, louvreCycleStart, louvreListChange, launchDue, telemetrySample, portDomWrite, ltrUpdate. -/
def Obligations.TrafficTablesGatesAndReports : Prop :=
  Sys2Proof.Machine.Says.TrafficTables ∧
  Sys2Proof.Machine.Says.LouvreEvents ∧
  Sys2Proof.Machine.Says.LaunchesAndTelemetry ∧
  Sys2Proof.Machine.Says.LatencyReports

/-- `Says.SchedulerTakesItsPick`, `Says.FlowControlOfPorts`: all of them.
It says, under conditions on the state and the operands alone, that exec answers a next state for schedulerSelect,
pauseReceived, pauseExpired, pfcRepeat. -/
def Obligations.PicksAndPauses : Prop :=
  Sys2Proof.Machine.Says.SchedulerTakesItsPick ∧
  Sys2Proof.Machine.Says.FlowControlOfPorts

/-- `Says.FramePreemption`, `Says.EnergyEfficientEthernet`, `Says.LanesAndCalendars`: all of them.
It says, under conditions on the state and the operands alone, that exec answers a next state for preemptVerify, macPreempt,
lpiEnter, lpiWake, partnerLpiEntry, laneReconfigure, laneLinkDown, laneLinkUp, caReceived, caTimeout, crReceived, abandon. -/
def Obligations.PreemptionLpiAndLanes : Prop :=
  Sys2Proof.Machine.Says.FramePreemption ∧
  Sys2Proof.Machine.Says.EnergyEfficientEthernet ∧
  Sys2Proof.Machine.Says.LanesAndCalendars

/-- `Says.FramesReceived`, `Says.CutThroughSendsAndDelivery`: all of them.
It says, under conditions on the state and the operands alone, that exec answers a next state for rxFrame, frameConfirm,
cutThroughStart, frameFetchDone, rxDeliver, hostBoundRelease. -/
def Obligations.FramesInAndOut : Prop :=
  Sys2Proof.Machine.Says.FramesReceived ∧
  Sys2Proof.Machine.Says.CutThroughSendsAndDelivery

/-- `Says.FunctionResets`, `Says.ShuttersFollowTheirStates`: all of them.
It says, under conditions on the state and the operands alone, that exec answers a next state for functionLevelReset, vfDisable,
functionResetDrained, shutterReady, shutterOpen, shutterRelease. -/
def Obligations.FunctionResetsAndShutters : Prop :=
  Sys2Proof.Machine.Says.FunctionResets ∧
  Sys2Proof.Machine.Says.ShuttersFollowTheirStates

/-- `Says.HostLinks`, `Says.LinkPower`, `Says.LinkErrors`: all of them.
It says, under conditions on the state and the operands alone, that exec answers a next state for hostLinkUp, hostLinkDown,
hotReset, linkDisable, linkOff, l0pWidthChange, aspmL1Entry, aspmL1Exit, aerError, completionTimeout. -/
def Obligations.HostLinksTheirPowerAndErrors : Prop :=
  Sys2Proof.Machine.Says.HostLinks ∧
  Sys2Proof.Machine.Says.LinkPower ∧
  Sys2Proof.Machine.Says.LinkErrors

/-- `Says.ConfigurationRequests`, `Says.VectorsAndRouting`, `Says.MsixSends`: all of them.
It says, under conditions on the state and the operands alone, that exec answers a next state for configRequest,
vectorRangeWrite, ertCommit, moderationTimeout, msixSend, intBucketRefill. -/
def Obligations.ConfigurationVectorsAndMessages : Prop :=
  Sys2Proof.Machine.Says.ConfigurationRequests ∧
  Sys2Proof.Machine.Says.VectorsAndRouting ∧
  Sys2Proof.Machine.Says.MsixSends

/-- R119, R121, R126, R135, R162, R163: an inbound request: one to no function is counted and answered UR; one that reaches past its
window, or a BAR0 request to another function, is refused whole, and closes the shutter where UR is Fatal; a shut link answers the
doorbell page with UR; a 32-bit write to BAR0 is the register write of the port, a read is answered with what the register answers; a
write to a slot of the doorbell page rings it. That a request of no length is refused too is the model's choice (log entry 125).
It says, under conditions on the state and the operands alone, that exec answers a next state for inboundMemoryRequest. -/
def Obligations.InboundRequestsReachRegisters : Prop :=
  Sys2Proof.Machine.Says.InboundRequests

/-- `Says.TagsAndCompletions`, `Says.Translations`: all of them.
It says, under conditions on the state and the operands alone, that exec answers a next state for tagAllocate, hostCompletion,
tagQuarantineEnd, translationCompletion, invalidateRequest, invalidateCompletion, xlatFlush, xlatFlushDone, windowCommit. -/
def Obligations.TagsCompletionsAndTranslations : Prop :=
  Sys2Proof.Machine.Says.TagsAndCompletions ∧
  Sys2Proof.Machine.Says.Translations

/-- `Says.WorkRings`, `Says.CompletionRings`: all of them.
It says, under conditions on the state and the operands alone, that exec answers a next state for doorbell, descriptorConfirm,
descriptorArrival, ringPoll, ringDrained, headWrite, ringNop, sglArrival. -/
def Obligations.RingsFetchAndComplete : Prop :=
  Sys2Proof.Machine.Says.WorkRings ∧
  Sys2Proof.Machine.Says.CompletionRings

/-- R178, R179, R186: in port mode a word written to HBM outside the regions that only read lies there, little-endian, and, outside
what the device keeps there for itself, a read of the same address answers it; no other byte of memory changes; ADDR steps by INCR.
It says, under conditions on the state and the operands alone, that exec answers a next state for transomDataWrite,
transomDataRead. -/
def Obligations.TransomReadsWhatItWrote : Prop :=
  Sys2Proof.Machine.Says.TransomReadsWhatItWrote

/-- R180, R181, R183: an access that the space, the range or the form refuses moves no byte: it sets REJ and its reason, is reported, and a
read answers 0; a burst write within the rules stores its bytes and counts them in FILL; ADVANCE moves the window on by 32,768;
a write of the target takes it and drops what was gathered for the old one.
It says, under conditions on the state and the operands alone, that exec answers a next state for transomDataWrite,
transomDataRead, apertureWrite, apertureRead, advance, tgtWrite. -/
def Obligations.TransomRefusalsAndBursts : Prop :=
  Sys2Proof.Machine.Says.TransomRefusalsAndBursts

/-- `Says.LearningAndSoftwareCommands`, `Says.AgingAndResize`: all of them.
It says, under conditions on the state and the operands alone, that exec answers a next state for learnEvent, insert, delete,
find, notifyHeadWrite, holdExpiry, agingSweep, agingSweepEnd, resize, resizeDone. -/
def Obligations.LearningAndAging : Prop :=
  Sys2Proof.Machine.Says.LearningAndSoftwareCommands ∧
  Sys2Proof.Machine.Says.AgingAndResize

/-- R240, R241, R243, R267, R270, R486: member and indirection tables take the word written at the selected entry, which is good again; a rule counter is read with
its halves latched and then cleared, unless the reader does not hold management; a next-hop entry is written by its last word as a
whole and read from a latch that its first word loads.
It says, under conditions on the state and the operands alone, that exec answers a next state for membDataWrite, indirDataWrite,
ruleCounterRead, nhW3Write, nhW0Read. -/
def Obligations.LookupTables : Prop :=
  Sys2Proof.Machine.Says.LookupTables

/-- R264, R270: an INSERT of a prefix that is present, or that has a free place in its two buckets, is found there afterwards with its
result and next hop, and no other byte of memory changes; a DELETE clears the entry found; a FIND answers it; a prefix that is not
there answers 1, and one for which there is no place 2 with its cause.
It says, under conditions on the state and the operands alone, that exec answers a next state for lpmInsert, lpmDelete, lpmFind. -/
def Obligations.PrefixTableCommands : Prop :=
  Sys2Proof.Machine.Says.PrefixTableCommands

/-- R299, R316: NOP, ALU, LI, JAL, JR, LD, HASH, TIME, FENCE, ST and XST: the FPC goes on by 8 or to the target, X[D] takes the
result, X0 discards it, a store puts the low bytes of X[B] at X[A] + sext(IMM), and nothing else changes.
It says, under conditions on the state and the operands alone, that exec answers a next state for nop, alu, li, jal, jr, ld,
hash, time, fence, st, xst. -/
def Obligations.FlowInstructionsCompute : Prop :=
  Sys2Proof.Machine.Says.FlowInstructionsCompute

/-- R301, R309 to R316, R323, R328: the flow instructions that act on branches' prediction, memory that answers later, host copies,
channels, wheel time, latches, the flow cache, the current frame, events and the end of work: each acts as its operation says, or
makes the thread wait for it; one that the instruction cache lacks makes the thread wait for its fetch.
It says, under conditions on the state and the operands alone, that exec answers a next state for nop, br, xld, hcopy, chput,
chget, wait, latch, fclook, fcput, fcdel, frd, fwr, flen, fout, fnew, cpl, evt, done, halt. -/
def Obligations.FlowInstructionsAct : Prop :=
  Sys2Proof.Machine.Says.FlowInstructionsAct

/-- R318 to R321, R326: an operate microword gives its D the result of A and B, whether D is a temporary, X[D] or the next FPC; with
SETF it sets Z and LT; the micro-PC goes on by one; the thread's other registers, the other threads, memory and every register
page stay as they are.
It says, under conditions on the state and the operands alone, that exec answers a next state for uadd, usub, uand, uor, uxor,
ushl, ushr, usar, umul. -/
def Obligations.OperateMicrowordsCompute : Prop :=
  Sys2Proof.Machine.Says.OperateMicrowordsCompute

/-- `Says.OtherMicrowordsAct`, `Says.NextAddressMicrowords`: all of them.
It says, under conditions on the state and the operands alone, that exec answers a next state for unop, ucmp, uins, uld, ust,
uxld, uxst, uhdma, uchput, uchget, uwait, ulatch, ufc, uhash, uframe, ucpl, uevt, udone, ujmp, ubr, ucall, uret, uend, ufbr,
urtt, uabort, utrap. -/
def Obligations.OtherMicrowordsAct : Prop :=
  Sys2Proof.Machine.Says.OtherMicrowordsAct ∧
  Sys2Proof.Machine.Says.NextAddressMicrowords

/-- R304, R315, R319, R322, R325, R326: what raises which micro-trap: a bad fetch and an opcode without a VALID dispatch word, a
reserved ALU or BR function, LMEM and external addresses, a disabled channel, the missing frame, and the four of microwords. -/
def Obligations.MicroTrapsAreRaised : Prop :=
  Sys2Proof.Machine.Says.MicroTrapsAreRaised

/-- `Says.WorkItemsAreTaken`, `Says.ThreadsAreControlled`, `Says.ThreadWaitsEnd`: all of them.
It says, under conditions on the state and the operands alone, that exec answers a next state for workItemTake, threadStop,
threadRun, threadAbort, threadRestart, channelWaitDone, memoryOpDone, threadWaitDone. -/
def Obligations.ThreadsTakeWorkStopAndWait : Prop :=
  Sys2Proof.Machine.Says.WorkItemsAreTaken ∧
  Sys2Proof.Machine.Says.ThreadsAreControlled ∧
  Sys2Proof.Machine.Says.ThreadWaitsEnd

/-- R89, R304, R329 to R331, R335: a control store is reloaded in its steps, by a control core only; a self-test ends OK where its patterns and
its control store are right, and otherwise puts the engine in error; a reset of an engine aborts its threads and items, breaks their
latches and empties its channels; its instruction cache is emptied; a sweep ends the near copies filled before the last one.
It says, under conditions on the state and the operands alone, that exec answers a next state for reload, selftest, loadDone,
engineReset, icacheInv, csDrainDone, csCheckDone, selftestDone, flowCacheSweep. -/
def Obligations.EnginesAreReloadedTestedAndReset : Prop :=
  Sys2Proof.Machine.Says.EnginesAreReloadedTestedAndReset

/-- `Says.ChannelsAndCoresByTheirPages`, `Says.ControlQueues`: all of them.
It says, under conditions on the state and the operands alone, that exec answers a next state for putWrite, getRead, coreReset,
coreRun, nmi, coreFatal, ctrlLimitRefill, ctrlqDb, ctrlqHeadWrite. -/
def Obligations.ChannelsCoresAndControlQueues : Prop :=
  Sys2Proof.Machine.Says.ChannelsAndCoresByTheirPages ∧
  Sys2Proof.Machine.Says.ControlQueues

/-- `Says.WorkRequestsStart`, `Says.QueuePairsAreResumed`: all of them.
It says, under conditions on the state and the operands alone, that exec answers a next state for send, write, read, cas, faa,
flush, armedWrTrigger, trigValWrite, rtxResume, pacingRelease, retransmitTimeout, rnrWaitExpiry, rescheduleRetry, frameTxEnd. -/
def Obligations.WorkRequestsStartAndResume : Prop :=
  Sys2Proof.Machine.Says.WorkRequestsStart ∧
  Sys2Proof.Machine.Says.QueuePairsAreResumed

/-- `Says.PacketsAreReceived`, `Says.RequesterAndTables`: all of them.
It says, under conditions on the state and the operands alone, that exec answers a next state for rdmaPacketRx, ackRx, nakRx,
rnrNakRx, readAtomicResponseRx, recv, responderFlushAck, mrW7Write, lipCtlWrite. -/
def Obligations.PacketsAndResponsesAreReceived : Prop :=
  Sys2Proof.Machine.Says.PacketsAreReceived ∧
  Sys2Proof.Machine.Says.RequesterAndTables

/-- R371, R373, R376, R377, R380 to R382: a READ, WRITE, FLUSH or ZERO is checked, refused with the STATUS of the first check it fails, has its
scatter list read, is held while an earlier command of its ring conflicts or is ordered, or starts: a READ takes what is staged and asks
the SSDs for the rest, a WRITE and a ZERO go to staging or wait at the dirty limit, a FLUSH wants what was acknowledged before it placed;
a held one starts when nothing holds it. A READ that meets an uncorrectable word completes with UNCORRECTABLE. A write whose data has
all come is recorded, sent to the peer and acknowledged as R382 says, or fails as its reads did.
It says, under conditions on the state and the operands alone, that exec answers a next state for blockRead, blockWrite, zero,
blockFlush, blockCommandStart, stagingRecord. -/
def Obligations.BlockCommandsStart : Prop :=
  Sys2Proof.Machine.Says.BlockCommandsStart

/-- `Says.TasksUseTheirWindow`, `Says.PlacementEnds`: all of them.
It says, under conditions on the state and the operands alone, that exec answers a next state for volInfo, errRead, volMode,
ssdAct, taskAbort, journalDurable, placementDone, flushDeadline. -/
def Obligations.TasksAndPlacement : Prop :=
  Sys2Proof.Machine.Says.TasksUseTheirWindow ∧
  Sys2Proof.Machine.Says.PlacementEnds

/-- `Says.DrivesAnswerAndFail`, `Says.DriveActivities`: all of them.
It says, under conditions on the state and the operands alone, that exec answers a next state for nvmeCompletion, nvmeTimeout,
controllerReset, ssdLinkDown, ssdCriticalWarning, ssdLinkUp, ssdIdentify, sanitise, format, ssdScrub, sanitizePoll,
ssdActivityEnd, rebuild, rebuildDone. -/
def Obligations.DrivesAnswerFailAndWork : Prop :=
  Sys2Proof.Machine.Says.DrivesAnswerAndFail ∧
  Sys2Proof.Machine.Says.DriveActivities

/-- R464, R467, R468, R472, R473, R475, R476: messages in order act and are acknowledged: HELLO, mirrored writes, journal, copies
and notifications; a newer epoch fences, and what acknowledges frees its stream.
It says, under conditions on the state and the operands alone, that exec answers a next state for helloRx, fenceOrderRx,
heartbeatRx, stageMessageRx, dirtyWaitRelease, journalMessageRx, resyncMessageRx, notificationMirrorRx, stageAckRx, pairAckRx,
pairNakRx. -/
def Obligations.PairMessagesAct : Prop :=
  Sys2Proof.Machine.Says.PairMessagesAct

/-- `Says.PairLinkAndBeats`, `Says.PairsFormAndJoin`: all of them.
It says, under conditions on the state and the operands alone, that exec answers a next state for xindaordLinkDown,
xindaordLinkUp, helloSend, heartbeatSend, deadPeerTimeout, timeExchange, pairRto, form, join, admitJoin, declare,
admissionComplete. -/
def Obligations.PairLinksFormAndJoin : Prop :=
  Sys2Proof.Machine.Says.PairLinkAndBeats ∧
  Sys2Proof.Machine.Says.PairsFormAndJoin

/-- `Says.GuardAndPowerFail`, `Says.DumpsRunInBatches`: all of them.
It says, under conditions on the state and the operands alone, that exec answers a next state for monitorTrip, monitorClear,
pfailNFall, pfailGlitch, dumpWriteStart, dumpBatchDurable, dumped, dumpEnWrite, measure, measureDone. -/
def Obligations.GuardPowerFailAndDumps : Prop :=
  Sys2Proof.Machine.Says.GuardAndPowerFail ∧
  Sys2Proof.Machine.Says.DumpsRunInBatches

/-- `Says.ResetPins`, `Says.BootAndFuses`: all of them.
It says, under conditions on the state and the operands alone, that exec answers a next state for pwrokRise, pwrokFall,
sysRstNFall, sysRstNRise, perstNRise, perstNFall, imageAttemptEnd, imageLoadDone, peerImageRequestRx, hostGo, cfgReady,
versionCommit, progKey, revoke, lockOrder, fuseBitBurned, ospiDone. -/
def Obligations.ResetsBootAndFuses : Prop :=
  Sys2Proof.Machine.Says.ResetPins ∧
  Sys2Proof.Machine.Says.BootAndFuses

/-- R426, R427, R432, R433, R440, R441: cipher jobs: with a key of the kind, permitted to jobs and within its limit, the use is
counted and the output is the algorithm's; without, the job is refused and nothing is counted; RANDOM is served, held or failed by
the source's state.
It says, under conditions on the state and the operands alone, that exec answers a next state for gcmEnc, gcmDec, gmacGen,
gmacVer, xtsEnc, xtsDec, random. -/
def Obligations.CipherJobs : Prop :=
  Sys2Proof.Machine.Says.CipherJobs

/-- R434 to R438, R444: a GO of the vault: refused while BUSY; otherwise BUSY, OUT cleared, and the operation decided.
It says, under conditions on the state and the operands alone, that exec answers a next state for generate, unwrap, wrap, erase,
setLimit, pubkey, sign, verify, vaultHash. -/
def Obligations.VaultCommands : Prop :=
  Sys2Proof.Machine.Says.VaultCommands

/-- `Says.VaultEndsAndEntropy`, `Says.SaEntriesAndCipherFaults`: all of them.
It says, under conditions on the state and the operands alone, that exec answers a next state for vaultCommandDone, eraseDone,
healthTestFail, consecClear, maskReseed, rngRestartDone, entropyHoldTimeout, maskStop, vaultZeroise, restart, reseed,
saW15Write, cipherParityFault. -/
def Obligations.VaultEndsEntropyAndCipherFaults : Prop :=
  Sys2Proof.Machine.Says.VaultEndsAndEntropy ∧
  Sys2Proof.Machine.Says.SaEntriesAndCipherFaults

/-- `Says.PadsAndGpio`, `Says.I2cTransfers`, `Says.UartFifos`, `Says.FlashAndMdioCommands`: all of them.
It says, under conditions on the state and the operands alone, that exec answers a next state for padSwitchDisconnect,
padSwitchConnect, gpioEdge, gpioSet, gpioClr, i2cGo, recover, i2cTransferDone, i2cSclTimeout, sdaStuckLow, recoveryEnd,
i2cDataRead, uartRxChar, uartDataWrite, uartTxChar, uartDataRead, ospiRead, ospiRegisterWrite, programOrErase, c22Write,
c22Read, c45Address, c45Write, c45Read, c45ReadIncrement, mdioDone. -/
def Obligations.PadsAndSerialControllers : Prop :=
  Sys2Proof.Machine.Says.PadsAndGpio ∧
  Sys2Proof.Machine.Says.I2cTransfers ∧
  Sys2Proof.Machine.Says.UartFifos ∧
  Sys2Proof.Machine.Says.FlashAndMdioCommands

/-- `Says.ErrorLog`, `Says.LifeLogAndTap`: all of them.
It says, under conditions on the state and the operands alone, that exec answers a next state for errorRecordWrite,
recHeadWrite, lifeCommitPeriod, lifeCommitRequest, lifeCommitDone, lifeSample, thermtrip, cntClr, jtagInstruction. -/
def Obligations.ErrorLogLifeLogAndTap : Prop :=
  Sys2Proof.Machine.Says.ErrorLog ∧
  Sys2Proof.Machine.Says.LifeLogAndTap
end

