-- ==== Sys2Proof/Laws/Bits.lean ====
section
/-! SUPPORT. Laws of bits and fields: a bit of a word as `Nat.testBit`, and through the operations that register writes use. -/

namespace Sys2Proof.Machine

theorem tbit_eq (v i : Nat) : tbit v i = v.testBit i := by
  rw [Nat.testBit_eq_decide_div_mod_eq]
  rfl

@[simp] theorem tbit_zero (i : Nat) : tbit 0 i = false := by simp [tbit_eq]
@[simp] theorem tbit_and (a b i : Nat) : tbit (a &&& b) i = (tbit a i && tbit b i) := by simp [tbit_eq]
@[simp] theorem tbit_or (a b i : Nat) : tbit (a ||| b) i = (tbit a i || tbit b i) := by simp [tbit_eq]

theorem tbit_mod {v i n : Nat} (h : i < n) : tbit (v % 2 ^ n) i = tbit v i := by simp [tbit_eq, Nat.testBit_mod_two_pow, h]

theorem tbit_notN {v i n : Nat} (h : i < n) : tbit (notN n v) i = !tbit v i := by
  have hv : v % 2 ^ n < 2 ^ n := Nat.mod_lt _ (Nat.two_pow_pos n)
  have e : notN n v = 2 ^ n - (v % 2 ^ n + 1) := by simp only [notN]; omega
  rw [e, tbit_eq, Nat.testBit_two_pow_sub_succ hv]
  simp [h, tbit_eq, Nat.testBit_mod_two_pow]

/-- Two numbers of `n` bits with the same bits are the same. -/
theorem eq_of_tbit {a b n : Nat} (ha : a < 2 ^ n) (hb : b < 2 ^ n) (h : ∀ i < n, tbit a i = tbit b i) : a = b := by
  refine Nat.eq_of_testBit_eq fun i => ?_
  by_cases hi : i < n
  · simpa [tbit_eq] using h i hi
  · rw [Nat.testBit_lt_two_pow (lt_of_lt_of_le ha (Nat.pow_le_pow_right (by norm_num) (by omega))),
      Nat.testBit_lt_two_pow (lt_of_lt_of_le hb (Nat.pow_le_pow_right (by norm_num) (by omega)))]

theorem tbit_ofNat {v i : Nat} (h : i < 32) : tbit (BitVec.ofNat 32 v).toNat i = tbit v i := by
  rw [BitVec.toNat_ofNat, tbit_mod h]

theorem leBytes_length (n v : Nat) : (leBytes n v).length = n := by
  induction n generalizing v with
  | zero => rfl
  | succ n ih => simp [leBytes, ih]

/-- The bytes of a number give it back (R526). -/
theorem leVal_leBytes (n v : Nat) : leVal (leBytes n v) = v % 256 ^ n := by
  induction n generalizing v with
  | zero => simp [leBytes, leVal, Nat.mod_one]
  | succ n ih =>
    simp only [leBytes, leVal, ih, BitVec.toNat_ofNat]
    exact (show v % 256 ^ (n + 1) = v % 256 + 256 * (v / 256 % 256 ^ n) by rw [pow_succ' 256 n, Nat.mod_mul]).symm

theorem crcBit_lt {poly x : Nat} (hp : poly < 2 ^ 32) (h : x < 2 ^ 32) : crcBit poly x < 2 ^ 32 := by
  unfold crcBit
  split
  · exact Nat.xor_lt_two_pow (by omega) hp
  · omega

theorem crcByte_lt {poly x : Nat} (b : Byte) (hp : poly < 2 ^ 32) (h : x < 2 ^ 32) : crcByte poly x b < 2 ^ 32 := by
  have hb : b.toNat < 2 ^ 32 := by have := b.isLt; omega
  unfold crcByte
  iterate 8 refine crcBit_lt hp ?_
  exact Nat.xor_lt_two_pow h hb

theorem crc32c_lt (l : List Byte) : crc32c l < 2 ^ 32 := by
  have key : ∀ (l : List Byte) (x : Nat), x < 2 ^ 32 → l.foldl (crcByte 0x82F63B78) x < 2 ^ 32 := by
    intro l
    induction l with
    | nil => exact fun x h => h
    | cons b l ih => exact fun x h => ih _ (crcByte_lt b (by decide) h)
  exact Nat.xor_lt_two_pow (key l _ (by decide)) (by decide)

end Sys2Proof.Machine
end

