-- ==== Sys2Proof/Laws/Tbl.lean ====
section
/-! SUPPORT. Laws of sparse tables: a read after a write of the same key gives the value written, a write leaves every other key
alone, and the canonical form is kept. -/

namespace Sys2Proof.Machine

variable {κ ν : Type} [DecidableEq κ] [DecidableEq ν]

omit [DecidableEq ν] in
@[simp] theorem tget_nil (d : ν) (k : κ) : tget d [] k = d := rfl

omit [DecidableEq ν] in
theorem tget_cons (d : ν) (e : κ × ν) (t : List (κ × ν)) (k : κ) :
    tget d (e :: t) k = if e.1 = k then e.2 else tget d t k := by
  by_cases h : e.1 = k <;> simp [tget, h]

omit [DecidableEq ν] in
theorem tget_tdel_same (d : ν) (t : List (κ × ν)) (k : κ) : tget d (tdel t k) k = d := by
  induction t with
  | nil => rfl
  | cons e t ih => by_cases h : e.1 = k <;> simp_all [tdel, tget_cons]

omit [DecidableEq ν] in
theorem tget_tdel_other (d : ν) (t : List (κ × ν)) {k k' : κ} (hk : k' ≠ k) :
    tget d (tdel t k) k' = tget d t k' := by
  induction t with
  | nil => rfl
  | cons e t ih =>
    by_cases h : e.1 = k
    · subst h
      simp_all [tdel, tget_cons, Ne.symm hk]
    · simp_all [tdel, tget_cons]

omit [DecidableEq ν] in
theorem tget_tins_same (lt : κ → κ → Bool) (d v : ν) (t : List (κ × ν)) (k : κ) :
    tget d (tins lt k v (tdel t k)) k = v := by
  have hno : ∀ e ∈ tdel t k, e.1 ≠ k := by simp [tdel]
  generalize tdel t k = u at hno
  induction u with
  | nil => simp [tins, tget_cons]
  | cons e u ih =>
    have he := hno e (by simp)
    by_cases h : lt k e.1 <;> simp [tins, h, tget_cons, he]
    exact ih fun x hx => hno x (by simp [hx])

omit [DecidableEq ν] in
theorem tget_tins_other (lt : κ → κ → Bool) (d v : ν) (t : List (κ × ν)) {k k' : κ} (hk : k' ≠ k) :
    tget d (tins lt k v t) k' = tget d t k' := by
  induction t with
  | nil => simp [tins, tget_cons, Ne.symm hk]
  | cons e t ih => by_cases h : lt k e.1 <;> simp [tins, h, tget_cons, Ne.symm hk, ih]

/-- A read after a write of the same key. -/
@[simp] theorem tget_tset_same (lt : κ → κ → Bool) (d v : ν) (t : List (κ × ν)) (k : κ) :
    tget d (tset lt d t k v) k = v := by
  by_cases h : v = d <;> simp [tset, h, tget_tdel_same, tget_tins_same]

/-- A write leaves every other key alone, whatever the two keys read as when unlisted. -/
theorem tget_tset_other (lt : κ → κ → Bool) (d d' v : ν) (t : List (κ × ν)) {k k' : κ} (hk : k' ≠ k) :
    tget d' (tset lt d t k v) k' = tget d' t k' := by
  by_cases h : v = d <;> simp [tset, h, tget_tdel_other _ _ hk, tget_tins_other _ _ _ _ hk]

@[simp] theorem tget_nset_same (d v : ν) (t : Tbl ν) (k : Nat) : tget d (nset d t k v) k = v := tget_tset_same ..

theorem tget_nset_other (d v : ν) (t : Tbl ν) {k k' : Nat} (hk : k' ≠ k) : tget d (nset d t k v) k' = tget d t k' :=
  tget_tset_other _ _ _ _ _ hk

@[simp] theorem tget_nmod_same (d : ν) (t : Tbl ν) (k : Nat) (f : ν → ν) : tget d (nmod d t k f) k = f (tget d t k) :=
  tget_tset_same ..

theorem tget_nmod_other (d : ν) (t : Tbl ν) (f : ν → ν) {k k' : Nat} (hk : k' ≠ k) :
    tget d (nmod d t k f) k' = tget d t k' := tget_tset_other _ _ _ _ _ hk

@[simp] theorem tget_fset_same (t : Tbl Bool) (k : Nat) (v : Bool) : tget false (fset t k v) k = v := tget_tset_same ..

theorem tget_fset_other (t : Tbl Bool) (v : Bool) {k k' : Nat} (hk : k' ≠ k) :
    tget false (fset t k v) k' = tget false t k' := tget_tset_other _ _ _ _ _ hk

/-! ## The canonical form -/

theorem mem_tins {lt : κ → κ → Bool} {k : κ} {v : ν} {t : List (κ × ν)} {e : κ × ν} :
    e ∈ tins lt k v t ↔ e = (k, v) ∨ e ∈ t := by
  induction t with
  | nil => simp [tins]
  | cons a t ih =>
    by_cases h : lt k a.1 <;> simp [tins, h, ih]
    tauto

theorem mem_tset {lt : κ → κ → Bool} {d : ν} {k : κ} {v : ν} {t : List (κ × ν)} {e : κ × ν} (h : e ∈ tset lt d t k v) :
    e = (k, v) ∨ e ∈ t := by
  by_cases hv : v = d <;> simp [tset, hv, mem_tins, tdel] at h <;> tauto

/-- A write keeps the canonical form, in any strict order. -/
theorem canonical_tset {lt : κ → κ → Bool} {d : κ → ν} (trans : ∀ a b c, lt a b = true → lt b c = true → lt a c = true)
    (total : ∀ a b, a ≠ b → lt a b = false → lt b a = true) {t : List (κ × ν)} (k : κ) (v : ν)
    (h : canonical lt d t = true) : canonical lt d (tset lt (d k) t k v) = true := by
  simp only [canonical, Bool.and_eq_true, decide_eq_true_eq, List.all_eq_true, Bool.not_eq_true',
    decide_eq_false_iff_not] at h ⊢
  obtain ⟨hp, hd⟩ := h
  have hp' : (tdel t k).Pairwise fun a b => lt a.1 b.1 = true := hp.filter _
  refine ⟨?_, fun e he => ?_⟩
  · by_cases hv : v = d k
    · simpa [tset, hv] using hp'
    · simp only [tset, hv, if_false]
      have hno : ∀ e ∈ tdel t k, e.1 ≠ k := by simp [tdel]
      generalize tdel t k = u at hp' hno
      induction u with
      | nil => simp [tins]
      | cons e u ih =>
        obtain ⟨h1, h2⟩ := List.pairwise_cons.1 hp'
        by_cases hl : lt k e.1
        · simp only [tins, hl, if_true, List.pairwise_cons]
          refine ⟨fun x hx => ?_, h1, h2⟩
          rcases List.mem_cons.1 hx with rfl | hx
          · exact hl
          · exact trans _ _ _ hl (h1 x hx)
        · simp only [tins, hl, Bool.false_eq_true, if_false, List.pairwise_cons]
          refine ⟨fun x hx => ?_, ih h2 fun x hx => hno x (by simp [hx])⟩
          rcases mem_tins.1 hx with rfl | hx
          · exact total _ _ (Ne.symm (hno e (by simp))) (by simpa using hl)
          · exact h1 x hx
  · rcases mem_tset he with rfl | he
    · intro hv
      simp only at hv
      simp [tset, hv, tdel] at he
    · exact hd e he

theorem natLt_trans (a b c : Nat) (h : natLt a b = true) (g : natLt b c = true) : natLt a c = true := by
  simp only [natLt, decide_eq_true_eq] at *; omega

theorem natLt_total (a b : Nat) (h : a ≠ b) (g : natLt a b = false) : natLt b a = true := by
  simp only [natLt, decide_eq_true_eq, decide_eq_false_iff_not] at *; omega

theorem RKey.lt_trans (a b c : RKey) (h : RKey.lt a b = true) (g : RKey.lt b c = true) : RKey.lt a c = true := by
  simp only [RKey.lt, Bool.or_eq_true, Bool.and_eq_true, decide_eq_true_eq] at *; omega

theorem Bank.idx_inj {a b : Bank} (h : a.idx = b.idx) : a = b := by
  cases a <;> cases b <;> simp_all [Bank.idx]

theorem RKey.lt_total (a b : RKey) (h : a ≠ b) (g : RKey.lt a b = false) : RKey.lt b a = true := by
  have hn : ¬ (a.bank.idx = b.bank.idx ∧ a.page = b.page ∧ a.inst = b.inst ∧ a.off = b.off) := by
    rintro ⟨h1, h2, h3, h4⟩
    have h1 := Bank.idx_inj h1
    cases a; cases b; simp_all
  simp only [RKey.lt, Bool.or_eq_false_iff, Bool.and_eq_false_iff, Bool.or_eq_true, Bool.and_eq_true, decide_eq_true_eq,
    decide_eq_false_iff_not] at *
  omega

end Sys2Proof.Machine
end

