-- ==== Sys2Proof/Laws/Prog.lean ====
section
/-! SUPPORT. Laws of effects: what each `Prog` leaves, once; that none touches the queue, and that all keep the canonical form
of memory and registers and the reserved bits. -/

namespace Sys2Proof.Machine

/-! ## One effect after another -/

@[simp] theorem run_skip (s : State) : Prog.skip.run s = s := rfl
@[simp] theorem run_upd (f : Ctl → Ctl) (s : State) : (Prog.upd f).run s = { s with ctl := f s.ctl } := rfl
@[simp] theorem run_seq (p q : Prog) (s : State) : (Prog.seq p q).run s = q.run (p.run s) := rfl
@[simp] theorem run_look (k : State → Prog) (s : State) : (Prog.look k).run s = (k s).run s := rfl
@[simp] theorem run_all_nil (s : State) : (Prog.all []).run s = s := rfl
@[simp] theorem run_all_cons (p : Prog) (l : List Prog) (s : State) :
    (Prog.all (p :: l)).run s = (Prog.all l).run (p.run s) := rfl
@[simp] theorem when_true (p : Prog) : Prog.when true p = p := rfl
@[simp] theorem when_false (p : Prog) : Prog.when false p = .skip := rfl
@[simp] theorem run_each_nil {α : Type} (f : α → Prog) (s : State) : (Prog.each [] f).run s = s := rfl
@[simp] theorem run_each_cons {α : Type} (a : α) (l : List α) (f : α → Prog) (s : State) :
    (Prog.each (a :: l) f).run s = (Prog.each l f).run ((f a).run s) := rfl

theorem run_when (b : Bool) (p : Prog) (s : State) : (Prog.when b p).run s = if b then p.run s else s := by
  cases b <;> rfl

theorem done_eq (p : Prog) (s : State) : done p s = .next (p.run s) := rfl

/-! ## What no effect touches -/

/-- No effect touches the queue of waiting commands. -/
@[simp] theorem run_pending (p : Prog) (s : State) : (p.run s).pending = s.pending := by
  induction p generalizing s with
  | seq p q hp hq => simp [hp, hq]
  | look k ih => simp [ih]
  | _ => rfl

theorem Memory.wf_nset {m : List Host.Cell} (a : Nat) (b : Byte) (h : Memory.wf m = true) :
    Memory.wf (nset 0 m a b) = true := canonical_tset natLt_trans natLt_total a b h

theorem Regs.wf_tset {l : List (RKey × Word)} (k : RKey) (v : Word) (h : Regs.wf l = true) :
    Regs.wf (tset RKey.lt k.reset l k (v &&& k.mask)) = true := by
  simp only [Regs.wf, Bool.and_eq_true, List.all_eq_true, decide_eq_true_eq] at h ⊢
  refine ⟨canonical_tset RKey.lt_trans RKey.lt_total _ _ h.1, fun e he => ?_⟩
  rcases mem_tset he with rfl | he
  · simp [BitVec.and_assoc]
  · exact h.2 e he

/-- Every effect keeps the invariant of the machine. -/
theorem run_wf (p : Prog) {s : State} (h : s.wf = true) : (p.run s).wf = true := by
  induction p generalizing s with
  | skip => exact h
  | upd f => exact h
  | memSet a b =>
    simp only [State.wf, Bool.and_eq_true] at h ⊢
    exact ⟨Memory.wf_nset a b h.1, h.2⟩
  | regSet k v =>
    simp only [State.wf, Bool.and_eq_true] at h ⊢
    exact ⟨h.1, Regs.wf_tset k v h.2⟩
  | seq p q hp hq => exact hq (hp h)
  | look k ih => exact ih s h

theorem reset_wf : State.reset.wf = true := rfl

/-! ## Reads after writes -/

/-- A register copy after a write: the value, on the bits the register implements. -/
theorem copy_setCopy_same (s : State) (b : Bank) (r : Reg) (v : Nat) :
    ((setCopy b r v).run s).copy b r = (BitVec.ofNat 32 v &&& RKey.mask ⟨b, r.page, r.inst, r.off⟩).toNat := by
  simp [setCopy, State.copy, Prog.run]

/-- A write of one register copy leaves the others alone. -/
theorem copy_setCopy_other (s : State) (b b' : Bank) (r r' : Reg) (v : Nat) (h : ¬ (b' = b ∧ r' = r)) :
    ((setCopy b r v).run s).copy b' r' = s.copy b' r' := by
  have hk : (⟨b', r'.page, r'.inst, r'.off⟩ : RKey) ≠ ⟨b, r.page, r.inst, r.off⟩ := by
    intro e
    apply h
    cases r; cases r'; simp_all
  simp only [setCopy, State.copy, Prog.run]
  rw [tget_tset_other _ _ _ _ _ hk]

theorem copy_lt (s : State) (b : Bank) (r : Reg) : s.copy b r < 2 ^ 32 := BitVec.isLt _

theorem rd_lt (s : State) (r : Reg) : s.rd r < 2 ^ 32 := copy_lt s .live r

/-- A register after hardware writes it: the value, on the bits the register implements. -/
theorem rd_wr_same (s : State) (r : Reg) (v : Nat) :
    ((wr r v).run s).rd r = (BitVec.ofNat 32 v &&& RKey.mask ⟨.live, r.page, r.inst, r.off⟩).toNat := copy_setCopy_same ..

/-- A bit of a register after hardware writes it. -/
theorem tbit_rd_wr (s : State) (r : Reg) (v : Nat) {i : Nat} (h : i < 32) :
    tbit (((wr r v).run s).rd r) i = (tbit v i && tbit (maskAt .live r.page r.off) i) := by
  rw [rd_wr_same, BitVec.toNat_and, tbit_and, tbit_ofNat h, RKey.mask, tbit_ofNat h]

/-- A write of one register leaves the others alone. -/
theorem rd_wr_other (s : State) {r r' : Reg} (v : Nat) (h : r' ≠ r) : ((wr r v).run s).rd r' = s.rd r' :=
  copy_setCopy_other _ _ _ _ _ _ (by simp [h])

@[simp] theorem mem_setCopy (s : State) (b : Bank) (r : Reg) (v : Nat) : ((setCopy b r v).run s).mem = s.mem := rfl
@[simp] theorem ctl_setCopy (s : State) (b : Bank) (r : Reg) (v : Nat) : ((setCopy b r v).run s).ctl = s.ctl := rfl
@[simp] theorem mem_wr (s : State) (r : Reg) (v : Nat) : ((wr r v).run s).mem = s.mem := rfl
@[simp] theorem ctl_wr (s : State) (r : Reg) (v : Nat) : ((wr r v).run s).ctl = s.ctl := rfl

/-- A byte after a write of that byte. -/
theorem byte_memSet_same (s : State) (sp i a : Nat) (b : Byte) :
    ((Prog.memSet (memKey sp i a) b).run s).byte sp i a = b := by simp [State.byte, Prog.run]

/-- A write of one byte leaves the others alone. -/
theorem byte_memSet_other (s : State) (sp i a k : Nat) (b : Byte) (h : memKey sp i a ≠ k) :
    ((Prog.memSet k b).run s).byte sp i a = s.byte sp i a := by
  simp only [State.byte, Prog.run]
  exact tget_nset_other _ _ _ h

end Sys2Proof.Machine
end

