-- ==== Sys2Proof/Laws/Ops.lean ====
section
/-! SUPPORT. Laws of the shared operations: what the guards let through, and what a signal's chain of interrupt causes, error
reports, events and trace records can touch at all. -/

namespace Sys2Proof.Machine

/-! ## Guards -/

theorem during_run {lvl : Nat} {s : State} (p : Prog) (h : s.runsBelow lvl) : (during lvl p).run s = p.run s := by
  simp [during, h.1, h.2]

theorem live_next {lvl : Nat} {s : State} (p : Prog) (h : s.runsBelow lvl) : live lvl p s = .next (p.run s) := by
  simp [live, done, during_run p h]

theorem awake_run {s : State} (p : Prog) (h : s.powered) : (awake p).run s = p.run s := by simp [awake, h.1, h.2]

theorem board_next {s : State} (p : Prog) (h : s.powered) : board p s = .next (p.run s) := by
  simp [board, done, awake_run p h]

theorem byWriter_run {s : State} {a : Accessor} {page : Nat} (off : Nat) (p : Prog) (h : s.serves a page) :
    (byWriter a page off p).run s = p.run s := by simp [byWriter, h.1, h.2]

theorem byReader_run {s : State} {a : Accessor} {page : Nat} (p : Prog) (h : s.open a page = true) :
    (byReader a page p).run s = p.run s := by simp [byReader, h]

/-- A write by a port that does not hold management is recorded and has no other effect (R74). -/
theorem byWriter_refused {s : State} {a : Accessor} {page : Nat} (off : Nat) (p : Prog) (h : s.open a page = true)
    (h' : s.owner a = false) :
    (byWriter a page off p).run s = (err Pg.chip 0 EC.ACCESS RS.NOT_OWNER (bar0 page off)).run s := by
  simp [byWriter, h, h']

/-! ## The touch of a signal -/

/-- Register copies that a signal may write: the causes and first errors in the headers of pages `P`, the ERR page's counts, SEQ
and LAST, the peephole's status, pointer and counters, the two counts of dropped events. -/
def sideReg (P : Nat → Prop) (k : RKey) : Prop :=
  k.bank = .live ∧ ((P k.page ∧ (k.off = 0x10 ∨ (0x20 ≤ k.off ∧ k.off < 0x30))) ∨
    (k.page = 37 ∧ (k.off = 0x48 ∨ (0xc0 ≤ k.off ∧ k.off < 0xe0) ∨ (0x104 ≤ k.off ∧ (k.off % 16 = 4 ∨ k.off % 16 = 8)))) ∨
    (k.page = 39 ∧ ((0x48 ≤ k.off ∧ k.off < 0x54) ∨ (0x1000 ≤ k.off ∧ k.off < 0x3000))) ∨
    (k.page = 13 ∧ k.off = 0x68) ∨ (k.page = 26 ∧ k.off = 0x500))

/-- Memory that a signal may write: the peephole buffer in HBM (R23, R494). -/
def inTrace (k : Nat) : Prop := memKey 1 0 0x29000000 ≤ k ∧ k < memKey 1 0 0x2D000000

/-- `t` differs from `s` at most in what a signal touches, with the headers of pages `P`. -/
structure Side (P : Nat → Prop) (s t : State) : Prop where
  pending : t.pending = s.pending
  mem : ∀ k, ¬ inTrace k → tget 0 t.mem k = tget 0 s.mem k
  reg : ∀ k, ¬ sideReg P k → tget k.reset t.reg k = tget k.reset s.reg k
  ctl : ∃ fr it gp pl ve mo ir ch, t.ctl = { s.ctl with
    free := fr, health := { s.ctl.health with intake := it, gap := gp, postLeft := pl }, host := { s.ctl.host with vecs := ve, modCnt := mo },
    flow := { s.ctl.flow with coreIrq := ir, chans := ch } }

variable {P : Nat → Prop}

theorem Side.refl (s : State) : Side P s s := ⟨rfl, fun _ _ => rfl, fun _ _ => rfl, _, _, _, _, _, _, _, _, rfl⟩

theorem Side.trans {s t u : State} (h : Side P s t) (g : Side P t u) : Side P s u := by
  obtain ⟨h1, h2, h3, a, b, c, d, e, f, x, y, h4⟩ := h
  obtain ⟨g1, g2, g3, a', b', c', d', e', f', x', y', g4⟩ := g
  refine ⟨g1.trans h1, fun k hk => (g2 k hk).trans (h2 k hk), fun k hk => (g3 k hk).trans (h3 k hk), a', b', c', d', e', f', x', y', ?_⟩
  rw [g4, h4]

/-- An effect that touches only what a signal touches. -/
def Prog.side (P : Nat → Prop) (p : Prog) : Prop := ∀ s, Side P s (p.run s)

theorem side_skip : Prog.skip.side P := Side.refl
theorem side_seq {p q : Prog} (hp : p.side P) (hq : q.side P) : (Prog.seq p q).side P := fun s => (hp s).trans (hq _)
theorem side_look {k : State → Prog} (h : ∀ s, (k s).side P) : (Prog.look k).side P := fun s => h s s
theorem side_nil : (Prog.all []).side P := Side.refl
theorem side_cons {p : Prog} {l : List Prog} (hp : p.side P) (hl : (Prog.all l).side P) : (Prog.all (p :: l)).side P :=
  side_seq hp hl
theorem side_when {b : Bool} {p : Prog} (h : b = true → p.side P) : (Prog.when b p).side P := by
  cases b
  · exact side_skip
  · exact h rfl
theorem side_ite {c : Prop} [Decidable c] {p q : Prog} (hp : c → p.side P) (hq : ¬ c → q.side P) : (if c then p else q).side P := by
  split <;> simp_all
theorem side_each {α : Type} {l : List α} {f : α → Prog} (h : ∀ a ∈ l, (f a).side P) : (Prog.each l f).side P := by
  induction l with
  | nil => exact side_skip
  | cons a l ih => exact side_cons (h a (by simp)) (ih fun b hb => h b (by simp [hb]))
theorem side_regSet {k : RKey} {v : Word} (h : sideReg P k) : (Prog.regSet k v).side P := fun s =>
  ⟨rfl, fun _ _ => rfl, fun k' hk => tget_tset_other _ _ _ _ _ (by rintro rfl; exact hk h), _, _, _, _, _, _, _, _, rfl⟩
theorem side_memSet {k : Nat} {b : Byte} (h : inTrace k) : (Prog.memSet k b).side P := fun s =>
  ⟨rfl, fun k' hk => tget_nset_other _ _ _ (by rintro rfl; exact hk h), fun _ _ => rfl, _, _, _, _, _, _, _, _, rfl⟩
theorem side_upd {f : Ctl → Ctl} (h : ∀ c, ∃ fr it gp pl ve mo ir ch, f c = { c with
    free := fr, health := { c.health with intake := it, gap := gp, postLeft := pl }, host := { c.host with vecs := ve, modCnt := mo },
    flow := { c.flow with coreIrq := ir, chans := ch } }) : (Prog.upd f).side P := fun s =>
  ⟨rfl, fun _ _ => rfl, fun _ _ => rfl, h s.ctl⟩

theorem side_setCopy {b : Bank} {r : Reg} {v : Nat} (h : sideReg P ⟨b, r.page, r.inst, r.off⟩) : (setCopy b r v).side P :=
  side_regSet h

/-- A live register write of the kind a signal makes. -/
theorem side_wr {r : Reg} {v : Nat} (h : sideReg P ⟨.live, r.page, r.inst, r.off⟩) : (wr r v).side P := side_setCopy h
theorem side_wrB {r : Reg} {i : Nat} {b : Bool} (h : sideReg P ⟨.live, r.page, r.inst, r.off⟩) : (wrB r i b).side P :=
  side_look fun _ => side_wr h
theorem side_inc {r : Reg} (h : sideReg P ⟨.live, r.page, r.inst, r.off⟩) : (inc r).side P := side_look fun _ => side_wr h
theorem side_incW {r : Reg} {n : Nat} (h : sideReg P ⟨.live, r.page, r.inst, r.off⟩)
    (h' : sideReg P ⟨.live, r.page, r.inst, r.off + 4⟩) : (incW r n).side P :=
  side_look fun _ => side_cons (side_wr h) (side_cons (side_wr h') side_nil)

theorem side_firstError {p : Nat} (c r i : Nat) (hp : P p) : (firstError p c r i).side P := by
  refine side_cons (side_inc ?_) (side_cons (side_look fun s => side_ite (fun _ => side_wr ?_) fun _ =>
    side_cons (side_wr ?_) (side_cons (side_wr ?_) side_nil)) side_nil) <;> simp [sideReg, hp]

theorem side_loseReport (r : Report) (h37 : P 37) : (loseReport r).side P := by
  refine side_look fun s => side_cons (side_inc ?_) (side_cons (side_wr ?_) (side_cons (side_each fun i hi => side_wr ?_) side_nil))
  · simp [sideReg]; omega
  · simp [sideReg, h37]
  · simp [sideReg] at *; omega

theorem side_chanEvent (ch src : Nat) : (chanEvent ch src).side P := by
  refine side_look fun s => side_ite (fun _ => side_inc ?_) fun _ => side_ite (fun _ => side_upd fun _ => ⟨_, _, _, _, _, _, _, _, rfl⟩) fun _ => side_upd fun _ => ⟨_, _, _, _, _, _, _, _, rfl⟩
  simp [sideReg]

theorem poke_eq (sp i a : Nat) (l : List Byte) :
    poke sp i a l = Prog.each (l.zipIdx) fun e => .memSet (memKey sp i (a + e.2)) e.1 := rfl

theorem side_traceRecord (st ev key : Nat) : (traceRecord st ev key).side P := by
  refine side_look fun s => side_seq (side_upd fun _ => ⟨_, _, _, _, _, _, _, _, rfl⟩) (side_look fun t => side_cons (side_each fun e he => side_memSet ?_)
    (side_cons (side_wr ?_) (side_cons (side_upd fun _ => ⟨_, _, _, _, _, _, _, _, rfl⟩)
      (side_cons (side_when fun _ => side_cons (side_ite (fun _ => side_wrB ?_) fun _ => side_wr ?_) side_nil) side_nil))))
  · obtain ⟨b, i⟩ := e
    have hi := (List.mem_zipIdx he).2.1
    simp only [List.length_append, leBytes_length] at hi
    have : t.rd PEEP.WR_PTR % 2 ^ 26 < 2 ^ 26 := Nat.mod_lt _ (by norm_num)
    simp only [inTrace, memKey]
    omega
  all_goals simp [sideReg]

theorem peepHits_lt {s : State} {code key k : Nat} (h : k ∈ s.peepHits code key) : k < 0x400 := by
  simp only [State.peepHits, List.mem_filterMap] at h
  obtain ⟨e, -, h⟩ := h
  split at h
  · split at h
    · simp only [Option.some.injEq] at h; omega
    · cases h
  · cases h

/-- Pages whose headers a signal's chain may write: any chain those of FUNC, ERR and PEEP, and the page of its own start. -/
def Sig.pages (g : Sig) (p : Nat) : Prop :=
  p = 13 ∨ p = 37 ∨ p = 39 ∨ match g with
  | .int q _ _ => p = q
  | .err q _ _ _ _ => p = q
  | _ => False

/-- Whatever signal starts it, a chain touches only what `Side` names. -/
theorem side_chain (n : Nat) (g : Sig) (P : Nat → Prop) (h : ∀ p, g.pages p → P p) : (chain n g).side P := by
  have h13 := h 13 (.inl rfl)
  have h37 := h 37 (.inr (.inl rfl))
  have h39 := h 39 (.inr (.inr (.inl rfl)))
  have late : ∀ g' : Sig, (∀ p, g'.pages p → p = 13 ∨ p = 37 ∨ p = 39 ∨ g.pages p) → ∀ p, g'.pages p → P p := by
    intro g' hg p hp
    rcases hg p hp with rfl | rfl | rfl | hp
    · exact h13
    · exact h37
    · exact h39
    · exact h p hp
  induction n generalizing g with
  | zero => cases g <;> exact side_skip
  | succ n ih =>
    have ih' : ∀ g' : Sig, (∀ p, g'.pages p → p = 13 ∨ p = 37 ∨ p = 39 ∨ g.pages p) → (chain n g').side P := by
      intro g' hg
      refine ih g' (late g' hg) fun g'' hg'' => ?_
      intro p hp
      rcases hg'' p hp with rfl | rfl | rfl | hp
      · exact h13
      · exact h37
      · exact h39
      · exact late g' hg p hp
    cases g with
    | int p i b =>
      have hp : P p := h p (by simp [Sig.pages])
      refine side_look fun s => side_ite (fun _ => side_skip) fun _ => side_cons (side_wrB ?_) (side_cons ?_ (side_cons
        (side_when fun _ => ih' _ (by simp [Sig.pages])) side_nil))
      · simp [sideReg, hp]
      · cases intClass p b
        · exact side_skip
        · exact side_when fun _ => side_look fun s => side_seq (side_upd fun _ => ⟨_, _, _, _, _, _, _, _, rfl⟩)
            (ih' _ (by simp [Sig.pages]))
    | err p i c r info =>
      have hp : P p := h p (by simp [Sig.pages])
      refine side_look fun s => side_cons (side_firstError _ _ _ hp) (side_cons (side_inc ?_) (side_cons
        (ih' _ (by simp [Sig.pages])) (side_cons
        (side_when fun _ => side_cons (side_wr ?_) (side_cons (side_ite (fun _ =>
          side_upd fun _ => ⟨_, _, _, _, _, _, _, _, rfl⟩) fun _ =>
          side_cons (side_loseReport _ h37) (side_cons (ih' _ (by simp [Sig.pages])) side_nil)) side_nil)) side_nil)))
      · simp [sideReg]
      · simp [sideReg]
    | evt src =>
      refine side_look fun s => side_ite (fun _ => side_skip) fun _ => side_ite (fun _ => ih' _ (by simp [Sig.pages])) fun _ =>
        side_ite (fun _ => ih' _ (by simp [Sig.pages])) fun _ => side_ite (fun _ => side_seq
          (side_upd fun _ => ⟨_, _, _, _, _, _, _, _, rfl⟩) (ih' _ (by simp [Sig.pages]))) fun _ =>
          side_upd fun _ => ⟨_, _, _, _, _, _, _, _, rfl⟩
    | raise src =>
      refine side_look fun s => side_ite (fun _ => side_ite (fun _ => ih' _ (by simp [Sig.pages])) fun _ =>
        side_upd fun _ => ⟨_, _, _, _, _, _, _, _, rfl⟩) fun _ =>
        side_ite (fun _ => side_upd fun _ => ⟨_, _, _, _, _, _, _, _, rfl⟩) fun _ => side_ite (fun _ => side_chanEvent _ _) fun _ =>
          side_skip
    | drop f => exact side_seq (side_inc (by simp [sideReg])) (ih' _ (by simp [Sig.pages]))
    | peep st ev key =>
      refine side_look fun s => side_cons (side_each fun k hk => side_cons (side_incW ?_ ?_) (side_cons (side_look fun t =>
        side_when fun _ => side_cons (side_wrB ?_) (side_cons (side_upd fun _ => ⟨_, _, _, _, _, _, _, _, rfl⟩)
          (side_cons (ih' _ (by simp [Sig.pages])) side_nil))) side_nil)) (side_cons (side_when fun _ =>
        ih' _ (by simp [Sig.pages])) side_nil)
      · have := peepHits_lt hk; simp [sideReg]; omega
      · have := peepHits_lt hk; simp [sideReg]; omega
      · simp [sideReg]
    | trace st ev key =>
      exact side_look fun t => side_when fun _ => side_cons (side_traceRecord _ _ _) (side_cons (side_look fun u => side_when fun _ =>
        ih' _ (by simp [Sig.pages])) side_nil)

/-- Every page. -/
def anyPage (_ : Nat) : Prop := True

theorem side_int (p i b : Nat) : (int p i b).side anyPage := side_chain _ _ _ fun _ _ => trivial
theorem side_err (p i c r info : Nat) : (err p i c r info).side anyPage := side_chain _ _ _ fun _ _ => trivial
theorem side_evt (src : Nat) : (evt src).side anyPage := side_chain _ _ _ fun _ _ => trivial
theorem side_peep (st ev key : Nat) : (peep st ev key).side anyPage := side_chain _ _ _ fun _ _ => trivial
theorem side_traceConfirmed (st ev key : Nat) : (traceConfirmed st ev key).side anyPage := side_chain _ _ _ fun _ _ => trivial

/-- A register that no signal writes reads the same after one. -/
theorem Side.copy {s t : State} (h : Side P s t) (b : Bank) (r : Reg) (hr : ¬ sideReg P ⟨b, r.page, r.inst, r.off⟩) :
    t.copy b r = s.copy b r := by simp only [State.copy, h.reg _ hr]

/-- A byte outside the peephole buffer reads the same after a signal. -/
theorem Side.byte {s t : State} (h : Side P s t) (sp i a : Nat) (ha : ¬ inTrace (memKey sp i a)) :
    t.byte sp i a = s.byte sp i a := by simp only [State.byte, h.mem _ ha]

end Sys2Proof.Machine
end

