-- ==== Sys2Proof/Laws/Exec.lean ====
section
/-! SUPPORT. Every command answers a next state, which an effect makes: so what effects keep, every command keeps. -/

set_option maxRecDepth 20000

namespace Sys2Proof.Machine

/-- `f` answers a next state everywhere, and one that an effect makes. -/
def Runs (f : State → Res) : Prop := ∀ s, ∃ p : Prog, f s = .next (p.run s)

theorem runs_done (p : Prog) : Runs (done p) := fun _ => ⟨p, rfl⟩
theorem runs_next : Runs fun s => .next s := fun _ => ⟨.skip, rfl⟩
theorem runs_look {f : State → State → Res} (h : ∀ s, Runs (f s)) : Runs fun s => f s s := fun s => h s s
theorem runs_ite {c : Prop} [Decidable c] {f g : State → Res} (hf : Runs f) (hg : Runs g) :
    Runs (if c then f else g) := by split <;> assumption
theorem runs_then {f g : State → Res} (hf : Runs f) (hg : Runs g) : Runs fun s => thenDo (f s) g := fun s => by
  obtain ⟨p, hp⟩ := hf s
  obtain ⟨q, hq⟩ := hg (p.run s)
  exact ⟨.seq p q, by simp [thenDo, hp, hq]⟩
theorem runs_inTurn {l : List (State → Res)} (h : ∀ f ∈ l, Runs f) : Runs (inTurn l) := by
  induction l with
  | nil => exact runs_next
  | cons f l ih => exact runs_then (h f (by simp)) (ih fun g hg => h g (by simp [hg]))
theorem runs_onBit {v : Word} {i : Nat} {f : State → Res} (h : Runs f) : Runs (onBit v i f) := fun s => by
  unfold onBit; split
  · exact h s
  · exact runs_next s
theorem runs_orElse {i : Option Nat} {f : Nat → State → Res} {g : State → Res} (hf : ∀ n, Runs (f n)) (hg : Runs g) :
    Runs (orElse i f g) := by
  cases i
  · exact hg
  · exact hf _
theorem next_ite {c : Prop} [Decidable c] {x y : Res} {s : State} (hx : ∃ p : Prog, x = .next (p.run s))
    (hy : ∃ p : Prog, y = .next (p.run s)) : ∃ p : Prog, (if c then x else y) = .next (p.run s) := by split <;> assumption
theorem runs_of {f : State → Res} (p : State → Prog) (h : ∀ s, f s = .next ((p s).run s)) : Runs f := fun s => ⟨p s, h s⟩

theorem runs_routeLsio (a : Accessor) (off : Nat) (v : Word) : Runs (routeLsio a off v) := by
  refine runs_orElse (fun n => ?_) <| runs_orElse (fun u => ?_) <| runs_orElse (fun i => ?_) <| runs_orElse (fun m => ?_) <|
    runs_orElse (fun h => ?_) <| runs_orElse (fun h => ?_) (runs_done _)
  · (repeat' split) <;> exact fun s => ⟨_, rfl⟩
  · exact fun s => ⟨_, rfl⟩
  · (repeat' split) <;> exact fun s => ⟨_, rfl⟩
  · (repeat' split) <;> exact fun s => ⟨_, rfl⟩
  · exact fun s => ⟨_, rfl⟩
  · exact fun s => ⟨_, rfl⟩
theorem runs_routeTime (a : Accessor) (off : Nat) (v : Word) : Runs (routeTime a off v) := by
  refine runs_orElse (fun n => runs_inTurn ?_) <| runs_orElse (fun u => ?_) <| runs_orElse (fun i => ?_) <| runs_orElse (fun m => ?_) <|
    runs_orElse (fun h => ?_) (runs_ite (runs_onBit ?_) ?_)
  · simp only [List.mem_cons, List.not_mem_nil, or_false, forall_eq_or_imp, forall_eq]
    refine ⟨runs_done _, ?_, ?_, ?_, ?_, ?_, ?_⟩ <;> exact runs_onBit fun s => ⟨_, rfl⟩
  all_goals exact fun s => ⟨_, rfl⟩
theorem runs_routeFlow (a : Accessor) (off : Nat) (v : Word) : Runs (routeFlow a off v) := by
  refine runs_orElse (fun n => runs_inTurn ?_) (runs_ite (runs_inTurn ?_) (runs_ite (runs_onBit fun s => ⟨_, rfl⟩) (runs_ite (runs_inTurn ?_) (runs_done _))))
  · simp only [List.mem_cons, List.not_mem_nil, or_false, forall_eq_or_imp, forall_eq]
    refine ⟨?_, ?_, ?_, ?_⟩ <;> exact runs_onBit fun s => ⟨_, rfl⟩
  · simp only [List.mem_cons, List.not_mem_nil, or_false, forall_eq_or_imp, forall_eq]
    refine ⟨runs_done _, ?_⟩ ; exact runs_onBit fun s => ⟨_, rfl⟩
  · simp only [List.mem_cons, List.not_mem_nil, or_false, forall_eq_or_imp, forall_eq]
    refine ⟨runs_done _, ?_, ?_, ?_⟩ <;> exact runs_onBit fun s => ⟨_, rfl⟩
theorem runs_routeVault (a : Accessor) (v : Word) : Runs (routeVault a v) := by
  unfold routeVault
  split <;> exact fun s => ⟨_, rfl⟩
theorem runs_routeBurn (a : Accessor) (v : Word) : Runs (routeBurn a v) := by
  unfold routeBurn
  (repeat' split) <;> exact fun s => ⟨_, rfl⟩
theorem runs_routePair (a : Accessor) (v : Word) : Runs (routePair a v) := by
  refine runs_ite (runs_done _) (runs_inTurn ?_)
  simp only [List.mem_cons, List.not_mem_nil, or_false, forall_eq_or_imp, forall_eq]
  refine ⟨?_, ?_, ?_, ?_⟩ <;> exact runs_onBit fun s => ⟨_, rfl⟩
theorem runs_routeOther (a : Accessor) (page off : Nat) (v : Word) : Runs (routeOther a page off v) := by
  unfold routeOther
  dsimp only
  split <;> first
    | exact fun s => ⟨_, rfl⟩
    | exact runs_onBit fun s => ⟨_, rfl⟩
    | exact runs_routePair a v
    | (split <;> first | exact runs_done _ | exact runs_routeVault a v | exact runs_routeBurn a v | exact fun s => ⟨_, rfl⟩ | (split <;> exact fun s => ⟨_, rfl⟩))
    | (refine runs_inTurn ?_
       simp only [List.mem_cons, List.not_mem_nil, or_false, forall_eq_or_imp, forall_eq]
       refine ⟨?_, ?_⟩ <;> exact runs_onBit fun s => ⟨_, rfl⟩)
    | (refine runs_inTurn ?_
       simp only [List.mem_cons, List.not_mem_nil, or_false, forall_eq_or_imp, forall_eq]
       refine ⟨?_, ?_, ?_⟩ <;> exact runs_onBit fun s => ⟨_, rfl⟩)
    | exact runs_look fun s => runs_then (fun s => ⟨_, rfl⟩) (runs_done _)

theorem runs_routeAllowed (a : Accessor) (page off : Nat) (v : Word) : Runs (routeAllowed a page off v) := by
  unfold routeAllowed
  refine runs_ite (runs_done _) <| runs_ite (runs_done _) <| runs_ite (runs_done _) <| runs_ite (runs_done _) <|
    runs_ite (runs_done _) <| runs_ite (runs_done _) <| runs_ite (runs_done _) ?_
  split
  · exact runs_routeLsio a off v
  · exact runs_orElse (fun n => runs_done _) (runs_done _)
  · exact runs_routeTime a off v
  · exact runs_orElse (fun n => runs_of _ fun _ => rfl) (runs_routeOther _ _ _ _)
  · exact runs_ite (runs_of _ fun _ => rfl) (runs_routeOther _ _ _ _)
  · exact runs_orElse (fun n => runs_of _ fun _ => rfl) (runs_done _)
  · exact runs_routeFlow a off v
  · exact runs_orElse (fun n => runs_of _ fun _ => rfl) (runs_done _)
  · refine runs_orElse (fun n => runs_ite (runs_done _) ?_) (runs_done _)
    split <;> exact runs_of _ fun _ => rfl
  · exact runs_routeOther _ _ _ _

theorem runs_routeWrite (a : Accessor) (page off : Nat) (v : Word) : Runs (routeWrite a page off v) := fun s =>
  next_ite (runs_routeAllowed a page off v s) ⟨_, rfl⟩

theorem runs_routeRead (a : Accessor) (page off : Nat) : Runs (routeRead a page off) := by
  unfold routeRead
  dsimp only
  refine runs_ite (runs_done _) ?_
  split <;> first
    | exact runs_orElse (fun _ => runs_of _ fun _ => rfl) (runs_orElse (fun _ => runs_of _ fun _ => rfl) (runs_done _))
    | exact runs_orElse (fun _ => runs_of _ fun _ => rfl) (runs_done _)
    | exact runs_ite (runs_of _ fun _ => rfl) (runs_ite (runs_of _ fun _ => rfl) (runs_done _))
    | exact runs_ite (runs_of _ fun _ => rfl) (runs_done _)
    | exact runs_done _

theorem runs_pairLoRead (a : Accessor) (page : Fin 41) (off : Fin 65536) : Runs (execPairLoRead a page off) := fun s => by
  unfold execPairLoRead
  split
  · exact next_ite (runs_routeRead _ _ _ s) (runs_next s)
  · exact runs_next s

theorem runs_bar0Request (p : Fin 2) (off len : Nat) (data : Option (List Byte)) : Runs (bar0Request p off len data) := by
  unfold bar0Request
  cases data with
  | some b =>
    exact runs_ite (runs_done _) <| runs_ite (runs_of _ fun _ => rfl) <| runs_ite (runs_of _ fun _ => rfl) <|
      runs_ite (runs_routeWrite _ _ _ _) (runs_done _)
  | none =>
    refine runs_then (runs_ite (runs_done _) <| runs_ite (runs_of _ fun _ => rfl) <| runs_ite (runs_of _ fun _ => rfl) <|
      runs_ite (runs_routeRead _ _ _) (runs_done _)) (runs_done _)

theorem runs_bar2Write (f : Fin 2048) (off : Nat) (b : List Byte) : Runs (bar2Write f off b) := by
  refine runs_inTurn fun g hg => ?_
  obtain ⟨e, -, rfl⟩ := List.mem_map.1 hg
  exact fun s => next_ite (next_ite ⟨_, rfl⟩ (runs_next s)) (next_ite (next_ite ⟨_, rfl⟩ (runs_next s))
    (next_ite ⟨_, rfl⟩ (runs_next s)))

theorem runs_bar2Read (f : Fin 2048) (off len : Nat) : Runs (bar2Read f off len) := fun s =>
  next_ite (runs_then (f := execLatchAcquire (.window f) (idx 1023 (off / 8 - 6144))) (runs_of _ fun _ => rfl) (runs_done _) s)
    ⟨_, rfl⟩

theorem runs_inboundMemoryRequest (f : Fin 2048) (bar2 : Bool) (off : Fin 4194304) (len : Fin 4097)
    (data : Option (List Byte)) : Runs (execInboundMemoryRequest f bar2 off len data) := by
  intro s
  refine next_ite (runs_next s) <| next_ite ⟨_, rfl⟩ <| next_ite ⟨_, rfl⟩ <| next_ite ⟨_, rfl⟩ <|
    next_ite (runs_bar0Request _ _ _ _ s) <| next_ite ⟨_, rfl⟩ ?_
  cases data
  · exact runs_bar2Read _ _ _ s
  · exact runs_bar2Write _ _ _ s

/-- Every command answers a next state, and one that an effect makes. -/
theorem exec_runs (c : Instr) : Runs (exec c) := by
  cases c with
  | registerWrite a p o v => exact runs_routeWrite _ _ _ _
  | inboundMemoryRequest => exact runs_inboundMemoryRequest _ _ _ _ _
  | clearOnRead => exact runs_routeRead _ _ _
  | pairLoRead => exact runs_pairLoRead _ _ _
  | _ => exact fun s => ⟨_, rfl⟩

end Sys2Proof.Machine
end

