-- ==== Sys2Proof/Laws/Rows.lean ====
section
/-! SUPPORT. Laws of the register map: what holds of every row of every page, and so of every register copy of a state that
keeps the invariant. -/

namespace Sys2Proof.Machine

/-- What the rows of the register map have in common: a reset value on implemented bits only, words of 32 bits, and no bit of two
access types among those that a write tells apart. -/
def RegRow.ok (r : RegRow) : Bool :=
  let m := r.rw ||| r.ro ||| r.rc ||| r.w1c ||| r.w1s ||| r.wo ||| r.lk ||| r.st
  decide (r.reset &&& m = r.reset) && decide (r.reset < 2 ^ 64) && (r.wide || decide (m < 2 ^ 32)) &&
    decide (r.rw &&& (r.w1c ||| r.lk ||| r.st) = 0) && decide (r.lk &&& r.w1c = 0) && decide (r.rc &&& (r.rw ||| r.st) = 0)

theorem rows_ok : ∀ page : Fin 41, (pageRows page.val).all RegRow.ok = true := by decide +kernel

theorem rowsHeader_ok : rowsHeader.all RegRow.ok = true := by decide

theorem findRow_mem {o : Nat} {l : List RegRow} {r : RegRow} {h : Bool} (e : findRow o l = some (r, h)) :
    r ∈ l ∧ r.half o = some h := by
  induction l with
  | nil => cases e
  | cons a l ih =>
    simp only [findRow] at e
    split at e
    · rename_i b hb
      simp only [Option.some.injEq, Prod.mk.injEq] at e
      obtain ⟨rfl, rfl⟩ := e
      exact ⟨by simp, hb⟩
    · exact ⟨List.mem_cons_of_mem _ (ih e).1, (ih e).2⟩

theorem rowAt_ok {page : Fin 41} {o : Nat} {r : RegRow} {h : Bool} (e : rowAt page.val o = some (r, h)) : r.ok = true := by
  unfold rowAt at e
  split at e
  · exact List.all_eq_true.1 rowsHeader_ok r (findRow_mem e).1
  · exact List.all_eq_true.1 (rows_ok page) r (findRow_mem e).1

end Sys2Proof.Machine
end

