-- ==== Sys2Proof/Laws/State.lean ====
section
/-! SUPPORT. Laws of the state's fields: what each field, and each way of reading a register or a byte, is after each primitive effect;
all true by `rfl`, so that no proof unfolds a record update. -/

namespace Sys2Proof.Machine

/-! ## The four fields under the three primitive effects -/

@[simp] theorem upd_pending (f : Ctl → Ctl) (s : State) : ((ctl f).run s).pending = s.pending := rfl
@[simp] theorem upd_mem (f : Ctl → Ctl) (s : State) : ((ctl f).run s).mem = s.mem := rfl
@[simp] theorem upd_reg (f : Ctl → Ctl) (s : State) : ((ctl f).run s).reg = s.reg := rfl
@[simp] theorem upd_ctl (f : Ctl → Ctl) (s : State) : ((ctl f).run s).ctl = f s.ctl := rfl
@[simp] theorem memSet_pending (a : Nat) (b : Byte) (s : State) : ((Prog.memSet a b).run s).pending = s.pending := rfl
@[simp] theorem memSet_mem (a : Nat) (b : Byte) (s : State) : ((Prog.memSet a b).run s).mem = nset 0 s.mem a b := rfl
@[simp] theorem memSet_reg (a : Nat) (b : Byte) (s : State) : ((Prog.memSet a b).run s).reg = s.reg := rfl
@[simp] theorem memSet_ctl (a : Nat) (b : Byte) (s : State) : ((Prog.memSet a b).run s).ctl = s.ctl := rfl
@[simp] theorem regSet_pending (k : RKey) (v : Word) (s : State) : ((Prog.regSet k v).run s).pending = s.pending := rfl
@[simp] theorem regSet_mem (k : RKey) (v : Word) (s : State) : ((Prog.regSet k v).run s).mem = s.mem := rfl
@[simp] theorem regSet_reg (k : RKey) (v : Word) (s : State) :
    ((Prog.regSet k v).run s).reg = tset RKey.lt k.reset s.reg k (v &&& k.mask) := rfl
@[simp] theorem regSet_ctl (k : RKey) (v : Word) (s : State) : ((Prog.regSet k v).run s).ctl = s.ctl := rfl

/-! ## Reading registers and bytes under effects that do not reach them -/

@[simp] theorem copy_upd (f : Ctl → Ctl) (s : State) (b : Bank) (r : Reg) : ((ctl f).run s).copy b r = s.copy b r := rfl
@[simp] theorem rd_upd (f : Ctl → Ctl) (s : State) (r : Reg) : ((ctl f).run s).rd r = s.rd r := rfl
@[simp] theorem fd_upd (f : Ctl → Ctl) (s : State) (r : Reg) (hi lo : Nat) : ((ctl f).run s).fd r hi lo = s.fd r hi lo := rfl
@[simp] theorem bit_upd (f : Ctl → Ctl) (s : State) (r : Reg) (i : Nat) : ((ctl f).run s).bit r i = s.bit r i := rfl
@[simp] theorem rdW_upd (f : Ctl → Ctl) (s : State) (r : Reg) : ((ctl f).run s).rdW r = s.rdW r := rfl
@[simp] theorem cfg_upd (f : Ctl → Ctl) (s : State) (r : Reg) : ((ctl f).run s).cfg r = s.cfg r := rfl
@[simp] theorem cfd_upd (f : Ctl → Ctl) (s : State) (r : Reg) (hi lo : Nat) : ((ctl f).run s).cfd r hi lo = s.cfd r hi lo := rfl
@[simp] theorem cbit_upd (f : Ctl → Ctl) (s : State) (r : Reg) (i : Nat) : ((ctl f).run s).cbit r i = s.cbit r i := rfl
@[simp] theorem cfgW_upd (f : Ctl → Ctl) (s : State) (r : Reg) : ((ctl f).run s).cfgW r = s.cfgW r := rfl
@[simp] theorem byte_upd (f : Ctl → Ctl) (s : State) (sp i a : Nat) : ((ctl f).run s).byte sp i a = s.byte sp i a := rfl
@[simp] theorem bytes_upd (f : Ctl → Ctl) (s : State) (sp i a n : Nat) : ((ctl f).run s).bytes sp i a n = s.bytes sp i a n := rfl
@[simp] theorem memNat_upd (f : Ctl → Ctl) (s : State) (sp i a n : Nat) : ((ctl f).run s).memNat sp i a n = s.memNat sp i a n := rfl
@[simp] theorem copy_memSet (k : Nat) (v : Byte) (s : State) (b : Bank) (r : Reg) : ((Prog.memSet k v).run s).copy b r = s.copy b r := rfl
@[simp] theorem rd_memSet (k : Nat) (v : Byte) (s : State) (r : Reg) : ((Prog.memSet k v).run s).rd r = s.rd r := rfl
@[simp] theorem fd_memSet (k : Nat) (v : Byte) (s : State) (r : Reg) (hi lo : Nat) : ((Prog.memSet k v).run s).fd r hi lo = s.fd r hi lo := rfl
@[simp] theorem bit_memSet (k : Nat) (v : Byte) (s : State) (r : Reg) (i : Nat) : ((Prog.memSet k v).run s).bit r i = s.bit r i := rfl
@[simp] theorem rdW_memSet (k : Nat) (v : Byte) (s : State) (r : Reg) : ((Prog.memSet k v).run s).rdW r = s.rdW r := rfl
@[simp] theorem cfg_memSet (k : Nat) (v : Byte) (s : State) (r : Reg) : ((Prog.memSet k v).run s).cfg r = s.cfg r := rfl
@[simp] theorem cfd_memSet (k : Nat) (v : Byte) (s : State) (r : Reg) (hi lo : Nat) : ((Prog.memSet k v).run s).cfd r hi lo = s.cfd r hi lo := rfl
@[simp] theorem cbit_memSet (k : Nat) (v : Byte) (s : State) (r : Reg) (i : Nat) : ((Prog.memSet k v).run s).cbit r i = s.cbit r i := rfl
@[simp] theorem cfgW_memSet (k : Nat) (v : Byte) (s : State) (r : Reg) : ((Prog.memSet k v).run s).cfgW r = s.cfgW r := rfl
@[simp] theorem byte_regSet (k : RKey) (v : Word) (s : State) (sp i a : Nat) : ((Prog.regSet k v).run s).byte sp i a = s.byte sp i a := rfl
@[simp] theorem bytes_regSet (k : RKey) (v : Word) (s : State) (sp i a n : Nat) : ((Prog.regSet k v).run s).bytes sp i a n = s.bytes sp i a n := rfl
@[simp] theorem memNat_regSet (k : RKey) (v : Word) (s : State) (sp i a n : Nat) : ((Prog.regSet k v).run s).memNat sp i a n = s.memNat sp i a n := rfl
@[simp] theorem copy_emit (x : Out) (s : State) (b : Bank) (r : Reg) : ((emit x).run s).copy b r = s.copy b r := rfl
@[simp] theorem copy_answer (v : Nat) (s : State) (b : Bank) (r : Reg) : ((answer v).run s).copy b r = s.copy b r := rfl
@[simp] theorem rd_emit (x : Out) (s : State) (r : Reg) : ((emit x).run s).rd r = s.rd r := rfl
@[simp] theorem rd_answer (v : Nat) (s : State) (r : Reg) : ((answer v).run s).rd r = s.rd r := rfl
@[simp] theorem fd_emit (x : Out) (s : State) (r : Reg) (hi lo : Nat) : ((emit x).run s).fd r hi lo = s.fd r hi lo := rfl
@[simp] theorem fd_answer (v : Nat) (s : State) (r : Reg) (hi lo : Nat) : ((answer v).run s).fd r hi lo = s.fd r hi lo := rfl
@[simp] theorem bit_emit (x : Out) (s : State) (r : Reg) (i : Nat) : ((emit x).run s).bit r i = s.bit r i := rfl
@[simp] theorem bit_answer (v : Nat) (s : State) (r : Reg) (i : Nat) : ((answer v).run s).bit r i = s.bit r i := rfl
@[simp] theorem rdW_emit (x : Out) (s : State) (r : Reg) : ((emit x).run s).rdW r = s.rdW r := rfl
@[simp] theorem rdW_answer (v : Nat) (s : State) (r : Reg) : ((answer v).run s).rdW r = s.rdW r := rfl
@[simp] theorem cfg_emit (x : Out) (s : State) (r : Reg) : ((emit x).run s).cfg r = s.cfg r := rfl
@[simp] theorem cfg_answer (v : Nat) (s : State) (r : Reg) : ((answer v).run s).cfg r = s.cfg r := rfl
@[simp] theorem cfd_emit (x : Out) (s : State) (r : Reg) (hi lo : Nat) : ((emit x).run s).cfd r hi lo = s.cfd r hi lo := rfl
@[simp] theorem cfd_answer (v : Nat) (s : State) (r : Reg) (hi lo : Nat) : ((answer v).run s).cfd r hi lo = s.cfd r hi lo := rfl
@[simp] theorem cbit_emit (x : Out) (s : State) (r : Reg) (i : Nat) : ((emit x).run s).cbit r i = s.cbit r i := rfl
@[simp] theorem cbit_answer (v : Nat) (s : State) (r : Reg) (i : Nat) : ((answer v).run s).cbit r i = s.cbit r i := rfl
@[simp] theorem cfgW_emit (x : Out) (s : State) (r : Reg) : ((emit x).run s).cfgW r = s.cfgW r := rfl
@[simp] theorem cfgW_answer (v : Nat) (s : State) (r : Reg) : ((answer v).run s).cfgW r = s.cfgW r := rfl
@[simp] theorem byte_emit (x : Out) (s : State) (sp i a : Nat) : ((emit x).run s).byte sp i a = s.byte sp i a := rfl
@[simp] theorem byte_answer (v : Nat) (s : State) (sp i a : Nat) : ((answer v).run s).byte sp i a = s.byte sp i a := rfl
@[simp] theorem bytes_emit (x : Out) (s : State) (sp i a n : Nat) : ((emit x).run s).bytes sp i a n = s.bytes sp i a n := rfl
@[simp] theorem bytes_answer (v : Nat) (s : State) (sp i a n : Nat) : ((answer v).run s).bytes sp i a n = s.bytes sp i a n := rfl
@[simp] theorem memNat_emit (x : Out) (s : State) (sp i a n : Nat) : ((emit x).run s).memNat sp i a n = s.memNat sp i a n := rfl
@[simp] theorem memNat_answer (v : Nat) (s : State) (sp i a n : Nat) : ((answer v).run s).memNat sp i a n = s.memNat sp i a n := rfl

/-! ## What stands behind the registers, under an output and an answer -/

@[simp] theorem emit_free (x : Out) (s : State) : ((emit x).run s).ctl.free = s.ctl.free := rfl
@[simp] theorem emit_answer (x : Out) (s : State) : ((emit x).run s).ctl.answer = s.ctl.answer := rfl
@[simp] theorem emit_out (x : Out) (s : State) : ((emit x).run s).ctl.out = s.ctl.out ++ [x] := rfl
@[simp] theorem emit_pendObj (x : Out) (s : State) : ((emit x).run s).ctl.pendObj = s.ctl.pendObj := rfl
@[simp] theorem emit_parts (x : Out) (s : State) : ((emit x).run s).ctl.parts = s.ctl.parts := rfl
@[simp] theorem emit_time (x : Out) (s : State) : ((emit x).run s).ctl.time = s.ctl.time := rfl
@[simp] theorem emit_latches (x : Out) (s : State) : ((emit x).run s).ctl.latches = s.ctl.latches := rfl
@[simp] theorem emit_maint (x : Out) (s : State) : ((emit x).run s).ctl.maint = s.ctl.maint := rfl
@[simp] theorem emit_host (x : Out) (s : State) : ((emit x).run s).ctl.host = s.ctl.host := rfl
@[simp] theorem emit_rings (x : Out) (s : State) : ((emit x).run s).ctl.rings = s.ctl.rings := rfl
@[simp] theorem emit_transom (x : Out) (s : State) : ((emit x).run s).ctl.transom = s.ctl.transom := rfl
@[simp] theorem emit_health (x : Out) (s : State) : ((emit x).run s).ctl.health = s.ctl.health := rfl
@[simp] theorem emit_net (x : Out) (s : State) : ((emit x).run s).ctl.net = s.ctl.net := rfl
@[simp] theorem emit_flow (x : Out) (s : State) : ((emit x).run s).ctl.flow = s.ctl.flow := rfl
@[simp] theorem emit_boot (x : Out) (s : State) : ((emit x).run s).ctl.boot = s.ctl.boot := rfl
@[simp] theorem emit_ciph (x : Out) (s : State) : ((emit x).run s).ctl.ciph = s.ctl.ciph := rfl
@[simp] theorem emit_rdma (x : Out) (s : State) : ((emit x).run s).ctl.rdma = s.ctl.rdma := rfl
@[simp] theorem emit_blk (x : Out) (s : State) : ((emit x).run s).ctl.blk = s.ctl.blk := rfl
@[simp] theorem emit_pair (x : Out) (s : State) : ((emit x).run s).ctl.pair = s.ctl.pair := rfl
@[simp] theorem emit_lsio (x : Out) (s : State) : ((emit x).run s).ctl.lsio = s.ctl.lsio := rfl
@[simp] theorem answer_free (v : Nat) (s : State) : ((answer v).run s).ctl.free = s.ctl.free := rfl
@[simp] theorem answer_answer (v : Nat) (s : State) : ((answer v).run s).ctl.answer = v := rfl
@[simp] theorem answer_out (v : Nat) (s : State) : ((answer v).run s).ctl.out = s.ctl.out := rfl
@[simp] theorem answer_pendObj (v : Nat) (s : State) : ((answer v).run s).ctl.pendObj = s.ctl.pendObj := rfl
@[simp] theorem answer_parts (v : Nat) (s : State) : ((answer v).run s).ctl.parts = s.ctl.parts := rfl
@[simp] theorem answer_time (v : Nat) (s : State) : ((answer v).run s).ctl.time = s.ctl.time := rfl
@[simp] theorem answer_latches (v : Nat) (s : State) : ((answer v).run s).ctl.latches = s.ctl.latches := rfl
@[simp] theorem answer_maint (v : Nat) (s : State) : ((answer v).run s).ctl.maint = s.ctl.maint := rfl
@[simp] theorem answer_host (v : Nat) (s : State) : ((answer v).run s).ctl.host = s.ctl.host := rfl
@[simp] theorem answer_rings (v : Nat) (s : State) : ((answer v).run s).ctl.rings = s.ctl.rings := rfl
@[simp] theorem answer_transom (v : Nat) (s : State) : ((answer v).run s).ctl.transom = s.ctl.transom := rfl
@[simp] theorem answer_health (v : Nat) (s : State) : ((answer v).run s).ctl.health = s.ctl.health := rfl
@[simp] theorem answer_net (v : Nat) (s : State) : ((answer v).run s).ctl.net = s.ctl.net := rfl
@[simp] theorem answer_flow (v : Nat) (s : State) : ((answer v).run s).ctl.flow = s.ctl.flow := rfl
@[simp] theorem answer_boot (v : Nat) (s : State) : ((answer v).run s).ctl.boot = s.ctl.boot := rfl
@[simp] theorem answer_ciph (v : Nat) (s : State) : ((answer v).run s).ctl.ciph = s.ctl.ciph := rfl
@[simp] theorem answer_rdma (v : Nat) (s : State) : ((answer v).run s).ctl.rdma = s.ctl.rdma := rfl
@[simp] theorem answer_blk (v : Nat) (s : State) : ((answer v).run s).ctl.blk = s.ctl.blk := rfl
@[simp] theorem answer_pair (v : Nat) (s : State) : ((answer v).run s).ctl.pair = s.ctl.pair := rfl
@[simp] theorem answer_lsio (v : Nat) (s : State) : ((answer v).run s).ctl.lsio = s.ctl.lsio := rfl

end Sys2Proof.Machine
end

