-- ==== Sys2Proof/Laws/Time.lean ====
section
/-! SUPPORT. Laws of what a domain is told to do at its next edge: telling it changes that and nothing else. -/

namespace Sys2Proof.Machine

@[simp] theorem tellDom_acts (n : Nat) (f : DomActs → DomActs) (s : State) : ((tellDom n f).run s).acts n = f (s.acts n) :=
  tget_nmod_same ..

theorem tellDom_acts_other (f : DomActs → DomActs) (s : State) {n m : Nat} (h : m ≠ n) : ((tellDom n f).run s).acts m = s.acts m :=
  tget_nmod_other _ _ _ h

@[simp] theorem tellDom_dom (n m : Nat) (f : DomActs → DomActs) (s : State) : ((tellDom n f).run s).dom m = s.dom m := rfl
@[simp] theorem tellDom_reg (n : Nat) (f : DomActs → DomActs) (s : State) : ((tellDom n f).run s).reg = s.reg := rfl
@[simp] theorem tellDom_mem (n : Nat) (f : DomActs → DomActs) (s : State) : ((tellDom n f).run s).mem = s.mem := rfl
@[simp] theorem tellDom_events (n : Nat) (f : DomActs → DomActs) (s : State) :
    ((tellDom n f).run s).ctl.time.events = s.ctl.time.events := rfl

end Sys2Proof.Machine
end

