-- ==== Sys2Proof/WellFormed.lean ====
section
/-! DEFINITION. Commands that the outside can send: bounds that the operands' types do not carry. -/

namespace Sys2Proof

/-- Read tags of a port (R104). -/
def tagCount : Nat := 8192

/-- Data bytes of one PCIe packet. -/
def tlpBytes : Nat := 4096

/-- Whether a command's operands stand for something that can arrive: a tag of the pool (R104), the data of one packet, a page and
an invalidation tag of PCIe (R111), 16 header bytes (R120), priorities named once (R199), at most 32 bytes of an I2C transfer (R525),
at most 252 changes of a journal record (R396). -/
def Instr.wellFormed : Instr → Bool
  | .registerWrite .. | .clearOnRead .. | .misalignedAccess .. | .pairLoRead .. | .pairLoWrite .. | .pairHiWrite ..
  | .unmappedPageAccess .. | .notOwnerWrite .. | .mgmtOwnerWrite .. | .instSelWrite .. | .commit .. | .commitAll ..
  | .discard .. | .commitBoundary .. | .intSet .. | .intMaskWrite .. | .intSevWrite .. | .bootLock .. | .latchAcquire ..
  | .latchRelease .. | .clrBroken .. | .clrBrokenAndRelease .. | .maintArbitrate .. | .clockLost .. | .clockRestored ..
  | .refclkMeasure .. | .pstateSelect .. | .pstateEnter .. | .pstateWake .. | .pstateExitDone | .scrubSegmentStart ..
  | .scrubSegmentEnd .. | .domIncrWrite .. | .arm .. | .domainFlushDone .. | .step .. | .slew .. | .slewDone ..
  | .holdSet .. | .holdClr .. | .keepalive .. | .disciplineTimeout .. | .snap .. | .snapAll .. | .portDomWrite .. | .go ..
  | .cancel .. | .softwareEventFire | .rescheduleRetry .. | .ppsInEdge .. | .ppsCapNsRead .. | .ppsOutEnable ..
  | .periodOutputEdge | .ppsOutInactiveEdge .. | .ref10mMeasure .. | .ref10mLost | .hostLinkUp .. | .hostLinkDown ..
  | .hotReset .. | .linkDisable .. | .linkOff .. | .l0pWidthChange .. | .aspmL1Entry .. | .tagAllocate .. => true
  | .hostCompletion _ tag _ _ data => decide (tag < tagCount) && decide (data.length ≤ tlpBytes)
  | .completionTimeout _ tag => decide (tag < tagCount)
  | .tagQuarantineEnd _ tag => decide (tag < tagCount)
  | .translationCompletion _ tag _ _ _ _ => decide (tag < tagCount)
  | .invalidateRequest _ _ addr _ itag => decide (addr % 4096 = 0) && decide (itag < 32)
  | .invalidateCompletion .. | .xlatFlush .. | .xlatFlushDone | .windowCommit .. => true
  | .inboundMemoryRequest _ _ _ _ data => decide ((data.getD []).length ≤ tlpBytes)
  | .configRequest .. => true
  | .aerError _ _ hdr => decide (hdr.length ≤ 16)
  | .shutterReady .. | .shutterRelease .. | .shutterOpen .. | .ltrUpdate .. | .vectorRangeWrite .. | .ertCommit ..
  | .moderationTimeout .. | .msixSend .. | .intBucketRefill | .functionLevelReset .. | .vfDisable ..
  | .functionResetDrained .. | .doorbell .. | .ringPoll | .descriptorArrival .. | .descriptorConfirm | .ringNop ..
  | .sglArrival .. | .ringDrained .. | .headWrite .. | .transomDataWrite .. | .transomDataRead .. => true
  | .apertureWrite _ _ b => decide (b.length ≤ tlpBytes)
  | .apertureRead .. | .advance .. | .tgtWrite .. | .laneReconfigure .. | .laneLinkUp .. | .laneLinkDown .. | .caReceived ..
  | .caTimeout .. | .abandon .. | .rxFrame .. | .frameConfirm .. | .cutThroughStart .. | .frameFetchDone ..
  | .schedulerSelect .. | .frameTxEnd .. | .rxDeliver .. | .hostBoundRelease .. => true
  | .pauseReceived _ _ quanta => decide ((quanta.map (·.1)).Nodup)
  | .pauseExpired .. | .pfcRepeat .. | .preemptVerify .. | .macPreempt .. | .lpiEnter .. | .lpiWake .. | .indirDataWrite ..
  | .ruleCounterRead .. | .ctrlLimitRefill | .learnEvent .. | .insert .. | .delete .. | .find .. | .holdExpiry ..
  | .agingSweep | .agingSweepEnd .. | .resize .. | .resizeDone .. | .notifyHeadWrite .. | .membDataWrite .. | .lpmInsert ..
  | .lpmDelete .. | .lpmFind .. | .nhW3Write .. | .nhW0Read .. | .replCtlWrite .. | .shaperRefill | .policerRefill
  | .polW4Write .. | .lvW1Write .. | .louvreCycleStart | .louvreListChange | .launchDue | .telemetrySample
  | .workItemTake .. | .threadStop .. | .threadRun .. | .threadAbort .. | .threadRestart .. | .channelWaitDone ..
  | .memoryOpDone .. | .threadWaitDone | .nop .. | .alu .. | .li .. | .br .. | .jal .. | .jr .. | .ld .. | .st .. | .xld ..
  | .xst .. | .hcopy .. | .chput .. | .chget .. | .wait .. | .latch .. | .fclook .. | .fcput .. | .fcdel .. | .hash ..
  | .frd .. | .fwr .. | .flen .. | .fout .. | .fnew .. | .cpl .. | .evt .. | .done .. | .halt .. | .time .. | .fence ..
  | .unop .. | .uadd .. | .usub .. | .uand .. | .uor .. | .uxor .. | .ushl .. | .ushr .. | .usar .. | .umul .. | .ucmp ..
  | .uins .. | .uld .. | .ust .. | .uxld .. | .uxst .. | .uhdma .. | .uchput .. | .uchget .. | .uwait .. | .ulatch ..
  | .ufc .. | .uhash .. | .uframe .. | .ucpl .. | .uevt .. | .udone .. | .ujmp .. | .ubr .. | .ucall .. | .uret ..
  | .uend .. | .ufbr .. | .urtt .. | .uabort .. | .utrap .. | .reload .. | .csDrainDone .. | .loadDone .. | .csCheckDone ..
  | .selftest .. | .selftestDone .. | .engineReset .. | .icacheInv .. | .putWrite .. | .getRead .. | .flowCacheSweep
  | .coreReset .. | .coreRun .. | .nmi .. | .coreFatal .. | .ctrlqDb .. | .ctrlqHeadWrite .. | .rdmaPacketRx .. | .ackRx ..
  | .nakRx .. | .rnrNakRx .. | .rnrWaitExpiry | .retransmitTimeout | .pacingRelease | .send .. | .write .. | .read ..
  | .cas .. | .faa .. | .flush .. | .recv .. | .armedWrTrigger .. | .rtxResume .. | .responderFlushAck .. | .mrW7Write ..
  | .trigValWrite .. | .lipCtlWrite .. | .blockRead .. | .blockWrite .. | .blockFlush .. | .zero .. | .volInfo ..
  | .errRead .. | .volMode .. | .ssdAct .. | .taskAbort .. | .blockCommandStart .. | .dirtyWaitRelease | .stagingRecord ..
  | .flushDeadline | .placementDone .. | .journalDurable | .nvmeCompletion .. | .nvmeTimeout .. | .controllerReset ..
  | .ssdLinkDown .. | .ssdCriticalWarning .. | .ssdIdentify .. | .sanitise .. | .format .. | .ssdScrub .. | .sanitizePoll ..
  | .ssdActivityEnd .. | .rebuild .. | .rebuildDone | .monitorTrip .. | .monitorClear .. | .pfailNFall | .dumpWriteStart ..
  | .dumpBatchDurable | .dumped | .measure .. | .measureDone .. | .dumpEnWrite .. | .saW15Write .. | .gcmEnc .. | .gcmDec ..
  | .gmacGen .. | .gmacVer .. | .xtsEnc .. | .xtsDec .. | .random .. | .cipherParityFault .. | .maskReseed | .maskStop
  | .generate .. | .unwrap .. | .wrap .. | .erase .. | .eraseDone | .setLimit .. | .pubkey .. | .sign .. | .verify ..
  | .vaultHash .. | .vaultZeroise | .healthTestFail .. | .rngRestartDone .. | .restart .. | .reseed .. | .entropyHoldTimeout
  | .pwrokRise | .pwrokFall | .sysRstNFall | .sysRstNRise .. | .perstNRise .. | .imageAttemptEnd .. | .imageLoadDone ..
  | .hostGo .. | .cfgReady .. | .versionCommit .. | .progKey .. | .revoke .. | .lockOrder .. | .fuseBitBurned | .ospiRead ..
  | .ospiRegisterWrite .. | .programOrErase .. | .ospiDone .. | .xindaordLinkDown | .xindaordLinkUp .. | .helloSend
  | .helloRx .. | .fenceOrderRx .. | .heartbeatSend | .heartbeatRx .. | .deadPeerTimeout | .stageMessageRx ..
  | .stageAckRx .. => true
  | .journalMessageRx _ _ l => decide (l.length ≤ 252)
  | .timeExchange .. | .resyncMessageRx .. | .notificationMirrorRx .. | .pairNakRx .. | .pairRto .. | .form .. | .join ..
  | .admitJoin .. | .declare .. | .admissionComplete .. | .errorRecordWrite | .recHeadWrite .. | .lifeSample .. | .thermtrip
  | .lifeCommitPeriod | .lifeCommitRequest .. | .lifeCommitDone | .cntClr .. | .jtagInstruction .. | .padSwitchConnect ..
  | .gpioEdge .. | .gpioSet .. | .gpioClr .. | .i2cGo .. => true
  | .i2cTransferDone _ _ data => decide (data.length ≤ 32)
  | .i2cSclTimeout .. | .recover .. | .sdaStuckLow .. | .recoveryEnd .. | .uartRxChar .. | .uartDataWrite ..
  | .uartDataRead .. | .i2cDataRead .. | .c22Write .. | .c22Read .. | .c45Address .. | .c45Write .. | .c45Read ..
  | .c45ReadIncrement .. | .mdioDone .. | .vaultCommandDone .. | .readAtomicResponseRx .. | .pairAckRx ..
  | .peerImageRequestRx | .aspmL1Exit .. | .partnerLpiEntry .. | .partnerLpiExit .. | .crReceived .. | .pfailGlitch
  | .perstNFall .. | .ssdLinkUp .. | .consecClear | .padSwitchDisconnect | .uartTxChar .. => true

end Sys2Proof
end

