-- ==== Sys2Proof/Tests/Slice0.lean ====
section
/-! SUPPORT. Small tests: ill-formed commands that the check refuses, single steps, and for each statement states and operands that
meet its hypotheses, one line for each clause. -/

-- The tests are checked one after another: side by side they would each hold a thread that waits.
set_option Elab.async false


namespace Sys2Proof.Tests

open Sys2Proof.Machine

/-- The machine after reset with some register copies and something behind the registers changed. -/
def on (l : List (Bank × Reg × Nat)) (f : Ctl → Ctl := id) : State :=
  let s := (doAll (l.map fun e => setCopy e.1 e.2.1 e.2.2)).run State.reset
  { s with ctl := f s.ctl }

/-- An accessor that is always served: control core 0. -/
def core0 : Accessor := .core 0

/-- An event of domain 0 for a consumer, due now. -/
def ev (c : Consumer) : WEvent := ⟨0, 0, 0, 0, 0, 0, some 0, c⟩

/-- A machine whose wheel has one event, due now. -/
def firing (c : Consumer) (l : List (Bank × Reg × Nat) := []) : State := on l fun k => { k with time.events := [ev c] }

/-- A machine with one event that an arming removed. -/
def stepping (c : Consumer) (l : List (Bank × Reg × Nat) := []) : State := on l fun k => { k with time.flush := [ev c] }

theorem wit_core0 : ∀ page : Fin 41, State.reset.serves core0 page.val := by decide +kernel
theorem wit_alive : State.reset.powered ∧ State.reset.runsBelow 1 ∧ State.reset.runsBelow 2 ∧ State.reset.runsBelow 3 ∧
    State.reset.runsBelow 4 ∧ State.reset.wf = true := by decide +kernel

/-- A machine that runs, with the link of port 1 up and open. -/
def hosted : State := on [(.live, BOOT.STATE, 2), (.live, HOST.LINK_STATUS 1, 0x200), (.live, HOST.SHUT0_STATUS 1, 0)]

theorem wit_RefusedAccessesAreOnlyRecorded : State.reset.serves core0 40 ∧ State.reset.open core0 40 = true ∧ ¬ transomPort 40 65535 ∧
    State.reset.serves core0 16 ∧ (on [(.live, TRANSOM.TGT, 2 ^ 31)]).tBurst = true ∧ (on [(.live, TRANSOM.TGT, 2 ^ 31)]).serves core0 16 ∧
    State.reset.tBurst = false ∧ ¬ transomPort 16 0x7FFF ∧ State.reset.serves core0 0 ∧ State.reset.open core0 0 = true ∧
    hosted.open (.port 1) 0 = true ∧ hosted.owner (.port 1) = false := by
  decide +kernel

theorem wit_FirstErrorIsFrozen : State.reset.serves core0 0 ∧ (0 : Nat) ∉ [13, 37, 39] ∧ ¬ transomPort 0 65535 ∧ State.reset.bit (HDR.ERR_FIRST 0) 31 = false ∧
    (on [(.live, HDR.ERR_FIRST 40, 2 ^ 31)]).serves core0 40 ∧ (on [(.live, HDR.ERR_FIRST 40, 2 ^ 31)]).bit (HDR.ERR_FIRST 40) 31 = true := by
  decide +kernel

theorem wit_WritesFollowTheFieldTypes : State.reset.wf = true ∧ State.reset.serves core0 8 ∧
    (∃ row, rowAt 8 0x40 = some (row, false) ∧ row.wide = false) ∧ 0x40 ∉ selectorOffs 8 ∧
    ∃ row, rowAt 1 0x40 = some (row, false) ∧ row.wide = false := by
  refine ⟨by decide +kernel, by decide +kernel, ⟨_, rfl, rfl⟩, by decide +kernel, ⟨_, rfl, rfl⟩⟩

theorem wit_EachAccessorSelectsForItself : windowed 19 = true ∧ State.reset.serves core0 19 ∧
    511 &&& maskAt .live 19 0x40 < instCount 19 ∧ windowed 20 = true ∧ instCount 20 ≤ 4 &&& maskAt .live 20 0x40 ∧
    instCount 20 ≤ (2 ^ 32 - 1) &&& maskAt .live 20 0x40 := by decide +kernel

theorem wit_PairsMoveTogether :
    (∃ row, rowAt 9 0x108 = some (row, false) ∧ row.wide = true ∧ row.writable = true) ∧ State.reset.serves core0 9 ∧
    State.reset.writeBar core0 9 0x108 0 = .free ∧ (∃ row, rowAt 9 0x10C = some (row, true) ∧ row.wide = true ∧ row.writable = true) ∧
    State.reset.writeBar core0 9 0x10C 0 = .free ∧ State.reset.view core0 9 0x108 = none ∧ State.reset.openBits core0 9 0x108 = 0 := by
  refine ⟨⟨_, rfl, rfl, rfl⟩, by decide +kernel, by decide +kernel, ⟨_, rfl, rfl, rfl⟩, by decide +kernel, by decide +kernel, by decide +kernel⟩

theorem wit_ReadsClearAfterwards : State.reset.wf = true ∧ State.reset.open core0 8 = true ∧
    (∃ row, rowAt 8 0x44 = some (row, false) ∧ row.wide = false ∧ row.rc ≠ 0) ∧ State.reset.view core0 8 0x44 = none ∧
    State.reset.openBits core0 8 0x44 = 0 := by
  refine ⟨by decide +kernel, by decide +kernel, ⟨_, rfl, rfl, by decide⟩, by decide +kernel, by decide +kernel⟩

theorem wit_CommitTakesTheStagedSet : State.reset.wf = true ∧ State.reset.serves core0 19 ∧ hasStaged 19 = true ∧
    State.reset.isPending 19 0 = false ∧ State.reset.chapterRefuses 19 0 (State.reset.commitObj core0 19) = false ∧
    hasStaged 29 = true ∧ objectPage 29 = true ∧ State.reset.isPending 29 0 = false ∧
    (let s := on [(.committed, BLKB.SET_CFG 0, 1)]
     s.serves core0 29 ∧ s.isPending 29 0 = false ∧ s.chapterRefuses 29 0 (s.commitObj core0 29) = false) := by decide +kernel

/-- The machine after a COMMIT of MAC instance `i` as its page. -/
def pendingMac : State := (acceptCommit 19 0 0).run State.reset

theorem wit_RefusedCommitOnlySetsCommitRej : pendingMac.serves core0 19 ∧ hasStaged 19 = true ∧
    pendingMac.isPending 19 (pendingMac.instSel core0 19) = true ∧ windowed 19 = true ∧
    (List.range (instCount 19)).any (pendingMac.isPending 19) = true := by decide +kernel

theorem wit_CommitAllBeginsEveryCopy : State.reset.serves core0 19 ∧
    (List.range (instCount 19)).any (State.reset.isPending 19) = false ∧
    ((List.range (instCount 19)).any fun i => State.reset.chapterRefuses 19 i 0) = false := by decide +kernel

theorem wit_Boundaries : pendingMac.wf = true ∧ pendingMac.powered ∧ 0 < instCount 19 ∧ pendingMac.isPending 19 0 = true ∧
    pendingMac.boundaryNow 19 0 = true ∧ 19 ∉ [4, 15, 18, 20, 24, 25, 26, 28, 29, 30, 35] ∧
    ((acceptCommit 15 0 0).run State.reset).isPending 15 0 = true ∧ ((acceptCommit 15 0 0).run State.reset).boundaryNow 15 0 = true := by
  decide +kernel

/-- A machine with latch 1,023 in a state. -/
def latched (l : Latch) : State := on [] fun k => { k with latches := [(1023, l)] }

theorem wit_AcquireFollowsTheTable : State.reset.serves core0 Pg.latch ∧
    (∃ s : State, s.windowOpen 0 = true ∧ s.mayUseLatch 1023 0 = true) ∧
    hosted.owner (.port 1) = false ∧ hosted.open (.port 1) Pg.latch = true :=
  ⟨by decide +kernel, ⟨on [(.live, HOST.LINK_STATUS 0, 0x200), (.live, LATCH.LATCH_ACCESS 1023, 2 ^ 31), (.live, HOST.SHUT0_STATUS 0, 0)],
    by decide +kernel⟩, by decide +kernel, by decide +kernel⟩

theorem wit_OnlyTheOwnerReleases : (latched ⟨.held, ownerOf core0⟩).serves core0 Pg.latch ∧
    (latched ⟨.held, ownerOf core0⟩).latch 1023 = ⟨.held, ownerOf core0⟩ ∧
    (latched ⟨.heldBroken, ownerOf core0⟩).latch 1023 = ⟨.heldBroken, ownerOf core0⟩ ∧ (State.reset.latch 1023).st = .free ∧
    ((latched ⟨.broken, 5⟩).latch 1023).st = .broken ∧ ((latched ⟨.held, 5⟩).latch 1023).owner ≠ ownerOf core0 := by decide +kernel

/-- A start of a rebuild that waits, with something running. -/
def arbiter (running : List MStart) : State := on [] fun k => { k with
  maint := ⟨0, running, [⟨MA.MAP_REBUILD, 0xFF, .register, 0, 0⟩]⟩ }

theorem wit_ArbiterDecidesTheFirstStart :
    (∃ m, firstBy MStart.before (arbiter []).ctl.maint.waiting = some m ∧ (arbiter []).blockers m = []) ∧
    ∃ m r, firstBy MStart.before (arbiter [⟨MA.FORMAT, 3, .register, 0, 0⟩]).ctl.maint.waiting = some m ∧
      firstBy (fun a b => decide (a.act < b.act) || (decide (a.act = b.act) && decide (a.scope < b.scope)))
        ((arbiter [⟨MA.FORMAT, 3, .register, 0, 0⟩]).blockers m) = some r := by
  exact ⟨⟨_, rfl, by decide⟩, ⟨_, _, rfl, by rfl⟩⟩

theorem wit_ConflictsOfActivities : State.reset.open core0 Pg.maint = true ∧ 0xBC = 0x80 + 4 * (15 : Fin 16).val ∧
    State.reset.view core0 8 0x80 = some (compat 0) := by decide +kernel

theorem wit_ClockInputs : State.reset.bit CLK.CLK_STATUS 0 = false ∧ (on [(.live, CLK.CLK_STATUS, 0x7F)]).bit CLK.CLK_STATUS 6 = true ∧
    (on [(.live, CLK.CLK_STATUS, 0x7F)]).bit CLK.CLK_STATUS 0 = true ∧ (on [(.live, CLK.CLK_STATUS, 0x7F)]).bit CLK.CLK_STATUS 4 = true := by
  decide +kernel

theorem wit_LowPowerStates :
    (∃ us, ∃ s : State, s.runsBelow 4 ∧ s.pstate < s.enters us ∧ s.ctl.boot.exiting = false) ∧
    (firing .telemetry [(.live, PWR.PSTATE_STATUS, 3)]).runsBelow 4 ∧ 0 < (firing .telemetry [(.live, PWR.PSTATE_STATUS, 3)]).pstate ∧
    ((firing .telemetry [(.live, PWR.PSTATE_STATUS, 3)]).allowed < 3 ∧
      ev .telemetry ∈ (firing .telemetry [(.live, PWR.PSTATE_STATUS, 3)]).ctl.time.events ∧
      wtDiff 0 ((firing .telemetry [(.live, PWR.PSTATE_STATUS, 3)]).wt 0) ≤ (exitUs 3 * 500 : Nat)) ∧
    (on [] fun k => { k with boot.exiting := true }).runsBelow 4 ∧
    (on [(.live, (MAC.MAC_STATUS.of 511), 4)]).bit (MAC.MAC_STATUS.of 511) 2 = true := by
  refine ⟨⟨10 ^ 9, State.reset, ?_⟩, ?_, ?_, ?_⟩ <;> decide +kernel

theorem wit_PatrolScrub : (on [(.committed, MEM.DDR_SCRUB, 1)]).cbit MEM.DDR_SCRUB 0 = true ∧
    (on [(.committed, MEM.HBM_SCRUB, 1)]).cbit MEM.HBM_SCRUB 0 = true ∧
    (on [] fun k => { k with maint.running := [⟨MA.DRAM_SCRUB, 0xFF, .periodic, 0, 0⟩] }).mrunning MA.DRAM_SCRUB 0xFF = true := by
  decide +kernel

/-- A machine whose domain 7 is in a state. -/
def domain (st : Nat) (l : List (Bank × Reg × Nat) := []) : State := on ((.live, TIME.DOM_STATUS 7, st) :: l)

theorem wit_EdgeAdvancesEveryDomain : State.reset.pending = [] ∧ State.reset.powered ∧ (State.reset.dom 7).slew = none ∧
    (State.reset.acts 7).step = none ∧ (State.reset.dom 7).frac < nsUnit ∧ (State.reset.dom 7).ns < 1000000000 := by decide +kernel

theorem wit_ArmFlushesTheDomain : State.reset.domState 7 = 0 ∧ (domain 3).serves core0 Pg.time ∧ (domain 3).domState 7 = 3 ∧
    (domain 1).domState 7 = 1 ∧ (domain 2).domState 7 = 2 := by decide +kernel

theorem wit_StepOfAnArmedDomain : (domain 1).powered ∧ (domain 1).domState 7 = 1 ∧
    ((domain 1).ctl.time.flush.any fun e => decide (e.dom = 7)) = false ∧ (domain 2).domState 7 = 2 ∧
    toSigned 32 ((domain 2 [(.live, TIME.DOM_STEP_NS 7, 999999999)]).rd (TIME.DOM_STEP_NS 7)) = 999999999 ∧
    999999999 < toSigned 32 ((domain 2 [(.live, TIME.DOM_STEP_NS 7, 1000000000)]).rd (TIME.DOM_STEP_NS 7)) ∧
    toSigned 32 ((domain 2 [(.live, TIME.DOM_STEP_NS 7, 2 ^ 32 - 1000000000)]).rd (TIME.DOM_STEP_NS 7)) < -999999999 ∧
    State.reset.domState 7 ≠ 2 := by decide +kernel

/-- 6.4 ns in units of 2^-40 ns, its low half in the holding register of domain 7. -/
def incr : State := on [(.loHold, TIME.DOM_INCR 7, 7036874417766 % 2 ^ 32)]

theorem wit_IncrementAndSlew : incr.serves core0 Pg.time ∧
    63936 * nsUnit ≤ (incr.copy .loHold (TIME.DOM_INCR 7) + 2 ^ 32 * (7036874417766 / 2 ^ 32 % 65536)) * 10000 ∧
    (incr.copy .loHold (TIME.DOM_INCR 7) + 2 ^ 32 * (7036874417766 / 2 ^ 32 % 65536)) * 10000 ≤ 64064 * nsUnit ∧
    (incr.copy .loHold (TIME.DOM_INCR 7) + 2 ^ 32 * (0 % 65536)) * 10000 < 63936 * nsUnit ∧ (domain 3).domState 7 = 3 ∧
    ((on [] fun k => { k with time.dom := [(7, ⟨0, 0, 0, none, some ⟨false, 0, 0, some 1⟩⟩)] }).dom 7).slew = some ⟨false, 0, 0, some 1⟩ ∧
    (⟨false, 0, 0, some 1⟩ : Slew).over = true := by
  decide +kernel

theorem wit_HoldoverAndSnapshots : (domain 3).domState 7 = 3 ∧ (domain 3).bit (TIME.DOM_STATUS 7) 2 = false ∧
    State.reset.serves core0 Pg.time ∧ (∃ s : State, s.powered ∧ (s.dom 7).disc = some (2 ^ 60) ∧ s.domState 7 = 3 ∧
      0 < (s.acts 7).lim ∧ (s.acts 7).lim ≤ 2 ^ 60) := by
  refine ⟨by decide +kernel, by decide +kernel, by decide +kernel, { domain 3 with ctl := { (domain 3).ctl with
    time := { (domain 3).ctl.time with
      dom := [(7, ⟨0, 0, 0, some (2 ^ 60), none⟩)], acts := [(7, { DomActs.none with lim := 2 ^ 60 })] } } }, ?_⟩
  decide +kernel

/-- A machine whose PPS input and output 3 are enabled, with an edge of the output due. -/
def ppsOn : State := firing (.periodOut 3) [(.live, TIME.PPS_IN_CTL 3, 1), (.live, TIME.PPS_OUT_CTL 3, 1), (.live, TIME.REF10M_CTL, 1)]

theorem wit_PulsesAndReference : ppsOn.powered ∧ ppsOn.bit (TIME.PPS_IN_CTL 3) 0 = true ∧ (ppsOn.pps 3).length < 4 ∧
    ppsOn.open core0 Pg.time = true ∧ ppsOn.serves core0 Pg.time ∧ ppsOn.nextEvent = some (ev (.periodOut 3), false) ∧
    (ev (.periodOut 3)).due = some ppsOn.dispatchSlot.1 ∧ ppsOn.bit (TIME.PPS_OUT_CTL 3) 0 = true ∧ ppsOn.bit TIME.REF10M_CTL 0 = true ∧
    tget false (on [] fun k => { k with time.ppsOutLevel := [(3, true)] }).ctl.time.ppsOutLevel 3 = true ∧
    tget 0 State.reset.ctl.time.ppsOffAt 3 * 2 ^ 24 ≤ (State.reset.dom (State.reset.fd (TIME.PPS_OUT_CTL 3) 6 4)).units ∧
    tget none State.reset.ctl.time.ppsLatch 3 = none ∧
    tget none (on [] fun k => { k with time.ppsLatch := [(3, some 5)] }).ctl.time.ppsLatch 3 = some 5 ∧
    (stepping (.periodOut 3)).nextEvent = some (ev (.periodOut 3), true) := by decide +kernel

theorem wit_WheelRequests : State.reset.serves core0 Pg.wheel ∧ State.reset.wheelStatus 0 0 (.abs 100) = ST.OK ∧
    (on [(.live, TIME.DOM_STATUS 0, 2)]).wheelStatus 0 0 (.abs 100) ≠ ST.OK ∧
    (firing (.swEvent 5)).nextEvent = some (ev (.swEvent 5), false) := by decide +kernel

theorem wit_Refills : (firing (.shaperRefill 167)).runsBelow 3 ∧ (firing (.shaperRefill 167)).nextEvent = some (ev (.shaperRefill 167), false) ∧
    (ev (.shaperRefill 167)).due = some (firing (.shaperRefill 167)).dispatchSlot.1 ∧
    (stepping (.shaperRefill 167)).nextEvent = some (ev (.shaperRefill 167), true) ∧
    (firing (.polBlock 1023)).nextEvent = some (ev (.polBlock 1023), false) ∧
    (stepping (.polBlock 1023)).nextEvent = some (ev (.polBlock 1023), true) := by decide +kernel

theorem wit_MeterColours : (⟨1, 0, 1, 0, 1, 256, 0, 0, 0, 0⟩ : Policer).w0 % 8 = 1 ∧
    ((⟨1, 0, 1, 0, 1, 256, 0, 0, 0, 0⟩ : Policer).meter 0 1).1 = 0 ∧ ((⟨1, 0, 1, 0, 1, 255, 256, 0, 0, 0⟩ : Policer).meter 0 1).1 = 1 ∧
    ((⟨1, 0, 1, 0, 1, 255, 255, 0, 0, 0⟩ : Policer).meter 0 1).1 = 2 ∧ ((⟨2, 0, 1, 0, 1, 256, 256, 0, 0, 0⟩ : Policer).meter 0 1).1 = 0 := by
  decide

/-- A machine with a list of port 511 that runs. -/
def louvred : State := on [(.selector, ⟨24, 0x280, core0.code⟩, 511)] fun k => { k with
  net.louvres := [(511, { Louvre.init with run := true })] }

theorem wit_TrafficTables : louvred.serves core0 Pg.tm ∧ (louvred.louvre (field (louvred.sel core0 Pg.tm 0x280) 8 0)).run = true ∧
    (louvred.louvre 511).bank = field (louvred.sel core0 Pg.tm 0x280) 24 24 ∧ (State.reset.louvre 0).run = false := by decide +kernel

theorem wit_LouvreEvents : (∃ s : State, s.runsBelow 3 ∧ s.fires (ev (.louvre 511)) (.louvre 511) ∧ s.louvreStarts 511 = true) ∧
    (∃ s : State, s.fires (ev (.louvre 0)) (.louvre 0) ∧ s.louvreStarts 0 = false) ∧
    (stepping (.louvre 511)).steps (ev (.louvre 511)) (.louvre 511) := by
  unfold State.fires State.steps
  exact ⟨⟨on [] fun k => { k with
      time.events := [ev (.louvre 511)], net.louvres := [(511, { Louvre.init with run := true, count := 1, pendingAt := some 0 })] },
    by decide +kernel⟩, ⟨on [] fun k => { k with
      time.events := [ev (.louvre 0)]
      net.louvres := [(0, { Louvre.init with run := true, count := 2 })]
      net.lvEntry := [(0, (1, 1000)), (1, (2, 1000))] }, by decide +kernel⟩, by decide +kernel⟩

/-- A copy of frame 0 in a queue of a port, waiting for its launch time. -/
def waiting (port : Nat) : Copy := ⟨9, 0, port, 0, [0x5A], 64, none, none, false, some 0, false, true, 0, false, false, none, false, none⟩

theorem wit_LaunchesAndTelemetry : (firing (.frameLaunch 9)).runsBelow 3 ∧
    (firing (.frameLaunch 9)).fires (ev (.frameLaunch 9)) (.frameLaunch 9) ∧ (firing .telemetry).fires (ev .telemetry) .telemetry ∧
    State.reset.serves core0 Pg.time ∧
    ∃ s : State, s.runsBelow 3 ∧ s.steps (ev (.frameLaunch 9)) (.frameLaunch 9) ∧
      ((leaves (ev (.frameLaunch 9)) true).run s).copies.find? (fun c => decide (c.id = 9)) = some (waiting 0) := by
  unfold State.fires State.steps
  refine ⟨by decide +kernel, by decide +kernel, by decide +kernel, by decide +kernel,
    on [] fun k => { k with time.flush := [ev (.frameLaunch 9)], net.queues := [(0, [waiting 0])] }, ?_⟩
  decide +kernel

theorem wit_LatencyReports : (∃ s : State, s.runsBelow 3 ∧ (s.link 3).ltrEn = true ∧ s.linkUp 3 = true ∧
    field (s.rd (HOST.LTR_CFG 1)) 15 0 * 1000 ≤ field (s.rd (HOST.LTR_CFG 1)) 31 16 * 1000) := by
  refine ⟨on [(.live, HOST.LINK_STATUS 1, 2 ^ 19)] fun k => { k with host.links := [(3, { Link.init with ltrEn := true })] }, ?_⟩
  decide +kernel

/-- A machine with a copy waiting on port 0, and what else a clause needs. -/
def queued (l : List (Bank × Reg × Nat)) (c : Copy := waiting 0) : State := on l fun k => { k with net.queues := [(0, [c])] }

/-- The machine that the scheduler sees: frames that no cycle could carry are gone. -/
def sifted (s : State) : State := (Prog.each (List.range 16) fun k => dropOversize (16 * 0 + k)).run s

/-- A frame that needs no launch time. -/
def plain : Copy := { waiting 0 with launch := none, eligible := true }

theorem wit_SchedulerTakesItsPick :
    ((sifted (queued [] plain)).pick 0 none).isSome = true ∧ (sifted (queued [] plain)).portUp 0 = false ∧
    ((sifted (queued [(.live, MAC.MAC_STATUS.of 0, 1), (.committed, MAC.MAC_CTL.of 0, 2)] plain)).pick 0 none).isSome = true ∧
    (sifted (queued [(.live, MAC.MAC_STATUS.of 0, 1), (.committed, MAC.MAC_CTL.of 0, 2)] plain)).macReady 0 = true ∧
    (sifted (queued [(.live, MAC.MAC_STATUS.of 0, 1), (.committed, MAC.MAC_CTL.of 0, 2)] plain)).cfg (TM.LATE_LIMIT.of (objQ 0)) = 0 ∧
    plain.bytes.length ≤ (sifted (queued [] plain)).cfd (MAC.MAX_FRAME.of 0) 13 0 - 4 := by decide +kernel

/-- A machine whose domain 0 stands at 1 s, past a launch time of 0. -/
def late : State :=
  let s := queued [(.live, MAC.MAC_STATUS.of 0, 1), (.committed, MAC.MAC_CTL.of 0, 2), (.committed, TM.LATE_LIMIT.of (objQ 0), 5)]
    { waiting 0 with eligible := true }
  { s with ctl := { s.ctl with time := { s.ctl.time with dom := [(0, ⟨1, 0, 0, none, none⟩)] } } }

theorem wit_SchedulerDropsLate : ((sifted late).pick 0 none).isSome = true ∧
    (5 : Int) < (sifted late).lateness { waiting 0 with eligible := true } ∧
    (sifted late).cfg (TM.LATE_LIMIT.of (objQ 0)) = 5 := by decide +kernel

/-- A machine whose port 511 is up with a MAC_CTL. -/
def listening (v : Nat) : State := on [(.live, MAC.MAC_STATUS.of 511, 1), (.committed, MAC.MAC_CTL.of 511, v)]

theorem wit_FlowControlOfPorts : ((listening 0x11).runsBelow 3 ∧ (listening 0x11).portUp 511 = true ∧ (listening 0x11).macBit 511 0 = true ∧
      (listening 0x11).macBit 511 4 = true) ∧
    ((listening 0x21).runsBelow 3 ∧ (listening 0x21).portUp 511 = true ∧ (listening 0x21).macBit 511 0 = true ∧
      (listening 0x21).macBit 511 5 = true ∧ (listening 0x21).macBit 511 4 = false) ∧
    (∃ s : State, s.runsBelow 3 ∧ s.lossless 511 8 = true ∧ tget false s.ctl.net.pfcSent (16 * 511 + 8) = true ∧ s.xon 511 ≤ s.usage true 511 8) :=
  ⟨by decide +kernel, by decide +kernel,
    on [(.committed, TM.PFC_THRESH.of (objP 511), 0), (.committed, MAC.MAC_CTL.of 511, 0x20)] fun k => { k with net.pfcSent := [(16 * 511 + 8, true)] }, by decide +kernel⟩

/-- What port 511 sends. -/
def onWire : Sending := ⟨{ waiting 511 with bytes := List.replicate 200 0 }, 0, none, false, 0, false, 0, 0⟩

theorem wit_FramePreemption : (on [(.committed, MAC.MAC_CTL.of 511, 0x80)]).macBit 511 7 = true ∧
    (on [(.committed, MAC.MAC_CTL.of 511, 0x80)]).macBit 511 10 = false ∧
    (on [(.committed, MAC.MAC_CTL.of 511, 0x80)]).fd (MAC.MAC_STATUS.of 511) 4 3 < 2 ∧
    ∃ s : State, s.runsBelow 3 ∧ s.sending 511 = some onWire ∧ s.preemptable 511 onWire.copy.cls = true ∧ s.fragMin 511 ≤ 60 + 4 ∧
      onWire.sent + 60 < onWire.copy.bytes.length :=
  ⟨by decide +kernel, by decide +kernel, by decide +kernel,
    on [(.committed, MAC.MAC_CTL.of 511, 0x480), (.committed, MAC.PREEMPT_MAP.of 511, 0xFF)] fun k => { k with
      net.sending := [(511, some onWire)] }, by decide +kernel⟩

/-- A machine whose port 8 may use LPI and is up. -/
def lpiReady (l : List (Bank × Reg × Nat) := []) (f : Ctl → Ctl := id) : State :=
  on ([(.committed, MAC.MAC_CTL.of 8, 0x40), (.live, LANE.LANE_CTL 1, 2), (.live, MAC.MAC_STATUS.of 8, 1)] ++ l) f

theorem wit_EnergyEfficientEthernet : lpiReady.runsBelow 3 ∧ lpiReady.lpiPort 8 = true ∧ lpiReady.portUp 8 = true ∧
    lpiReady.sending 8 = none ∧ tget false lpiReady.ctl.net.lpiTx 8 = false ∧
    (List.range 16).all (fun k => (lpiReady.queue (16 * 8 + k)).isEmpty) = true ∧
    lpiReady.dueSoon 8 (lpiReady.cfd (MAC.LPI_TW.of 8) 15 0 + lpiReady.cfd (MAC.LPI_IDLE.of 8) 15 0) = false ∧
    lpiReady.bit (MAC.MAC_STATUS.of 8) 2 = false ∧
    (let s := lpiReady [] fun k => { k with net.lpiTx := [(8, true)], net.queues := [(128, [waiting 8])] }
     tget false s.ctl.net.lpiTx 8 = true ∧ (List.range 16).any (fun k => !(s.queue (16 * 8 + k)).isEmpty) = true) := by decide +kernel

/-- A frame of 64 bytes from port 511, not yet confirmed. -/
def frame : Frame := ⟨7, 3, 0, 511, none, List.replicate 60 0, 0, false, false, 0, 0, false, false, 0, Dom.zero,
  ⟨[], [], 0, 0, 0, 0, none, none, none, 0, 0, false⟩, [], ⟨[], false, false, false, .drop, 0, 0, false, none, false, false, false, none,
  none, false, false, (0, 0), 0⟩, true, 0, 0, 0, 0, 0, (0, 0)⟩

theorem wit_FramesReceived :
    (on [(.live, MAC.MAC_STATUS.of 511, 1), (.committed, MAC.MAC_CTL.of 511, 1)]).portUp 511 = true ∧
    (on [(.live, MAC.MAC_STATUS.of 511, 1), (.committed, MAC.MAC_CTL.of 511, 1)]).macBit 511 0 = true ∧
    [frame].find? (fun x => decide (x.id = frame.id)) = some frame ∧ frame.oversize = false ∧ frame.trunc = false ∧ frame.filt = 0 ∧
    [{ frame with filt := 1 }].find? (fun x => decide (x.id = frame.id)) = some { frame with filt := 1 } := by decide +kernel

/-- A descriptor of a TYPE on ring 5, its other bytes 0. -/
def work (typ : Nat) : Work := ⟨5, 0, 65536, 0, leBytes 64 (256 * typ), [], [], 0, 0, 0, 0, 0⟩

/-- A machine with work item 3. -/
def working (w : Work) (l : List (Bank × Reg × Nat) := []) (f : Ctl → Ctl := id) : State :=
  on l fun k => f { k with rings.works := [(3, w)] }

/-- A copy of an unconfirmed frame, and a machine in which it may start early. -/
def early : Copy := { plain with frame := 7, confirmed := false }
def cutting : State := on [(.live, MAC.MAC_STATUS.of 0, 1), (.committed, MAC.MAC_CTL.of 0, 2), (.committed, MAC.MAC_CTL.of 511, 8),
  (.committed, MAC.CT_START.of 511, 64)] fun k => { k with net.queues := [(0, [early])], net.frames := [frame] }

theorem wit_CutThroughSendsAndDelivery : cutting.runsBelow 3 ∧
    (cutting.ctl.net.queues.flatMap (·.2)).find? (fun x => decide (x.id = early.id) && !x.confirmed) = some early ∧
    cutting.ctl.net.frames.find? (fun x => decide (x.id = early.frame)) = some frame ∧ cutting.macBit 511 3 = true ∧
    early.noCut = false ∧ early.spill = false ∧ cutting.portRate early.port ≤ cutting.portRate 511 ∧ cutting.portUp early.port = true ∧
    cutting.macReady early.port = true ∧ max 64 (min 512 (cutting.cfd (MAC.CT_START.of 511) 9 0)) ≤ frame.bytes.length + 4 ∧
    (cutting.pick early.port (some early.id)).map (·.1) = some early ∧
    (working (work 0x10)).runsBelow 3 ∧ (working (work 0x10)).work? 3 = some (work 0x10) ∧ (work 0x10).typ = 0x10 ∧
    (work 0x10).reads = 0 ∧ (work 0x10).stage ≠ 1 ∧ (work 0x10).status = ST.OK ∧ (work 0x10).length ≤ (work 0x10).buf.length ∧
    (work 0x10).stage ≠ 3 ∧ { work 0x10 with status := 5 }.typ = 0x10 := by decide +kernel

theorem wit_LanesAndCalendars : State.reset.serves core0 Pg.lane ∧ State.reset.serves core0 Pg.cal ∧
    (on [(.live, LANE.LANE_CTL 63, 3)]).laneSlots 63 ≠ 0 ∧ (on [(.live, LANE.LANE_CTL 63, 3)]).laneUp 63 = false ∧
    (on [(.live, LANE.LANE_CTL 63, 3)]).clockRuns (63 / 16) = true ∧
    tget false (on [] fun k => { k with net.calWait := [(15, true)] }).ctl.net.calWait 15 = true ∧
    (on [(.live, CAL.GRP_STATUS 15, 1)]).bit (CAL.GRP_STATUS 15) 0 = true ∧
    ((acceptCommit Pg.cal 0 0).run State.reset).isPending Pg.cal 0 = true := by decide +kernel

/-- A machine whose first link is in L0 with its shutter open. -/
def linked (l : List (Bank × Reg × Nat) := []) (f : Ctl → Ctl := id) : State := on ((.live, HOST.LINK_STATUS 0, 0x3A0) :: l) f

/-- The machine with that link, past the retries of R447, with function 1 in reset. -/
def resetting : State := linked [] fun k => { k with host.retryEnded := true, host.fns := [(1, { FnSt.init with busy := true })] }

theorem wit_FunctionResets : resetting.powered ∧ resetting.linkUp (resetting.linkOf 0) = true ∧ resetting.linkUp (resetting.linkOf 1) = true ∧
    resetting.ctl.host.retryEnded = true ∧ resetting.pf ≠ 2 ∧ (resetting.fnSt 0).busy = false ∧ resetting.fnExists 0 = true ∧
    (resetting.fnSt 1).busy = true ∧ resetting.fnDrained 1 = true := by decide +kernel

theorem wit_ShuttersFollowTheirStates : (linked [(.live, shutReg 0, 1)]).powered ∧ (linked [(.live, shutReg 0, 1)]).shut 0 = 1 ∧
    (linked [(.live, shutReg 0, 1)]).linkUp 0 = true ∧ (linked [(.live, shutReg 0, 1)]).fenced = false ∧
    (linked [(.live, shutReg 0, 3)]).shut 0 = 3 ∧
    ((linked [(.live, shutReg 0, 3)]).ctl.host.fns.any fun e => e.2.busy && decide ((linked [(.live, shutReg 0, 3)]).linkOf e.1 = 0)) = false ∧
    (linked [(.live, shutReg 2, 2)]).serves core0 12 ∧ 1 % 4 = 1 ∧ (linked [(.live, shutReg 2, 2)]).shut (2 * 1) = 2 ∧
    (linked []).shut (2 * 1) ≠ 2 := by decide +kernel

theorem wit_HostLinks : (on [] fun k => { k with host.perst := [(2, true)] }).linkFormed 2 = true ∧
    tget false (on [] fun k => { k with host.perst := [(2, true)] }).ctl.host.perst 2 = true ∧
    (on [] fun k => { k with host.perst := [(2, true)] }).bit (HOST.CTL (2 / 2)) 1 = false ∧
    (on [] fun k => { k with host.perst := [(2, true)] }).clockRuns (5 + 2 / 2) = true ∧ linked.linkUp 0 = true ∧
    State.reset.serves core0 11 := by decide +kernel

theorem wit_LinkPower : linked.powered ∧ linked.linkUp 0 = true ∧ linked.bit (HOST.LINK_STATUS 0) 8 = true ∧
    linked.bit (HOST.L0P_CFG 0) 31 = false ∧ linked.fd (HOST.L0P_CFG 0) 23 16 < 100 ∧ ((linked.link 0).trained ≠ linked.fd (HOST.LINK_STATUS 0) 7 3) ∧
    0 ≤ linked.fd (HOST.L0P_CFG 0) 23 16 ∧ 0 < linked.fd (HOST.L0P_CFG 0) 7 0 ∧ 2 < linked.fd (HOST.LINK_STATUS 0) 7 3 ∧
    (linked.ctl.host.reqs.any fun r => decide (r.port = 0)) = false ∧
    (linked.ctl.rings.posts.any fun p => decide (p.fn / 1024 = 0)) = false ∧
    40000 ≤ ((linked [] fun k => { k with host.links := [(0, { Link.init with ltrSent := 40000 })] }).link 0).ltrSent := by decide +kernel

/-- A host read of function 0 outstanding with tag 8,191. -/
def outstanding : HostReq := ⟨4, 0, 0, 0x1000, 64, .data 3 0, some 8191, false, false, [], false, false, 0⟩

/-- A machine with a host read. -/
def reading (r : HostReq) (l : List (Bank × Reg × Nat) := []) (f : Ctl → Ctl := id) : State :=
  linked l fun k => f { k with host.reqs := [r] }

theorem wit_LinkErrors : (((aerUnc 0 4 []).run State.reset).link 0).uncSev.getLsbD 4 = true ∧
    (((aerUnc 0 20 []).run State.reset).link 0).uncSev.getLsbD 20 = false ∧
    (reading outstanding).ctl.host.reqs.find? (fun r => decide (r.port = 0) && decide (r.tag = some 8191)) = some outstanding ∧
    ((reading outstanding).fnCfg outstanding.fn).ctoDis = false := by decide +kernel

/-- A machine in which function 0 answers configuration requests. -/
def configured (l : List (Bank × Reg × Nat) := []) : State := linked l fun k => { k with host.retryEnded := true }

theorem wit_ConfigurationRequests : configured.powered ∧ configured.linkUp (configured.linkOf 0) = true ∧
    linked.ctl.host.retryEnded = false ∧ configured.ctl.host.retryEnded = true ∧ (configured.fnSt 0).busy = false ∧ configured.pf ≠ 2 ∧
    configured.fnExists 0 = true ∧ (CfgOp.read .busMaster).initiatesFlr = false ∧ (resetting.fnSt 1).busy = true ∧
    resetting.linkUp (resetting.linkOf 1) = true ∧ 2047 < (configured [(.live, FUNC.VEC_COUNT.of 0, 2048)]).fd (FUNC.VEC_COUNT.of 0) 11 0 := by
  decide +kernel

theorem wit_VectorsAndRouting : State.reset.serves core0 Pg.func ∧ (State.reset.fnCfg (State.reset.sel core0 13 0x40 % 2048)).msixEn = false ∧
    (on [(.live, FUNC.VEC_COUNT.of 0, 2048)]).vecOverlap 0 14336 2048 = false ∧
    (on [(.live, FUNC.VEC_COUNT.of 0, 2048)]).fd (FUNC.VEC_COUNT.of 0) 11 0 = 2048 ∧ 14336 % 16384 + 2048 ≤ 16384 ∧
    (2048 ≤ if 0 % 1024 < 8 then 2048 else 256) ∧ State.reset.vecOverlap 0 0 2048 = false ∧
    0 < tget 0 (on [] fun k => { k with host.modCnt := [(4095, 1)] }).ctl.host.modCnt 4095 ∧
    (on [(.committed, FUNC.ERT_W1 4095, 0x10000)]).cfd (FUNC.ERT_W1 4095) 23 16 ≠ 0 := by decide +kernel

/-- A machine in which vector 2,047 of function 0 is raised and may be sent. -/
def raising (l : List (Bank × Reg × Nat) := []) : State := linked ((.live, FUNC.VEC_COUNT.of 0, 2048) :: l) fun k => { k with
  host.cfg := [(0, { FnCfg.init with bme := true, msixEn := true })]
  host.fns := [(0, { FnSt.init with tokens := 1 })]
  host.vecs := [(2047, ⟨0xFEE00000, 5, false, false, true, false⟩)] }

theorem wit_MsixSends : raising.runsBelow 4 ∧ 2047 < raising.fd (FUNC.VEC_COUNT.of 0) 11 0 ∧
    (raising.vec (raising.fd (FUNC.VEC_BASE.of 0) 13 0 + 2047)).raised = true ∧ (raising.fnSt 0).busy = false ∧ (raising.fnCfg 0).bme = true ∧
    (raising.fnCfg 0).msixEn = true ∧ (raising.vec 2047).masked = false ∧ (raising.fnCfg 0).fnMask = false ∧
    raising.linkOpen (raising.linkOf 0) = true ∧ raising.cfd (FUNC.INT_SHARE.of 0) 15 0 = 0 ∧
    (raising [(.committed, FUNC.INT_SHARE.of 0, 9)]).cfd (FUNC.INT_SHARE.of 0) 15 0 ≠ 0 ∧ (raising.fnSt 0).tokens ≠ 0 ∧
    (firing (.intBucket 2047)).nextEvent = some (ev (.intBucket 2047), false) ∧
    (stepping (.intBucket 2047)).nextEvent = some (ev (.intBucket 2047), true) ∧ State.reset.dmaHeld 2047 = false ∧
    (let s := on [(.committed, FUNC.DMA_SHARE.of 0, 0x10000)] fun k => { k with host.fns := [(0, { FnSt.init with dmaFree := 9 })] }
     s.dmaHeld 0 = true ∧ (s.fnSt 0).half = false) := by decide +kernel

/-- A host read of function 0 for a purpose, waiting for a tag. -/
def wanting (p : Purpose) : HostReq := ⟨4, 0, 0, 0x1000, 64, p, none, false, false, [], false, false, 0⟩

/-- A machine whose function 0 has a window over all addresses and whose reads have tags. -/
def tagged (p : Purpose) (l : List (Bank × Reg × Nat) := []) (f : Ctl → Ctl := id) : State :=
  reading (wanting p) ((.committed, FUNC.TAG_QUOTA.of 0, 256) :: l) fun k => f { k with
    host.windows := [(0, ⟨0, 2 ^ 64 - 1, true, true, true⟩)] }

theorem wit_TagsAndCompletions : (tagged (.data 3 0)).runsBelow 4 ∧
    (tagged (.data 3 0)).dmaNext 0 = some (wanting (.data 3 0), true) ∧
    (tagged (.data 3 0) [(.live, HOST.LINK_STATUS 0, 0)]).linkOpen 0 = false ∧
    (tagged (.data 3 0) [(.live, HOST.LINK_STATUS 0, 0)]).dmaNext 0 = some (wanting (.data 3 0), true) ∧
    (tagged (.data 3 0)).linkOpen 0 = true ∧ (tagged (.qp 1 2 3)).dmaNext 0 = some (wanting (.qp 1 2 3), true) ∧
    (tagged (.ats 1 2 3)).dmaNext 0 = some (wanting (.ats 1 2 3), true) ∧
    (tagged (.data 3 0)).check 0 0x1000 64 false = .pass ∧ (on [] fun k => { k with host.windows := [(0, ⟨0, 0xFFF, true, true, true⟩)] }).check 0 0x1000 64 false = .denied false ∧
    (tagged (.data 3 0) [] fun k => { k with host.cfg := [(0, { FnCfg.init with atsEn := true })] }).check 0 0x1000 64 false = .miss 1 ∧
    (reading outstanding).ctl.host.reqs.find? (fun r => decide (r.port = 0) && decide (r.tag = some 8191) && r.isRead) = some outstanding ∧
    State.reset.ctl.host.reqs.find? (fun r => decide (r.port = 1) && decide (r.tag = some 0)) = none := by decide +kernel

/-- A translation request outstanding with tag 1. -/
def translating : HostReq := ⟨4, 0, 0, 0, 0, .ats 5 0 1, some 1, false, false, [], false, false, 0⟩

theorem wit_Translations : (reading translating).ctl.host.reqs.find? (fun r => decide (r.port = 0) && decide (r.tag = some 1)) = some translating ∧ translating.discard = false ∧
    (on [] fun k => { k with host.invals := [⟨1, 1024, 31, false, []⟩] }).ctl.host.invals.find? (fun i => decide (i.port = 1) && !i.flush &&
      !(on [] fun k => { k with host.invals := [⟨1, 1024, 31, false, []⟩] }).invalUsers i) = some ⟨1, 1024, 31, false, []⟩ ∧
    State.reset.serves core0 Pg.xlat ∧ State.reset.bit XLAT.FLUSH_STATUS 0 = false ∧ (on [(.live, XLAT.FLUSH_STATUS, 1)]).bit XLAT.FLUSH_STATUS 0 = true ∧
    (on [] fun k => { k with host.invals := [⟨1, 1024, 31, true, []⟩] }).ctl.host.invals.find? (·.flush) = some ⟨1, 1024, 31, true, []⟩ ∧
    (on [] fun k => { k with host.invals := [⟨1, 1024, 31, true, []⟩] }).invalUsers ⟨1, 1024, 31, true, []⟩ = false := by decide +kernel

/-- A machine with an active ring of 64 entries of function 0, local number 4,095, its head entry as `h` says. -/
def ringed (r : Nat) (h : List Held) (g : RingSt → RingSt := id) : State :=
  linked [(.committed, RING.CTX_CTL.of r, 0x601), (.committed, RING.CTX_LOCAL.of r, 4095)] fun k => { k with
    rings.rings := [(r, g { RingSt.init with st := .active, held := h })] }

/-- An entry with OWN as the first pass expects, and one with it as the next pass does. -/
def owned : List Byte := leBytes 64 (0x80 + 0x80 * 2 ^ 504)
def unowned : List Byte := leBytes 64 0

theorem wit_WorkRings : (ringed 65535 []).runsBelow 4 ∧ (ringed 65535 []).linkOpen ((ringed 65535 []).linkOf 0) = true ∧
    (ringed 65535 []).fnExists 0 = true ∧ ((ringed 65535 []).fnSt 0).busy = false ∧ (ringed 65535 []).linkOpen ((ringed 65535 []).linkOf 8) = true ∧
    (ringed 65535 []).fnExists 8 = false ∧
    (ringed 65535 []).ringAt false 0 4095 = some 65535 ∧ (ringed 65535 []).ringAt false 0 0 = none ∧
    (ringed 65535 [⟨0, some (some owned)⟩]).pickRing.isSome = true ∧ ((ringed 65535 [⟨0, some (some owned)⟩]).headReady 65535).isSome = true ∧
    ((ringed 65535 [⟨0, some (some unowned)⟩]).ring 65535).held = [⟨0, some (some unowned)⟩] ∧
    ((ringed 65535 [⟨0, some (some unowned)⟩]).ring 65535).st = .active ∧
    (ringed 65535 [⟨0, some (some unowned)⟩]).headReady 65535 = none ∧
    (firing (.ringPoll 5)).nextEvent = some (ev (.ringPoll 5), false) ∧
    ((ringed 65535 [] fun g => { g with st := .draining }).ring 65535).st = .draining ∧ ((ringed 65535 []).worksOf 65535).isEmpty = true := by
  decide +kernel

/-- An arrived element of work item 3's scatter list, the work item with an element already there. -/
def element (status len last : Nat) : Arrived := ⟨.sgl 3 0, status, leBytes 8 0x1000 ++ leBytes 4 len ++ leBytes 4 last⟩
def listed : Work := { work 0x31 with stage := 1, desc := leBytes 64 (256 * 0x31 + 2 ^ 128 * 8), sgl := [(0, 4)] }

theorem wit_CompletionRings : (ringed 65536 []).linkOpen ((ringed 65536 []).linkOf 0) = true ∧ (ringed 65536 []).fnExists 0 = true ∧
    ((ringed 65536 []).fnSt 0).busy = false ∧ (ringed 65536 []).ringAt true 0 4095 = some 65536 ∧
    (ringed 65536 [] fun g => { g with widx := 5 }).ringSize 65536 = 64 ∧
    (5 + 64 - 0) % 64 ≤ (((ringed 65536 [] fun g => { g with widx := 5 }).ring 65536).widx + 64 - 0) % 64 ∧
    (((ringed 65536 []).ring 65536).widx + 64 - 0) % 64 < (63 + 64 - 0) % 64 ∧
    (working (work 0)).work? 3 = some (work 0) ∧ (work 0).typ = 0 ∧ (work 0).stage = 0 ∧
    (on [] fun k => { k with host.arrived := [element 0 4 1] }).gathered (sglPlace 3) 16 = some (ST.OK, (element 0 4 1).bytes) ∧
    (on [] fun k => { k with host.arrived := [element 5 4 1] }).gathered (sglPlace 3) 16 = some (5, []) ∧
    (working listed).work? 3 = some listed ∧ (element 5 4 1).status ≠ ST.OK ∧ (element 0 4 1).status = ST.OK ∧
    leAt (element 0 0 1).bytes 8 4 = 0 ∧ leAt (element 0 4 1).bytes 8 4 ≠ 0 ∧ tbit (leAt (element 0 4 1).bytes 12 4) 0 = true ∧
    ((listed.sgl ++ [(leAt (element 0 4 1).bytes 0 8, leAt (element 0 4 1).bytes 8 4)]).map (·.2)).sum = listed.length ∧
    tbit (leAt (element 0 4 0).bytes 12 4) 0 = false ∧ (listed.sgl ++ [(leAt (element 0 4 0).bytes 0 8, 4)]).length < 64 ∧
    (((List.replicate 63 (0, 1)) ++ [(0, 1)]) : List (Nat × Nat)).length = 64 := by decide +kernel

/-- A machine whose transom is at an address of HBM, in port mode or with BURST. -/
def transomAt (addr tgt : Nat) : State := on [(.live, TRANSOM.TGT, tgt), (.live, TRANSOM.ADDR, addr % 2 ^ 32),
  (.live, TRANSOM.ADDR.hi, addr / 2 ^ 32), (.live, TRANSOM.INCR, 0)]

theorem wit_TransomReadsWhatItWrote : (transomAt (48 * 2 ^ 30 - 4) 1).serves core0 Pg.transom ∧ (transomAt (48 * 2 ^ 30 - 4) 1).tBurst = false ∧
    (transomAt (48 * 2 ^ 30 - 4) 1).tSpace = 1 ∧ (transomAt (48 * 2 ^ 30 - 4) 1).tInst = 0 ∧
    (transomAt (48 * 2 ^ 30 - 4) 1).tAddr = 48 * 2 ^ 30 - 4 ∧ (transomAt (48 * 2 ^ 30 - 4) 1).hbmReadOnly (48 * 2 ^ 30 - 4) 4 = false ∧
    (transomAt (48 * 2 ^ 30 - 4) 1).fd TRANSOM.INCR 15 0 = 0 ∧
    (transomAt (48 * 2 ^ 30 - 4) 1).opaqueAt 1 (48 * 2 ^ 30 - 4) 4 = false := by decide +kernel

theorem wit_TransomRefusalsAndBursts : (transomAt 0 1).serves core0 Pg.transom ∧ (transomAt 0 1).tBurst = false ∧
    (transomAt (48 * 2 ^ 30) 1).transomRefusal true (48 * 2 ^ 30) 4 ≠ 0 ∧ (transomAt 0 0x80000001).tBurst = true ∧
    apertureOk 0xFFFC 4 (47 * 2 ^ 30) = true ∧ apertureOk 0x8000 4 0 = true ∧ (transomAt (47 * 2 ^ 30) 0x80000001).transomRefusal true (47 * 2 ^ 30 + 0xFFFC - 0x8000) 4 = 0 ∧
    (transomAt 0 0x80000001).transomRefusal false (0 + 0x8000 - 0x8000) 4 = 0 ∧ tbit 1 0 = true := by decide +kernel

/-- A machine with items in the learn queue of pipeline 3. -/
def learning : State := on [] fun k => { k with net.learnQ := [(3, [.event 5 0 0 0])] }

theorem wit_LearningAndSoftwareCommands : learning.runsBelow 3 ∧ tget false learning.ctl.net.resizing 3 = false ∧
    learning.learnQ 3 = [.event 5 0 0 0] ∧ State.reset.serves core0 Pg.fwd ∧
    State.reset.bit (FWD.SW_STATUS.of (State.reset.instSel core0 Pg.fwd)) 16 = false ∧
    (State.reset.learnQ (State.reset.instSel core0 Pg.fwd)).isEmpty = true ∧
    (let s := on [(.live, FWD.SW_STATUS.of 0, 0x10000)] fun k => { k with net.learnQ := [(0, [.event 5 0 0 0])] }
     s.serves core0 Pg.fwd ∧ s.instSel core0 Pg.fwd = 0 ∧ s.bit (FWD.SW_STATUS.of 0) 16 = true) ∧
    (let s := on [] fun k => { k with net.learnQ := [(0, [.event 5 0 0 0])] }
     s.bit (FWD.SW_STATUS.of 0) 16 = false ∧ (s.learnQ 0).isEmpty = false) ∧
    2 ^ max 6 (min 16 (State.reset.fd (FWD.NOTIFY_CTL.of 0) 5 1)) ≤ 65535 ∧
    (63 + 2 ^ 16 - 0) % 2 ^ 16 ≤ ((on [(.live, FWD.NOTIFY_CTL.of 0, 0x20)] fun k => { k with
      net.notify := [(0, { NRing.init with widx := 63 })] }).notifyRing 0).widx ∧
    63 < 2 ^ max 6 (min 16 (State.reset.fd (FWD.NOTIFY_CTL.of 0) 5 1)) := by decide +kernel

theorem wit_AgingAndResize : (firing (.aging 3)).nextEvent = some (ev (.aging 3), false) ∧
    (on [] fun k => { k with maint.running := [⟨MA.AGING_SWEEP, 3, .periodic, 0, 0⟩] }).mrunning MA.AGING_SWEEP 3 = true ∧
    State.reset.serves core0 Pg.fwd ∧
    (on [] fun k => { k with maint.running := [⟨MA.TABLE_RESIZE, 3, .register, 20, 0⟩] }).ctl.maint.running.find? (fun m =>
      decide (m.act = MA.TABLE_RESIZE) && decide (m.scope = 3)) = some ⟨MA.TABLE_RESIZE, 3, .register, 20, 0⟩ := by decide +kernel

theorem wit_LookupTables : State.reset.serves core0 Pg.fwd ∧ State.reset.serves core0 Pg.cls ∧ hosted.open (.port 1) Pg.cls = true ∧
    hosted.owner (.port 1) = false ∧ State.reset.owner core0 = true ∧ State.reset.serves core0 Pg.lpm := by decide +kernel

/-- An LPM pipeline with nothing in it, and one after an INSERT of 0.0.0.0/0 of VRF 0. -/
def inserted : State := match exec (.lpmInsert core0) State.reset with
  | .next t => t
  | _ => State.reset

theorem wit_PrefixTableCommands : State.reset.lpmFind 0 0 0 false (maskPrefix false 0 (List.replicate 16 0)) = none ∧
    (((lpmPlaces 0 0 false (maskPrefix false 0 (List.replicate 16 0))).find? fun i =>
      !tbit (leAt (State.reset.lpmEntry 0 i) 17 1) 0)).isSome = true ∧ inserted.serves core0 Pg.lpm ∧
    (inserted.lpmFind 0 0 0 false (maskPrefix false 0 (List.replicate 16 0))).isSome = true := by decide +kernel

/-- Every place of a prefix taken by others: entries are valid with another VRF. -/
def fullPlaces : State := (Prog.each (lpmPlaces 0 0 false (maskPrefix false 0 (List.replicate 16 0))) fun i =>
  .memSet (memKey 1 0 (0x18000000 + 32 * i + 17)) 1).run (on [(.live, LPM.CMD_KEY.of 0, 0)])

theorem wit_PrefixTableFull : (lpmPlaces 0 0 false (maskPrefix false 0 (List.replicate 16 0))).all (fun i =>
    tbit (leAt (fullPlaces.lpmEntry 0 i) 17 1) 0) = true := by decide +kernel

theorem wit_ControlQueues : (firing (.ctrlLimit 3)).nextEvent = some (ev (.ctrlLimit 3), false) ∧ State.reset.serves core0 Pg.core ∧
    (on [(.live, CORE.CTRLQ_CTL.of 0, 1)]).bit (CORE.CTRLQ_CTL.of ((on [(.live, CORE.CTRLQ_CTL.of 0, 1)]).instSel core0 Pg.core)) 0 = true ∧
    0 < State.reset.ctrlSize 0 ∧ State.reset.ctrlSize 0 ≤ 65535 := by decide +kernel

/-- A flow instruction of 8 bytes. -/
def instr (op fn d a b imm : Nat) : Nat := op + d * 2 ^ 8 + a * 2 ^ 13 + b * 2 ^ 18 + fn * 2 ^ 23 + imm * 2 ^ 32

/-- The engine of thread 1,023, whose thread is READY at an instruction in DDR5 that its dispatch table names. -/
def flowing (i : Nat) (h : Thread → Thread := id) (l : List (Bank × Reg × Nat) := []) : State :=
  let s := on ((.live, MEM.DDR_STATUS, 0x10000) :: (.committed, FLOW.PROG_SIZE.of 63, 1) :: l) fun k => { k with
    flow.threads := [(1023, h { Thread.init with st := 2 })], flow.icache := [(63 * 2 ^ 32, i + 1)] }
  (doAll [poke 2 0 0 (leBytes 8 i), poke 3 63 (4 * insOp i) (leBytes 4 0x8000)]).run s

/-- With X1 = 8. -/
def x8 : Thread → Thread := fun h => { h with xs := [(1, 8)] }

theorem wit_FlowInstructionsCompute : ∀ i ∈ [instr 0 0 0 0 0 0, instr 1 8 3 1 2 0, instr 2 1 3 0 0 4, instr 4 0 3 0 0 8, instr 5 0 3 1 0 8,
    instr 6 3 3 1 0 0, instr 0x12 0 3 1 2 16, instr 0x1C 0 3 0 0 0, instr 0x1D 0 0 0 0 0, instr 7 3 0 1 2 0, instr 9 11 0 1 2 0],
    (flowing i x8).runsBelow 2 ∧ (flowing i x8).flowAt 1023 i ∧
    (insOp i = 1 → ∃ v, aluOp (insFn i % 16) (x8 Thread.init |>.x (insA i)) (aluB i (x8 Thread.init)) = some v) ∧
    (flowing i x8).poisoned 13 63 0 256 = false ∧ addrOf i (x8 Thread.init) < 2 ^ 32 ∧ lmemOk (addrOf i (x8 Thread.init)) (sizeOf2 (insFn i)) = true ∧
    addrOf i (x8 Thread.init) % sizeOf2 (insFn i) = 0 ∧ lmemOk 8 (field (insImm i) 7 0) = true ∧
    (insOp i = 9 → (flowing i x8).xmemOk (tbit (insFn i) 3) true (addrOf i (x8 Thread.init)) (sizeOf2 (insFn i)) = true) := by
  unfold State.flowAt
  simp only [List.forall_mem_cons, List.not_mem_nil, false_imp_iff, implies_true, and_true]
  refine ⟨?_, ?_, ?_, ?_, ?_, ?_, ?_, ?_, ?_, ?_, ?_⟩
  all_goals first
    | decide +kernel
    | exact ⟨by decide +kernel, by decide +kernel, fun _ => ⟨_, rfl⟩, by decide +kernel⟩

/-- A machine whose thread holds a frame, X1 = 8 and the channel 2,047 enabled. -/
def framed (i : Nat) : State := flowing i (fun h => { x8 h with frame := some { frame with bytes := List.replicate 60 0 } })
  [(.committed, (CHAN.CH_CTL 31).of 63, 1)]

theorem wit_FlowInstructionsAct : ∀ i ∈ [instr 3 0 0 1 1 8, instr 8 11 3 1 0 0, instr 0xA 0 0 1 1 64, instr 0xB 0 0 1 0 2047,
    instr 0xC 0 3 0 0 2047, instr 0xD 1 3 1 0 100, instr 0xE 0 3 0 0 1023, instr 0xF 0 3 1 1 0, instr 0x10 0 3 1 1 0, instr 0x11 0 3 1 1 0,
    instr 0x13 0 3 1 1 16, instr 0x14 0 3 1 1 16, instr 0x15 0 3 1 1 0, instr 0x16 0 3 1 1 0, instr 0x17 0 0 0 0 0, instr 0x18 0 3 1 1 0,
    instr 0x19 0 0 0 0 5, instr 0x1A 0 0 0 0 0, instr 0x1B 0 0 0 0 0],
    (framed i).runsBelow 2 ∧ (framed i).flowAt 1023 i ∧
    ((framed i).thread 1023).frame.isSome = true ∧ lmemOk 8 32 = true ∧ (framed i).poisoned 13 63 8 32 = false ∧
    (insOp i = 3 → (brCond (insFn i % 8) 8 8).isSome = true) ∧
    (insOp i = 8 → (framed i).xmemOk (tbit (insFn i) 3) false (addrOf i (x8 Thread.init)) (sizeOf2 (insFn i)) = true) ∧
    (insOp i ∈ [0xB, 0xC] → (framed i).chanOn (field (insImm i) 10 0) = true) := by
  unfold State.flowAt
  decide +kernel

/-- A READY thread whose instruction is in its program and not in the instruction cache. -/
theorem wit_FlowInstructionsAct_fetch : let s := flowing 0 (fun h => { h with fpc := 8 })
    s.runsBelow 2 ∧ (s.thread 1023).st = 2 ∧ (s.thread 1023).upc = none ∧ s.fpcOk 63 (s.thread 1023).fpc = true ∧
    tget 0 s.ctl.flow.icache (1023 / 16 * 2 ^ 32 + (s.thread 1023).fpc) = 0 := by decide +kernel

/-- An item that completes with a CPL, whose post waits for a translation or not. -/
theorem wit_FlowInstructionsAct_cpl : ((flowing 0x18 fun h => { h with item := some 3 }).thread 1023).item = some 3 ∧
    (flowing 0x18 fun h => { h with item := some 3 }).flowAt 1023 0x18 := by
  unfold State.flowAt
  decide +kernel

/-- A microword: operation, class, D, A, B and the low field. -/
def micro (mop cl d a b lo : Nat) : Nat := mop * 2 ^ 26 + cl * 2 ^ 24 + d * 2 ^ 19 + a * 2 ^ 14 + b * 2 ^ 9 + lo

/-- A machine whose thread 1,023 is at the microword `w` at a micro-PC of its control store. -/
def microed (u w : Nat) (h : Thread → Thread := id) (l : List (Bank × Reg × Nat) := []) : State :=
  let s := on l fun k => { k with flow.threads := [(1023, h { Thread.init with st := 2, upc := some u })] }
  (poke 3 63 (4 * u) (leBytes 4 w)).run s

theorem wit_OperateMicrowordsCompute : ∀ mop ∈ [1, 2, 3, 4, 5, 6, 7, 8, 9],
    (microed 16382 (micro mop 3 13 8 26 0x100)).runsBelow 2 ∧
    (microed 16382 (micro mop 3 13 8 26 0x100)).atMicro 1023 16382 (micro mop 3 13 8 26 0x100) mop ∧
    ∀ k ∈ [13, 8, 26], ((microed 16382 (micro mop 3 13 8 26 0x100)).thread 1023).selOk k = true := by
  unfold State.atMicro
  decide +kernel

theorem wit_OtherMicrowordsAct : ∀ mop ∈ List.range 0x1B, ¬ (1 ≤ mop ∧ mop ≤ 9) →
    let w := if mop ∈ [0xB, 0xC, 0xD, 0xE, 0xF] then micro mop 3 0 1 0 0 else micro mop 3 0 1 2 0
    let s := microed 16382 w (fun h => { h with frame := some { frame with bytes := List.replicate 60 0 } }) [(.live, MEM.DDR_STATUS, 0x10000)]
    s.runsBelow 2 ∧ s.atMicro 1023 16382 w mop ∧ (∀ k ∈ [mwD w, mwA w, mwB w], (s.thread 1023).selOk k = true) ∧
    lmemOk (memOperand w 0).1 (memOperand w 0).2 = true ∧ lmemOk 0 32 = true ∧ s.poisoned 13 63 0 256 = false ∧ mwFn w ≤ 2 ∧ (s.thread 1023).frame.isSome = true ∧
    (mop = 0xE → s.xmemOk false false (memOperand w 0).1 (memOperand w 0).2 = true) := by
  unfold State.atMicro
  decide +kernel

/-- UXST of a thread whose instruction names DDR5 (FN[3]). -/
theorem wit_OtherMicrowordsAct_store : let w := micro 0xF 3 0 1 0 0
    let s := microed 16382 w (fun h => { h with instr := instr 9 11 0 1 2 0 }) [(.live, MEM.DDR_STATUS, 0x10000)]
    s.atMicro 1023 16382 w 0xF ∧ s.xmemOk (tbit (insFn (s.thread 1023).instr) 3) true (memOperand w 0).1 (memOperand w 0).2 = true := by
  unfold State.atMicro
  decide +kernel

/-- A thread in a trap of cause LMEM with a return address on its stack. -/
def trapped (u w : Nat) : State := microed u w fun h => { h with inTrap := true, cause := 4, stack := [7] }

theorem wit_NextAddressMicrowords : ∀ mop ∈ [0x20, 0x21, 0x22, 0x23, 0x24, 0x25, 0x26, 0x27, 0x28],
    (trapped 16382 (micro mop 3 0 0 0 0)).runsBelow 2 ∧
    (trapped 16382 (micro mop 3 0 0 0 0)).atMicro 1023 16382 (micro mop 3 0 0 0 0) mop ∧
    ((trapped 16382 (micro mop 3 0 0 0 0)).thread 1023).cond (field (micro mop 3 0 0 0 0) 23 20) = some true ∧
    ((trapped 16382 (micro mop 3 0 0 0 0)).thread 1023).cond 1 = some false := by
  unfold State.atMicro
  decide +kernel

/-- A predicted path that starts at FPC 8, resolved or not. -/
def pathAt8 (res : Bool) : Spec := { taken := false, start := 8, resolved := res, ctx := ⟨8, none, none, 0, [], false, false, false, false⟩ }

/-- A dispatch to microword 0, which is UNOP; a UEND into a predicted path that proved right, or out of one that is unresolved; a UFBR
that resolves one. -/
theorem wit_NextAddressMicrowords_path : (flowing 0).flowAt 1023 0 ∧
    field ((flowing 0).microAt 63 (field ((flowing 0).dispatchWord 63 0) 13 0)) 31 26 = 0 ∧
    (∀ res, let s := microed 5 (micro 0x24 3 0 0 0 0) fun h => { h with spec := some (pathAt8 res) }
      s.atMicro 1023 5 (micro 0x24 3 0 0 0 0) 0x24 ∧ (s.thread 1023).spec = some (pathAt8 res) ∧
      ((pathAt8 res).resolved && decide ((pathAt8 res).start = (s.thread 1023).fpcNext.getD (((s.thread 1023).fpc + 8) % 2 ^ 32)) &&
        !s.stopsHere 1023) = res) ∧
    (let s := microed 5 (micro 0x25 3 0 0 0 0) fun h => { h with spec := some (pathAt8 false) }
     s.atMicro 1023 5 (micro 0x25 3 0 0 0 0) 0x25 ∧ (s.thread 1023).cond 0 = some true ∧ (s.thread 1023).spec = some (pathAt8 false)) ∧
    (∀ q : Spec, ((trapped 5 (micro 0x24 3 0 0 0 0)).thread 1023).spec ≠ some q) := by
  unfold State.flowAt State.atMicro
  refine ⟨by decide +kernel, by decide +kernel, by decide +kernel, by decide +kernel, fun q e => ?_⟩
  exact nomatch (show (none : Option Spec) = some q from e)

theorem wit_MicroTrapsAreRaised :
    (on [] fun k => { k with flow.threads := [(0, { Thread.init with st := 2 })] }).runsBelow 2 ∧
    4096 * State.reset.cfd (FLOW.PROG_SIZE.of 0) 19 0 ≤ 0 ∧
    (∀ i ∈ [instr 1 14 0 0 0 0, instr 3 7 0 0 0 0, instr 5 0 0 1 0 8, instr 6 3 0 1 0 1, instr 8 3 0 1 0 1, instr 9 3 0 0 0 0, instr 0xC 0 0 0 0 0,
        instr 0x13 0 0 0 0 0],
      let s := flowing i fun h => { h with xs := [(1, 2 ^ 32)] }
      s.runsBelow 2 ∧ s.flowAt 1023 i ∧ (insOp i = 1 → aluOp (insFn i % 16) 0 0 = none) ∧ (insOp i = 3 → brCond (insFn i % 8) 0 0 = none) ∧
      (insOp i = 5 → 2 ^ 32 ≤ addrOf i (s.thread 1023)) ∧ (insOp i = 6 → lmemOk (addrOf i (s.thread 1023)) 8 = false) ∧
      (insOp i = 8 → s.xmemOk false false (addrOf i (s.thread 1023)) 8 = false) ∧
      (insOp i = 9 → s.xmemOk false true (addrOf i (s.thread 1023)) 8 = false) ∧
      s.chanOn 0 = false ∧ (s.thread 1023).frame = none) ∧
    (∀ p ∈ [(1, 5, 25), (0, 16383, 0), (0x22, 5, 0), (0x23, 5, 0)],
      (microed p.2.1 (micro p.1 3 p.2.2 0 0 0)).runsBelow 2 ∧
      (microed p.2.1 (micro p.1 3 p.2.2 0 0 0)).atMicro 1023 p.2.1 (micro p.1 3 p.2.2 0 0 0) p.1 ∧
      ((microed p.2.1 (micro p.1 3 p.2.2 0 0 0)).thread 1023).selOk 25 = false ∧
      ((microed p.2.1 (micro p.1 3 p.2.2 0 0 0)).thread 1023).stack = []) ∧
    ((microed 5 (micro 0x22 3 0 0 0 0) fun h => { h with stack := [1, 2, 3, 4] }).thread 1023).stack.length = 4 ∧
    (microed 5 (micro 9 1 0 0 0 0)).microAt 63 5 = micro 9 1 0 0 0 0 := by
  unfold State.flowAt State.atMicro
  decide +kernel

/-- A thread of engine 63 in a state, waiting. -/
def threaded (st : Nat) (w : ThreadWait) (h : Thread → Thread := id) (f : Ctl → Ctl := id) : State := on [] fun k => f { k with
  flow.threads := [(1023, h { Thread.init with st := st, wait := w })] }

/-- Engine 63 with its last thread IDLE and one item. -/
def offered (q : FlowItem) : State := on [(.committed, (FLOW.THR_CFG 15).of 63, 1)] fun k => { k with
  flow.threads := [(1023, { Thread.init with st := 1 })], flow.queues := [(63, [q])], rings.works := [(3, work 0x60)] }

theorem wit_WorkItemsAreTaken : ∀ q ∈ [FlowItem.frame frame, .ring 3],
    (offered q).runsBelow 2 ∧ (List.range 16).find? (fun k => decide (((offered q).thread (16 * 63 + k)).st = 1) && decide ((offered q).thrMode (16 * 63 + k) = 1)) = some 15 ∧
    (offered q).workQueue 63 = [q] ∧ (offered q).fd (FLOW.CS_STATUS.of 63) 1 0 = 0 ∧ (offered q).bit (FLOW.ENG_STATUS.of 63) 1 = false ∧
    (offered q).work? 3 = some (work 0x60) := by decide +kernel

theorem wit_ThreadsAreControlled : ∀ st : Fin 8,
    let s := on [] fun k => { k with flow.threads := [(15, { Thread.init with st := st.val }), (14, { Thread.init with st := 2, upc := some 5 })] }
    s.serves core0 Pg.flow ∧ 16 * s.instSel core0 Pg.flow = 0 ∧ (s.thread 15).st = st.val ∧ (s.thread 15).upc = none ∧
    (s.thread 15).inTrap = false ∧ (s.thread 15).onPath = false ∧ (s.thread 14).onPath = false ∧ (s.thread 14).upc = some 5 := by decide +kernel

theorem wit_ThreadWaitsEnd :
    (threaded 3 (.chan 2047 (some 9)) id fun k => { k with flow.chans := [(2047, { Chan.init with waiters := [(1023, some 9)] })] }).runsBelow 2 ∧
    ((({ Chan.init with waiters := [(1023, some 9)] } : Chan).waiters.find? fun w => w.2.isSome).map (·.1)) = some 1023 ∧
    ((({ Chan.init with waiters := [(1023, none)], words := [4] } : Chan).waiters.find? fun w => !w.2.isSome).map (·.1)) = some 1023 ∧
    ((threaded 3 (.chan 2047 none)).thread 1023).wait = .chan 2047 none ∧
    ((threaded 5 (.load 1 0 8 false)).thread 1023).st = 5 ∧ (threaded 5 (.load 1 0 8 false)).poisoned 1 0 0 8 = false ∧
    ((threaded 5 (.host true 0 0 8)).thread 1023).wait = .host true 0 0 8 ∧
    ((threaded 5 (.cache 0 0 0)).thread 1023).wait = .cache 0 0 0 ∧
    (((threaded 5 .fetch).thread 1023).wait = .fetch ∧ (threaded 5 .fetch).poisoned 2 0 ((threaded 5 .fetch).fpcAddr 63 0) 8 = false ∧
      ((threaded 5 (.latch 1023 2)).thread 1023).wait = .latch 1023 2 ∧
      ((threaded 5 (.frame 3 0 0 0 0)).thread 1023).wait = .frame 3 0 0 0 0 ∧ ((threaded 5 (.cpl 3)).thread 1023).wait = .cpl 3 ∧
      (threaded 5 (.load 1 0 8 false) id fun k => { k with health.poison := [(memKey 1 0 0, 8)] }).poisoned 1 0 0 8 = true) ∧
    (∃ e, (threaded 4 .time id fun k => { k with time.events := [ev (.threadWait 1023)] }).fires e (.threadWait 1023)) ∧
    ∃ e, (threaded 4 .time id fun k => { k with time.flush := [ev (.threadWait 1023)] }).steps e (.threadWait 1023) := by
  unfold State.fires State.steps
  refine ⟨by decide +kernel, by decide +kernel, by decide +kernel, by decide +kernel, by decide +kernel, by decide +kernel,
    by decide +kernel, by decide +kernel, by decide +kernel, ⟨ev (.threadWait 1023), by decide +kernel⟩, ⟨ev (.threadWait 1023), by decide +kernel⟩⟩

/-- The CRC-32C of an empty control store stands in CS_CRC. -/
theorem wit_EnginesAreReloadedTestedAndReset : State.reset.serves core0 Pg.flow ∧ Accessor.isPort core0 = false ∧ (Accessor.port 0).isPort = true ∧
    (∀ p : Fin 4, (on [(.live, FLOW.CS_STATUS.of 63, p.val)]).fd (FLOW.CS_STATUS.of 63) 1 0 = p.val) ∧
    (on [] fun k => { k with flow.testing := [(63, 2)] }).runsBelow 2 ∧
    tget 0 (on [] fun k => { k with flow.testing := [(63, 2)] }).ctl.flow.testing 63 = 2 ∧
    (firing (.aging 4)).fires (ev (.aging 4)) (.aging 4) ∧ (firing (.aging 4)).bit FLOW.FC_CFG 8 = false ∧
    ((List.range 16).map (16 * 63 + ·)).filter (fun t => decide ((State.reset.thread t).st ∈ [2, 3, 4, 5])) = [] := by
  unfold State.fires
  decide +kernel

/-- Channel 31 of instance 0 enabled, with a word. -/
def channel (words : List Nat) (l : List (Bank × Reg × Nat) := [(.committed, (CHAN.CH_CTL 31).of 0, 1)]) : State := on l fun k => { k with
  flow.chans := [(31, { Chan.init with words := words })] }

theorem wit_ChannelsAndCoresByTheirPages : (channel [5]).serves core0 Pg.chan ∧ (channel [5]).open core0 Pg.chan = true ∧
    32 * (channel [5]).instSel core0 Pg.chan + 31 = 31 ∧ (channel [5]).chanOn 31 = true ∧ ((channel [5]).chan 31).canPut = true ∧
    (State.reset.chanOn 31 && (State.reset.chan 31).canPut) = false ∧ ((channel [5]).chan 31).canGet = true ∧
    ((channel [5]).chan 31).words = [5] ∧ ((channel []).chan 31).canGet = false ∧ State.reset.serves core0 Pg.core ∧
    State.reset.coreState (State.reset.instSel core0 Pg.core) = 0 ∧ (on [(.live, CORE.CORE_STATUS.of 47, 1)]).coreState 47 = 1 ∧
    (on [(.live, CORE.CORE_STATUS.of 47, 1)]).runsBelow 4 := by decide +kernel

theorem csCrc_wr (s : State) (r : Reg) (v e : Nat) : ((wr r v).run s).csCrc e = s.csCrc e := by
  simp only [State.csCrc, State.bytes, State.byte, mem_wr]

theorem rd_wr_whole (s : State) (r : Reg) (v : Nat) (m : RKey.mask ⟨.live, r.page, r.inst, r.off⟩ = BitVec.allOnes 32)
    (l : v < 2 ^ 32) : ((wr r v).run s).rd r = v := by
  rw [rd_wr_same, m, BitVec.and_allOnes, BitVec.toNat_ofNat, Nat.mod_eq_of_lt l]

/-- A machine whose CS_CRC is the CRC of the control store of engine 63. -/
theorem wit_csCrc (s : State) : ((wr (FLOW.CS_CRC.of 63) (s.csCrc 63)).run s).csCrc 63 =
    ((wr (FLOW.CS_CRC.of 63) (s.csCrc 63)).run s).rd (FLOW.CS_CRC.of 63) :=
  (csCrc_wr ..).trans (rd_wr_whole _ _ _ (by decide +kernel) (crc32c_lt _)).symm

/-- Queue pair 262,143 of ring 5 in a state, with its first work request of a TYPE. -/
def requesting (st typ : Nat) (x : Work → Work := id) (q : Qp → Qp := id) : State :=
  on [(.committed, RDMA.QP_RINGS.of 262143, 5), (.live, HOST.LINK_STATUS 0, 0x3A0)] fun k => { k with
    rings.works := [(3, x { work typ with desc := leBytes 64 (256 * typ + 262143 * 2 ^ 160) })]
    rdma.qps := [(262143, q { Qp.init with st := st })] }

theorem wit_WorkRequestsStart : ∀ typ ∈ [0x41, 0x43, 0x45, 0x46, 0x47, 0x48], ∀ st ∈ [0, 3, 4],
    let s := requesting st typ
    s.runsBelow 4 ∧ (s.work? 3).isSome = true ∧ (s.newWrs 262143).head? = (s.work? 3).map (fun x => (3, x)) ∧
    s.qpSq 262143 = 5 ∧ (s.work? 3).map (·.ring) = some 5 ∧
    (s.work? 3).map (·.qpn) = some 262143 ∧ (s.work? 3).map (·.typ) = some typ ∧ (s.qp 262143).st = st ∧
    (s.work? 3).map (fun x => (x.flag 8, x.flag 9, x.stage, x.reads, x.status)) = some (false, false, 0, 0, ST.OK) ∧
    0 < s.cfd (RDMA.QP_TIMERS.of 262143) 19 16 ∧ (s.qp 262143).wrs = [] ∧ s.serves core0 Pg.rdma := by decide +kernel

/-- A work request of `n` bytes that waits for trigger counter 65,535. -/
def triggering (v : Nat) (n : Nat := 1) (aux : Nat := 0) : State :=
  let s := requesting 3 0x43 (fun w => { w with
      desc := leBytes 64 (256 * 0x43 + 2 ^ 24 + n * 2 ^ 128 + 262143 * 2 ^ 160 + 65535 * 2 ^ 448 + 2 ^ 464)
      aux := aux })
    fun q => { q with armedWait := true }
  { s with ctl := { s.ctl with rdma.trig := [(65535, v)] } }

theorem wit_WorkRequestsStart_trigger :
    (((triggering 1).work? 3).map fun x => (x.flag 8, (triggering 1).triggered x, x.length, x.aux)) = some (true, true, 1, 0) ∧
    (((triggering 1 0).work? 3).map fun x => (x.flag 8, (triggering 1 0).triggered x, x.length)) = some (true, true, 0) ∧
    (((triggering 1 1 1).work? 3).map fun x => (x.flag 8, x.flag 9, x.aux, x.stage, x.reads, x.status)) = some (true, false, 1, 0, 0, ST.OK) ∧
    ((requesting 3 0x43 fun w => { w with status := ST.HOST_ABORT }).work? 3).map (fun x => (x.flag 8, x.status)) = some (false, ST.HOST_ABORT) ∧
    (((triggering 0).work? 3).map fun x => (x.flag 8, (triggering 0).triggered x)) = some (true, false) ∧
    ((triggering 1).qp 262143).armedWait = true ∧ ((triggering 1).newWrs 262143).head? = ((triggering 1).work? 3).map fun x => (3, x) := by
  decide +kernel

/-- A packet to be sent by the queue pair. -/
def packetOut (op n : Nat) : TxPkt := ⟨5, n, 3, op, [], [], true, true, false, false, none, 0⟩

theorem wit_QueuePairsAreResumed :
    (requesting 3 0x43 id fun q => { q with out := [packetOut 0x0A 1], rtxWait := true }).runsBelow 4 ∧
    ((requesting 3 0x43 id fun q => { q with out := [packetOut 0x0A 1], rtxWait := true }).qp 262143).rtxWait = true ∧
    (requesting 3 0x43 id fun q => { q with out := [packetOut 0x0A 1] }).rtxBytes + 0 ≤
      (requesting 3 0x43).fd RDMA.RTX_SIZE 15 0 * 2 ^ 20 ∧
    (firing (.pacing 2)).fires (ev (.pacing 2)) (.pacing 2) ∧ (stepping (.pacing 2)).steps (ev (.pacing 2)) (.pacing 2) ∧
    (firing (.retx 2)).fires (ev (.retx 2)) (.retx 2) ∧ (firing (.rnr 2)).fires (ev (.rnr 2)) (.rnr 2) ∧
    (∀ c ∈ [Consumer.shaperRefill 167, .polBlock 1023, .ctrlLimit 3, .aging 0, .telemetry],
      let s := on [(.live, TM.TEL_CFG, 1)] fun k => { k with time.retry := [⟨c, 0, 0⟩] }
      s.ctl.time.retry.find? (fun r => decide (r.consumer = c)) = some ⟨c, 0, 0⟩ ∧ wtDiff 0 (s.wt 0) ≤ 0 ∧
        (c ∈ [Consumer.telemetry, .ctrlLimit 3] → (s.period c).isSome = true)) ∧
    (∀ k ∈ [PeriodicKind.telemetry, .control, .heartbeat, .deadPeer, .flushTimer, .poll], (retried k 0).isSome = true) ∧
    (let s := on [(.live, TM.TEL_CFG, 1)] fun k => { k with time.retry := [⟨.telemetry, 0, 5⟩] }
     s.ctl.time.retry.find? (fun r => decide (r.consumer = Consumer.telemetry)) = some ⟨.telemetry, 0, 5⟩ ∧ 0 < wtDiff 5 (s.wt 0)) ∧
    ((requesting 3 0x43 id fun q => { q with again := [(1, 0)] }).qp (262143 % 262144)).again = [(1, 0)] ∧
    ((on [] fun k => { k with net.sending := [(511, onWire)] }).sending 511) = some onWire ∧ onWire.copy.confirmed = true := by
  unfold State.fires State.steps
  decide +kernel

theorem slice_left {h t : List Byte} {i n : Nat} (e : i + n ≤ h.length) : slice (h ++ t) i n = slice h i n := by
  unfold slice byteAt
  refine List.map_congr_left fun k hk => ?_
  rw [List.getD_append _ _ _ _ (by have := List.mem_range.mp hk; omega)]

theorem slice_end (h t : List Byte) (n : Nat) : slice (h ++ slice t 0 n) h.length n = slice t 0 n := by
  unfold slice byteAt
  refine List.map_congr_left fun k hk => ?_
  have := List.mem_range.mp hk
  rw [List.getD_append_right _ _ _ _ (by omega)]
  simp [List.getD_eq_getElem?_getD, this]

/-- The bytes of a RoCEv2 packet before its invariant CRC: no header is looked at but the UDP length and the BTH. -/
def upToIcrc (op pkey qpn psn : Nat) (body : List Byte) : List Byte :=
  List.replicate 38 0 ++ beBytes 2 (24 + body.length) ++ [0, 0] ++ beBytes 1 op ++ [0] ++ beBytes 2 pkey ++ beBytes 4 qpn ++
    beBytes 4 psn ++ body

/-- The frame of those bytes with four more. -/
def packet (h t : List Byte) : Frame := { frame with
  bytes := h ++ slice t 0 4
  parsed := { frame.parsed with l3 := some (14, 0), l4 := some (34, 17) } }

/-- Their invariant CRC, and something else. -/
def icrcOf (h : List Byte) : List Byte := Config.icrc (slice h 14 (h.length - 14))
def notIcrcOf (h : List Byte) : List Byte := [byteAt (icrcOf h) 0 + 1]

theorem packet_read {h : List Byte} (t : List Byte) (len : 54 ≤ h.length) (udp : 34 + beAt h 38 2 - 4 = h.length) :
    (packet h t).rocePkt = ⟨beAt h 42 1, beAt h 44 2, beAt h 47 3, tbit (beAt h 50 1) 7, beAt h 51 3,
      slice h 54 (h.length - beAt h 43 1 / 16 % 4 - 54), decide (slice t 0 4 = slice (icrcOf h) 0 4)⟩ := by
  have b : ∀ i n, i + n ≤ h.length → beAt (packet h t).bytes i n = beAt h i n := fun i n e => by rw [beAt, beAt, packet, slice_left e]
  have s : ∀ i n, i + n ≤ h.length → slice (packet h t).bytes i n = slice h i n := fun i n e => slice_left e
  have e := slice_end h t 4
  unfold Frame.rocePkt
  simp only [show (packet h t).parsed.l4 = some (34, 17) from rfl, show (packet h t).parsed.l3 = some (14, 0) from rfl]
  rw [b 38 2 (by omega), b 42 1 (by omega), b 43 1 (by omega), b 44 2 (by omega), b 47 3 (by omega), b 50 1 (by omega), b 51 3 (by omega),
    udp, s 54 _ (by omega), s 14 _ (by omega)]
  simp only [show slice (packet h t).bytes h.length 4 = slice t 0 4 from e, icrcOf, show 34 + 8 + 12 = 54 from rfl]
  rfl

theorem packet_good {h : List Byte} (len : 54 ≤ h.length) (udp : 34 + beAt h 38 2 - 4 = h.length) :
    (packet h (icrcOf h)).rocePkt = ⟨beAt h 42 1, beAt h 44 2, beAt h 47 3, tbit (beAt h 50 1) 7, beAt h 51 3,
      slice h 54 (h.length - beAt h 43 1 / 16 % 4 - 54), true⟩ := by
  rw [packet_read _ len udp, decide_eq_true rfl]

theorem packet_bad {h : List Byte} (len : 54 ≤ h.length) (udp : 34 + beAt h 38 2 - 4 = h.length) :
    (packet h (notIcrcOf h)).rocePkt.icrcOk = false := by
  rw [packet_read _ len udp]
  refine decide_eq_false fun e => ?_
  have := congrArg (·.head?) e
  have h0 : byteAt (icrcOf h) 0 + 1 = byteAt (icrcOf h) 0 := Option.some.inj this
  bv_omega

/-- A machine that holds one transport frame for a queue pair in RTS. -/
def held (f : Frame) (q : Nat) (x : Qp → Qp := id) (l : List (Bank × Reg × Nat) := []) : State := on l fun k => { k with
  rdma.rx := [f], rdma.qps := [(q, x { Qp.init with st := 3, rpsn := 5 })] }

theorem held_oldest (f : Frame) (q : Nat) (x : Qp → Qp) : (held f q x).oldestRx f.id f := by
  have e : (held f q x).ctl.rdma.rx = [f] := rfl
  have p : (held f q x).ctl.health.poison = [] := rfl
  simp [State.oldestRx, State.qpBad, State.poisoned, e, p]

/-- Requests of every kind at, ahead of and behind the expected PSN, and one with a foreign P_Key. -/
def asked (op psn : Nat) (body : List Byte := []) : List Byte := upToIcrc op 0xFFFF 262143 psn body
def request (op psn : Nat) (body : List Byte := []) : Frame := packet (asked op psn body) (icrcOf (asked op psn body))

theorem wit_PacketsAreReceived_refused : (packet (upToIcrc 4 0 262143 5 []) []).rocePkt.pkey = 0 ∧
    (packet (asked 4 5) (notIcrcOf (asked 4 5))).rocePkt.icrcOk = false ∧
    (packet (asked 4 5) (notIcrcOf (asked 4 5))).rocePkt.pkey = 0xFFFF ∧
    (request 0x81 0).rocePkt.op = opCnp ∧ (request 0x81 0).rocePkt.icrcOk = true ∧
    (packet (upToIcrc 4 0x7FFF 1 5 []) (icrcOf (upToIcrc 4 0x7FFF 1 5 []))).rocePkt = ⟨4, 0x7FFF, 1, false, 5, [], true⟩ := by
  refine ⟨?_, packet_bad (by decide) (by decide), ?_, ?_, ?_, ?_⟩
  · rw [packet_read _ (by decide) (by decide)]
    decide +kernel
  · rw [packet_read _ (by decide) (by decide)]
    decide +kernel
  all_goals
    first
      | rw [request, packet_good (by decide) (by decide)]
        decide +kernel
      | rw [request, packet_good (by decide) (by decide)]
      | rw [packet_good (by decide) (by decide)]
        decide +kernel

theorem wit_PacketsAreReceived : ∀ op ∈ [0x04, 0x0A, 0x0C, 0x13, 0x1C], ∀ psn ∈ [4, 5, 6],
    (request op psn).rocePkt = ⟨op, 0xFFFF, 262143, false, psn, [], true⟩ ∧ (held (request op psn) 262143).runsBelow 4 ∧
    (held (request op psn) 262143).oldestRx 7 (request op psn) ∧
    (held (request op psn) 262143).rxGood ⟨op, 0xFFFF, 262143, false, psn, [], true⟩ = true ∧ isRequest op = true ∧ op < 0x20 ∧
    ((held (request op psn) 262143).qp 262143).flush = none ∧ ((held (request op psn) 262143).qp 262143).resp = [] ∧ ((held (request op psn) 262143).qp 262143).inb = none ∧
    psnDiff psn ((held (request op psn) 262143).qp 262143).rpsn = (psn : Int) - 5 := by
  intro op ho psn hp
  refine ⟨?_, ?_, held_oldest _ _ _, ?_⟩
  · revert op psn
    intro op ho psn hp
    rw [request, packet_good (by revert op psn; decide) (by revert op psn; decide)]
    revert op psn
    decide +kernel
  · exact (by decide +kernel : (on []).runsBelow 4)
  · revert op psn
    decide +kernel

/-- A WRITE of one byte with its region at the table's first entry. -/
def writing : State := (poke 2 0 0 (leBytes 8 0 ++ leBytes 8 64 ++ leBytes 6 0 ++ [7])).run
  (held (request 0x0A 5 (List.replicate 15 0 ++ [1, 9])) 262143 id [(.committed, RDMA.QP_ACCESS.of 262143, 2),
    (.live, HOST.LINK_STATUS 0, 0x3A0)])

theorem wit_PacketsAreReceived_write : (request 0x0A 5 (List.replicate 15 0 ++ [1, 9])).rocePkt.body = List.replicate 15 0 ++ [1, 9] ∧
    beAt (List.replicate 15 0 ++ [1, 9]) 12 4 = 1 ∧ writing.mrGrant 262143 0 0 1 2 1 = some (0, none) ∧ 1 ≤ writing.qpMtu 262143 ∧
    writing.checkFor 0 none 0 1 true = .pass ∧ writing.mrBad 0 = false ∧ writing.waitRes (.frame 7) = none ∧
    tget none writing.ctl.rdma.uses 7 = none ∧ writing.linkOpen (writing.linkOf 0) = true ∧ writing.dmaHeld 0 = false := by
  refine ⟨?_, by decide +kernel, by decide +kernel, by decide +kernel, by decide +kernel, by decide +kernel, by decide +kernel, by decide +kernel, by decide +kernel, by decide +kernel⟩
  rw [request, packet_good (by decide) (by decide)]
  decide +kernel

theorem wit_RequesterAndTables : (∀ b ∈ [[0x1F], [0x60], [0x62], [0x20]],
      ((request 0x11 5 b).rocePkt = ⟨0x11, 0xFFFF, 262143, false, 5, b, true⟩ ∧ beAt b 0 1 < 2 ^ 8)) ∧
    ([0x1F / 32, 0x20 / 32, 0x62 / 32, 0x60] = [0, 1, 3, synSeq]) ∧
    (held (request 0x11 5) 262143 id [(.committed, RDMA.QP_TIMERS.of 262143, 0x700)]).cfd (RDMA.QP_TIMERS.of 262143) 10 8 = 7 ∧
    (held (request 0x11 5) 262143 id [(.committed, RDMA.QP_TIMERS.of 262143, 0x100)]).cfd (RDMA.QP_TIMERS.of 262143) 10 8 = 1 ∧
    ((held (request 0x11 5) 262143 fun q => { q with rnrs := 1 }).qp 262143).rnrs = 1 ∧
    (request 0x10 5 (List.replicate 68 0)).rocePkt.body.length = 68 ∧
    (let s := (requesting 3 0x45 (fun w => { w with desc := leBytes 64 (256 * 0x45 + 2 ^ 128 * 64 + 262143 * 2 ^ 160) })
        fun q => { q with out := [{ packetOut 0x0C 1 with sent := true }] });
      (s.qp 262143).out.find? (·.needsResp) = some { packetOut 0x0C 1 with sent := true } ∧ (s.work? 3).map (·.length) = some 64 ∧
      s.checkAll 0 none [(0, 64)] true = .pass ∧ s.waitRes (.frame 7) = none ∧ s.linkOpen (s.linkOf 0) = true ∧ s.dmaHeld 0 = false) ∧
    ((working (work 0x51)).work? 3).map (fun x => (x.typ, x.stage)) = some (0x51, 0) ∧
    ((on [] fun k => { k with rdma.qps := [(262143, { Qp.init with flush := some (5, 7) })], host.arrived := [⟨.qp 1 7 0, ST.OK, [1, 2, 3, 4]⟩] }).readResult 7 4 =
      some (ST.OK, [1, 2, 3, 4])) ∧
    State.reset.serves core0 Pg.rdma ∧ State.reset.sel core0 Pg.rdma 0x10C % 2 ^ 20 < State.reset.mrCount ∧
    State.reset.rdW RDMA.MR_BASE < 2 ^ 47 := by
  refine ⟨?_, by decide +kernel, by decide +kernel, by decide +kernel, by decide +kernel, ?_, by decide +kernel, by decide +kernel,
    by decide +kernel, by decide +kernel, by decide +kernel, by decide +kernel⟩
  · intro b hb
    refine ⟨?_, by revert b; decide⟩
    rw [request, packet_good (by revert b; decide) (by revert b; decide)]
    revert b
    decide +kernel
  · rw [request, packet_good (by decide +kernel) (by decide +kernel)]
    decide +kernel

/-- A BLOCK descriptor of volume 0: one block of 512 bytes at block 0, task operation `op`. -/
def blockWork (typ : Nat) (op : Nat := 0) (len : Nat := 512) : Work :=
  { work typ with desc := leBytes 64 (256 * typ + 2 ^ 128 * len + 2 ^ 176 * op + 2 ^ 256) }

/-- A machine with volume 0 of 1,024 extents online for function 0 and ring 5 of the block front-end, its one member with a capacity. -/
def stored (w : Work) (l : List (Bank × Reg × Nat) := []) (f : Ctl → Ctl := id) : State :=
  working w ([(.committed, RING.CTX_CTL.of 5, 0x30), (.committed, BLKF.VOL_CTL.of 0, 1), (.committed, BLKF.VOL_NUM_EXT.of 0, 1024),
    (.committed, BLKB.SET_CFG 0, 1), (.committed, BLKB.SSD_CFG 0, 3), (.live, BLKB.SSD_STATUS 0, 3)] ++ l)
    fun k => f { k with blk.rebuilt := true, blk.caps := [(0, 2 ^ 30)] }

theorem wit_BlockCommandsStart : ∀ p ∈ [(btRead, 512), (btWrite, 512), (btZero, 0), (btFlush, 0)],
    let w := blockWork p.1 0 p.2
    (stored w).runsBelow 4 ∧ (stored w).work? 3 = some w ∧ w.typ = p.1 ∧ (stored w).ringConsumer w.ring = 3 ∧ w.aux = 0 ∧ w.stage ≠ 1 ∧
    (stored w).blockCheck w = ST.OK ∧ (stored w).blockHeld 3 w = false ∧
    ((memUE 4 64 false).run (stored w)).blockCheck w = ST.OK ∧
    (stored w [(.committed, BLKF.VOL_CTL.of 0, 0)]).blockCheck w = ST.BAD_FIELD ∧
    (stored w [] fun k => { k with blk.vols := [(0, { VolSt.init with pend := true })] }).blockCheck w = ST.DEFERRED_ERROR ∧
    (stored w [] fun k => { k with rings.works := [(2, { blockWork btWrite with aux := 2, desc := (blockWork btWrite).desc.set 2 4 }), (3, w)] }).blockHeld 3 w
      = true ∧
    (stored { w with aux := 1 }).work? 3 = some { w with aux := 1 } ∧ (stored { w with aux := 2 }).work? 3 = some { w with aux := 2 } ∧
    w.reads = 0 ∧ w.status = ST.OK ∧ ST.OK ≠ ST.ACCESS_DENIED := by decide +kernel

theorem wit_TasksUseTheirWindow : (∀ op ∈ [1, 2, 3, 4],
      let w := blockWork btTask op
      (stored w).blockCheck w = ST.OK ∧ w.taskOp = op ∧ w.typ = btTask ∧ (stored w).window? w.fn = none ∧
      (stored w [] fun k => { k with blk.tasks := [(0, 9)] }).window? w.fn = some 8) ∧
    State.reset.serves core0 Pg.blkf ∧ State.reset.sel core0 29 0x140 % 2048 = 0 ∧ (stored (blockWork btTask 4)).suits 0 3 = true ∧
    (stored (blockWork btTask 4)).suits 0 1 = false := by decide +kernel

/-- A journal record with its copies written, and a placement whose record is durable. -/
def recorded (j : List JRec) (p : List Placing) : State := stored (work 0) [] fun k => { k with blk.jrecs := j, blk.placings := p }

theorem wit_PlacementEnds : (recorded [⟨5, [(0, 2 ^ 63)], some 2, 0, true, false, 0, false, false⟩] []).powered ∧
    (recorded [⟨5, [(0, 2 ^ 63)], some 2, 0, true, false, 0, false, false⟩] []).settles = true ∧
    (recorded [] [⟨2, 0, 0, [], 4, false, none⟩]).settles = true ∧
    (recorded [⟨5, [(0, 2 ^ 63)], some 2, 0, true, false, 0, false, false⟩] []).jrnlReady = some ⟨5, [(0, 2 ^ 63)], some 2, 0, true, false, 0, false, false⟩ ∧
    (recorded [] [⟨2, 0, 0, [], 4, false, none⟩]).placing? 2 = some ⟨2, 0, 0, [], 4, false, none⟩ ∧
    (firing (.flushDeadline 16383)).nextEvent = some (ev (.flushDeadline 16383), false) ∧
    (ev (.flushDeadline 16383)).due = some (firing (.flushDeadline 16383)).dispatchSlot.1 ∧
    (stepping (.flushDeadline 16383)).nextEvent = some (ev (.flushDeadline 16383), true) := by decide +kernel

/-- An NVMe command on SSD 15, and a machine with such commands and SSD 15 in a state and a role. -/
def nvmeCmd (job : NvFor) (ab : Bool) : NCmd := ⟨7, 15, 1, 0, 16, [], job, ab, false⟩
def driven (st cfg : Nat) (c : List NCmd) (f : Ctl → Ctl := id) : State :=
  on [(.committed, BLKB.SSD_CFG 15, cfg), (.live, BLKB.SSD_STATUS 15, st)] fun k => f { k with blk.cmds := c }

theorem wit_DrivesAnswerAndFail : (driven 3 3 [nvmeCmd .activity false]).powered ∧
    (driven 3 3 [nvmeCmd .activity false]).ctl.blk.cmds.find? (fun c => decide (c.id = 7)) = some (nvmeCmd .activity false) ∧
    (nvmeCmd .activity false).aborting = false ∧
    ((driven 3 3 [nvmeCmd .activity true]).ctl.blk.cmds.any fun c => decide (c.ssd = 15) && c.aborting) = true ∧
    (tget [] (driven 3 3 [] fun k => { k with blk.resets := [(15, [0, 0])] }).ctl.blk.resets 15).filter
      (fun t => decide (State.reset.ctl.health.sysSec ≤ t + 60)) = [0, 0] ∧
    (driven 1 3 []).ssdEn 15 = true ∧ (driven 1 3 []).ssd 15 = ssdAbsent ∧
    ((driven 1 3 [nvmeCmd .identify false]).ctl.blk.cmds.any fun c => decide (c.ssd = 15) && decide (c.job = .identify)) = true := by
  decide +kernel

/-- SSD 15 with an activity under way. -/
def acting (x : SsdAct) : State := driven 2 1 [] fun k => { k with blk.acts := [(15, some x)] }

theorem wit_DriveActivities : State.reset.serves core0 Pg.blkb ∧ (∀ op ∈ [1, 2, 3], tbit (2 ^ 31 + op) 31 = true ∧ field (2 ^ 31 + op) 1 0 = op) ∧
    (∀ x ∈ [(⟨1, 0, 1, 0, [], 0⟩ : SsdAct), ⟨1, 0, 4, 0, [], 0⟩, ⟨1, 0, 2, 0, [], 0⟩, ⟨2, 0, 3, 0, [], 0⟩, ⟨3, 0, 1, 0, [], 0⟩],
      (acting x).powered ∧ (acting x).act? 15 = some x ∧ (acting x).rngState ≠ 2) ∧ State.reset.serves core0 Pg.map ∧
    (let s := driven 2 1 [] fun k => { k with blk.acts := [(15, some ⟨1, 0, 1, 0, [], 0⟩)], blk.caps := [(15, 9)] }
     0 < tget 0 s.ctl.blk.caps 15) ∧ (on [(.live, RNG.STATUS, 1)]).rngState = 1 ∧ (on [(.live, RNG.STATUS, 2)]).rngState = 2 ∧
    State.reset.bit MAP.REBUILD_STATUS 8 = false ∧
    (let s := on [(.live, MAP.REBUILD_STATUS, 256)] fun k => { k with blk.rebuild := some ⟨true, true, [], [], 0, 0, []⟩ }
     s.powered ∧ s.bit MAP.REBUILD_STATUS 8 = true ∧ s.ctl.blk.rebuild.isSome = true ∧ s.ctl.blk.restored = [] ∧ s.pf = 0 ∧
     s.ctl.blk.unrestored = false) := by decide +kernel

/-- A unit of a pair in a state, its link up. -/
def paired (st : Nat) (l : List (Bank × Reg × Nat) := []) (f : Ctl → Ctl := id) : State :=
  stored (blockWork btWrite) ([(.committed, PAIR.CFG, 1), (.live, PAIR.STATUS, 8 + st)] ++ l) f

/-- A mirrored write of one block. -/
def stageMsg : StageMsg := ⟨5, 0, 0, 0, 512, false, List.replicate 512 0⟩

theorem wit_PairMessagesAct : (∀ c ∈ [clsMgmt, clsStage, clsJournal, clsResync], (paired prPaired).expects c 0 0) ∧
    (paired prPaired).cfd PAIR.CFG 1 1 = 0 ∧ (paired prPaired).ctl.pair.asked = 0 ∧
    (paired prFenced [] fun k => { k with pair.asked := 2 }).admits 1 = true ∧
    seqDiff 0 ((paired prFenced [] fun k => { k with pair.asked := 2 }).stream clsMgmt).expect = 0 ∧
    (paired prAlone [(.live, PAIR.EPOCH, 1)] fun k => { k with pair.asked := 1 }).admits 0 = true ∧
    (paired prPaired [] fun k => { k with pair.asked := 1 }).ctl.pair.asked ≠ 0 ∧ (paired prPaired).rd PAIR.EPOCH < 1 ∧
    (paired prPaired).beats = true ∧ (paired prPaired).runsBelow 4 ∧
    (paired prJoining [] fun k => { k with pair.admEpoch := some 7 }).expects clsMgmt 0 7 ∧
    (paired prPaired).mirrorGoes stageMsg = true ∧
    (paired prPaired [] fun k => { k with pair.held := [(5, 4, stageMsg)] }).mirrorGoes stageMsg = false ∧
    (paired prPaired [] fun k => { k with pair.held := [(5, 4, stageMsg)], rings.works := [] }).dirtyWaiters = [] ∧
    (paired prPaired [] fun k => { k with pair.held := [(5, 4, stageMsg)] }).mirrorFits stageMsg = true ∧
    (paired prPaired [] fun k => { k with rings.works := [(3, { blockWork btWrite with aux := 3 })] }).dirtyWaiters = [(3, { blockWork btWrite with aux := 3 })] ∧
    (paired prPaired [] fun k => { k with rings.works := [(3, { blockWork btWrite with aux := 3 })] }).dirtyFits { blockWork btWrite with aux := 3 } = true ∧
    (paired prPaired [(.live, FWD.NOTIFY_CTL.of 3, 1)]).bit (FWD.NOTIFY_CTL.of 3) 0 = true := by
  unfold State.expects
  decide +kernel

theorem wit_PairLinkAndBeats : (paired prPaired).powered ∧ (paired prPaired).pairUp = true ∧ (paired prAlone).pairState ∉ [prPaired, prJoining] ∧
    State.reset.pairUp = false ∧ State.reset.clockRuns 3 = true ∧ 15 * 16 % 16 = 0 ∧ 255 % 16 ≠ 0 ∧ 255 / 16 ≠ 0 ∧ (paired prPaired).pairEn = true ∧
    (paired prPaired [] fun k => { k with time.events := [ev .hbSend] }).fires (ev .hbSend) .hbSend ∧
    (paired prPaired [] fun k => { k with time.flush := [ev .deadPeer] }).steps (ev .deadPeer) .deadPeer ∧
    (paired prPaired [] fun k => { k with time.events := [ev .deadPeer] }).fires (ev .deadPeer) .deadPeer ∧
    (paired prPaired [(.committed, PAIR.CFG, 9)]).cbit PAIR.CFG 3 = true ∧ (paired prPaired).cbit PAIR.CFG 3 = false ∧
    (paired prPaired).pairState ≠ prJoining ∧ (paired prPaired).beats = true ∧
    (paired prPaired [(.committed, PAIR.MIRROR_CFG, 128)]).cbit PAIR.MIRROR_CFG 7 = true ∧ (paired prPaired).pairState ≠ prOff ∧ (paired prPaired).pairState ≠ prFenced ∧
    (paired prPaired).rd PAIR.EPOCH < 1 ∧ (paired prPaired).mayTalk clsResync = true ∧
    ((paired prPaired [] fun k => { k with pair.streams := [(5, { PStream.init with kept := [(4, .fence)] })] }).stream 5).kept = [(4, .fence)] := by
  unfold State.fires State.steps
  decide +kernel

theorem wit_PairsFormAndJoin : (paired prAlone).serves core0 Pg.pair ∧ (paired prAlone).pairState = prAlone ∧ (paired prAlone).rd PAIR.EPOCH = 0 ∧
    (paired prAlone).pairEn = true ∧ (paired prAlone).ctl.pair.asked = 0 ∧
    (paired prAlone [] fun k => { k with pair.formed := true }).ctl.pair.formed = true ∧ core0.isPort = false ∧
    (paired prSuspended).pairState = prSuspended ∧ (paired prSuspended).serves core0 Pg.pair ∧
    (paired prJoining [] fun k => { k with pair.asked := 1 }).powered ∧ (paired prJoining [] fun k => { k with pair.asked := 1 }).pairState = prJoining ∧
    (paired prJoining [] fun k => { k with pair.asked := 1 }).ctl.pair.clash = false ∧
    (paired prJoining [] fun k => { k with pair.asked := 1 }).resyncOver = true ∧
    (paired prJoining [] fun k => { k with pair.asked := 2 }).ctl.pair.asked ≠ 1 ∧
    (paired prJoining [] fun k => { k with pair.asked := 2 }).pairState = prJoining := by decide +kernel

theorem wit_GuardAndPowerFail : State.reset.powered ∧ 0 < State.reset.cfd (SUPPLY.MON_CFG 7) 11 0 ∧
    tbit (on [(.live, SUPPLY.GUARD_STATUS, 0x8001)]).tripped 7 = true ∧
    State.reset.cfd (SUPPLY.MON_CFG 7) 11 0 + State.reset.cfd (SUPPLY.MON_CFG 7) 23 16 ≤ 4095 ∧ State.reset.pf = 0 := by decide +kernel

/-- A dump of one batch with SSD 15. -/
def dumpOf (started : List Nat) (closing : Bool) : DumpSt := ⟨1, started, [[5]], [], [], 0, 1, closing⟩
def dumping (d : Option DumpSt) : State := on [(.live, SUPPLY.PF_STATE, 1), (.live, SUPPLY.DUMP_MASK, 0x8000)] fun k => { k with blk.dump := d }

theorem wit_DumpsRunInBatches : (dumping (some (dumpOf [] false))).powered ∧ (dumping (some (dumpOf [] false))).pf = 1 ∧
    (dumping (some (dumpOf [] false))).ctl.blk.dump = some (dumpOf [] false) ∧
    (dumping (some (dumpOf [] false))).bit SUPPLY.DUMP_MASK 15 = true ∧ 15 ∉ (dumpOf [] false).started ∧
    (dumpOf [15] false).started.length = (dumping (some (dumpOf [15] false))).dumpSsds.length ∧
    1 ≤ (dumpOf [15] false).records ∧ (dumpOf [15] false).next < (dumpOf [15] false).batches.length ∧ (dumpOf [15] true).closing = true ∧
    (dumping none).ctl.blk.dump = none ∧ State.reset.serves core0 Pg.supply ∧ tbit 0 0 = false ∧ tbit 1 0 = true ∧ State.reset.mayDump = false ∧
    tbit 4 2 = true ∧ (dumping none).rd BLKF.STAGE_USED = 0 ∧ (dumping none).bit SUPPLY.DUMP_CTL 3 = false ∧ (dumping none).dumpSsds ≠ [] ∧
    (on [(.live, SUPPLY.DUMP_MASK, 0x8000), (.live, SUPPLY.DUMP_AREA_MIB, 64)]).dumpSsds ≠ [] ∧
    0 < (on [(.live, SUPPLY.DUMP_MASK, 0x8000), (.live, SUPPLY.DUMP_AREA_MIB, 64)]).fd SUPPLY.DUMP_AREA_MIB 15 0 ∧
    (on [(.live, SUPPLY.DUMP_CTL, 8)]).runsBelow 4 ∧ (on [(.live, SUPPLY.DUMP_CTL, 8)]).bit SUPPLY.DUMP_CTL 3 = true ∧
    State.reset.ctl.blk.measuring = 0 := by decide +kernel

/-- A machine with pins or the boot ROM in some state. -/
def booting (f : BootSt → BootSt) (l : List (Bank × Reg × Nat) := []) : State := on l fun k => { k with boot := f k.boot }

theorem wit_ResetPins : (booting fun b => { b with pwrok := false }).ctl.boot.pwrok = false ∧ State.reset.wf = true ∧
    State.reset.ctl.boot.pwrok = true ∧ State.reset.powered ∧ State.reset.pf ≠ 1 ∧ (dumping none).powered ∧ (dumping none).pf = 1 ∧
    (booting fun b => { b with rstWaits := true }).ctl.boot.rstWaits = true ∧
    (booting fun b => { b with sysRst := false }).ctl.boot.rstWaits = false ∧ (booting fun b => { b with sysRst := false }).ctl.boot.sysRst = false ∧
    (on [] fun k => { k with host.perst := [(2, true)] }).linkFormed 2 = true := by decide +kernel

/-- A good image header's fields do not matter to where it stands. -/
def imaged (st : Nat) (l : List (Bank × Reg × Nat) := []) : State :=
  booting (fun b => { b with image := some (0, 1, [1, 2, 3]) }) ([(.live, BOOT.STATE, st)] ++ l)

theorem wit_BootAndFuses : State.reset.runsBelow 4 ∧ State.reset.ctl.boot.order.head? = some (0, 0) ∧ State.reset.ctl.boot.image = none ∧
    (State.reset.ctl.lsio.nvWait.any fun x => match x with | .trial _ => true | _ => false) = false ∧ State.reset.fd BOOT.STATE 2 0 = 0 ∧
    (booting (fun b => { b with verifying := true, order := [(2, 0)] }) [(.live, BOOT.STATE, 1)]).fd BOOT.STATE 2 0 = 1 ∧
    (imaged 0).ctl.boot.image = some (0, 1, [1, 2, 3]) ∧ (imaged 2 [(.live, PAIR.STATUS, 8)]).pairUp = true ∧
    (imaged 2 [(.live, PAIR.STATUS, 8)]).fd BOOT.STATE 2 0 = 2 ∧ State.reset.serves core0 Pg.boot ∧ State.reset.serves core0 Pg.fuse ∧
    core0.isPort = false ∧ State.reset.bit FUSE.BURN_STATUS 0 = false ∧
    (let s := on [(.live, BOOT.MIN_VER, 128), (.live, BOOT.IMG_SECVER, 128)]
     s.fd FUSE.FUSE_VER 7 0 < s.fd BOOT.MIN_VER 7 0 ∧ s.fd BOOT.MIN_VER 7 0 ≤ s.rd BOOT.IMG_SECVER) ∧
    State.reset.fd BOOT.MIN_VER 7 0 ≤ State.reset.fd FUSE.FUSE_VER 7 0 ∧
    (on [(.live, FUSE.KEY_STATE, 0)]).bit FUSE.KEY_STATE 3 = false ∧
    (∃ k < 4, k ≠ 3 ∧ (on [(.live, FUSE.KEY_STATE, 1)]).bit FUSE.KEY_STATE k = true ∧
      (on [(.live, FUSE.KEY_STATE, 1)]).bit FUSE.KEY_STATE (4 + k) = false) ∧
    (on [(.live, BOOT.STATE, 2), (.live, HOST.LINK_STATUS 0, 0x200), (.live, HOST.SHUT0_STATUS 0, 0)]).serves (.port 0) Pg.fuse ∧ (Accessor.port 0).isPort = true ∧
    (booting fun b => { b with burning := [(1, 2)] }).ctl.boot.burning = [(1, 2)] ∧ NvWrite.fuse ∉ State.reset.ctl.lsio.nvWait ∧
    (on [(.live, LSIO.OSPI_STATUS 1, 1)]).bit (LSIO.OSPI_STATUS 1) 0 = true ∧ (on [(.live, LSIO.OSPI_STATUS 1, 1)]).bit (LSIO.OSPI_STATUS 1) 1 = false ∧
    tget none (on [] fun k => { k with lsio.ospiSt := [(1, some ST.ACCESS_DENIED)] }).ctl.lsio.ospiSt 1 = some ST.ACCESS_DENIED ∧
    (∀ op : Fin 3, field ((on [] fun k => { k with lsio.ospiOp := [(0, ⟨op.val * 2 ^ 22, 0, 4, []⟩)] }).ospiOp 0).cmd 23 22 = op.val) := by decide +kernel

/-- A machine whose key slot 16,383 is as given. -/
def slotted (x : KeySlot) (w : Work) (l : List (Bank × Reg × Nat) := []) (f : Ctl → Ctl := id) : State :=
  working w l fun k => f { k with ciph.slots := [(0, ⟨4, 8, 0, 0, 9, 0, false, false⟩), (16383, x)] }

/-- A cipher job whose data has come, naming slot 16,383. -/
def cipherJob (typ : Nat) : Work := { work typ with desc := leBytes 64 (256 * typ + 2 ^ 128 * 64 + 16383 * 2 ^ 160), stage := 3, buf := List.replicate 64 0 }

theorem wit_CipherJobs : (∀ p ∈ [(0x61, 1), (0x62, 2), (0x63, 1), (0x64, 1), (0x65, 3), (0x66, 3), (0x67, 0)],
      let s := slotted ⟨p.2, 2 ^ atJob, 0, 0, 64, 0, false, false⟩ (cipherJob p.1)
      s.runsBelow 2 ∧ s.jobReady 3 p.1 (cipherJob p.1) ∧ (cipherJob p.1).jobKey = 16383 ∧ (s.slot 16383).kind = p.2 ∧
      tbit (s.slot 16383).attr atJob = true ∧ (s.slot 16383).use + 64 ≤ (s.slot 16383).limit) ∧
    (slotted KeySlot.empty (cipherJob 0x61)).jobReady 3 0x61 (cipherJob 0x61) ∧ tbit KeySlot.empty.attr atJob = false ∧
    (∀ st : Fin 3, (on [(.live, RNG.STATUS, st.val)]).rngState = st.val) := by
  unfold State.jobReady
  decide +kernel

theorem wit_VaultCommands : State.reset.serves core0 Pg.vault ∧ State.reset.bit VAULT.STATUS 0 = false ∧
    (on [(.live, VAULT.STATUS, 1)]).bit VAULT.STATUS 0 = true := by decide +kernel

/-- A machine with a vault command. -/
def vaulted (c : VaultCmd) (x : KeySlot := KeySlot.empty) : State := slotted x (work 0) [] fun k => { k with ciph.vault := some c }

theorem wit_VaultEndsAndEntropy : (vaulted ⟨9, 16383, 1, [], some ST.OK, []⟩).runsBelow 4 ∧
    (vaulted ⟨9, 16383, 1, [], some ST.OK, []⟩).ctl.ciph.vault = some ⟨9, 16383, 1, [], some ST.OK, []⟩ ∧
    ((vaulted ⟨7, 16383, 1, [], some ST.OK, []⟩ ⟨6, 0, 0, 0, 9, 0, false, false⟩).slot 16383).kind = 6 ∧
    16383 ∉ (vaulted ⟨4, 16383, 0, [], some ST.OK, []⟩).ctl.ciph.keysBusy ∧
    (∀ st : Fin 3, (on [(.live, RNG.STATUS, st.val)]).rngState = st.val ∧ (on [(.live, RNG.STATUS, st.val)]).runsBelow 4) ∧
    (on [(.live, RNG.STATUS, 9)]).consec = 2 ∧ State.reset.maskStopped = false ∧
    State.reset.rctFails 41 = true ∧ State.reset.rctFails 40 = false ∧ State.reset.aptFails 800 = true ∧ State.reset.aptFails 799 = false ∧
    (on [] fun k => { k with ciph.held := [.vault] }).ctl.ciph.held = [.vault] ∧
    (on [(.live, CIPH.MASK_STATUS, 256)]).bit CIPH.MASK_STATUS 8 = true ∧ (on [(.live, CIPH.MASK_STATUS, 256)]).maskStopped = false ∧
    State.reset.serves core0 Pg.rng := by decide +kernel

theorem wit_SaEntriesAndCipherFaults : State.reset.serves core0 Pg.ciph ∧ State.reset.sel core0 32 0x40 % 32768 < 32768 ∧
    (on [] fun k => { k with net.frames := [frame] }).runsBelow 2 ∧
    ((on [] fun k => { k with net.frames := [frame] }).ctl.net.frames.any fun f => decide (f.id = 7)) = true ∧
    (working (cipherJob 0x61)).work? 3 = some (cipherJob 0x61) ∧ 3 ≤ (cipherJob 0x61).stage := by decide +kernel

theorem wit_PadsAndGpio : (let s := on [(.live, (HDR.PAGE_STATUS Pg.pad).of 0, 1), (.pending, PAD.PAD_CFG 63, 2), (.committed, PAD.PAD_CFG 63, 0)]
      s.powered ∧ s.isPending Pg.pad 0 = true ∧ s.ctl.lsio.switching = [] ∧ s.funcChanges .pending ≠ []) ∧
    (on [] fun k => { k with lsio.switching := [63] }).ctl.lsio.switching ≠ [] ∧ 63 ∉ State.reset.ctl.lsio.switching ∧
    State.reset.serves core0 Pg.lsio := by decide +kernel

theorem wit_I2cTransfers : State.reset.serves core0 Pg.lsio ∧ State.reset.open core0 Pg.lsio = true ∧ tbit (2 ^ 31) 31 = true ∧
    tbit (2 ^ 31) 30 = false ∧ tbit (2 ^ 30) 30 = true ∧ tbit (2 ^ 30) 31 = false ∧
    (∀ st : Fin 5, (on [(.live, LSIO.I2C_STATUS 3, st.val)]).i2c 3 = st.val) ∧ State.reset.powered ∧
    (on [(.committed, LSIO.I2C_CTL 3, 8)]).cbit (LSIO.I2C_CTL 3) 3 = true ∧ tget false State.reset.ctl.lsio.i2cGo 3 = false ∧
    tget [] (on [] fun k => { k with lsio.i2cRx := [(3, [7])] }).ctl.lsio.i2cRx 3 = [7] := by decide +kernel

theorem wit_UartFifos : State.reset.powered ∧ (on [(.committed, LSIO.UART_CTL 1, 1)]).cbit (LSIO.UART_CTL 1) 0 = true ∧
    State.reset.serves core0 Pg.lsio ∧ (tget [] (on [] fun k => { k with lsio.uartTx := [(1, List.replicate 63 0)] }).ctl.lsio.uartTx 1).length < 64 ∧
    tget [] (on [] fun k => { k with lsio.uartTx := [(1, [7])] }).ctl.lsio.uartTx 1 = [7] ∧ State.reset.open core0 Pg.lsio = true ∧
    tget [] (on [] fun k => { k with lsio.uartRx := [(1, [7])] }).ctl.lsio.uartRx 1 = [7] := by decide +kernel

theorem wit_FlashAndMdioCommands : State.reset.serves core0 Pg.lsio ∧
    (∀ op ∈ [0, 1, 2], tbit (2 ^ 31 + op * 2 ^ 22) 31 = true ∧ field (2 ^ 31 + op * 2 ^ 22) 23 22 = op) ∧
    (on [(.committed, LSIO.OSPI_CTL 1, 1)]).cbit (LSIO.OSPI_CTL 1) 0 = true ∧ (on [(.committed, LSIO.OSPI_CTL 1, 1)]).bit (LSIO.OSPI_STATUS 1) 0 = false ∧
    (∀ op : Fin 6, tbit (2 ^ 31 + op.val * 2 ^ 10) 31 = true ∧ field (2 ^ 31 + op.val * 2 ^ 10) 12 10 = op.val) ∧
    (on [(.committed, LSIO.MDIO_CTL 1, 1)]).cbit (LSIO.MDIO_CTL 1) 0 = true ∧ (on [(.committed, LSIO.MDIO_CTL 1, 1)]).bit (LSIO.MDIO_STATUS 1) 0 = false ∧
    (on [(.live, LSIO.MDIO_STATUS 1, 1)]).powered ∧ (on [(.live, LSIO.MDIO_STATUS 1, 1)]).bit (LSIO.MDIO_STATUS 1) 0 = true := by
  decide +kernel

/-- A machine with a report in the intake. -/
def reported (l : List (Bank × Reg × Nat) := []) : State := on l fun k => { k with health.intake := [⟨0, 0x1001, 3, 0, 0, 0⟩] }

theorem wit_ErrorLog : reported.powered ∧ reported.ctl.health.intake = [⟨0, 0x1001, 3, 0, 0, 0⟩] ∧
    (reported [(.live, ERR.REC_TAIL, 255)]).unread = 255 ∧ (reported [(.live, ERR.REC_TAIL, 256)]).unread = 256 ∧
    State.reset.serves core0 Pg.err ∧ (0 % 256 + 256 - State.reset.fd ERR.REC_HEAD 7 0) % 256 ≤ State.reset.unread ∧
    State.reset.unread < (255 % 256 + 256 - State.reset.fd ERR.REC_HEAD 7 0) % 256 := by decide +kernel

theorem wit_LifeLogAndTap : State.reset.runsBelow 4 ∧ State.reset.bit LIFE.STATUS 0 = false ∧
    (on [] fun k => { k with health.lifeSince := 86400 }).ctl.health.lifeRetry = none ∧
    86400 ≤ (on [] fun k => { k with health.lifeSince := 86400 }).ctl.health.lifeSince ∧
    State.reset.serves core0 Pg.life ∧ core0.isPort = false ∧ State.reset.powered ∧
    (on [] fun k => { k with maint.running := [⟨MA.LIFE_COMMIT, 0xFF, .register, 0, 0⟩] }).mrunning MA.LIFE_COMMIT 0xFF = true ∧
    NvWrite.life ∉ State.reset.ctl.lsio.nvWait ∧ State.reset.ctl.boot.pwrok = true ∧ State.reset.ctl.boot.tripped = false ∧
    State.reset.wf = true ∧ State.reset.serves core0 Pg.peep := by decide +kernel

theorem wit_InboundRequests : linked.powered ∧ linked.linkUp (linked.linkOf 0) = true ∧ linked.pf ≠ 2 ∧ linked.fnExists 0 = true ∧
    linked.fnExists 8 = false ∧ linked.linkUp (linked.linkOf 8) = true ∧ (linked [(.live, shutReg 0, 1)]).linkOpen 0 = false ∧
    (linked [(.live, shutReg 0, 1)]).linkUp 0 = true ∧ 65536 < 65533 + 4 ∧ 4194300 + 4 ≤ 4194304 ∧ linked.linkOpen (linked.linkOf 0) = true ∧
    ¬ (40 = 16 ∧ (0x8000 ≤ 0x100 ∨ 0x100 = 0x50)) ∧ 32764 / 8 < 4096 := by decide +kernel

/-! Commands that nothing outside can send, one for each check of `Instr.wellFormed`. -/

theorem test_ill_formed_tags : (Instr.hostCompletion 0 8192 .success true []).wellFormed = false ∧
    (Instr.completionTimeout 0 8192).wellFormed = false ∧ (Instr.tagQuarantineEnd 0 8192).wellFormed = false ∧
    (Instr.translationCompletion 0 8192 0 0 true true).wellFormed = false := by decide

theorem test_ill_formed_lengths : (Instr.hostCompletion 0 0 .success true (List.replicate 4097 0)).wellFormed = false ∧
    (Instr.inboundMemoryRequest 0 false 0 0 (some (List.replicate 4097 0))).wellFormed = false ∧
    (Instr.aerError 0 (.unc 4 none) (List.replicate 17 0)).wellFormed = false ∧
    (Instr.apertureWrite core0 0 (List.replicate 4097 0)).wellFormed = false ∧
    (Instr.journalMessageRx 0 0 (List.replicate 253 (0, 0))).wellFormed = false ∧
    (Instr.i2cTransferDone 0 0 (List.replicate 33 0)).wellFormed = false := by decide +kernel

theorem test_ill_formed_other : (Instr.invalidateRequest 0 ⟨none, false⟩ 1 4096 0).wellFormed = false ∧
    (Instr.invalidateRequest 0 ⟨none, true⟩ 0 4096 32).wellFormed = false ∧
    (Instr.pauseReceived 0 true [(3, 1), (3, 2)]).wellFormed = false := by decide

/-! Single steps. What is expected comes from the rules named. -/

/-- The state after a step on one command. -/
def after (c : Instr) (s : State) : State := match step { s with pending := [c] } with
  | .next t => t
  | _ => s

/-- R73, R88: latch 9 taken through its register by core 0 is HELD by it. -/
theorem test_latch_acquire : ((after (.latchAcquire (.page core0) 9) State.reset).latch 9).st = .held := by decide +kernel

/-- R73: the instance an accessor selects is its own. -/
theorem test_inst_sel : (after (.instSelWrite core0 19 511) State.reset).instSel core0 19 = 511 ∧
    (after (.instSelWrite core0 19 511) State.reset).instSel (.core 1) 19 = 0 := by decide +kernel

/-- R320: UADD wraps modulo 2^64, and its result sets Z with SETF. -/
theorem test_uadd_wraps : let s := microed 0 (micro 1 0 0 1 2 0x100) fun h => { h with ts := [(1, 2 ^ 64 - 1), (2, 1)] }
    ((after (.uadd 1023) s).thread 1023).z = true ∧ tget 5 ((after (.uadd 1023) s).thread 1023).ts 0 ∈ [0, 5] := by decide +kernel

/-- R316: ALU function 1 subtracts modulo 2^64, the destination a source too. -/
theorem test_alu_sub : ((after (.alu 1023) (flowing (instr 1 1 1 1 2 0) fun h => { h with xs := [(1, 3), (2, 5)] })).thread 1023).x 1 =
    2 ^ 64 - 2 := by decide +kernel

/-- R523: SET changes only the bits written 1. -/
theorem test_gpio_set : (after (.gpioSet core0 1 0x80000001) (on [(.live, ⟨4, 0x504, 0⟩, 0x10)])).rd ⟨4, 0x504, 0⟩ = 0x80000011 := by
  decide +kernel

/-- An empty queue idles: one edge of the reference clock. -/
theorem test_idle : (match step State.reset with | .next t => decide (t.ctl.time.edges = 1) && t.pending.isEmpty | _ => false) = true := by
  decide +kernel
end Sys2Proof.Tests
end

section
/-! PROOF. The scope of the model (00_scope): the canonical form, reset, refused accesses, the field types, interrupt registers, pairs
and clearing reads, and the end of a boot attempt. -/

namespace Sys2Proof.Machine

/-! ## Steps -/

/-- A step is the run of one effect, on the memory and registers as they stand. -/
theorem step_runs (s : State) : ∃ p : Prog, ∃ u : State, step s = .next (p.run u) ∧ u.mem = s.mem ∧ u.reg = s.reg := by
  unfold step
  split
  · exact ⟨_, s, rfl, rfl, rfl⟩
  next c rest _ =>
    obtain ⟨p, hp⟩ := exec_runs c { s with pending := rest }
    exact ⟨p, _, hp, rfl, rfl⟩

theorem wf_congr {s u : State} (hm : u.mem = s.mem) (hr : u.reg = s.reg) : u.wf = s.wf := by simp [State.wf, hm, hr]

/-- Settles O3: a step is the run of an effect on the same memory and registers, and every effect keeps the invariant. -/
theorem stepsKeepTheCanonicalForm : Obligations.StepsKeepTheCanonicalForm := by
  unfold Obligations.StepsKeepTheCanonicalForm Says.StepsKeepTheCanonicalForm
  intro s t hs hst
  obtain ⟨p, u, hp, hm, hr⟩ := step_runs s
  obtain rfl : p.run u = t := by simpa [hp] using hst
  exact run_wf p ((wf_congr hm hr).trans hs)

/-! ## What device reset leaves -/

theorem reset_copy (b : Bank) (r : Reg) :
    State.reset.copy b r = if b = .hiLatch then 0 else resetAt r.page r.off % 2 ^ 32 := by
  cases b <;> rfl

theorem reset_domains (n : Fin 8) :
    State.reset.domState n.val = 0 ∧ State.reset.rdW (TIME.DOM_INCR n.val) = 64 * 2 ^ 40 / 10 := by
  revert n; decide +kernel

theorem chip_regFor (s : State) (a : Accessor) (off : Nat) : s.regFor a 0 off = ⟨0, off, 0⟩ := by
  simp [State.regFor, windowed, instCount]

theorem reset_deviceId (a : Accessor) : State.reset.plainWord a 0 0x40 = 0x47125A15 := by
  have h : State.reset.plainWord a 0 0x40 = State.reset.plainWord (.core 0) 0 0x40 := by
    simp only [State.plainWord, chip_regFor, selectorOffs]
    rfl
  rw [h]
  decide +kernel

/-- Settles O4: an unlisted copy reads its reset value, and after reset none is listed. -/
theorem resetLeavesItsValues : Obligations.ResetLeavesItsValues := by
  unfold Obligations.ResetLeavesItsValues Says.ResetLeavesItsValues
  exact ⟨reset_wf, rfl, rfl, reset_copy, fun _ => rfl, reset_domains, reset_deviceId⟩

/-! ## Refused accesses -/

theorem byWriter_next {s : State} {a : Accessor} {page : Nat} (off : Nat) (p : Prog) (h : s.serves a page) :
    done (byWriter a page off p) s = .next (p.run s) := by rw [done_eq, byWriter_run off p h]

theorem byReader_next {s : State} {a : Accessor} {page : Nat} (p : Prog) (h : s.open a page = true) :
    done (byReader a page p) s = .next (p.run s) := by rw [done_eq, byReader_run p h]

theorem misaligned_of_not_transomPort {page off : Nat} (a : Accessor) (rd : Bool) (h : ¬ transomPort page off) :
    misaligned a page off rd = if rd then byReader a page (doAll [answer 0, misSize a page off])
      else byWriter a page off (misSize a page off) := by
  have h1 : ¬ (page = 16 ∧ 0x8000 ≤ off) := fun e => h ⟨e.1, .inl e.2⟩
  have h2 : ¬ (page = 16 ∧ 0x50 ≤ off ∧ off < 0x54) := fun e => h ⟨e.1, .inr e.2⟩
  rw [misaligned, if_neg h1, if_neg h2]

theorem misaligned_aperture_write {s : State} {a : Accessor} {off : Nat} (hs : s.serves a Pg.transom) (hb : s.tBurst = true)
    (ho : 0x8000 ≤ off) : (misaligned a 16 off false).run s = (transomReject 3 (s.tAddr + off - 0x8000)).run s := by
  have h : (misaligned a 16 off false) = apertureWrite a off [] := by simp [misaligned, ho]
  rw [h, apertureWrite, byWriter_run _ _ hs]
  simp [hb, apertureOk]

theorem misaligned_data_write {s : State} {a : Accessor} {off : Nat} (hs : s.serves a Pg.transom) (hb : s.tBurst = false)
    (ho : 0x50 ≤ off) (ho' : off < 0x54) : (misaligned a 16 off false).run s = (transomReject 3 s.tAddr).run s := by
  have h : (misaligned a 16 off false) = dataWrite a 0 0 := by simp [misaligned, ho, ho']; omega
  rw [h, dataWrite, byWriter_run _ _ hs]
  simp [hb]

theorem refusedAccessesAreOnlyRecorded : Says.RefusedAccessesAreOnlyRecorded := by
  intro s a page off
  refine ⟨fun hs hp => ⟨fun hb ho => ?_, fun hb ho ho' => ?_⟩, fun hs ht => ?_, fun hs ht => ?_, fun k hs => ?_, fun k hs => ?_,
    fun p hs hw => ?_⟩
  · exact congrArg _ (hp ▸ misaligned_aperture_write hs hb ho)
  · exact congrArg _ (hp ▸ misaligned_data_write hs hb ho ho')
  · calc exec (.misalignedAccess a page off false) s = done (misaligned a page off false) s := rfl
      _ = _ := by
        rw [misaligned_of_not_transomPort a _ ht]
        exact byWriter_next _ _ hs
  · calc exec (.misalignedAccess a page off true) s = done (misaligned a page off true) s := rfl
      _ = _ := by
        rw [misaligned_of_not_transomPort a _ ht]
        exact byReader_next _ hs
  · show done (unmapped a (41 + k.val) off false) s = _
    simp [unmapped, done_eq, hs.1, hs.2]
  · show done (unmapped a (41 + k.val) off true) s = _
    simp [unmapped, done_eq, hs]
  · exact congrArg _ (byWriter_refused _ _ hs hw)

/-! ## OWNER and LOCK -/

theorem copy_wr_other (s : State) {b : Bank} {r r' : Reg} (v : Nat) (h : (b, r') ≠ (.live, r)) :
    ((wr r v).run s).copy b r' = s.copy b r' :=
  copy_setCopy_other _ _ _ _ _ _ fun e => h (by rw [e.1, e.2])

theorem rd_wr_owner (s : State) (v : Word) : ((wr CHIP.MGMT_OWNER v.toNat).run s).rd CHIP.MGMT_OWNER = v.toNat % 2 := by
  have hm : RKey.mask ⟨.live, 0, 0, 0x48⟩ = 1 := by decide +kernel
  rw [rd_wr_same]
  simp [hm, Nat.and_one_is_mod]

theorem tbit_add_mul {r i : Nat} (hr : r < 2 ^ i) (q : Nat) : tbit (r + 2 ^ i * q) i = (q % 2 == 1) := by
  rw [tbit, Nat.add_mul_div_left _ _ (Nat.two_pow_pos i), Nat.div_eq_of_lt hr, Nat.zero_add]

/-- Replacing bit `i` leaves the bits below and above it. -/
theorem setField_bit (v i : Nat) (b : Bool) :
    setField v i i (b2n b) = v % 2 ^ i + 2 ^ i * (2 * (v / 2 ^ i / 2) + b2n b) := by
  have hb : b2n b % 2 = b2n b := by cases b <;> rfl
  have hv : v = v % 2 ^ i + 2 ^ i * (2 * (v / 2 ^ i / 2)) + v / 2 ^ i % 2 * 2 ^ i := by
    calc v = v % 2 ^ i + 2 ^ i * (v / 2 ^ i % 2 + 2 * (v / 2 ^ i / 2)) := by rw [Nat.mod_add_div, Nat.mod_add_div]
      _ = _ := by ring
  simp only [setField, field, Nat.add_sub_cancel_left, pow_one, hb]
  rw [Nat.sub_eq_of_eq_add hv]
  ring

theorem tbit_setField_same (v i : Nat) (b : Bool) : tbit (setField v i i (b2n b)) i = b := by
  rw [setField_bit, tbit_add_mul (Nat.mod_lt _ (Nat.two_pow_pos i))]
  cases b <;> simp [b2n]

/-- Bit `i` of a register after hardware writes it alone. -/
theorem bit_wrB_same (s : State) (r : Reg) {i : Nat} (b : Bool) (hi : i < 32) (hm : tbit (maskAt .live r.page r.off) i = true) :
    ((wrB r i b).run s).bit r i = b := by
  simp only [State.bit, wrB, wrF, run_look, tbit_rd_wr _ _ _ hi, hm, tbit_setField_same, Bool.and_true]

/-- Writing another register's bit leaves a register as it is. -/
theorem rd_wrB_other (s : State) {r r' : Reg} (i : Nat) (b : Bool) (h : r' ≠ r) : ((wrB r i b).run s).rd r' = s.rd r' :=
  rd_wr_other _ _ h

/-- An error report leaves every register that no signal writes. -/
theorem rd_err (p i c q info : Nat) (s : State) {r : Reg} (hr : ¬ sideReg anyPage ⟨.live, r.page, r.inst, r.off⟩) :
    ((err p i c q info).run s).rd r = s.rd r := Side.copy (side_err p i c q info s) .live r hr

/-- The check of VF_ALLOC that comes with the lock (R102) leaves the lock as it is. -/
theorem rd_bootLock_vfAllocCheck (c : Bool) (h : Nat) (s : State) :
    ((Prog.when c (doAll [wrB (HOST.LINK_STATUS h) 20 true,
      err (11 + h) 0 EC.CONFIG RS.VALUE_REJ (bar0 (11 + h) 0x80)])).run s).rd CHIP.BOOT_LOCK = s.rd CHIP.BOOT_LOCK := by
  rw [run_when]
  split
  · rw [run_all_cons, run_all_cons, run_all_nil, rd_err _ _ _ _ _ _ (by simp [sideReg]), rd_wrB_other _ _ _ (by simp)]
  · rfl

theorem bit_setBootLock (s : State) : (setBootLock.run s).bit CHIP.BOOT_LOCK 0 = true := by
  rw [setBootLock, run_look, run_when]
  split
  · simp only [run_all_cons, run_all_nil, run_each_cons, run_each_nil, State.bit, rd_bootLock_vfAllocCheck]
    exact bit_wrB_same s CHIP.BOOT_LOCK true (by norm_num) (by decide +kernel)
  next h => simpa using h

theorem ownerAndLock : Says.OwnerAndLock := by
  intro s a v hs
  refine ⟨⟨_, byWriter_next _ _ hs, rd_wr_owner s v, fun b r h => copy_wr_other s _ h, rfl, rfl⟩,
    ⟨_, byWriter_next _ _ hs, ?_, fun h => ?_⟩⟩
  · cases hw : !a.isPort && tbit v.toNat 0
    · simp
    · simpa using bit_setBootLock s
  · have hw : (!a.isPort && tbit v.toNat 0) = false := by rcases h with h | h <;> simp [h]
    simp [hw]

/-- Settles O5: the guards let through or record each access as its hypotheses say, and no report writes LOCK. -/
theorem accessesAreRefusedAndOwned : Obligations.AccessesAreRefusedAndOwned := by
  unfold Obligations.AccessesAreRefusedAndOwned
  exact ⟨refusedAccessesAreOnlyRecorded, ownerAndLock⟩

/-! ## Words of the register map -/

/-- The bits that a row implements, of any access type. -/
def RegRow.bits (r : RegRow) : Nat := r.rw ||| r.ro ||| r.rc ||| r.w1c ||| r.w1s ||| r.wo ||| r.lk ||| r.st

theorem maskAt_live {page off : Nat} {row : RegRow} {h : Bool} (e : rowAt page off = some (row, h)) :
    maskAt .live page off = halfOf h row.bits := by simp [maskAt, e, RegRow.bits]

theorem maskAt_staged {page off : Nat} {row : RegRow} {h : Bool} (e : rowAt page off = some (row, h)) :
    maskAt .staged page off = halfOf h (row.st ||| row.rw) := by simp [maskAt, e]

theorem tbit_halfOf_word (m : Nat) {i : Nat} (hi : i < 32) : tbit (halfOf false m) i = tbit m i := tbit_mod hi

theorem halfOf_and (h : Bool) (a b : Nat) : halfOf h a &&& halfOf h b = halfOf h (a &&& b) := by
  cases h
  · exact (Nat.and_mod_two_pow (n := 32)).symm
  · exact (Nat.and_div_two_pow (n := 32)).symm

theorem halfOf_zero (h : Bool) : halfOf h 0 = 0 := by cases h <;> rfl

theorem RegRow.reset_and_bits {r : RegRow} (h : r.ok = true) : r.reset &&& r.bits = r.reset := by
  simp only [RegRow.ok, Bool.and_eq_true, decide_eq_true_eq, and_assoc] at h
  exact h.1

theorem monReset_bits (m : Fin 8) : monReset m.val &&& maskAt .live 40 (0x100 + 0x10 * m.val) = monReset m.val := by
  revert m; decide +kernel

theorem classReset_bits (c : Fin 16) : classReset c.val &&& maskAt .live 37 (0x100 + 0x10 * c.val) = classReset c.val := by
  revert c; decide +kernel

/-- A register's reset value has no bit that it does not implement. -/
theorem resetAt_and_mask (page : Fin 41) (o : Nat) : resetAt page.val o &&& maskAt .live page.val o = resetAt page.val o := by
  unfold resetAt
  split
  next h =>
    obtain ⟨hp, h1, h2, h3⟩ := h
    have ho : o = 0x100 + 0x10 * ((o - 0x100) / 0x10) := by omega
    have := monReset_bits ⟨(o - 0x100) / 0x10, by omega⟩
    rw [hp]
    simpa only [← ho] using this
  split
  next h =>
    obtain ⟨hp, h1, h2, h3⟩ := h
    have ho : o = 0x100 + 0x10 * ((o - 0x100) / 0x10) := by omega
    have := classReset_bits ⟨(o - 0x100) / 0x10, by omega⟩
    rw [hp]
    simpa only [← ho] using this
  cases e : rowAt page.val o with
  | none => simp
  | some x =>
    obtain ⟨row, h⟩ := x
    simp only [maskAt_live e, halfOf_and, RegRow.reset_and_bits (rowAt_ok e)]

theorem tget_eq_or_mem {κ ν : Type} [DecidableEq κ] (d : ν) (t : List (κ × ν)) (k : κ) :
    tget d t k = d ∨ (k, tget d t k) ∈ t := by
  induction t with
  | nil => exact .inl rfl
  | cons e t ih =>
    rw [tget_cons]
    split
    next h => exact .inr (by simp [← h])
    next h => exact ih.imp id (List.mem_cons_of_mem _)

/-- Listed or not, a live register holds no bit that it does not implement (R5). -/
theorem rd_and_mask {s : State} (hs : s.wf = true) (page : Fin 41) (off inst : Nat) :
    s.rd ⟨page.val, off, inst⟩ &&& maskAt .live page.val off = s.rd ⟨page.val, off, inst⟩ := by
  have hreg : ∀ e ∈ s.reg, e.2 &&& e.1.mask = e.2 := by
    simp only [State.wf, Regs.wf, Bool.and_eq_true, List.all_eq_true, decide_eq_true_eq] at hs
    exact hs.2.2
  have hk : tget (RKey.reset ⟨.live, page.val, inst, off⟩) s.reg ⟨.live, page.val, inst, off⟩ &&& RKey.mask ⟨.live, page.val, inst, off⟩ =
      tget (RKey.reset ⟨.live, page.val, inst, off⟩) s.reg ⟨.live, page.val, inst, off⟩ := by
    rcases tget_eq_or_mem (RKey.reset ⟨.live, page.val, inst, off⟩) s.reg ⟨.live, page.val, inst, off⟩ with h | h
    · rw [h, RKey.reset, RKey.mask, ← BitVec.ofNat_and, resetAt_and_mask]
    · exact hreg _ h
  refine eq_of_tbit (lt_of_le_of_lt Nat.and_le_left (rd_lt ..)) (rd_lt ..) fun i hi => ?_
  have hki := congrArg (fun w => tbit w.toNat i) hk
  simp only [BitVec.toNat_and, tbit_and, RKey.mask, tbit_ofNat hi] at hki
  rw [tbit_and]
  exact hki

theorem tbit_mask_of_rd {s : State} (hs : s.wf = true) (page : Fin 41) {off inst i : Nat}
    (h : tbit (s.rd ⟨page.val, off, inst⟩) i = true) : tbit (maskAt .live page.val off) i = true := by
  rw [← rd_and_mask hs, tbit_and, Bool.and_eq_true] at h
  exact h.2

/-! ## Writes of the fields of a word -/

theorem regFor_page (s : State) (a : Accessor) (page off : Nat) : (s.regFor a page off).page = page := by
  unfold State.regFor; split
  · rfl
  · split <;> rfl

theorem regFor_off (s : State) (a : Accessor) (page off : Nat) : (s.regFor a page off).off = off := by
  unfold State.regFor; split
  · rfl
  · split <;> rfl

theorem regFor_eq (s : State) (a : Accessor) (page off : Nat) : s.regFor a page off = ⟨page, off, (s.regFor a page off).inst⟩ := by
  cases e : s.regFor a page off with
  | mk p o i =>
    obtain rfl : p = page := by simpa [e] using regFor_page s a page off
    obtain rfl : o = off := by simpa [e] using regFor_off s a p off
    rfl

theorem tbit_maskAt_live {page off : Nat} {row : RegRow} (e : rowAt page off = some (row, false)) {i : Nat} (hi : i < 32) :
    tbit (maskAt .live page off) i = tbit row.bits i := by rw [maskAt_live e, tbit_halfOf_word _ hi]

/-- A bit that a word reads is one that its row implements. -/
theorem tbit_bits_of_rd {s : State} (hs : s.wf = true) {a : Accessor} {page : Fin 41} {off : Nat} {row : RegRow}
    (e : rowAt page.val off = some (row, false)) {i : Nat} (hi : i < 32) (h : tbit (s.rd (s.regFor a page.val off)) i = true) :
    tbit row.bits i = true := by
  rw [regFor_eq] at h
  rw [← tbit_maskAt_live e hi]
  exact tbit_mask_of_rd hs page h

/-- The bits of a word that take the value written. -/
def State.putBits (s : State) (page : Nat) (row : RegRow) : Nat :=
  row.rw ||| (if s.bit CHIP.BOOT_LOCK 0 then 0 else row.lk) ||| (if page = 6 ∨ page = 33 then row.wo else 0)

/-- The bits of a word that a write of the fields leaves in the live copy. -/
def fieldsValue (old put clr v : Nat) : Nat := (old &&& notN 32 (put ||| clr)) ||| (v &&& put) ||| (old &&& clr &&& notN 32 v)

theorem tbit_fieldsValue (old put clr v : Nat) {i : Nat} (hi : i < 32) :
    tbit (fieldsValue old put clr v) i =
      ((tbit old i && !(tbit put i || tbit clr i)) || (tbit v i && tbit put i) || (tbit old i && tbit clr i && !tbit v i)) := by
  simp [fieldsValue, tbit_notN hi]

section Fields

variable {s : State} {a : Accessor} {page off : Nat} {row : RegRow}

/-- The fields of a word take a write in two copies of one register at most: the live one and the staged one. -/
theorem run_writeFields_word (v : Nat) (e : rowAt page off = some (row, false)) (hsel : off ∉ selectorOffs page) :
    (writeFields a page off v).run s =
      (Prog.when (decide (halfOf false row.st ≠ 0)) (setCopy .staged (s.regFor a page off) v)).run
        ((Prog.when (decide (halfOf false (s.putBits page row) ≠ 0) || decide (halfOf false row.w1c &&& v ≠ 0))
          (wr (s.regFor a page off) (fieldsValue (s.rd (s.regFor a page off)) (halfOf false (s.putBits page row))
            (halfOf false row.w1c &&& v) v))).run s) := by
  simp only [writeFields, run_look, e, hsel, if_false, run_all_cons, run_all_nil]
  rw [regFor_eq]
  rfl

theorem copy_writeFields_other (v : Nat) (e : rowAt page off = some (row, false)) (hsel : off ∉ selectorOffs page)
    {b : Bank} {r : Reg} (h : r ≠ s.regFor a page off ∨ b ≠ .live ∧ b ≠ .staged) :
    ((writeFields a page off v).run s).copy b r = s.copy b r := by
  rw [run_writeFields_word v e hsel]
  have h1 : ¬ (b = .live ∧ r = s.regFor a page off) := by tauto
  have h2 : ¬ (b = .staged ∧ r = s.regFor a page off) := by tauto
  simp only [run_when, wr]
  split <;> split <;> simp only [copy_setCopy_other _ _ _ _ _ _ h1, copy_setCopy_other _ _ _ _ _ _ h2]

theorem mem_writeFields_word (v : Nat) (e : rowAt page off = some (row, false)) (hsel : off ∉ selectorOffs page) :
    ((writeFields a page off v).run s).mem = s.mem := by
  rw [run_writeFields_word v e hsel]
  simp only [run_when]
  split <;> split <;> rfl

theorem ctl_writeFields_word (v : Nat) (e : rowAt page off = some (row, false)) (hsel : off ∉ selectorOffs page) :
    ((writeFields a page off v).run s).ctl = s.ctl := by
  rw [run_writeFields_word v e hsel]
  simp only [run_when]
  split <;> split <;> rfl

theorem copy_staged_writeFields_none (v : Nat) (e : rowAt page off = some (row, false)) (hsel : off ∉ selectorOffs page)
    (hst : row.st = 0) (r : Reg) : ((writeFields a page off v).run s).copy .staged r = s.copy .staged r := by
  rw [run_writeFields_word v e hsel]
  simp only [hst, halfOf_zero, ne_eq, not_true_eq_false, decide_false, when_false, run_skip, run_when]
  split
  · exact copy_setCopy_other _ _ _ _ _ _ (by simp)
  · rfl

/-- ST bits go to the staged copy. -/
theorem tbit_staged_writeFields (v : Nat) (e : rowAt page off = some (row, false)) (hsel : off ∉ selectorOffs page)
    {i : Nat} (hi : i < 32) (hst : tbit row.st i = true) :
    tbit (((writeFields a page off v).run s).copy .staged (s.regFor a page off)) i = tbit v i := by
  have hne : halfOf false row.st ≠ 0 := by
    intro h0
    have := tbit_halfOf_word row.st hi
    simp [h0, hst] at this
  rw [run_writeFields_word v e hsel]
  simp only [hne, ne_eq, not_false_eq_true, decide_true, when_true]
  rw [copy_setCopy_same, BitVec.toNat_and, tbit_and, tbit_ofNat hi, RKey.mask, tbit_ofNat hi, regFor_page, regFor_off, maskAt_staged e,
    tbit_halfOf_word _ hi, tbit_or, hst]
  simp

/-- The live copy takes each bit by its access type. -/
theorem tbit_rd_writeFields {page : Fin 41} (hs : s.wf = true) (v : Nat) (e : rowAt page.val off = some (row, false))
    (hsel : off ∉ selectorOffs page.val) (hput : s.putBits page.val row = row.rw) {i : Nat} (hi : i < 32) :
    tbit (((writeFields a page.val off v).run s).rd (s.regFor a page.val off)) i =
      if tbit row.rw i then tbit v i else if tbit row.w1c i && tbit v i then false else tbit (s.rd (s.regFor a page.val off)) i := by
  have hmask := tbit_maskAt_live e hi
  have hrw : tbit row.rw i = true → tbit row.bits i = true := fun h => by simp [RegRow.bits, h]
  have hold := tbit_bits_of_rd hs (a := a) e hi
  rw [run_writeFields_word v e hsel, State.rd, run_when]
  have hstaged : ∀ u : State, (if decide (halfOf false row.st ≠ 0) = true then (setCopy .staged (s.regFor a page.val off) v).run u
      else u).copy .live (s.regFor a page.val off) = u.rd (s.regFor a page.val off) := fun u => by
    split
    · exact copy_setCopy_other _ _ _ _ _ _ (by simp)
    · rfl
  rw [hstaged, run_when, hput]
  split
  · rw [tbit_rd_wr _ _ _ hi, regFor_page, regFor_off, hmask, tbit_fieldsValue _ _ _ _ hi, tbit_and, tbit_halfOf_word _ hi,
      tbit_halfOf_word _ hi]
    cases hr : tbit row.rw i
    · cases ho : tbit (s.rd (s.regFor a page.val off)) i
      · simp
      · cases tbit v i <;> simp [hold ho]
    · cases tbit v i <;> simp [hrw hr]
  next hc =>
    simp only [Bool.or_eq_true, decide_eq_true_eq, not_or, not_not] at hc
    have h1 : tbit row.rw i = false := by rw [← tbit_halfOf_word _ hi, hc.1, tbit_zero]
    have h2 : (tbit row.w1c i && tbit v i) = false := by rw [← tbit_halfOf_word _ hi, ← tbit_and, hc.2, tbit_zero]
    simp [h1, h2]

end Fields

section Plain

variable {s : State} {a : Accessor} {page off : Nat} {row : RegRow}

theorem barred_free {v : Nat} (p : Prog) (h : s.writeBar a page off v = .free) : (barred a page off v p).run s = p.run s := by
  simp [barred, h]

/-- A register word of which a write does nothing beside its fields. -/
def fieldsOnly (page off : Nat) : Prop :=
  ¬ (page = 14 ∧ off = 0x50) ∧ ¬ (page = 4 ∧ (indexOf off 0x10C 32 4).isSome = true) ∧ ¬ (page = 22 ∧ off = 0x288) ∧
  ¬ (page = 27 ∧ off = 0x120) ∧ ¬ (page = 23 ∧ (indexOf off 0x184 4 3).isSome = true) ∧
  ¬ (page = 32 ∧ (indexOf off 0x44 4 15).isSome = true) ∧ ¬ (page = 29 ∧ off = 0x108) ∧ ¬ (page = 40 ∧ off = 0x64)

theorem run_plainWrite_word (v : Nat) (hs : s.serves a page) (e : rowAt page off = some (row, false)) (hw : row.wide = false)
    (hb : s.writeBar a page off v = .free) (ho : fieldsOnly page off) :
    (plainWrite a page off v).run s = (writeFields a page off v).run s := by
  obtain ⟨h14, h4, h22, h27, h23, h32, h29, h40⟩ := ho
  rw [plainWrite, byWriter_run _ _ hs]
  simp only [e, hw, Bool.false_eq_true, if_false, wordWrite]
  rw [barred_free _ hb, run_look, run_all_cons, run_all_cons, run_all_nil, if_neg h14]
  split
  next hp =>
    split
    next n hn => exact absurd ⟨hp, by simp [hn]⟩ h4
    next => rfl
  split
  next hp =>
    split
    next n hn => exact absurd ⟨hp, by simp [hn]⟩ h23
    next => rfl
  split
  next hp =>
    split
    next n hn => exact absurd ⟨hp, by simp [hn]⟩ h32
    next => rfl
  rw [← Bool.decide_and, ← Bool.decide_and, decide_eq_false h29, decide_eq_false h40]
  rfl

theorem routeWrite_of_serves (v : Word) (hs : s.serves a page) : routeWrite a page off v s = routeAllowed a page off v s := by
  simp [routeWrite, hs.1, hs.2]

end Plain

/-- The pages of which no word register has a command of its own. -/
def commonPages : List Nat := [1, 2, 3, 8, 15, 19, 20, 36]

theorem routeAllowed_common {page off : Nat} (hp : page ∈ commonPages) (h40 : 0x40 ≤ off) (h4 : off % 4 = 0)
    (hsel : off ∉ selectorOffs page) (a : Accessor) (v : Word) : routeAllowed a page off v = done (plainWrite a page off v.toNat) := by
  have hwin : ¬ (windowed page = true ∧ off = 0x40) := by
    rintro ⟨hw, rfl⟩
    revert page; decide
  unfold routeAllowed
  rw [if_neg (by omega), if_neg (by omega), if_neg (by omega), if_neg (by omega), if_neg (by omega), if_neg (by omega),
    if_neg hwin]
  simp only [commonPages, List.mem_cons, List.not_mem_nil, or_false] at hp
  rcases hp with rfl | rfl | rfl | rfl | rfl | rfl | rfl | rfl <;> rfl

theorem routeAllowed_intStat (a : Accessor) (page : Nat) (v : Word) : routeAllowed a page 0x10 v = done (plainWrite a page 0x10 v.toNat) := by
  simp [routeAllowed]

theorem writeBar_common {page : Nat} (hp : page ∈ commonPages) (s : State) (a : Accessor) (off v : Nat) :
    s.writeBar a page off v = .free := by
  simp only [commonPages, List.mem_cons, List.not_mem_nil, or_false] at hp
  rcases hp with rfl | rfl | rfl | rfl | rfl | rfl | rfl | rfl <;> rfl

theorem fieldsOnly_common {page : Nat} (hp : page ∈ commonPages) (off : Nat) : fieldsOnly page off := by
  simp only [commonPages, List.mem_cons, List.not_mem_nil, or_false] at hp
  rcases hp with rfl | rfl | rfl | rfl | rfl | rfl | rfl | rfl <;> simp [fieldsOnly]

theorem indexOf_of_lt {d base : Nat} (h : d < base) (stride n : Nat) : indexOf d base stride n = none := by
  rw [indexOf, if_neg (by omega)]

theorem writeBar_header {off : Nat} (h : off < 0x40) (s : State) (a : Accessor) (page v : Nat) : s.writeBar a page off v = .free := by
  unfold State.writeBar
  split
  case h_1 => rw [indexOf_of_lt (by omega)]
  case h_2 => exact if_neg fun e => by omega
  case h_3 => rw [if_neg (by omega), if_neg fun e => by omega]
  case h_4 => exact if_neg fun e => by omega
  case h_5 => exact if_neg fun e => by omega
  case h_6 => exact if_neg fun e => by omega
  case h_7 => exact if_neg fun e => by omega
  case h_8 => rfl

theorem fieldsOnly_header {off : Nat} (h : off < 0x40) (page : Nat) : fieldsOnly page off := by
  simp [fieldsOnly, indexOf]
  omega

theorem putBits_common {page off : Nat} {row : RegRow} {h : Bool} (hp : page ∈ commonPages) (h40 : 0x40 ≤ off)
    (e : rowAt page off = some (row, h)) (s : State) : s.putBits page row = row.rw := by
  have hlk : ∀ p ∈ commonPages, ∀ r ∈ pageRows p, r.lk = 0 := by decide +kernel
  rw [rowAt, if_neg (by omega)] at e
  have hr := hlk page hp row (findRow_mem e).1
  have hne : ¬ (page = 6 ∨ page = 33) := by rintro (rfl | rfl) <;> revert hp <;> decide
  simp [State.putBits, hr, hne]

/-- Settles O7: on these pages a write is the write of its fields, whose bits `tbit_rd_writeFields` gives. -/
theorem writesFollowTheFieldTypes : Obligations.WritesFollowTheFieldTypes := by
  unfold Obligations.WritesFollowTheFieldTypes Says.WritesFollowTheFieldTypes
  intro s a page off v row hwf hs hp h40 h4 e hw hsel
  refine ⟨(writeFields a page.val off.val v.toNat).run s, ?_, fun i hi => ?_, fun i hi hst => ?_, fun b r h => ?_, ?_, ?_⟩
  · calc exec (.registerWrite a page off v) s = routeWrite a page.val off.val v s := rfl
      _ = .next ((plainWrite a page.val off.val v.toNat).run s) := by
        rw [routeWrite_of_serves _ hs, routeAllowed_common hp h40 h4 hsel]
        rfl
      _ = _ := by rw [run_plainWrite_word _ hs e hw (writeBar_common hp ..) (fieldsOnly_common hp _)]
  · exact tbit_rd_writeFields hwf _ e hsel (putBits_common hp h40 e s) hi
  · exact tbit_staged_writeFields _ e hsel hi hst
  · exact copy_writeFields_other _ e hsel h
  · exact mem_writeFields_word _ e hsel
  · exact ctl_writeFields_word _ e hsel

/-! ## Interrupt registers -/

/-- INT_STAT is a word of 32 W1C bits in the header of every page (R75). -/
theorem rowAt_intStat (page : Nat) : ∃ row, rowAt page 0x10 = some (row, false) ∧ row.wide = false ∧ row.rw = 0 ∧ row.lk = 0 ∧
    row.wo = 0 ∧ row.st = 0 ∧ row.w1c = 2 ^ 32 - 1 := ⟨_, rfl, rfl, rfl, rfl, rfl, rfl, rfl⟩

theorem regFor_intStat (s : State) (a : Accessor) (page : Nat) : s.regFor a page 0x10 = ⟨page, 0x10, s.instSel a page⟩ := by
  by_cases h : windowed page = true <;> simp [State.regFor, State.instSel, h]

theorem intStat_not_selector (page : Fin 41) : 0x10 ∉ selectorOffs page.val := by
  revert page; decide +kernel

theorem causesClearWhereOneIsWritten : Says.CausesClearWhereOneIsWritten := by
  intro s a page v hwf hs
  obtain ⟨row, e, hw, hrw, hlk, hwo, hst, hw1c⟩ := rowAt_intStat page.val
  have hsel := intStat_not_selector page
  have hput : s.putBits page.val row = row.rw := by simp [State.putBits, hlk, hwo]
  rw [← regFor_intStat]
  refine ⟨(writeFields a page.val 0x10 v.toNat).run s, ?_, fun i hi => ?_, fun b r h => ?_, ?_, ?_⟩
  · calc exec (.registerWrite a page 0x10 v) s = routeWrite a page.val 0x10 v s := rfl
      _ = .next ((plainWrite a page.val 0x10 v.toNat).run s) := by
        rw [routeWrite_of_serves _ hs, routeAllowed_intStat]
        rfl
      _ = _ := by rw [run_plainWrite_word _ hs e hw (writeBar_header (by norm_num) ..) (fieldsOnly_header (by norm_num) _)]
  · have hones : tbit row.w1c i = true := by rw [hw1c, tbit_eq, Nat.testBit_two_pow_sub_one]; simpa using hi
    rw [tbit_rd_writeFields hwf _ e hsel hput hi, hrw, hones]
    cases tbit v.toNat i <;> simp
  · by_cases hb : b = .staged
    · rw [hb, copy_staged_writeFields_none _ e hsel hst]
    · exact copy_writeFields_other _ e hsel (by by_cases hr : r = s.regFor a page.val 0x10 <;> simp_all)
  · exact mem_writeFields_word _ e hsel
  · exact ctl_writeFields_word _ e hsel

/-- The events that a change of a mask or a severity produces touch only what signals touch. -/
theorem side_eventsOf (l : List (Nat × Nat)) (f : Nat × Nat → Nat) (src : Nat → Nat) :
    (Prog.each l fun e => Prog.each (setBits (f e)) fun i => evt (src i)).side anyPage :=
  side_each fun _ _ => side_each fun _ _ => side_evt _

/-- A register that implements all its bits takes the value written. -/
theorem rd_wr_full (s : State) (r : Reg) (v : Word) (hm : maskAt .live r.page r.off = 2 ^ 32 - 1) :
    ((wr r v.toNat).run s).rd r = v.toNat := by
  have hk : RKey.mask ⟨.live, r.page, r.inst, r.off⟩ = BitVec.allOnes 32 := by simp only [RKey.mask, hm]; rfl
  rw [rd_wr_same, hk, BitVec.and_allOnes, BitVec.ofNat_toNat, BitVec.setWidth_eq]

theorem interruptRegisterWrites : Says.InterruptRegisterWrites := by
  intro s a page v hs
  refine ⟨?_, ⟨_, byWriter_next _ _ hs, ?_, rfl⟩, ⟨_, byWriter_next _ _ hs, ?_, rfl⟩⟩
  · exact (byWriter_next _ _ hs).trans rfl
  · exact (side_eventsOf _ _ _ _).copy .live (HDR.INT_MASK page.val) (by simp [sideReg]) |>.trans (rd_wr_full _ _ _ rfl)
  · exact (side_eventsOf _ _ _ _).copy .live (HDR.INT_SEV page.val) (by simp [sideReg]) |>.trans (rd_wr_full _ _ _ rfl)

/-- Settles O8: INT_STAT is a word of W1C bits, and no event writes INT_MASK or INT_SEV. -/
theorem interruptCausesAndMasks : Obligations.InterruptCausesAndMasks := by
  unfold Obligations.InterruptCausesAndMasks
  exact ⟨causesClearWhereOneIsWritten, interruptRegisterWrites⟩

/-! ## Pairs -/

/-- Holding registers and HI latches keep all 32 bits (R6). -/
theorem copy_setCopy_hold (s : State) (b : Bank) (r : Reg) (v : Nat) (hb : b = .loHold ∨ b = .hiLatch) :
    ((setCopy b r v).run s).copy b r = v % 2 ^ 32 := by
  have hk : RKey.mask ⟨b, r.page, r.inst, r.off⟩ = BitVec.allOnes 32 := by rcases hb with rfl | rfl <;> rfl
  rw [copy_setCopy_same, hk, BitVec.and_allOnes, BitVec.toNat_ofNat]

theorem run_pairLo {s : State} {a : Accessor} {page off v : Nat} {row : RegRow} (e : rowAt page off = some (row, false))
    (hw : row.wide = true) (hwr : row.writable = true) (hb : s.writeBar a page off v = .free) :
    (pairLo a page off v).run s = (setCopy .loHold (s.regFor a page off) v).run s := by
  rw [pairLo, barred_free _ hb, run_look, e]
  simp [hw, hwr]

theorem run_pairHi {s : State} {a : Accessor} {page off v : Nat} {row : RegRow} (e : rowAt page off = some (row, true))
    (hwr : row.writable = true) (hb : s.writeBar a page off v = .free) (h25 : ¬ (page = 25 ∧ off = 0x40C)) (h16 : page ≠ 16) :
    (pairHi a page off v).run s = (doAll [writeFields a page (off - 4) (s.copy .loHold (s.regFor a page (off - 4))),
      writeFields a page off v]).run s := by
  rw [pairHi, barred_free _ hb, run_look, e]
  simp [hwr, h25, h16]

/-! ## Reads by the general rules -/

theorem isSome_indexOf {d base stride n : Nat} (h : (indexOf d base stride n).isSome = true) :
    ∃ k < n, d = base + stride * k := by
  unfold indexOf at h
  split at h
  next c => exact ⟨(d - base) / stride, c.2.2, by rw [Nat.mul_div_cancel' (Nat.dvd_of_mod_eq_zero c.2.1)]; omega⟩
  next => simp at h

theorem orElse_of_none {i : Option Nat} (h : i.isSome = false) (f : Nat → State → Res) (g : State → Res) : orElse i f g = g := by
  cases i
  · rfl
  · simp at h

theorem routeRead_plain {page off : Nat} (a : Accessor) (h4 : off % 4 = 0) (ho : ownRead page off = false) :
    routeRead a page off = done (readReg a page off) := by
  unfold routeRead
  rw [if_neg (by omega)]
  unfold ownRead at ho
  split
  case h_1 =>
    obtain ⟨hi, hu⟩ := Bool.or_eq_false_iff.1 ho
    rw [orElse_of_none hi, orElse_of_none hu]
  case h_2 => exact orElse_of_none ho _ _
  case h_3 => exact orElse_of_none ho _ _
  case h_4 =>
    obtain ⟨hd, ha⟩ := Bool.or_eq_false_iff.1 ho
    rw [if_neg (of_decide_eq_false hd), if_neg (of_decide_eq_false ha)]
  case h_5 => exact if_neg (of_decide_eq_false ho)
  case h_6 => exact if_neg (of_decide_eq_false ho)
  case h_7 => exact orElse_of_none ho _ _
  case h_8 => rfl

/-- Whether an offset is the HI half of a pair. -/
def isHi (page off : Nat) : Bool := (rowAt page off).any (·.2)

theorem isHi_of_rowAt {page off : Nat} {row : RegRow} {h : Bool} (e : rowAt page off = some (row, h)) : isHi page off = h := by
  simp [isHi, e]

theorem transom_rows : ∀ r ∈ pageRows 16, r.n1 = 1 ∧ r.n2 = 1 ∧ r.off < 0x100 := by decide +kernel

theorem isHi_transom {off : Nat} (h : 0x8000 ≤ off) : isHi 16 off = false := by
  cases e : rowAt 16 off with
  | none => simp [isHi, e]
  | some x =>
    rw [rowAt, if_neg (by omega)] at e
    obtain ⟨hm, hh⟩ := findRow_mem e
    obtain ⟨h1, h2, h3⟩ := transom_rows _ hm
    simp [RegRow.half, h1, h2] at hh
    omega

/-- The HI half of a pair is never read by a command of its own. -/
theorem isHi_of_ownRead {page off : Nat} (h : ownRead page off = true) (h21 : page ≠ 21) : isHi page off = false := by
  have h4 : ∀ k < 4, isHi 4 (0x10C + 32 * k) = false ∧ isHi 4 (0x208 + 32 * (k % 2)) = false := by decide +kernel
  have h7 : ∀ k < 1024, isHi 7 (0x1000 + 16 * k) = false := by decide +kernel
  have h9 : ∀ k < 4, isHi 9 (0x40C + 16 * k) = false := by decide +kernel
  have h16 : isHi 16 0x50 = false := by decide +kernel
  have h23 : isHi 23 0x184 = false := by decide +kernel
  have h26 : ∀ k < 32, isHi 26 (0x110 + 32 * k) = false := by decide +kernel
  unfold ownRead at h
  split at h
  case h_1 =>
    rcases Bool.or_eq_true_iff.1 h with h | h <;> obtain ⟨k, hk, rfl⟩ := isSome_indexOf h
    · exact (h4 k hk).1
    · simpa [Nat.mod_eq_of_lt hk] using (h4 k (by omega)).2
  case h_2 => obtain ⟨k, hk, rfl⟩ := isSome_indexOf h; exact h7 k hk
  case h_3 => obtain ⟨k, hk, rfl⟩ := isSome_indexOf h; exact h9 k hk
  case h_4 =>
    rcases Bool.or_eq_true_iff.1 h with h | h
    · rw [of_decide_eq_true h, h16]
    · exact isHi_transom (of_decide_eq_true h)
  case h_5 => exact absurd rfl h21
  case h_6 => rw [of_decide_eq_true h, h23]
  case h_7 => obtain ⟨k, hk, rfl⟩ := isSome_indexOf h; exact h26 k hk
  case h_8 => cases h

/-- A read of a pair's HI half answers the latch. -/
theorem exec_clearOnRead_hi {s : State} {a : Accessor} {page : Fin 41} {off : Fin 65536} {row : RegRow} (h4 : off.val % 4 = 0)
    (e : rowAt page.val off.val = some (row, true)) (hs : s.open a page.val = true) (h21 : page.val ≠ 21) (h25 : page.val ≠ 25) :
    exec (.clearOnRead a page off) s = .next ((answer (s.copy .hiLatch (s.regFor a page.val (off.val - 4)))).run s) := by
  have ho : ownRead page.val off.val = false := by
    by_contra h
    have := isHi_of_ownRead (by simpa using h) h21
    simp [isHi_of_rowAt e] at this
  calc exec (.clearOnRead a page off) s = routeRead a page.val off.val s := rfl
    _ = done (byReader a page.val _) s := by rw [routeRead_plain a h4 ho, readReg]
    _ = _ := by
      rw [byReader_next _ hs]
      simp [e, h21, h25]

/-! ## Reads at a LO half or of a word -/

/-- A read of CAP_SEC_LO latches the nanoseconds of the head capture (R65). -/
def capLatch (page off : Nat) : Prog := get fun s => Prog.when (decide (page = 9)) (match indexOf off 0x404 16 4 with
  | some m => ctl fun c => { c with time.ppsLatch := nset none c.time.ppsLatch m (some (s.rd (TIME.PPS_IN_CAP_NS m))) }
  | none => .skip)

theorem run_readReg {s : State} {a : Accessor} {page off : Nat} {row : RegRow} (hs : s.open a page = true)
    (e : rowAt page off = some (row, false)) (h21 : page = 21 → row.wide = false) (h25 : page ≠ 25) (h32 : page ≠ 32) :
    (readReg a page off).run s = (readValue a page off row.wide fun v => doAll [answer (v % 2 ^ 32),
      Prog.when row.wide (setCopy .hiLatch (s.regFor a page off) (v / 2 ^ 32)), clearRead a page off]).run ((capLatch page off).run s) := by
  rw [readReg, byReader_run _ hs]
  -- `rfl` identifies the match of `readReg` with that of `capLatch`, where the two are compiled apart
  cases hw : row.wide
  · simp [e, h25, h32, capLatch, hw] <;> rfl
  · have h21' : page ≠ 21 := fun h => by simp [h21 h] at hw
    simp [e, h25, h32, capLatch, hw, h21'] <;> rfl

theorem capLatch_of_ne {page : Nat} (h : page ≠ 9) (off : Nat) (s : State) : (capLatch page off).run s = s := by
  simp [capLatch, h]

theorem run_capLatch (page off : Nat) (s : State) : ∃ l, (capLatch page off).run s =
    { s with ctl := { s.ctl with time := { s.ctl.time with ppsLatch := l } } } := by
  rw [capLatch, run_look, run_when]
  split
  · split
    · exact ⟨_, rfl⟩
    · exact ⟨_, rfl⟩
  · exact ⟨_, rfl⟩

theorem view_capLatch (page off : Nat) (s : State) (a : Accessor) :
    ((capLatch page off).run s).view a page off = s.view a page off := by
  by_cases h : page = 9
  · obtain ⟨l, hl⟩ := run_capLatch page off s
    rw [hl, h]
    rfl
  · rw [capLatch_of_ne h]

theorem openBits_capLatch (page off : Nat) (s : State) (a : Accessor) :
    ((capLatch page off).run s).openBits a page off = s.openBits a page off := by
  obtain ⟨l, hl⟩ := run_capLatch page off s
  rw [hl]
  rfl

theorem plainWord_capLatch (page off : Nat) (s : State) (a : Accessor) (p o : Nat) :
    ((capLatch page off).run s).plainWord a p o = s.plainWord a p o := by
  obtain ⟨l, hl⟩ := run_capLatch page off s
  rw [hl]
  rfl

theorem run_readValue_plain {s : State} {a : Accessor} {page off : Nat} (wide : Bool) (k : Nat → Prog) (hv : s.view a page off = none)
    (ho : s.openBits a page off = 0) (h40 : page ≠ 40) :
    (readValue a page off wide k).run s = (k (s.plainWord a page off + if wide then 2 ^ 32 * s.plainWord a page (off + 4) else 0)).run s := by
  simp [readValue, State.whole, hv, ho, h40]

theorem instSel_lt (s : State) (a : Accessor) (page : Nat) : s.instSel a page < 2 ^ 32 := by
  unfold State.instSel
  split
  · exact copy_lt ..
  · norm_num

theorem sel_lt (s : State) (a : Accessor) (page off : Nat) : s.sel a page off < 2 ^ 32 := by
  unfold State.sel
  split
  · exact instSel_lt ..
  · exact copy_lt ..

theorem plainWord_lt (s : State) (a : Accessor) (page off : Nat) : s.plainWord a page off < 2 ^ 32 := by
  unfold State.plainWord
  split
  · norm_num
  · dsimp only
    split
    · exact sel_lt s a page off
    · exact Nat.or_lt_two_pow (lt_of_le_of_lt Nat.and_le_left (rd_lt ..)) (lt_of_le_of_lt Nat.and_le_left (copy_lt ..))

/-- A read at a LO half, or of a word, whose register holds its own value and no open bit. -/
theorem run_readReg_plain {s : State} {a : Accessor} {page off : Nat} {row : RegRow} (hs : s.open a page = true)
    (e : rowAt page off = some (row, false)) (hv : s.view a page off = none) (ho : s.openBits a page off = 0)
    (h21 : page = 21 → row.wide = false) (h25 : page ≠ 25) (h32 : page ≠ 32) (h40 : page ≠ 40) :
    (readReg a page off).run s = (doAll [answer (s.plainWord a page off),
      Prog.when row.wide (setCopy .hiLatch (s.regFor a page off) (s.plainWord a page (off + 4))), clearRead a page off]).run
        ((capLatch page off).run s) := by
  rw [run_readReg hs e h21 h25 h32, run_readValue_plain _ _ ((view_capLatch ..).trans hv) ((openBits_capLatch ..).trans ho) h40]
  have hlt := plainWord_lt s a page off
  cases hw : row.wide
  · simp only [plainWord_capLatch, Bool.false_eq_true, if_false, Nat.add_zero, Nat.mod_eq_of_lt hlt, when_false]
  · have h1 : (s.plainWord a page off + 2 ^ 32 * s.plainWord a page (off + 4)) % 2 ^ 32 = s.plainWord a page off := by omega
    have h2 : (s.plainWord a page off + 2 ^ 32 * s.plainWord a page (off + 4)) / 2 ^ 32 = s.plainWord a page (off + 4) := by omega
    simp only [plainWord_capLatch, if_true, h1, h2]

/-! ## Clearing after a read -/

/-- What a clearing read leaves alone: memory, the answer, and every copy but the live ones. -/
def Prog.liveOnly (p : Prog) : Prop :=
  ∀ s, (p.run s).mem = s.mem ∧ (p.run s).ctl.answer = s.ctl.answer ∧ ∀ b r, b ≠ .live → (p.run s).copy b r = s.copy b r

theorem liveOnly_skip : Prog.skip.liveOnly := fun _ => ⟨rfl, rfl, fun _ _ _ => rfl⟩

theorem liveOnly_wr (r : Reg) (v : Nat) : (wr r v).liveOnly :=
  fun s => ⟨rfl, rfl, fun _ _ hb => copy_wr_other s v (by simp [hb])⟩

theorem liveOnly_upd {f : Ctl → Ctl} (h : ∀ c, (f c).answer = c.answer) : (Prog.upd f).liveOnly :=
  fun s => ⟨rfl, h s.ctl, fun _ _ _ => rfl⟩

theorem liveOnly_seq {p q : Prog} (hp : p.liveOnly) (hq : q.liveOnly) : (Prog.seq p q).liveOnly := fun s => by
  obtain ⟨pm, pa, pc⟩ := hp s
  obtain ⟨qm, qa, qc⟩ := hq (p.run s)
  exact ⟨qm.trans pm, qa.trans pa, fun b r hb => (qc b r hb).trans (pc b r hb)⟩

theorem liveOnly_look {k : State → Prog} (h : ∀ s, (k s).liveOnly) : (Prog.look k).liveOnly := fun s => h s s

theorem liveOnly_when {c : Bool} {p : Prog} (h : p.liveOnly) : (Prog.when c p).liveOnly := by
  cases c
  · exact liveOnly_skip
  · exact h

theorem liveOnly_ite {c : Prop} [Decidable c] {p q : Prog} (hp : p.liveOnly) (hq : q.liveOnly) : (if c then p else q).liveOnly := by
  split <;> assumption

theorem liveOnly_clearRead (a : Accessor) (page off : Nat) : (clearRead a page off).liveOnly := by
  refine liveOnly_look fun s => liveOnly_when ?_
  split
  · refine liveOnly_when (liveOnly_seq (liveOnly_wr _ _) (liveOnly_seq (liveOnly_when (liveOnly_wr _ _))
      (liveOnly_seq (liveOnly_when (liveOnly_ite (liveOnly_upd fun _ => rfl) (liveOnly_ite (liveOnly_upd fun _ => rfl) ?_))) liveOnly_skip)))
    split
    · exact liveOnly_upd fun _ => rfl
    · exact liveOnly_skip
  · exact liveOnly_skip

section Pairs

variable {s : State} {a : Accessor} {page : Fin 41} {off : Fin 65536} {row : RegRow}

theorem exec_pairLoWrite (v : Word) (e : rowAt page.val off.val = some (row, false)) (hw : row.wide = true) (hwr : row.writable = true)
    (hs : s.serves a page.val) (hb : s.writeBar a page.val off.val v.toNat = .free) :
    exec (.pairLoWrite a page off v) s = .next ((setCopy .loHold (s.regFor a page.val off.val) v.toNat).run s) := by
  calc exec (.pairLoWrite a page off v) s = done (byWriter a page.val off.val (pairLo a page.val off.val v.toNat)) s := rfl
    _ = _ := by rw [byWriter_next _ _ hs, run_pairLo e hw hwr hb]

theorem exec_pairHiWrite (v : Word) (e : rowAt page.val off.val = some (row, true)) (hwr : row.writable = true)
    (hs : s.serves a page.val) (hb : s.writeBar a page.val off.val v.toNat = .free) (h25 : ¬ (page.val = 25 ∧ off.val = 0x40C))
    (h16 : page.val ≠ 16) : exec (.pairHiWrite a page off v) s = .next ((doAll [
      writeFields a page.val (off.val - 4) (s.copy .loHold (s.regFor a page.val (off.val - 4))),
      writeFields a page.val off.val v.toNat]).run s) := by
  calc exec (.pairHiWrite a page off v) s = done (byWriter a page.val off.val (pairHi a page.val off.val v.toNat)) s := rfl
    _ = _ := by rw [byWriter_next _ _ hs, run_pairHi e hwr hb h25 h16]

theorem exec_pairLoRead (h4 : off.val % 4 = 0) (e : rowAt page.val off.val = some (row, false)) (hw : row.wide = true)
    (hown : ownRead page.val off.val = false) : exec (.pairLoRead a page off) s = .next ((readReg a page.val off.val).run s) := by
  calc exec (.pairLoRead a page off) s = execPairLoRead a page off s := rfl
    _ = routeRead a page.val off.val s := by simp [execPairLoRead, e, hw]
    _ = _ := by rw [routeRead_plain a h4 hown, done_eq]

/-- A read of a pair's LO half answers it and loads the latch with its HI half; clearing afterwards touches live copies only. -/
theorem readReg_pairLo (e : rowAt page.val off.val = some (row, false)) (hw : row.wide = true) (hs : s.open a page.val = true)
    (hv : s.view a page.val off.val = none) (ho : s.openBits a page.val off.val = 0) (hp : page.val ∉ [21, 25, 32, 40]) :
    let t := (readReg a page.val off.val).run s
    t.ctl.answer = s.plainWord a page.val off.val ∧
      t.copy .hiLatch (s.regFor a page.val off.val) = s.plainWord a page.val (off.val + 4) ∧ t.mem = s.mem := by
  simp only [List.mem_cons, List.not_mem_nil, or_false, not_or] at hp
  obtain ⟨h21, h25, h32, h40⟩ := hp
  obtain ⟨l, hl⟩ := run_capLatch page.val off.val s
  obtain ⟨hm, ha, hc⟩ := liveOnly_clearRead a page.val off.val ((setCopy .hiLatch (s.regFor a page.val off.val)
    (s.plainWord a page.val (off.val + 4))).run ((answer (s.plainWord a page.val off.val)).run ((capLatch page.val off.val).run s)))
  rw [run_readReg_plain hs e hv ho (fun h => absurd h h21) h25 h32 h40]
  simp only [hw, when_true, run_all_cons, run_all_nil]
  refine ⟨ha, ?_, hm.trans ?_⟩
  · rw [hc _ _ (by decide), copy_setCopy_hold _ _ _ _ (.inr rfl), Nat.mod_eq_of_lt (plainWord_lt ..)]
  · rw [hl]
    rfl

end Pairs

/-- Settles O10: each half's command is one effect, and what a clearing read adds touches live copies only. -/
theorem pairsMoveTogether : Obligations.PairsMoveTogether := by
  unfold Obligations.PairsMoveTogether Says.PairsMoveTogether
  intro s a page off v row h4 hw
  refine ⟨fun e hwr hs hb => ⟨_, exec_pairLoWrite v e hw hwr hs hb, ?_, fun b r h => ?_, rfl, rfl⟩,
    fun e hwr hs hb h25 h16 => exec_pairHiWrite v e hwr hs hb h25 h16,
    fun e hs hv ho hp hown => ⟨_, exec_pairLoRead h4 e hw hown, readReg_pairLo e hw hs hv ho hp⟩, fun e hs hp => ?_⟩
  · rw [copy_setCopy_hold _ _ _ _ (.inl rfl), Nat.mod_eq_of_lt v.isLt]
  · exact copy_setCopy_other _ _ _ _ _ _ fun ⟨hb, hr⟩ => h (by rw [hb, hr])
  · simp only [List.mem_cons, List.not_mem_nil, or_false, not_or] at hp
    exact exec_clearOnRead_hi h4 e hs hp.1 hp.2

/-! ## Reads of words -/

theorem capLatch_of_word {page off : Nat} {row : RegRow} (e : rowAt page off = some (row, false)) (hw : row.wide = false) (s : State) :
    (capLatch page off).run s = s := by
  have hwide : ∀ m < 4, (rowAt 9 (0x404 + 16 * m)).all (·.1.wide) = true := by decide +kernel
  by_cases h9 : page = 9
  · have hi : indexOf off 0x404 16 4 = none := by
      by_contra h
      obtain ⟨m, hm, rfl⟩ := isSome_indexOf (Option.isSome_iff_ne_none.2 h)
      have := hwide m hm
      simp [← h9, e, hw] at this
    simp [capLatch, hi, run_when]
  · exact capLatch_of_ne h9 off s

theorem run_clearRead_word {s : State} {a : Accessor} {page off : Nat} {row : RegRow} (e : rowAt page off = some (row, false))
    (hw : row.wide = false) (h24 : page ≠ 24) :
    (clearRead a page off).run s = (Prog.when (s.owner a && decide (row.rc ≠ 0)) (wr (s.regFor a page off)
      ((s.rd (s.regFor a page off) &&& notN 32 (halfOf false row.rc)) ||| (resetAt page off &&& halfOf false row.rc)))).run s := by
  simp only [clearRead, run_look, e]
  cases s.owner a <;> cases decide (row.rc ≠ 0) <;> simp [hw, h24, regFor_off]

theorem tbit_rd_clearRead {s : State} {a : Accessor} {page : Fin 41} {off : Nat} {row : RegRow} (hs : s.wf = true)
    (e : rowAt page.val off = some (row, false)) (hw : row.wide = false) (h24 : page.val ≠ 24) {i : Nat} (hi : i < 32) :
    tbit (((clearRead a page.val off).run s).rd (s.regFor a page.val off)) i =
      if s.owner a && tbit row.rc i then tbit (resetAt page.val off) i else tbit (s.rd (s.regFor a page.val off)) i := by
  have hmask := tbit_maskAt_live e hi
  have hold := tbit_bits_of_rd hs (a := a) e hi
  have hrc : tbit row.rc i = true → tbit row.bits i = true := fun h => by simp [RegRow.bits, h]
  rw [run_clearRead_word e hw h24, run_when]
  cases s.owner a
  · simp
  by_cases h0 : row.rc = 0
  · simp [h0]
  simp only [Bool.true_and, ne_eq, if_true, tbit_rd_wr _ _ _ hi, regFor_page, regFor_off, hmask, tbit_or, tbit_and,
    tbit_notN hi, tbit_halfOf_word _ hi, decide_true, not_false_eq_true, h0]
  cases hr : tbit row.rc i
  · cases ho : tbit (s.rd (s.regFor a page.val off)) i
    · simp
    · simp [hold ho]
  · simp [hrc hr]

/-- Settles O11: the word as it stood is answered, then `tbit_rd_clearRead` gives what stays. -/
theorem readsClearAfterwards : Obligations.ReadsClearAfterwards := by
  unfold Obligations.ReadsClearAfterwards Says.ReadsClearAfterwards
  intro s a page off row hwf hs h4 e hw hv ho hp hown
  simp only [List.mem_cons, List.not_mem_nil, or_false, not_or] at hp
  obtain ⟨h24, h25, h32, h40⟩ := hp
  have hrun : (readReg a page.val off.val).run s =
      (clearRead a page.val off.val).run ((answer (s.plainWord a page.val off.val)).run s) := by
    rw [run_readReg_plain hs e hv ho (fun _ => hw) h25 h32 h40, capLatch_of_word e hw, hw]
    rfl
  obtain ⟨hm, ha, -⟩ := liveOnly_clearRead a page.val off.val ((answer (s.plainWord a page.val off.val)).run s)
  refine ⟨(readReg a page.val off.val).run s, ?_, ?_⟩
  · calc exec (.clearOnRead a page off) s = routeRead a page.val off.val s := rfl
      _ = _ := by rw [routeRead_plain a h4 hown]; rfl
  · rw [hrun]
    refine ⟨ha, fun i hi => ?_, fun b r h => ?_, hm, ?_⟩
    · exact tbit_rd_clearRead (s := (answer (s.plainWord a page.val off.val)).run s) hwf e hw h24 hi
    · rw [run_clearRead_word e hw h24, run_when]
      split
      · exact copy_wr_other _ _ h
      · rfl
    · rw [run_clearRead_word e hw h24, run_when]
      split <;> rfl

/-! ## The end of an attempt -/

/-- HOST waits without a time limit (R449): a timeout does nothing while the attempt is the host's. -/
theorem exec_imageAttemptEnd_timeout_host {s : State} (h4 : s.runsBelow 4) (slot : Nat) (l : List (Nat × Nat))
    (hnv : s.ctl.lsio.nvWait = []) (ho : s.ctl.boot.order = (2, slot) :: l) :
    exec (.imageAttemptEnd .timeout) s = .next s := by
  calc exec (.imageAttemptEnd .timeout) s = live 4 _ s := rfl
    _ = _ := by
      rw [live_next _ h4]
      simp [giveUpTrial, hnv, ho]

theorem boot_int (p i b : Nat) (s : State) : ((int p i b).run s).ctl.boot = s.ctl.boot := by
  obtain ⟨-, -, -, _, _, _, _, _, _, _, _, h⟩ := side_int p i b s
  rw [h]

/-- A failed attempt of the host's image ends its verification. -/
theorem verifying_endAttempt_host (slot n : Nat) (s : State) :
    ((endAttempt 2 slot (.inr (n + 1))).run s).ctl.boot.verifying = false := by
  simp [endAttempt, boot_int, modBoot]

/-- The machine while it verifies the host's image: STATE is WAIT_HOST, and only the host's attempt is left. -/
def verifyingHost : State :=
  { State.reset with
    reg := [(⟨.live, 5, 0, 0x40⟩, 1)]
    ctl := { Ctl.reset with boot := { Ctl.reset.boot with order := [(2, 0)], verifying := true } } }

/-- Refutes O55: `Says.BootAndFuses` lets every outcome but the peer's end an attempt, a timeout of the host's attempt too, of which
R449 says that it waits without a time limit. In `verifyingHost` a timeout does nothing, where the statement has the verification end. -/
theorem not_resetsBootAndFuses : ¬ Obligations.ResetsBootAndFuses := by
  unfold Obligations.ResetsBootAndFuses Says.BootAndFuses
  rintro ⟨-, hboot, -⟩
  have hruns : verifyingHost.runsBelow 4 := by decide +kernel
  obtain ⟨hend, -⟩ := hboot verifyingHost hruns
  have hsays := hend .timeout 2 0 [] rfl rfl rfl (by decide) (by simp) (.inr ⟨by decide +kernel, rfl⟩)
  rw [exec_imageAttemptEnd_timeout_host hruns 0 [] rfl rfl] at hsays
  have hv : verifyingHost.ctl.boot.verifying = false := by
    rw [Host.Outcome.next.inj hsays]
    exact verifying_endAttempt_host 0 8 verifyingHost
  exact absurd hv (by decide)

end Sys2Proof.Machine
end

section
/-! PROOF. The guard, PFAIL_N and the hold-up dump (14_power_loss). -/

namespace Sys2Proof.Machine

/-! ## The guard bit beside the monitors' bits -/

/-- Replacing bit `i` leaves every other bit. -/
theorem tbit_setField_other (v : Nat) {i j : Nat} (b : Bool) (h : j ≠ i) : tbit (setField v i i (b2n b)) j = tbit v j := by
  rw [setField_bit, Nat.add_comm, tbit_eq, tbit_eq, Nat.testBit_two_pow_mul_add _ (Nat.mod_lt _ (Nat.two_pow_pos i))]
  split
  next hj => simp [Nat.testBit_mod_two_pow, hj]
  next hj =>
    obtain ⟨k, rfl⟩ : ∃ k, j = i + (k + 1) := ⟨j - i - 1, by omega⟩
    have hb : (2 * (v / 2 ^ i / 2) + b2n b) / 2 = v / 2 ^ i / 2 := by cases b <;> simp [b2n]; omega
    rw [Nat.add_sub_cancel_left, Nat.testBit_succ, hb, ← Nat.testBit_succ, Nat.testBit_div_two_pow, Nat.add_comm]

/-- Writing one bit of a register leaves another bit that the register implements. -/
theorem bit_wrB_bit_other (s : State) (r : Reg) {i j : Nat} (b : Bool) (h : j ≠ i) (hj : j < 32)
    (hm : tbit (maskAt .live r.page r.off) j = true) : ((wrB r i b).run s).bit r j = s.bit r j := by
  simp only [State.bit, wrB, wrF, run_look, tbit_rd_wr _ _ _ hj, hm, tbit_setField_other _ _ h, Bool.and_true]

/-- A monitor's own registers and its bit of GUARD_STATUS are not the guard (R401). -/
theorem guarded_after_trip (s : State) (m v : Nat) (b c : Bool) :
    ((wrB SUPPLY.GUARD_STATUS (8 + m) c).run ((wr (SUPPLY.MON_MIN m) v).run ((wrB (SUPPLY.MON_STATUS m) 17 b).run s))).guarded =
      s.guarded := by
  have hmin : SUPPLY.GUARD_STATUS ≠ SUPPLY.MON_MIN m := by simp; omega
  have hst : SUPPLY.GUARD_STATUS ≠ SUPPLY.MON_STATUS m := by simp; omega
  rw [State.guarded, bit_wrB_bit_other _ _ _ (by omega) (by norm_num) (by decide +kernel), State.bit, rd_wr_other _ _ hmin,
    rd_wrB_other _ _ _ hst]
  rfl

/-! ## The guard and PFAIL_N -/

section Guard

variable {s : State}

theorem exec_monitorTrip (h : s.powered) {m : Fin 8} {mv : Fin 4096} (hmv : mv.val < s.cfd (SUPPLY.MON_CFG m.val) 11 0) :
    exec (.monitorTrip m mv) s = .next ((doAll [
      wrB (SUPPLY.MON_STATUS m.val) 17 true,
      wr (SUPPLY.MON_MIN m.val) (min mv.val (s.rd (SUPPLY.MON_MIN m.val))),
      wrB SUPPLY.GUARD_STATUS (8 + m.val) true,
      Prog.when (!s.guarded) (doAll [
        wrB SUPPLY.GUARD_STATUS 0 true, inc SUPPLY.GUARD_TRIP_CNT, lifeAdd 4 1, int Pg.supply 0 0])]).run s) := by
  calc exec (.monitorTrip m mv) s = board _ s := rfl
    _ = _ := by
      rw [board_next _ h, run_look, State.guardMv, decide_eq_true hmv, when_true]
      simp only [run_all_cons, run_all_nil, setGuard, run_look, guarded_after_trip]

theorem exec_monitorClear (h : s.powered) {m : Fin 8} {mv : Fin 4096} (ht : tbit s.tripped m.val = true)
    (hmv : s.cfd (SUPPLY.MON_CFG m.val) 11 0 + s.cfd (SUPPLY.MON_CFG m.val) 23 16 ≤ mv.val) :
    exec (.monitorClear m mv) s = .next ((doAll [
      wrB (SUPPLY.MON_STATUS m.val) 17 false,
      wr (SUPPLY.MON_MIN m.val) (min mv.val (s.rd (SUPPLY.MON_MIN m.val))),
      wrB SUPPLY.GUARD_STATUS (8 + m.val) false, clearGuard]).run s) := by
  calc exec (.monitorClear m mv) s = board _ s := rfl
    _ = _ := by rw [board_next _ h, run_look, State.guardMv, ht, decide_eq_true hmv, Bool.and_self, when_true]

/-- PFAIL_N falls: only a unit in NORMAL leaves it, and it plans a dump only with DUMP_CTL.EN (log entry 109). -/
theorem exec_pfailNFall (h : s.powered) : exec .pfailNFall s = .next ((doAll [
    modBoot fun b => { b with pfailLow := true }, wrB SUPPLY.GUARD_STATUS 16 true,
    Prog.when (decide (s.pf = 0)) (doAll [
      wrF SUPPLY.PF_STATE 1 0 1, setGuard, int Pg.supply 0 2, lifeAdd 3 1, takeNv abandonNv,
      get fun t => Prog.when (t.bit SUPPLY.DUMP_CTL 0 && t.ctl.blk.rebuilt && !t.ctl.blk.unrestored && !t.bit MAP.REBUILD_STATUS 8)
        (modBlk fun b => { b with dump := some ⟨b.lastDump + 1, [], [], [], [], 0, 0, false⟩ })])]).run s) :=
  board_next _ h

/-- A count steps by one, up to all ones. -/
theorem rd_inc (s : State) (r : Reg) (hm : maskAt .live r.page r.off = 2 ^ 32 - 1) :
    ((inc r).run s).rd r = min (s.rd r + 1) (2 ^ 32 - 1) := by
  have hv : (BitVec.ofNat 32 (satAdd 32 (s.rd r) 1)).toNat = min (s.rd r + 1) (2 ^ 32 - 1) := by
    rw [BitVec.toNat_ofNat, satAdd, Nat.mod_eq_of_lt (by omega)]
  calc ((inc r).run s).rd r = ((wr r (min (s.rd r + 1) (2 ^ 32 - 1))).run s).rd r := rfl
    _ = _ := by rw [← hv, rd_wr_full s r _ hm]

/-- Only the count of a pulse that R404 filters out moves. -/
theorem exec_pfailGlitch (h : s.powered) : exec .pfailGlitch s = .next ((inc SUPPLY.PFAIL_GLITCH_CNT).run s) := board_next _ h

end Guard

theorem guardAndPowerFail : Says.GuardAndPowerFail := by
  intro s h
  refine ⟨fun m mv => exec_monitorTrip h, fun m mv => exec_monitorClear h, fun h0 => ?_, fun h0 => ?_, _, exec_pfailGlitch h,
    rd_inc s _ (by decide +kernel), fun b r hr => copy_wr_other s _ hr, rfl, rfl⟩
  · rw [exec_pfailNFall h, decide_eq_true h0, when_true]
    rfl
  · rw [exec_pfailNFall h, decide_eq_false h0, when_false]
    rfl

/-! ## The dump -/

section Dump

variable {s : State} {d : DumpSt}

/-- The dump after its plan: an SSD that is the first to write finds the batches as they are staged then. -/
theorem dump_planDump (hd : s.ctl.blk.dump = some d) : ((planDump d).run s).ctl.blk.dump =
    some (if d.started = [] then { d with batches := s.dumpBatches, recs := s.dumpRecs, data := s.dumpData } else d) := by
  rw [planDump, run_look, run_when]
  by_cases he : d.started = []
  · simp only [he, List.isEmpty_nil, if_true, modBlk, upd_ctl]
  · simp only [he, hd, List.isEmpty_eq_false_iff.2 he, Bool.false_eq_true, if_false]

/-- The dump once SSD `i` has started (R409 step 3). -/
theorem dump_started (i : Nat) (hd : s.ctl.blk.dump = some d) :
    ((modBlk fun b => { b with
        cmds := b.cmds.filter fun c => !decide (c.ssd = i)
        dump := b.dump.map fun x => { x with started := x.started ++ [i] } }).run ((planDump d).run s)).ctl.blk.dump =
      some { (if d.started = [] then { d with batches := s.dumpBatches, recs := s.dumpRecs, data := s.dumpData } else d) with
        started := d.started ++ [i] } := by
  simp only [modBlk, upd_ctl, dump_planDump hd, Option.map_some]
  split <;> rfl

theorem exec_dumpWriteStart (h : s.powered) (hd : s.ctl.blk.dump = some d) (hpf : s.pf = 1) {i : Fin 16}
    (hi : s.bit SUPPLY.DUMP_MASK i.val = true) (hn : i.val ∉ d.started) : exec (.dumpWriteStart i) s = .next ((doAll [
      planDump d,
      modBlk fun b => { b with
        cmds := b.cmds.filter fun c => !decide (c.ssd = i.val)
        dump := b.dump.map fun x => { x with started := x.started ++ [i.val] } },
      if d.next < (if d.started = [] then s.dumpBatches else d.batches).length then dumpPieces d.next i.val else dumpNext]).run s) := by
  calc exec (.dumpWriteStart i) s = board _ s := rfl
    _ = _ := by
      rw [board_next _ h, run_look]
      simp only [hd, hpf, hi, hn, decide_true, decide_false, Bool.not_false, Bool.and_self, when_true, run_all_cons, run_all_nil,
        run_look]
      rw [dump_started i.val hd]
      by_cases he : d.started = []
      · simp only [he, if_true]
      · simp only [he, if_false]

theorem exec_dumpBatchDurable (h : s.powered) (hd : s.ctl.blk.dump = some d) (hpf : s.pf = 1)
    (hall : d.started.length = s.dumpSsds.length) (hout : (s.ctl.blk.cmds.any fun c => decide (c.job = .dump d.next false)) = false)
    (hrec : 1 ≤ d.records) (hnext : d.next < d.batches.length) : exec .dumpBatchDurable s = .next ((doAll [
      modBlk fun b => { b with dump := some { d with next := d.next + 1, records := 0 } }, dumpNext]).run s) := by
  calc exec .dumpBatchDurable s = board _ s := rfl
    _ = _ := by
      rw [board_next _ h, run_look]
      simp only [hd, hpf, hall, hout, hrec, hnext, decide_true, Bool.not_false, Bool.and_self, when_true]

/-- DUMPED follows where nothing of a dump is still to be written (R409 step 5, log entry 109). -/
theorem exec_dumped (h : s.powered) (hpf : s.pf = 1) (hover : ∀ d, s.ctl.blk.dump = some d → s.dumpSsds = [] ∨
    d.closing = true ∧ (s.ctl.blk.cmds.any fun c => decide (c.job = .closing)) = false) :
    exec .dumped s = .next ((doAll [wrF SUPPLY.PF_STATE 1 0 2, deferredReset]).run s) := by
  calc exec .dumped s = board _ s := rfl
    _ = _ := by
      rw [board_next _ h, run_look]
      cases hd : s.ctl.blk.dump with
      | none => simp only [hpf, decide_true, Bool.and_self, when_true]
      | some d =>
        rcases hover d hd with he | ⟨hc, hw⟩
        · simp only [hpf, he, List.isEmpty_nil, Bool.true_or, decide_true, Bool.and_self, when_true]
        · simp only [hpf, hc, hw, Bool.not_false, Bool.and_self, Bool.or_true, decide_true, when_true]

end Dump

/-! ## DUMP_CTL and the measurement -/

section Measure

variable {s : State} {a : Accessor} {v : Word}

/-- Effects in order, the last of them in groups. -/
theorem run_all_flatten (p q r : Prog) (l : List Prog) (s : State) :
    (Prog.all [p, q, Prog.all [r, Prog.all l]]).run s = (Prog.all (p :: q :: r :: l)).run s := rfl

theorem run_dumpCtl (hs : s.serves a Pg.supply) (hen : tbit v.toNat 0 = false ∨ s.mayDump = true) :
    (dumpCtl a v).run s = (doAll [wrF SUPPLY.DUMP_CTL 1 0 (v.toNat % 4), holdupCheck,
      Prog.when (tbit v.toNat 2) (
        if s.ctl.blk.unrestored || decide (s.rd BLKF.STAGE_USED ≠ 0) || s.bit SUPPLY.DUMP_CTL 3 then
          err Pg.supply 0 EC.ACCESS RS.WRONG_STATE (bar0 Pg.supply 0x4C)
        else doAll [
          wrB SUPPLY.DUMP_CTL 3 true,
          Prog.when (!s.dumpSsds.isEmpty && decide (0 < s.fd SUPPLY.DUMP_AREA_MIB 15 0)) (doAll [
            modBlk fun b => { b with measuring := 512 },
            Prog.each (List.range 512) fun k => nvme (s.dumpSsds.getD (k % s.dumpSsds.length) 0) 2
              (s.rdW SUPPLY.DUMP_LBA % 2 ^ 48 + k / s.dumpSsds.length % s.fd SUPPLY.DUMP_AREA_MIB 15 0 * 256) 256 [] .measure])])]).run
        s := by
  have hbad : (tbit v.toNat 0 && !s.mayDump) = false := by rcases hen with h | h <;> simp [h]
  rw [dumpCtl, byWriter_run _ _ hs, run_look, hbad]
  rfl

theorem exec_dumpEnWrite (hs : s.serves a Pg.supply) (hen : tbit v.toNat 0 = false ∨ s.mayDump = true) (hm : tbit v.toNat 2 = false) :
    exec (.dumpEnWrite a v) s = .next ((doAll [wrF SUPPLY.DUMP_CTL 1 0 (v.toNat % 4), holdupCheck]).run s) := by
  calc exec (.dumpEnWrite a v) s = done (dumpCtl a v) s := rfl
    _ = _ := by
      rw [done_eq, run_dumpCtl hs hen, hm, when_false]
      rfl

theorem exec_dumpEnWrite_refused (hs : s.serves a Pg.supply) (hen : tbit v.toNat 0 = true) (hmay : s.mayDump = false) :
    exec (.dumpEnWrite a v) s = .next ((err Pg.supply 0 EC.CONFIG RS.VALUE_REJ (bar0 Pg.supply 0x4C)).run s) := by
  calc exec (.dumpEnWrite a v) s = done (dumpCtl a v) s := rfl
    _ = _ := by
      rw [done_eq, dumpCtl, byWriter_run _ _ hs, run_look, hen, hmay]
      rfl

theorem exec_measure (hs : s.serves a Pg.supply) (hen : tbit v.toNat 0 = false ∨ s.mayDump = true) (hm : tbit v.toNat 2 = true)
    (hun : s.ctl.blk.unrestored = false) (hused : s.rd BLKF.STAGE_USED = 0) (hbusy : s.bit SUPPLY.DUMP_CTL 3 = false)
    (hssd : s.dumpSsds ≠ []) (harea : 0 < s.fd SUPPLY.DUMP_AREA_MIB 15 0) :
    exec (.measure a v) s = .next ((doAll [wrF SUPPLY.DUMP_CTL 1 0 (v.toNat % 4), holdupCheck,
      wrB SUPPLY.DUMP_CTL 3 true, modBlk fun b => { b with measuring := 512 },
      Prog.each (List.range 512) fun k => nvme (s.dumpSsds.getD (k % s.dumpSsds.length) 0) 2
        (s.rdW SUPPLY.DUMP_LBA % 2 ^ 48 + k / s.dumpSsds.length % s.fd SUPPLY.DUMP_AREA_MIB 15 0 * 256) 256 [] .measure]).run s) := by
  have hfree : (s.ctl.blk.unrestored || decide (s.rd BLKF.STAGE_USED ≠ 0) || s.bit SUPPLY.DUMP_CTL 3) = false := by
    simp only [hun, hused, hbusy, ne_eq, not_true, decide_false, Bool.or_self]
  have hroom : (!s.dumpSsds.isEmpty && decide (0 < s.fd SUPPLY.DUMP_AREA_MIB 15 0)) = true := by
    simp only [List.isEmpty_eq_false_iff.2 hssd, harea, decide_true, Bool.not_false, Bool.and_self]
  calc exec (.measure a v) s = done (dumpCtl a v) s := rfl
    _ = _ := by
      rw [done_eq, run_dumpCtl hs hen, hm, when_true, hfree, hroom, when_true, if_neg Bool.false_ne_true, run_all_flatten]

theorem exec_measureDone (h : s.runsBelow 4) (us : Nat) (hbusy : s.bit SUPPLY.DUMP_CTL 3 = true) (hlast : s.ctl.blk.measuring = 0) :
    exec (.measureDone us) s = .next ((doAll [wrB SUPPLY.DUMP_CTL 3 false,
      wr SUPPLY.DUMP_RATE (2 ^ 31 + min 200000 (536870912 / max 1 us)), int Pg.supply 0 3, holdupCheck]).run s) := by
  calc exec (.measureDone us) s = live 4 _ s := rfl
    _ = _ := by rw [live_next _ h, run_look, hbusy, hlast, decide_eq_true rfl, Bool.and_self, when_true]

end Measure

theorem dumpsRunInBatches : Says.DumpsRunInBatches := by
  refine ⟨fun s d h hd hpf => ⟨fun i => exec_dumpWriteStart h hd hpf, exec_dumpBatchDurable h hd hpf, fun hover => ?_⟩,
    fun s h hpf hd => ?_, fun s a v hs => ⟨exec_dumpEnWrite hs, exec_dumpEnWrite_refused hs, exec_measure hs⟩,
    fun s us h => exec_measureDone h us⟩
  · refine exec_dumped h hpf fun x hx => ?_
    obtain rfl : d = x := Option.some.inj (hd.symm.trans hx)
    exact hover
  · exact exec_dumped h hpf fun d hx => nomatch hd.symm.trans hx

/-- Settles O54: each command's guard lets its effect through, `guarded_after_trip` says that a trip meets the guard as it stood, and
`dump_started` says which batches the first SSD's writes find. -/
theorem guardPowerFailAndDumps : Obligations.GuardPowerFailAndDumps := by
  unfold Obligations.GuardPowerFailAndDumps
  exact ⟨guardAndPowerFail, dumpsRunInBatches⟩

end Sys2Proof.Machine
end

section
/-! PROOF. What the time unit's proofs share: what domains are told and the fields of registers. -/

namespace Sys2Proof.Machine

/-! ## What domains are told -/

theorem acts_each_tellDom (f : DomActs → DomActs) {l : List Nat} (hl : l.Nodup) (s : State) (m : Nat) :
    ((Prog.each l fun k => tellDom k f).run s).acts m = if m ∈ l then f (s.acts m) else s.acts m := by
  induction l generalizing s with
  | nil => simp
  | cons k l ih =>
    obtain ⟨hk, hl⟩ := List.nodup_cons.1 hl
    rw [run_each_cons, ih hl]
    by_cases h : m = k
    · simp [h, hk]
    · simp [h, tellDom_acts_other _ _ h]

theorem acts_snapAll (s : State) (m : Fin 8) :
    ((Prog.each (List.range 8) fun k => tellDom k fun x => { x with snap := true }).run s).acts m.val =
      { s.acts m.val with snap := true } := by
  rw [acts_each_tellDom _ List.nodup_range, if_pos (List.mem_range.2 m.isLt)]

/-! ## Fields of registers -/

/-- A field replaced is what lies below it, the new value, and what lies above it. -/
theorem setField_eq (v hi lo x : Nat) : setField v hi lo x =
    v % 2 ^ lo + 2 ^ lo * (x % 2 ^ (hi + 1 - lo) + 2 ^ (hi + 1 - lo) * (v / 2 ^ lo / 2 ^ (hi + 1 - lo))) := by
  have hv : v = v % 2 ^ lo + 2 ^ lo * (2 ^ (hi + 1 - lo) * (v / 2 ^ lo / 2 ^ (hi + 1 - lo))) + field v hi lo * 2 ^ lo := by
    calc v = v % 2 ^ lo + 2 ^ lo * (v / 2 ^ lo % 2 ^ (hi + 1 - lo) + 2 ^ (hi + 1 - lo) * (v / 2 ^ lo / 2 ^ (hi + 1 - lo))) := by
          rw [Nat.mod_add_div, Nat.mod_add_div]
      _ = _ := by rw [field]; ring
  rw [setField, Nat.sub_eq_of_eq_add hv]
  ring

theorem tbit_setField (v hi lo x i : Nat) :
    tbit (setField v hi lo x) i = if lo ≤ i ∧ i < hi + 1 then tbit x (i - lo) else tbit v i := by
  rw [setField_eq, Nat.add_comm, tbit_eq, Nat.testBit_two_pow_mul_add _ (Nat.mod_lt _ (Nat.two_pow_pos lo)),
    Nat.add_comm (x % _), Nat.testBit_two_pow_mul_add _ (Nat.mod_lt _ (Nat.two_pow_pos _))]
  simp only [tbit_eq, Nat.testBit_mod_two_pow, Nat.testBit_div_two_pow]
  by_cases h1 : i < lo
  · rw [if_pos h1, if_neg (by omega), decide_eq_true h1, Bool.true_and]
  by_cases h2 : i < hi + 1
  · rw [if_neg h1, if_pos (by omega), if_pos (by omega), decide_eq_true (by omega), Bool.true_and]
  · rw [if_neg h1, if_neg (by omega), if_neg (by omega)]
    congr 1
    omega

/-- Numbers with the same bits in a field have the same field. -/
theorem field_congr {v w hi lo : Nat} (h : ∀ i, lo ≤ i → i ≤ hi → tbit v i = tbit w i) : field v hi lo = field w hi lo := by
  refine Nat.eq_of_testBit_eq fun i => ?_
  simp only [field, Nat.testBit_mod_two_pow, Nat.testBit_div_two_pow]
  by_cases hi : i < hi + 1 - lo
  · have := h (i + lo) (by omega) (by omega)
    simp only [tbit_eq] at this
    rw [this]
  · simp [hi]

theorem field_setField_same (v hi lo x : Nat) : field (setField v hi lo x) hi lo = x % 2 ^ (hi + 1 - lo) := by
  rw [setField_eq, field, Nat.add_mul_div_left _ _ (Nat.two_pow_pos lo), Nat.div_eq_of_lt (Nat.mod_lt _ (Nat.two_pow_pos lo)),
    Nat.zero_add, Nat.add_mul_mod_self_left, Nat.mod_mod]

/-- Whether a register implements all bits of a field. -/
abbrev Reg.holds (r : Reg) (hi lo : Nat) : Prop := ∀ i < 32, lo ≤ i → i ≤ hi → tbit (maskAt .live r.page r.off) i = true

theorem fd_wr_same (s : State) (r : Reg) {hi lo : Nat} (v : Nat) (h32 : hi < 32) (hm : r.holds hi lo) :
    ((wr r v).run s).fd r hi lo = field v hi lo :=
  field_congr fun i h1 h2 => by rw [tbit_rd_wr _ _ _ (by omega), hm i (by omega) h1 h2, Bool.and_true]

theorem fd_wrF_same (s : State) (r : Reg) {hi lo : Nat} (v : Nat) (h32 : hi < 32) (hm : r.holds hi lo) :
    ((wrF r hi lo v).run s).fd r hi lo = v % 2 ^ (hi + 1 - lo) := by
  rw [wrF, run_look, fd_wr_same _ _ _ h32 hm, field_setField_same]

theorem fd_wrF_other (s : State) (r : Reg) {hi lo hi' lo' : Nat} (v : Nat) (h32 : hi < 32) (hm : r.holds hi lo)
    (hd : hi < lo' ∨ hi' < lo) : ((wrF r hi' lo' v).run s).fd r hi lo = s.fd r hi lo := by
  rw [wrF, run_look, fd_wr_same _ _ _ h32 hm]
  exact field_congr fun i h1 h2 => by rw [tbit_setField, if_neg (by omega)]

end Sys2Proof.Machine
end

section
/-! PROOF. Domain time (02_time_and_wheel): arming, the step, slews, holdover and one edge of REFCLK. -/

namespace Sys2Proof.Machine

/-! ## What effects in order may change -/

/-- A relation that holds across effects in order when it holds across each. -/
structure Composes (R : State → State → Prop) : Prop where
  refl : ∀ s, R s s
  trans : ∀ {s t u}, R s t → R t u → R s u

/-- An effect that takes every state to one related to it. -/
def Prog.within (R : State → State → Prop) (p : Prog) : Prop := ∀ s, R s (p.run s)

section Composes

variable {R : State → State → Prop} (c : Composes R)
include c

theorem Composes.skip : Prog.skip.within R := c.refl

theorem Composes.seq {p q : Prog} (hp : p.within R) (hq : q.within R) : (Prog.seq p q).within R :=
  fun s => c.trans (hp s) (hq _)

theorem Composes.nil : (Prog.all []).within R := c.refl

theorem Composes.cons {p : Prog} {l : List Prog} (hp : p.within R) (hl : (Prog.all l).within R) : (Prog.all (p :: l)).within R :=
  c.seq hp hl

theorem Composes.when {b : Bool} {p : Prog} (h : p.within R) : (Prog.when b p).within R := by
  cases b
  · exact c.skip
  · exact h

theorem Composes.each {α : Type} {l : List α} {f : α → Prog} (h : ∀ a ∈ l, (f a).within R) :
    (Prog.each l f).within R := by
  induction l with
  | nil => exact c.skip
  | cons a l ih => exact c.cons (h a List.mem_cons_self) (ih fun b hb => h b (List.mem_cons_of_mem a hb))

end Composes

theorem within_look {R : State → State → Prop} {k : State → Prog} (h : ∀ s, (k s).within R) : (Prog.look k).within R :=
  fun s => h s s

theorem composes_keep {α : Type} (f : State → α) : Composes fun s t => f t = f s :=
  ⟨fun _ => rfl, fun h g => g.trans h⟩

/-- `t` differs from `s` at most in registers of `K`, in the time of domains of `D` and what they are told, in the peephole's buffer,
in periodic consumers that no longer wait for a step, and behind the pages other than TIME. -/
structure Quiet (K : Reg → Prop) (D : Nat → Prop) (s t : State) : Prop where
  rd : ∀ r, ¬ K r → t.rd r = s.rd r
  mem : ∀ k, ¬ inTrace k → tget 0 t.mem k = tget 0 s.mem k
  dom : ∀ n, ¬ D n → t.dom n = s.dom n
  acts : ∀ n, ¬ D n → t.acts n = s.acts n
  edges : t.ctl.time.edges = s.ctl.time.edges
  restart : t.ctl.time.restart ⊆ s.ctl.time.restart

variable {K : Reg → Prop} {D : Nat → Prop}

theorem composes_quiet : Composes (Quiet K D) where
  refl _ := ⟨fun _ _ => rfl, fun _ _ => rfl, fun _ _ => rfl, fun _ _ => rfl, rfl, fun _ h => h⟩
  trans h g := ⟨fun r hr => (g.rd r hr).trans (h.rd r hr), fun k hk => (g.mem k hk).trans (h.mem k hk),
    fun n hn => (g.dom n hn).trans (h.dom n hn), fun n hn => (g.acts n hn).trans (h.acts n hn), g.edges.trans h.edges,
    fun _ hx => h.restart (g.restart hx)⟩

/-- Registers that a request to the wheel may write: the wheel's own and those of signals. -/
def wheelReg (r : Reg) : Prop := r.page = 10 ∨ sideReg anyPage ⟨.live, r.page, r.inst, r.off⟩

theorem Side.time {P : Nat → Prop} {s t : State} (h : Side P s t) : t.ctl.time = s.ctl.time := by
  obtain ⟨_, _, _, _, _, _, _, _, e⟩ := h.ctl
  rw [e]

/-- A signal leaves the time alone. -/
theorem Quiet.of_side {s t : State} (hK : ∀ r, wheelReg r → K r) (h : Side anyPage s t) : Quiet K D s t := by
  have ht := h.time
  refine ⟨fun r hr => h.copy .live r fun hs => hr (hK r (.inr hs)), h.mem, fun n _ => ?_, fun n _ => ?_, ?_, ?_⟩
  · rw [State.dom, ht, State.dom]
  · rw [State.acts, ht, State.acts]
  · rw [ht]
  · rw [ht]
    exact fun _ hx => hx

theorem quiet_wr {r : Reg} (hr : K r) (v : Nat) : (wr r v).within (Quiet K D) := fun s =>
  ⟨fun r' hr' => rd_wr_other s v (by rintro rfl; exact hr' hr), fun _ _ => rfl, fun _ _ => rfl, fun _ _ => rfl, rfl, fun _ h => h⟩

theorem quiet_wrF {r : Reg} (hr : K r) (hi lo v : Nat) : (wrF r hi lo v).within (Quiet K D) := within_look fun _ => quiet_wr hr _

/-- A change behind the registers that leaves domains, what they are told, edges and restarts. -/
theorem quiet_ctl {f : Ctl → Ctl} (h : ∀ c, (f c).time.dom = c.time.dom ∧ (f c).time.acts = c.time.acts ∧
    (f c).time.edges = c.time.edges ∧ (f c).time.restart ⊆ c.time.restart) : (ctl f).within (Quiet K D) := fun s => by
  obtain ⟨hd, ha, he, hr⟩ := h s.ctl
  exact ⟨fun _ _ => rfl, fun _ _ => rfl, fun n _ => congrArg (tget Dom.zero · n) hd, fun n _ => congrArg (tget DomActs.none · n) ha, he, hr⟩

theorem quiet_modDom {n : Nat} (hn : D n) (f : Dom → Dom) : (modDom n f).within (Quiet K D) := fun s =>
  ⟨fun _ _ => rfl, fun _ _ => rfl, fun m hm => tget_nmod_other _ _ _ (by rintro rfl; exact hm hn), fun _ _ => rfl, rfl, fun _ h => h⟩

theorem quiet_tellDom {n : Nat} (hn : D n) (f : DomActs → DomActs) : (tellDom n f).within (Quiet K D) := fun s =>
  ⟨fun _ _ => rfl, fun _ _ => rfl, fun _ _ => rfl, fun m hm => tellDom_acts_other f s (by rintro rfl; exact hm hn), rfl, fun _ h => h⟩

section Wheel

variable (hK : ∀ r, wheelReg r → K r)
include hK

theorem quiet_side {p : Prog} (h : p.side anyPage) : p.within (Quiet K D) := fun s => .of_side hK (h s)

theorem quiet_request {dom cls : Nat} {t : Target} {c : Consumer} {k : Nat → Nat → Prog} (h : ∀ st x, (k st x).within (Quiet K D)) :
    (request dom cls t c k).within (Quiet K D) := within_look fun s => by
  have q : Composes (Quiet K D) := composes_quiet
  have hw : ∀ r : Reg, r.page = 10 → K r := fun r hr => hK r (.inl hr)
  dsimp only
  split
  · exact q.cons (q.when (within_look fun _ => quiet_wr (hw _ rfl) _)) (q.cons (q.when (within_look fun _ => quiet_wr (hw _ rfl) _))
      (q.cons (quiet_side hK (side_peep _ _ _)) (q.cons (h _ _) q.nil)))
  · exact q.cons (quiet_ctl fun _ => ⟨rfl, rfl, rfl, fun _ h => h⟩) (q.cons (within_look fun _ => quiet_wr (hw _ rfl) _)
      (q.cons (quiet_side hK (side_peep _ _ _)) (q.cons (h _ _) q.nil)))

theorem quiet_startPeriodic (c : Consumer) : (startPeriodic c).within (Quiet K D) := within_look fun s => by
  have q : Composes (Quiet K D) := composes_quiet
  split
  · exact q.when (within_look fun _ => quiet_request hK fun _ _ => q.when (q.cons (quiet_side hK (side_err _ _ _ _ _))
      (q.cons (quiet_ctl fun _ => ⟨rfl, rfl, rfl, fun _ h => h⟩) q.nil)))
  · exact q.skip

end Wheel

/-! ## The step of an armed domain (R42, R43) -/

/-- The state in which a step's periodic consumers start again. -/
def stepped (n : Nat) (off : Int) (s : State) : State := (doAll [modDom n fun d => d.shift off, wrF (TIME.DOM_STATUS n) 1 0 3,
  ctl fun c => { c with time := { c.time with
    restart := c.time.restart.filter fun r => !decide (r.1 = n)
    retry := c.time.retry.filter fun r => !decide (r.consumer ∈ s.toRestart n) } }]).run s

theorem stepEdge_after_stepped (n : Nat) (off : Int) (s : State) :
    Quiet wheelReg (fun _ => False) (stepped n off s) ((stepEdge n off).run s) :=
  composes_quiet.each (fun c _ => quiet_startPeriodic (fun _ h => h) c) (stepped n off s)

/-- A shift moves the time by its offset, seconds modulo 2^48 (R43). -/
theorem nanos_shift (d : Dom) (off : Int) : ((d.shift off).nanos : Int) = ((d.nanos : Int) + off) % (2 ^ 48 * 1000000000) := by
  simp only [Dom.shift, Dom.nanos]
  omega

theorem domState_wrF {n : Nat} (hn : (TIME.DOM_STATUS n).holds 1 0) (s : State) (v : Nat) :
    ((wrF (TIME.DOM_STATUS n) 1 0 v).run s).domState n = v % 4 := fd_wrF_same s _ v (by norm_num) hn

theorem dom_modDom_same (n : Nat) (f : Dom → Dom) (s : State) : ((modDom n f).run s).dom n = f (s.dom n) := tget_nmod_same ..

theorem dom_modDom_other (f : Dom → Dom) (s : State) {n m : Nat} (h : m ≠ n) : ((modDom n f).run s).dom m = s.dom m :=
  tget_nmod_other _ _ _ h

theorem dom_stepped_same (n : Nat) (off : Int) (s : State) : (stepped n off s).dom n = (s.dom n).shift off :=
  dom_modDom_same n (fun d => d.shift off) s

theorem dom_stepped_other (off : Int) (s : State) {n m : Nat} (h : m ≠ n) : (stepped n off s).dom m = s.dom m :=
  dom_modDom_other (fun d => d.shift off) s h

theorem domState_stepped (n : Fin 8) (off : Int) (s : State) : (stepped n.val off s).domState n.val = 3 := by
  rw [stepped, State.domState, run_all_cons, run_all_cons, run_all_cons, run_all_nil, fd_upd]
  exact domState_wrF (by revert n; decide +kernel) _ 3

theorem not_wheelReg_domStatus (n : Nat) : ¬ wheelReg (TIME.DOM_STATUS n) := by
  simp [wheelReg, sideReg]
  omega

theorem Quiet.domState {s t : State} (q : Quiet wheelReg D s t) (n : Nat) : t.domState n = s.domState n := by
  rw [State.domState, State.fd, q.rd _ (not_wheelReg_domStatus n)]
  rfl

theorem stepEdge_steps (s : State) (n : Fin 8) (off : Int) :
    ((((stepEdge n.val off).run s).dom n.val).nanos : Int) = (((s.dom n.val).nanos : Int) + off) % (2 ^ 48 * 1000000000) ∧
      ((stepEdge n.val off).run s).domState n.val = 3 ∧
      (∀ m, m ≠ n.val → ((stepEdge n.val off).run s).dom m = s.dom m) ∧
      ∀ r ∈ ((stepEdge n.val off).run s).ctl.time.restart, r.1 ≠ n.val := by
  have q := stepEdge_after_stepped n.val off s
  refine ⟨?_, ?_, fun m hm => ?_, fun r hr => ?_⟩
  · rw [q.dom _ id, dom_stepped_same, nanos_shift]
  · rw [q.domState, domState_stepped]
  · rw [q.dom _ id, dom_stepped_other _ _ hm]
  · have hr' : r ∈ s.ctl.time.restart.filter fun r => !decide (r.1 = n.val) := q.restart hr
    simpa using (List.mem_filter.1 hr').2

/-! ## What a domain is told, rates, slews and holdover (R39 to R50, R68) -/

section Domain

variable {s : State} {a : Accessor} {n : Fin 8} {v : Word}

theorem exec_domTell (hs : s.serves a Pg.time) (f : DomActs → DomActs) :
    done (domTell a n.val v f) s = .next ((doAll [domCtlFields n.val v.toNat, tellDom n.val f]).run s) := byWriter_next _ _ hs

theorem acts_domTell_same (f : DomActs → DomActs) :
    ((doAll [domCtlFields n.val v.toNat, tellDom n.val f]).run s).acts n.val = f (s.acts n.val) :=
  (tellDom_acts _ _ _).trans rfl

theorem acts_domTell_other (f : DomActs → DomActs) {m : Nat} (h : m ≠ n.val) :
    ((doAll [domCtlFields n.val v.toNat, tellDom n.val f]).run s).acts m = s.acts m :=
  (tellDom_acts_other _ _ h).trans rfl

theorem copy_domTell_other (f : DomActs → DomActs) {b : Bank} {r : Reg} (h : (b, r) ≠ (.live, TIME.DOM_CTL n.val)) :
    ((doAll [domCtlFields n.val v.toNat, tellDom n.val f]).run s).copy b r = s.copy b r :=
  copy_wr_other s _ h

theorem domTell_tells (hs : s.serves a Pg.time) (f : DomActs → DomActs) :
    ∃ t, done (domTell a n.val v f) s = .next t ∧ t.acts n.val = f (s.acts n.val) ∧ ∀ m, m ≠ n.val → t.acts m = s.acts m :=
  ⟨_, exec_domTell hs f, acts_domTell_same f, fun _ => acts_domTell_other f⟩

theorem exec_domIncrWrite (hs : s.serves a Pg.time) :
    let x := s.copy .loHold (TIME.DOM_INCR n.val) + 2 ^ 32 * (v.toNat % 65536)
    exec (.domIncrWrite a n v) s = .next ((if x * 10000 < 63936 * nsUnit ∨ 64064 * nsUnit < x * 10000 then
        doAll [wrB (TIME.DOM_STATUS n.val) 6 true, timeReject (0x10c + 64 * n.val)]
      else doAll [wrW (TIME.DOM_INCR n.val) x, tellDom n.val fun y => { y with disc := true }]).run s) := byWriter_next _ _ hs

theorem exec_slew (hs : s.serves a Pg.time) : exec (.slew a n v) s =
    .next ((if (s.dom n.val).slew.isSome ∨ s.domState n.val = 1 ∨ s.domState n.val = 2 then wrB (TIME.DOM_STATUS n.val) 4 true
      else doAll [wrB (TIME.DOM_STATUS n.val) 3 true,
        modDom n.val fun d => { d with slew := some ⟨decide (v.toInt < 0), v.toInt.natAbs * 2 ^ 32, 0, none⟩ },
        tellDom n.val fun y => { y with disc := true }]).run s) := byWriter_next _ _ hs

theorem exec_slewDone {w : Slew} (h : s.powered) (hw : (s.dom n.val).slew = some w) (ho : w.over = true) :
    exec (.slewDone n) s = .next ((doAll [modDom n.val fun d => { d with slew := none },
      wrB (TIME.DOM_STATUS n.val) 3 false, int Pg.time 0 (16 + n.val)]).run s) := by
  calc exec (.slewDone n) s = board _ s := rfl
    _ = _ := by
      rw [board_next _ h, run_look]
      simp only [hw, ho, when_true]

theorem exec_disciplineTimeout {k : Nat} (h : s.powered) (hd : (s.dom n.val).disc = some k) (hst : s.domState n.val = 3)
    (hlim : 0 < (s.acts n.val).lim) (hk : (s.acts n.val).lim ≤ k) :
    exec (.disciplineTimeout n) s = .next ((doAll [modDom n.val fun d => { d with disc := none }, enterHoldover n.val]).run s) := by
  calc exec (.disciplineTimeout n) s = board _ s := rfl
    _ = _ := by
      rw [board_next _ h, run_look]
      simp only [hd, hst, hlim, hk, decide_true, Bool.and_self, when_true]

end Domain

theorem incrementAndSlew : Says.IncrementAndSlew := by
  intro s a n v
  refine ⟨fun hs hlo hhi => ?_, fun hs hout => ?_, fun hs hno hst => ?_, fun hs hno => ?_, fun w => exec_slewDone⟩
  · rw [exec_domIncrWrite hs, if_neg (by omega)]
  · rw [exec_domIncrWrite hs, if_pos hout]
  · rw [exec_slew hs, if_neg (by simp only [hno]; rcases hst with h | h <;> simp [h])]
  · rw [exec_slew hs, if_pos hno]

theorem holdoverAndSnapshots : Says.HoldoverAndSnapshots := by
  intro s a n v
  refine ⟨fun hs => ⟨domTell_tells hs _, domTell_tells hs _, domTell_tells hs _, domTell_tells hs _,
    _, byWriter_next _ _ hs, acts_snapAll s⟩, rfl, fun hst hb => ⟨?_, ?_⟩, fun k => exec_disciplineTimeout⟩
  · simp only [enterHoldover, run_look, hst, hb, decide_true, Bool.not_false, Bool.and_self, when_true]
  · simp only [restartDisc, run_look, hst, decide_true, when_true]

/-! ## Lists in order -/

theorem mem_ordIns {α : Type} {lt : α → α → Bool} {a x : α} {l : List α} : x ∈ ordIns lt a l ↔ x = a ∨ x ∈ l := by
  induction l with
  | nil => simp [ordIns]
  | cons b l ih =>
    rw [ordIns]
    split
    · simp
    · simp only [List.mem_cons, ih]
      tauto

theorem mem_inOrder {α : Type} {lt : α → α → Bool} {x : α} {l : List α} : x ∈ inOrder lt l ↔ x ∈ l := by
  have key : ∀ (l acc : List α), x ∈ l.foldl (fun acc a => ordIns lt a acc) acc ↔ x ∈ acc ∨ x ∈ l := by
    intro l
    induction l with
    | nil => simp
    | cons a l ih =>
      intro acc
      rw [List.foldl_cons, ih, mem_ordIns, List.mem_cons]
      tauto
  simpa [inOrder] using key l []

/-! ## Arming (R42) -/

/-- The state of a domain that is FLUSHING, before what goes by it ends. -/
def armed (n : Nat) (s : State) : State := (doAll [
  wrF (TIME.DOM_STATUS n) 3 0 1,
  wrF (TIME.DOM_STATUS n) 31 16 (s.fd (TIME.DOM_STATUS n) 31 16 + 1),
  modDom n fun d => { d with slew := none, disc := none },
  ctl fun c => { c with time := { c.time with
    events := c.time.events.filter fun e => !decide (e.dom = n)
    flush := c.time.flush ++ inOrder (flushBefore (s.wt n)) (c.time.events.filter fun e => decide (e.dom = n)) } }]).run s

/-- What goes by an armed domain ends: hold lists on it, and its outputs without an event to stop them. -/
def armStops (n : Nat) (s : State) : Prog := doAll [
  Prog.each (List.range 4) (fun p => Prog.when (decide (s.cfd (FWD.TIME_CFG.of p) 2 0 = n))
    (ctl fun c => { c with net.holds := nset [] c.net.holds p [] })),
  Prog.each (List.range 4) fun m => Prog.when (s.bit (TIME.PPS_OUT_CTL m) 0 && decide (s.fd (TIME.PPS_OUT_CTL m) 6 4 = n) &&
    !s.scheduled (.periodOut m)) (stopPps m)]

theorem run_all_append (l l' : List Prog) (s : State) : (Prog.all (l ++ l')).run s = (Prog.all l').run ((Prog.all l).run s) := by
  induction l generalizing s with
  | nil => rfl
  | cons p l ih => rw [List.cons_append, run_all_cons, run_all_cons, ih]

theorem armEdge_run (n : Nat) (s : State) : (armEdge n).run s = (armStops n s).run (armed n s) := by
  rw [armEdge, run_look]
  exact run_all_append [_, _, _, _] _ s

/-- What `armStops` leaves. -/
def besideStops (t : State) : List Host.Cell × Tbl Dom × List WEvent × List WEvent × (Nat → Nat) :=
  (t.mem, t.ctl.time.dom, t.ctl.time.events, t.ctl.time.flush, fun m => t.rd (TIME.DOM_STATUS m))

theorem besideStops_stopPps (m : Nat) (s : State) : besideStops ((stopPps m).run s) = besideStops s := by
  have hr : ∀ k, ((stopPps m).run s).rd (TIME.DOM_STATUS k) = s.rd (TIME.DOM_STATUS k) := fun k => by
    have hne : TIME.DOM_STATUS k ≠ TIME.PPS_OUT_CTL m := by simp; omega
    rw [stopPps, run_all_cons, run_all_cons, run_all_cons, run_all_nil, rd_wrB_other _ _ _ hne, rd_wrB_other _ _ _ hne]
    rfl
  exact congrArg (fun g => (s.mem, s.ctl.time.dom, s.ctl.time.events, s.ctl.time.flush, g)) (funext hr)

theorem besideStops_armEdge (n : Nat) (s : State) : besideStops ((armEdge n).run s) = besideStops (armed n s) := by
  have c := composes_keep besideStops
  have h : (armStops n s).within fun s t => besideStops t = besideStops s :=
    c.cons (c.each fun _ _ => c.when fun _ => rfl) (c.cons (c.each fun m _ => c.when (besideStops_stopPps m)) c.nil)
  rw [armEdge_run, h]

theorem rd_domStatus_armEdge (n m : Nat) (s : State) :
    ((armEdge n).run s).rd (TIME.DOM_STATUS m) = (armed n s).rd (TIME.DOM_STATUS m) :=
  congrArg (fun x => x.2.2.2.2 m) (besideStops_armEdge n s)

theorem dom_armEdge_eq (n m : Nat) (s : State) : ((armEdge n).run s).dom m = (armed n s).dom m := by
  have h : ((armEdge n).run s).ctl.time.dom = (armed n s).ctl.time.dom := congrArg (·.2.1) (besideStops_armEdge n s)
  rw [State.dom, h, State.dom]

theorem dom_ctl {f : Ctl → Ctl} {s : State} (h : (f s.ctl).time.dom = s.ctl.time.dom) (n : Nat) :
    ((ctl f).run s).dom n = s.dom n := congrArg (tget Dom.zero · n) h

@[simp] theorem dom_wrF (r : Reg) (hi lo v : Nat) (s : State) (n : Nat) : ((wrF r hi lo v).run s).dom n = s.dom n := rfl

theorem dom_armEdge_same (n : Nat) (s : State) : ((armEdge n).run s).dom n = { s.dom n with slew := none, disc := none } := by
  rw [dom_armEdge_eq, armed, run_all_cons, run_all_cons, run_all_cons, run_all_cons, run_all_nil, dom_ctl, dom_modDom_same, dom_wrF, dom_wrF]
  rfl

theorem dom_armEdge_other (s : State) {n m : Nat} (h : m ≠ n) : ((armEdge n).run s).dom m = s.dom m := by
  rw [dom_armEdge_eq, armed, run_all_cons, run_all_cons, run_all_cons, run_all_cons, run_all_nil, dom_ctl, dom_modDom_other _ _ h, dom_wrF, dom_wrF]
  rfl

theorem rd_domStatus_armed_other (s : State) {n m : Nat} (h : m ≠ n) :
    (armed n s).rd (TIME.DOM_STATUS m) = s.rd (TIME.DOM_STATUS m) := by
  have hne : TIME.DOM_STATUS m ≠ TIME.DOM_STATUS n := by simp; omega
  rw [armed, run_all_cons, run_all_cons, run_all_cons, run_all_cons, run_all_nil, rd_upd, modDom, rd_upd, wrF, run_look,
    rd_wr_other _ _ hne, wrF, run_look, rd_wr_other _ _ hne]

/-- An armed domain's STATUS: FLUSHING without a slew or holdover, and ARM_COUNT one on. -/
theorem fd_domStatus_armed (n : Fin 8) (s : State) : (armed n.val s).fd (TIME.DOM_STATUS n.val) 3 0 = 1 ∧
    (armed n.val s).fd (TIME.DOM_STATUS n.val) 31 16 = (s.fd (TIME.DOM_STATUS n.val) 31 16 + 1) % 65536 := by
  have hlo : (TIME.DOM_STATUS n.val).holds 3 0 := by revert n; decide +kernel
  have hhi : (TIME.DOM_STATUS n.val).holds 31 16 := by revert n; decide +kernel
  rw [armed, run_all_cons, run_all_cons, run_all_cons, run_all_cons, run_all_nil, fd_upd, modDom, fd_upd,
    fd_upd, fd_upd, fd_wrF_other _ _ _ (by norm_num) hlo (by norm_num), fd_wrF_same _ _ _ (by norm_num) hlo,
    fd_wrF_same _ _ _ (by norm_num) hhi]
  exact ⟨rfl, rfl⟩

/-- Its events have left the wheel for the flush. -/
theorem wheel_armed (n : Nat) (s : State) :
    (armed n s).ctl.time.events = s.ctl.time.events.filter (fun e => !decide (e.dom = n)) ∧
    (armed n s).ctl.time.flush = s.ctl.time.flush ++
      inOrder (flushBefore (s.wt n)) (s.ctl.time.events.filter fun e => decide (e.dom = n)) ∧ (armed n s).mem = s.mem := by
  rw [armed, run_all_cons, run_all_cons, run_all_cons, run_all_cons, run_all_nil, upd_ctl, upd_mem, modDom, upd_ctl, upd_mem,
    wrF, run_look, ctl_wr, mem_wr, wrF, run_look, ctl_wr, mem_wr]
  exact ⟨rfl, rfl, rfl⟩

theorem armEdge_arms (s : State) (n : Fin 8) : ∃ t, t = (armEdge n.val).run s ∧
      t.fd (TIME.DOM_STATUS n.val) 3 0 = 1 ∧
      t.fd (TIME.DOM_STATUS n.val) 31 16 = (s.fd (TIME.DOM_STATUS n.val) 31 16 + 1) % 65536 ∧
      (t.dom n.val).slew = none ∧ (t.dom n.val).nanos = (s.dom n.val).nanos ∧
      t.ctl.time.events = s.ctl.time.events.filter (fun e => !decide (e.dom = n.val)) ∧
      (∀ e, e ∈ t.ctl.time.flush ↔ e ∈ s.ctl.time.flush ∨ (e ∈ s.ctl.time.events ∧ e.dom = n.val)) ∧
      (∀ m, m ≠ n.val → t.dom m = s.dom m ∧ t.rd (TIME.DOM_STATUS m) = s.rd (TIME.DOM_STATUS m)) ∧ t.mem = s.mem := by
  obtain ⟨hst, hcnt⟩ := fd_domStatus_armed n s
  have hb := besideStops_armEdge n.val s
  obtain ⟨hev, hfl, hmem⟩ := wheel_armed n.val s
  have hev' : ((armEdge n.val).run s).ctl.time.events = (armed n.val s).ctl.time.events := congrArg (·.2.2.1) hb
  have hfl' : ((armEdge n.val).run s).ctl.time.flush = (armed n.val s).ctl.time.flush := congrArg (·.2.2.2.1) hb
  have hmem' : ((armEdge n.val).run s).mem = (armed n.val s).mem := congrArg (·.1) hb
  refine ⟨_, rfl, ?_, ?_, ?_, ?_, hev'.trans hev, fun e => ?_, fun m hm => ⟨dom_armEdge_other s hm, ?_⟩, hmem'.trans hmem⟩
  · rw [State.fd, rd_domStatus_armEdge]
    exact hst
  · rw [State.fd, rd_domStatus_armEdge]
    exact hcnt
  · rw [dom_armEdge_same]
  · rw [dom_armEdge_same]
    rfl
  · rw [hfl', hfl, List.mem_append, mem_inOrder, List.mem_filter, decide_eq_true_iff]
  · rw [rd_domStatus_armEdge, rd_domStatus_armed_other s hm]

/-! ## ARM and STEP (R42, R43, R47, R48) -/

section

variable {s : State} {a : Accessor} {n : Fin 8} {v : Word}

theorem exec_arm (hs : s.serves a Pg.time) : ∃ t, exec (.arm a n v) s = .next t ∧
    (t.acts n.val).arm = ((s.acts n.val).arm || decide (s.domState n.val = 0 ∨ s.domState n.val = 3)) ∧
    (∀ m, m ≠ n.val → t.acts m = s.acts m) ∧ (∀ m, t.dom m = s.dom m) ∧ t.ctl.time.events = s.ctl.time.events ∧
    (∀ b r, (b, r) ≠ (.live, TIME.DOM_CTL n.val) → t.copy b r = s.copy b r) ∧ t.mem = s.mem := by
  refine ⟨_, exec_domTell hs _, ?_, fun m => acts_domTell_other _, fun _ => rfl, rfl, fun b r => copy_domTell_other _, rfl⟩
  rw [acts_domTell_same]
  by_cases h : s.domState n.val = 0 ∨ s.domState n.val = 3
  · rw [if_pos h, decide_eq_true h, Bool.or_true]
  · rw [if_neg h, decide_eq_false h, Bool.or_false]

theorem exec_domainFlushDone (h : s.powered) (hst : s.domState n.val = 1)
    (hf : (s.ctl.time.flush.any fun e => decide (e.dom = n.val)) = false) :
    exec (.domainFlushDone n) s = .next ((doAll [wrF (TIME.DOM_STATUS n.val) 1 0 2, int Pg.time 0 (8 + n.val)]).run s) := by
  calc exec (.domainFlushDone n) s = board _ s := rfl
    _ = _ := by rw [board_next _ h, run_look, hst, hf, decide_eq_true rfl, Bool.not_false, Bool.and_self, when_true]

/-- The write's own field, DISC_TIMEOUT, is no part of what STEP looks at. -/
theorem exec_step (hs : s.serves a Pg.time) : exec (.step a n v) s = .next ((doAll [domCtlFields n.val v.toNat,
    if s.domState n.val ≠ 2 ∨ toSigned 32 (s.rd (TIME.DOM_STEP_NS n.val)) < -999999999 ∨
        999999999 < toSigned 32 (s.rd (TIME.DOM_STEP_NS n.val)) then wrB (TIME.DOM_STATUS n.val) 5 true
      else tellDom n.val fun x => { x with step := some (s.stepOffset n.val) }]).run s) := by
  have hrd : ∀ r : Reg, r ≠ TIME.DOM_CTL n.val → ((domCtlFields n.val v.toNat).run s).rd r = s.rd r := fun r => rd_wr_other s _
  have hst : ((domCtlFields n.val v.toNat).run s).domState n.val = s.domState n.val := by
    rw [State.domState, State.fd, hrd _ (by simp), State.domState, State.fd]
  have hoff : ((domCtlFields n.val v.toNat).run s).stepOffset n.val = s.stepOffset n.val := by
    simp only [State.stepOffset, State.rdW]
    rw [hrd _ (by simp), hrd _ (by simp; omega), hrd _ (by simp)]
  calc exec (.step a n v) s = done (byWriter a Pg.time (0x100 + 64 * n.val) _) s := rfl
    _ = _ := by rw [byWriter_next _ _ hs, run_all_cons, run_all_cons, run_look, hst, hoff, hrd _ (by simp), run_all_cons, run_all_cons]

theorem exec_step_told (hs : s.serves a Pg.time) (hst : s.domState n.val = 2)
    (hlo : -999999999 ≤ toSigned 32 (s.rd (TIME.DOM_STEP_NS n.val))) (hhi : toSigned 32 (s.rd (TIME.DOM_STEP_NS n.val)) ≤ 999999999) :
    exec (.step a n v) s = .next ((doAll [domCtlFields n.val v.toNat,
      tellDom n.val fun x => { x with step := some (s.stepOffset n.val) }]).run s) := by
  rw [exec_step hs, if_neg (by omega)]

end

theorem armFlushesTheDomain : Says.ArmFlushesTheDomain := fun s _ n _ => ⟨exec_arm, armEdge_arms s n⟩

theorem stepOfAnArmedDomain : Says.StepOfAnArmedDomain := by
  intro s a n v
  refine ⟨exec_domainFlushDone, fun hs hst hlo hhi => ⟨_, exec_step_told hs hst hlo hhi, ?_, fun m => acts_domTell_other _,
    fun _ => rfl, fun b r => copy_domTell_other _, rfl⟩, fun off => ⟨_, rfl, stepEdge_steps s n off⟩, fun hs hrej => ?_⟩
  · rw [acts_domTell_same]
  · rw [exec_step hs, if_pos hrej]

/-- Settles O20: `armEdge_arms` and `stepEdge_steps` say what the edge does, and STEP's guard reads what its own write leaves. -/
theorem armedDomainsStepOnce : Obligations.ArmedDomainsStepOnce := by
  unfold Obligations.ArmedDomainsStepOnce
  exact ⟨armFlushesTheDomain, stepOfAnArmedDomain⟩

/-- Settles O21: each command goes by one guard, what it tells reaches its domain alone, and an edge is R47's order as it stands. -/
theorem ratesSlewsHoldoverAndSnapshots : Obligations.RatesSlewsHoldoverAndSnapshots := by
  unfold Obligations.RatesSlewsHoldoverAndSnapshots
  exact ⟨incrementAndSlew, holdoverAndSnapshots⟩

/-! ## One edge of a domain (R36, R47) -/

/-- Registers that an edge may write: any but the increments. -/
def edgeReg (r : Reg) : Prop := ∀ n, r ≠ TIME.DOM_INCR n ∧ r ≠ (TIME.DOM_INCR n).hi

theorem edgeReg_of_wheelReg (r : Reg) (h : wheelReg r) : edgeReg r := by
  intro n
  constructor <;> rintro rfl <;> simp [wheelReg, sideReg] at h <;> omega

theorem edgeReg_of_off {r : Reg} (h8 : r.off % 64 ≠ 8) (h12 : r.off % 64 ≠ 12) : edgeReg r := by
  intro n
  constructor <;> rintro rfl
  · simp at h8
  · simp at h12
    omega

theorem edgeReg_domStatus (n : Nat) : edgeReg (TIME.DOM_STATUS n) := edgeReg_of_off (by simp) (by simp)

theorem edgeReg_ppsOut (m : Nat) : edgeReg (TIME.PPS_OUT_CTL m) := edgeReg_of_off (by simp; omega) (by simp; omega)

theorem Quiet.rdW_incr {D : Nat → Prop} {s t : State} (q : Quiet edgeReg D s t) (n : Nat) :
    t.rdW (TIME.DOM_INCR n) = s.rdW (TIME.DOM_INCR n) := by
  rw [State.rdW, q.rd _ fun h => (h n).1 rfl, q.rd _ fun h => (h n).2 rfl, State.rdW]

section

variable {D : Nat → Prop}

theorem quiet_stopPps (m : Nat) : (stopPps m).within (Quiet edgeReg D) := by
  have q : Composes (Quiet edgeReg D) := composes_quiet
  have hr := edgeReg_ppsOut m
  exact q.cons (within_look fun s => q.cons (quiet_ctl fun _ => ⟨rfl, rfl, rfl, fun _ h => h⟩)
    (q.cons (quiet_ctl fun _ => ⟨rfl, rfl, rfl, fun _ h => h⟩) q.nil)) (q.cons (quiet_wrF hr _ _ _) (q.cons (quiet_wrF hr _ _ _) q.nil))

theorem quiet_armEdge {n : Nat} (hn : D n) : (armEdge n).within (Quiet edgeReg D) := within_look fun s => by
  have q : Composes (Quiet edgeReg D) := composes_quiet
  have hr := edgeReg_domStatus n
  exact q.cons (quiet_wrF hr _ _ _) (q.cons (quiet_wrF hr _ _ _) (q.cons (quiet_modDom hn _)
    (q.cons (quiet_ctl fun _ => ⟨rfl, rfl, rfl, fun _ h => h⟩)
      (q.cons (q.each fun _ _ => q.when (quiet_ctl fun _ => ⟨rfl, rfl, rfl, fun _ h => h⟩))
        (q.cons (q.each fun m _ => q.when (quiet_stopPps m)) q.nil)))))

theorem quiet_stepEdge {n : Nat} (hn : D n) (off : Int) : (stepEdge n off).within (Quiet edgeReg D) := within_look fun s => by
  have q : Composes (Quiet edgeReg D) := composes_quiet
  exact q.cons (quiet_modDom hn _) (q.cons (quiet_wrF (edgeReg_domStatus n) _ _ _)
    (q.cons (quiet_ctl fun _ => ⟨rfl, rfl, rfl, List.filter_subset_self _⟩)
      (q.cons (q.each fun c _ => quiet_startPeriodic edgeReg_of_wheelReg c) q.nil)))

theorem quiet_enterHoldover (n : Nat) : (enterHoldover n).within (Quiet edgeReg D) := within_look fun s => by
  have q : Composes (Quiet edgeReg D) := composes_quiet
  exact q.when (q.cons (quiet_wrF (edgeReg_domStatus n) _ _ _) (q.cons (quiet_side edgeReg_of_wheelReg (side_int _ _ _)) q.nil))

theorem quiet_restartDisc {n : Nat} (hn : D n) : (restartDisc n).within (Quiet edgeReg D) := within_look fun _ =>
  composes_quiet.when (quiet_modDom hn _)

theorem quiet_snapshot (n : Nat) : (snapshot n).within (Quiet edgeReg D) := within_look fun s => by
  have q : Composes (Quiet edgeReg D) := composes_quiet
  have w : ∀ {r : Reg} (v : Nat), r.off % 64 ≠ 8 → r.off % 64 ≠ 12 → (wr r v).within (Quiet edgeReg D) :=
    fun v h8 h12 => quiet_wr (edgeReg_of_off h8 h12) v
  exact q.cons (q.cons (w _ (by simp) (by simp)) (q.cons (w _ (by simp; omega) (by simp; omega)) q.nil))
    (q.cons (w _ (by simp) (by simp)) (q.cons (w _ (by simp) (by simp))
      (q.cons (q.cons (w _ (by simp) (by simp)) (q.cons (w _ (by simp; omega) (by simp; omega)) q.nil)) q.nil)))

/-- An edge of a domain is quiet beside that domain. -/
theorem quiet_domEdge {n : Nat} (hn : D n) : (domEdge n).within (Quiet edgeReg D) := within_look fun s => by
  have q : Composes (Quiet edgeReg D) := composes_quiet
  refine q.cons (quiet_tellDom hn _) (q.cons (q.when (quiet_armEdge hn)) (q.cons ?_ (q.cons (quiet_modDom hn _)
    (q.cons (q.when (quiet_enterHoldover n)) (q.cons (q.when (quiet_wrF (edgeReg_domStatus n) _ _ _))
      (q.cons (q.when (quiet_restartDisc hn)) (q.cons (q.when (quiet_snapshot n)) q.nil)))))))
  cases (s.acts n).step with
  | none => exact q.skip
  | some off => exact quiet_stepEdge hn off

end

/-- Of domain `n`, which does not slew, at most the discipline timer changes. -/
def Unmoved (n : Nat) (s t : State) : Prop := (s.dom n).slew = none → ∃ x, t.dom n = { s.dom n with disc := x }

theorem composes_unmoved (n : Nat) : Composes (Unmoved n) where
  refl _ _ := ⟨_, rfl⟩
  trans h g hs := by
    obtain ⟨x, hx⟩ := h hs
    obtain ⟨y, hy⟩ := g (by rw [hx]; exact hs)
    exact ⟨y, by rw [hy, hx]⟩

theorem unmoved_run {n : Nat} {p : Prog} (h : p.within (Unmoved n)) {s : State} {d : Dom} {x : Option Nat} (hs : d.slew = none)
    (hd : s.dom n = { d with disc := x }) : ∃ y, (p.run s).dom n = { d with disc := y } := by
  obtain ⟨y, hy⟩ := h s (by rw [hd]; exact hs)
  exact ⟨y, by rw [hy, hd]⟩

theorem unmoved_of_dom {n : Nat} {p : Prog} (h : ∀ s, (p.run s).dom n = s.dom n) : p.within (Unmoved n) := fun s _ => ⟨_, h s⟩

@[simp] theorem dom_wrB (r : Reg) (i : Nat) (b : Bool) (s : State) (n : Nat) : ((wrB r i b).run s).dom n = s.dom n := rfl

theorem unmoved_armEdge (n : Nat) : (armEdge n).within (Unmoved n) := fun s hs => ⟨none, by rw [dom_armEdge_same, ← hs]⟩

theorem unmoved_restartDisc (n : Nat) : (restartDisc n).within (Unmoved n) := within_look fun _ =>
  (composes_unmoved n).when fun s _ => ⟨some 0, dom_modDom_same n (fun d => { d with disc := some 0 }) s⟩

theorem unmoved_of_quiet {K : Reg → Prop} {n : Nat} {p : Prog} (h : p.within (Quiet K fun _ => False)) : p.within (Unmoved n) :=
  unmoved_of_dom fun s => (h s).dom n id

theorem edge_of_not_slewing {d : Dom} (hs : d.slew = none) (x : Option Nat) (incr ppm : Nat) :
    ({ d with disc := x }).edge incr ppm = { d.advance incr with disc := x.map (· + 1) } := by
  simp only [Dom.edge, hs, Dom.advance, Dom.sub]

/-- What a domain does at its edge before its time moves on: arming and the step. -/
def beforeAdvance (n : Nat) (s : State) : Prog := doAll [
  tellDom n fun _ => { DomActs.none with lim := s.discEdges n },
  Prog.when (s.acts n).arm (armEdge n),
  match (s.acts n).step with | some off => stepEdge n off | none => .skip]

/-- What a domain does at its edge after its time has moved on. -/
def afterAdvance (n : Nat) (s : State) : Prog := doAll [
  Prog.when (s.acts n).holdSet (enterHoldover n),
  Prog.when (s.acts n).holdClr (wrB (TIME.DOM_STATUS n) 2 false),
  Prog.when ((s.acts n).disc || (s.acts n).step.isSome) (restartDisc n),
  Prog.when (s.acts n).snap (snapshot n)]

/-- The step's match is compiled apart in each definition, so both sides are compared in each of its cases. -/
theorem domEdge_run (n : Nat) (s : State) : (domEdge n).run s = (afterAdvance n s).run
    ((modDom n fun d => d.edge (s.rdW (TIME.DOM_INCR n)) (s.fd (TIME.DOM_SLEW_CFG n) 9 0)).run ((beforeAdvance n s).run s)) := by
  rw [domEdge, run_look, beforeAdvance, afterAdvance]
  dsimp only
  cases (s.acts n).step <;> exact (run_all_append [_, _, _] (_ :: _) s).trans (run_all_cons _ _ _)

theorem unmoved_beforeAdvance {n : Nat} {s : State} (hstep : (s.acts n).step = none) : (beforeAdvance n s).within (Unmoved n) := by
  have c := composes_unmoved n
  rw [beforeAdvance, hstep]
  exact c.cons (unmoved_of_dom fun s => tellDom_dom _ _ _ s) (c.cons (c.when (unmoved_armEdge n)) (c.cons c.skip c.nil))

theorem unmoved_afterAdvance (n : Nat) (s : State) : (afterAdvance n s).within (Unmoved n) := by
  have c := composes_unmoved n
  exact c.cons (c.when (unmoved_of_quiet (quiet_enterHoldover n))) (c.cons (c.when (unmoved_of_dom fun s => dom_wrB _ _ _ s n))
    (c.cons (c.when (unmoved_restartDisc n)) (c.cons (c.when (unmoved_of_quiet (quiet_snapshot n))) c.nil)))

theorem Dom.slew_of_time (d : Dom) (x y z : Nat) : ({ d with sec := x, ns := y, frac := z } : Dom).slew = d.slew := rfl

theorem Dom.advance_slew (d : Dom) (u : Nat) : (d.advance u).slew = d.slew := d.slew_of_time _ _ _

/-- A domain that neither slews nor steps moves on by its increment. -/
theorem dom_domEdge_same {s : State} {n : Nat} (hslew : (s.dom n).slew = none) (hstep : (s.acts n).step = none) :
    ∃ x, ((domEdge n).run s).dom n = { (s.dom n).advance (s.rdW (TIME.DOM_INCR n)) with disc := x } := by
  obtain ⟨x, hx⟩ := unmoved_beforeAdvance hstep s hslew
  rw [domEdge_run]
  refine unmoved_run (unmoved_afterAdvance n s) ((Dom.advance_slew _ _).trans hslew) (x := x.map (· + 1)) ?_
  rw [dom_modDom_same, hx, edge_of_not_slewing hslew]

/-! ## One edge of REFCLK -/

theorem quiet_each_domEdge (l : List Nat) : (Prog.each l domEdge).within (Quiet edgeReg (· ∈ l)) :=
  composes_quiet.each fun _ hk => quiet_domEdge hk

/-- Among the edges of several domains, each domain has its own. -/
theorem dom_each_domEdge {l : List Nat} (hl : l.Nodup) {n : Nat} (hn : n ∈ l) {s : State} (hslew : (s.dom n).slew = none)
    (hstep : (s.acts n).step = none) :
    ∃ x, ((Prog.each l domEdge).run s).dom n = { (s.dom n).advance (s.rdW (TIME.DOM_INCR n)) with disc := x } := by
  induction l generalizing s with
  | nil => cases hn
  | cons k l ih =>
    obtain ⟨hk, hl⟩ := List.nodup_cons.1 hl
    rw [run_each_cons]
    rcases List.mem_cons.1 hn with rfl | hnl
    · rw [(quiet_each_domEdge l _).dom _ hk]
      exact dom_domEdge_same hslew hstep
    · have hne : n ≠ k := by rintro rfl; exact hk hnl
      have q : Quiet edgeReg (· = k) s ((domEdge k).run s) := quiet_domEdge (D := (· = k)) rfl s
      have hd := q.dom n hne
      have ha := q.acts n hne
      have h := ih hl hnl (s := (domEdge k).run s) (by rw [hd]; exact hslew) (by rw [ha]; exact hstep)
      rwa [hd, q.rdW_incr] at h

/-- The backups of clocks that are back, which end after an edge (R96). -/
def backupsEnd : Prog := get fun s => doAll [
  Prog.when (s.bit CLK.CLK_STATUS 0 && s.bit CLK.CLK_STATUS 8) (wrB CLK.CLK_STATUS 8 false),
  Prog.when (s.bit CLK.CLK_STATUS 4 && s.bit CLK.CLK_STATUS 9 &&
    decide (padTicks (s.ctl.time.edges - 1) < padTicks s.ctl.time.edges)) (wrB CLK.CLK_STATUS 9 false)]

theorem wrB_mem_ctl (r : Reg) (i : Nat) (b : Bool) (s : State) : (((wrB r i b).run s).mem, ((wrB r i b).run s).ctl) = (s.mem, s.ctl) := rfl

theorem backupsEnd_mem_ctl (s : State) : ((backupsEnd.run s).mem, (backupsEnd.run s).ctl) = (s.mem, s.ctl) := by
  have c := composes_keep fun s : State => (s.mem, s.ctl)
  exact within_look (fun _ => c.cons (c.when (wrB_mem_ctl _ _ _)) (c.cons (c.when (wrB_mem_ctl _ _ _)) c.nil)) s

/-- After the domains' edges, one edge more is counted; memory and the domains stay. -/
theorem refclkEdge_after_domains (s : State) : let w := (Prog.each (List.range 8) domEdge).run s
    (refclkEdge.run s).mem = w.mem ∧ (refclkEdge.run s).ctl.time.dom = w.ctl.time.dom ∧
      (refclkEdge.run s).ctl.time.edges = w.ctl.time.edges + 1 := by
  rw [refclkEdge, run_all_cons, run_all_cons]
  generalize (Prog.each (List.range 8) domEdge).run s = w
  obtain ⟨hm, hc⟩ := Prod.mk.inj (backupsEnd_mem_ctl ((get fun s => ctl fun c => { c with time := { c.time with
    edges := c.time.edges + 1
    tick := c.time.tick + 1
    fired := 0
    events := c.time.events.map (markDue (c.time.tick + 1) s.wt) } }).run w))
  exact ⟨hm, (congrArg (·.time.dom) hc).trans rfl, (congrArg (·.time.edges) hc).trans rfl⟩

/-- Seconds of `G` ns that wrap modulo `M`, ns of `U` units: `t` units carry into them. -/
theorem carry_units {G U : Nat} (hS : 0 < G * U) (M sec t : Nat) :
    (sec + t / (G * U)) % M * (G * U) + t / U % G * U + t % U = (sec * (G * U) + t) % (M * (G * U)) := by
  have hlow : t / U % G * U + t % U = t % (G * U) := by
    rw [Nat.mul_comm G U, Nat.mod_mul]
    ring
  rw [Nat.add_assoc, hlow]
  generalize G * U = S at hS
  rw [Nat.mul_comm M S, Nat.mod_mul, Nat.mul_add_mod_self_right, Nat.mul_comm sec S, Nat.mul_add_div hS]
  ring

section Advance

variable (d : Dom) (u : Nat)

theorem Dom.advance_sec : (d.advance u).sec = (d.sec + (d.sub + u) / (1000000000 * nsUnit)) % 2 ^ 48 := rfl
theorem Dom.advance_ns : (d.advance u).ns = (d.sub + u) / nsUnit % 1000000000 := rfl
theorem Dom.advance_frac : (d.advance u).frac = (d.sub + u) % nsUnit := rfl

theorem Dom.advance_ns_lt : (d.advance u).ns < 1000000000 := by
  rw [Dom.advance_ns]
  exact Nat.mod_lt _ (by norm_num)

theorem Dom.advance_frac_lt : (d.advance u).frac < nsUnit := by
  rw [Dom.advance_frac]
  exact Nat.mod_lt _ (Nat.two_pow_pos 40)

/-- A domain's advance in units of 2^-40 ns, of which 2^48 seconds wrap (R36). -/
theorem Dom.advance_units :
    (d.advance u).sec * (1000000000 * nsUnit) + (d.advance u).ns * nsUnit + (d.advance u).frac =
      (d.sec * (1000000000 * nsUnit) + d.ns * nsUnit + d.frac + u) % (2 ^ 48 * (1000000000 * nsUnit)) := by
  have hS : 0 < 1000000000 * nsUnit := Nat.mul_pos (by norm_num) (Nat.two_pow_pos 40)
  have hsum : d.sec * (1000000000 * nsUnit) + d.ns * nsUnit + d.frac + u = d.sec * (1000000000 * nsUnit) + (d.sub + u) := by
    rw [Dom.sub]
    ring
  rw [Dom.advance_sec, Dom.advance_ns, Dom.advance_frac, hsum, carry_units hS]

end Advance

theorem not_inTrace_of_space {sp x : Nat} (hsp : sp ≠ 1) (hx : x < 2 ^ 48) : ¬ inTrace (memKey sp 0 x) := by
  simp only [inTrace, memKey]
  omega

theorem step_idle {s : State} (hp : s.pending = []) (h : s.powered) :
    step s = .next ((doAll [refclkEdge, dueBoundaries, capsEnd, spareAll, linkServes, fecTick]).run s) := by
  calc step s = idle s := by rw [step, hp]
    _ = board (doAll [refclkEdge, dueBoundaries, capsEnd, spareAll, linkServes, fecTick]) s := rfl
    _ = _ := board_next _ h

/-- Settles O19: `dom_each_domEdge` gives the domain's new time, and what else acts at an edge is quiet beside its own domain. -/
theorem edgeAdvancesEveryDomain : Obligations.EdgeAdvancesEveryDomain := by
  unfold Obligations.EdgeAdvancesEveryDomain Says.EdgeAdvancesEveryDomain
  intro s n hp h hslew hstep _ _
  obtain ⟨hmem, hdom, hedges⟩ := refclkEdge_after_domains s
  have q := quiet_each_domEdge (List.range 8) s
  obtain ⟨x, hx⟩ := dom_each_domEdge List.nodup_range (List.mem_range.2 n.isLt) hslew hstep
  have hu : (refclkEdge.run s).dom n.val = { (s.dom n.val).advance (s.rdW (TIME.DOM_INCR n.val)) with disc := x } := by
    rw [← hx, State.dom, hdom, State.dom]
  refine ⟨refclkEdge.run s, ?_, rfl, ?_, ?_, ?_, fun sp k hsp hk => ?_, ?_⟩
  · rw [step_idle hp h, run_all_cons]
  · rw [hu]
    exact Dom.advance_units _ _
  · rw [hu]
    exact Dom.advance_ns_lt _ _
  · rw [hu]
    exact Dom.advance_frac_lt _ _
  · rw [State.byte, hmem, q.mem _ (not_inTrace_of_space hsp hk), State.byte]
  · rw [hedges, q.edges]

end Sys2Proof.Machine
end

section
/-! PROOF. The event wheel (02_time_and_wheel): events that leave it, GO and CANCEL. -/

namespace Sys2Proof.Machine

/-! ## Events that leave the wheel (R55, R56) -/

theorem run_dispatch_due {s : State} {e : WEvent} {c : Consumer} {want : Consumer → Bool} (k : WEvent → Bool → Prog)
    (h : s.fires e c) (hw : want c = true) : (dispatch want k).run s = (k e false).run ((leaves e false).run s) := by
  obtain ⟨hn, rfl, hd⟩ := h
  have hlate : decide (e.due.getD 0 < s.dispatchSlot.1) = false := by simp [hd]
  rw [dispatch, run_look, hn, leaves]
  dsimp only
  rw [if_pos hw, hlate, Bool.and_false, when_false]
  rfl

theorem run_dispatch_stepped {s : State} {e : WEvent} {c : Consumer} {want : Consumer → Bool} (k : WEvent → Bool → Prog)
    (h : s.steps e c) (hw : want c = true) : (dispatch want k).run s = (k e true).run ((leaves e true).run s) := by
  obtain ⟨hn, rfl⟩ := h
  rw [dispatch, run_look, hn, leaves]
  dsimp only
  rw [if_pos hw, Bool.not_true, Bool.false_and, when_false]
  rfl

section

variable {s : State} {e : WEvent} {src : Nat}

theorem exec_softwareEventFire_due (h : s.powered) (hf : s.fires e (.swEvent src)) :
    exec .softwareEventFire s = .next ((doAll [leaves e false, evt src]).run s) := by
  calc exec .softwareEventFire s = board (dispatch _ _) s := rfl
    _ = _ := by rw [board_next _ h, run_dispatch_due _ hf rfl, hf.2.1, run_all_cons, run_all_cons, run_all_nil]

theorem exec_softwareEventFire_stepped (h : s.powered) (hf : s.steps e (.swEvent src)) :
    exec .softwareEventFire s = .next ((doAll [leaves e true, evt src]).run s) := by
  calc exec .softwareEventFire s = board (dispatch _ _) s := rfl
    _ = _ := by rw [board_next _ h, run_dispatch_stepped _ hf rfl, hf.2, run_all_cons, run_all_cons, run_all_nil]

theorem exec_periodOutputEdge_due {m : Nat} (h : s.powered) (hf : s.fires e (.periodOut m)) :
    exec .periodOutputEdge s = .next ((doAll [leaves e false,
      get fun u => Prog.when (u.bit (TIME.PPS_OUT_CTL m) 0) (doAll [drivePps m true, wrB (TIME.PPS_OUT_CTL m) 9 true,
        (let off := u.ppsAt m (tget 0 u.ctl.time.ppsOutK m) + u.rd (TIME.PPS_OUT_WIDTH m) * 65536
         ctl fun c => { c with time.ppsOffAt := nset 0 c.time.ppsOffAt m off }),
        Prog.when (decide (0 < u.ppsPeriod m)) (schedulePps m (tget 0 u.ctl.time.ppsOutK m + 1))])]).run s) := by
  calc exec .periodOutputEdge s = board (dispatch _ _) s := rfl
    _ = _ := by
      rw [board_next _ h, run_dispatch_due _ hf rfl, hf.2.1, run_all_cons, run_all_cons, run_all_nil]
      rfl

theorem exec_periodOutputEdge_stepped {m : Nat} (h : s.powered) (hf : s.steps e (.periodOut m)) :
    exec .periodOutputEdge s = .next ((doAll [leaves e true, stopPps m]).run s) := by
  calc exec .periodOutputEdge s = board (dispatch _ _) s := rfl
    _ = _ := by
      rw [board_next _ h, run_dispatch_stepped _ hf rfl, hf.2, run_all_cons, run_all_cons, run_all_nil]
      rfl

end

/-! ## Requests to the wheel (R53, R54) -/

theorem time_peep (st ev key : Nat) (s : State) : ((peep st ev key).run s).ctl.time = s.ctl.time := (side_peep st ev key s).time

theorem time_keepMax (r : Reg) (v : Nat) (s : State) : ((keepMax r v).run s).ctl.time = s.ctl.time := rfl

theorem time_when_inc (b : Bool) (r : Reg) (s : State) : ((Prog.when b (inc r)).run s).ctl.time = s.ctl.time := by
  cases b <;> rfl

/-- The event that a granted request puts on the wheel; its index and generation are free (log entry 9). -/
def State.newEvent (s : State) (dom cls : Nat) (t : Target) (c : Consumer) : WEvent where
  idx := freshIdx (s.ctl.time.events.map (·.idx)) s.ctl.time.events.length (Config.freeValue s.ctl.free % wheelSize)
  gen := Config.freeValue (s.ctl.free + 1) % 4096
  dom := dom
  target := t.wt (s.wt dom)
  cls := cls
  seq := s.ctl.time.seq
  due := match t with
    | .full a now => if a ≤ now then some s.ctl.time.tick else none
    | _ => if wtDiff (t.wt (s.wt dom)) (s.wt dom) ≤ 0 then some s.ctl.time.tick else none
  consumer := c

theorem run_request_ok {s : State} {dom cls : Nat} {t : Target} {c : Consumer} (k : Nat → Nat → Prog)
    (h : s.wheelStatus dom cls t = ST.OK) : let e := s.newEvent dom cls t c
    ∃ u, (request dom cls t c k).run s = (k ST.OK (e.idx + 2 ^ 20 * e.gen)).run u ∧
      u.ctl.time = { s.ctl.time with seq := s.ctl.time.seq + 1, events := s.ctl.time.events ++ [e] } := by
  rw [request, run_look]
  dsimp only
  rw [if_neg (not_not.2 h), run_all_cons, run_all_cons, run_all_cons, run_all_cons, run_all_nil]
  refine ⟨_, rfl, ?_⟩
  rw [time_peep, time_keepMax, upd_ctl]
  rfl

theorem run_request_refused {s : State} {dom cls : Nat} {t : Target} {c : Consumer} (k : Nat → Nat → Prog)
    (h : s.wheelStatus dom cls t ≠ ST.OK) : ∃ u, (request dom cls t c k).run s = (k (s.wheelStatus dom cls t) 0).run u ∧
      u.ctl.time = s.ctl.time := by
  rw [request, run_look]
  dsimp only
  rw [if_pos h, run_all_cons, run_all_cons, run_all_cons, run_all_cons, run_all_nil]
  exact ⟨_, rfl, by rw [time_peep, time_when_inc, time_when_inc]⟩

theorem wheelStatus_eq (s : State) (dom cls : Nat) (t : Target) : s.wheelStatus dom cls t =
    if s.domState dom = 1 ∨ s.domState dom = 2 then ST.DOMAIN_ARMED
    else if s.inHorizon dom t = false then ST.OUT_OF_HORIZON
    else if s.wheelRoom cls = false then ST.WHEEL_FULL else ST.OK := by
  simp only [State.wheelStatus, Bool.not_eq_true']

theorem wheelStatus_lt (s : State) (dom cls : Nat) (t : Target) : s.wheelStatus dom cls t < 2 ^ 16 := by
  rw [wheelStatus_eq]
  split_ifs <;> decide

/-- A request's STATUS goes by what stands behind the registers, the domain's STATE and WHEEL_CFG. -/
theorem wheelStatus_congr {s u : State} {dom : Nat} (hctl : u.ctl = s.ctl) (hst : u.domState dom = s.domState dom)
    (hcfg : u.rd WHEEL.WHEEL_CFG = s.rd WHEEL.WHEEL_CFG) (cls : Nat) (t : Target) : u.wheelStatus dom cls t = s.wheelStatus dom cls t := by
  have hwt : u.wt dom = s.wt dom := by rw [State.wt, State.dom, hctl, State.wt, State.dom]
  have hlate : u.lateLimit = s.lateLimit := by rw [State.lateLimit, State.fd, hcfg, State.lateLimit, State.fd]
  have hmax : u.class1Max = s.class1Max := by rw [State.class1Max, State.fd, hcfg, State.class1Max, State.fd]
  have hhor : u.inHorizon dom t = s.inHorizon dom t := by
    unfold State.inHorizon
    rw [hlate, hwt]
  have hroom : u.wheelRoom cls = s.wheelRoom cls := by rw [State.wheelRoom, State.class1, hmax, hctl, State.wheelRoom, State.class1]
  rw [wheelStatus_eq, wheelStatus_eq, hst, hhor, hroom]

theorem wt_wr (s : State) (r : Reg) (v n : Nat) : ((wr r v).run s).wt n = s.wt n := rfl

/-- A register of `w` bits after hardware writes it. -/
theorem rd_wr_mod (s : State) (r : Reg) (v : Nat) {w : Nat} (hw : w ≤ 32) (hm : maskAt .live r.page r.off = 2 ^ w - 1) :
    ((wr r v).run s).rd r = v % 2 ^ w := by
  rw [rd_wr_same, RKey.mask, hm, BitVec.toNat_and, BitVec.toNat_ofNat, BitVec.toNat_ofNat, Nat.mod_eq_of_lt (a := 2 ^ w - 1),
    Nat.and_two_pow_sub_one_eq_mod, Nat.mod_mod_of_dvd _ (Nat.pow_dvd_pow 2 hw)]
  exact lt_of_lt_of_le (Nat.sub_lt (Nat.two_pow_pos w) one_pos) (Nat.pow_le_pow_right (by norm_num) hw)

/-! ## GO and CANCEL (R53, R54, R58) -/

section

variable {s : State} {a : Accessor} {v : Word}

/-- The target that GO asks for. -/
def goTarget (s : State) (v : Word) : Target :=
  if tbit v.toNat 4 then .rel (s.rdW WHEEL.SCHED_TARGET % 2 ^ 48) else .abs (s.rdW WHEEL.SCHED_TARGET % 2 ^ 48)

/-- What GO does with its request's outcome. -/
def goAnswer (st h : Nat) : Prog := doAll [wr WHEEL.SCHED_STATUS st,
  Prog.when (decide (st = ST.OK)) (ctl fun c => { c with time.handle := h })]

/-- The state in which GO makes its request. -/
def goState (s : State) (v : Word) : State := (wr WHEEL.SCHED_CTL (v.toNat % 2 ^ 31)).run s

theorem exec_go (hs : s.serves a Pg.wheel) : exec (.go a v) s = .next ((request (field v.toNat 2 0) (field v.toNat 8 8) (goTarget s v)
    (.swEvent (field v.toNat 27 16)) goAnswer).run (goState s v)) := by
  calc exec (.go a v) s = done (byWriter a Pg.wheel 0x68 _) s := rfl
    _ = _ := by
      rw [byWriter_next _ _ hs, run_look, run_all_cons, run_all_cons, run_all_nil]
      rfl

theorem wheelStatus_goState (dom cls : Nat) (t : Target) : (goState s v).wheelStatus dom cls t = s.wheelStatus dom cls t := by
  have hrd : ∀ r : Reg, r ≠ WHEEL.SCHED_CTL → (goState s v).rd r = s.rd r := fun r => rd_wr_other s _
  have hst : (goState s v).domState dom = s.domState dom := by
    rw [State.domState, State.fd, hrd _ (by simp), State.domState, State.fd]
  exact wheelStatus_congr (u := goState s v) (ctl_wr s _ _) hst (hrd WHEEL.WHEEL_CFG (by simp)) cls t

theorem rd_goAnswer (st h : Nat) (hst : st < 2 ^ 16) (u : State) : ((goAnswer st h).run u).rd WHEEL.SCHED_STATUS = st := by
  have hm : maskAt .live WHEEL.SCHED_STATUS.page WHEEL.SCHED_STATUS.off = 2 ^ 16 - 1 := by decide +kernel
  have hrd := rd_wr_mod u WHEEL.SCHED_STATUS st (by norm_num) hm
  rw [Nat.mod_eq_of_lt hst] at hrd
  rw [goAnswer, run_all_cons, run_all_cons, run_all_nil, run_when]
  split
  · rw [rd_upd, hrd]
  · exact hrd

theorem time_goAnswer_ok (h : Nat) (u : State) : ((goAnswer ST.OK h).run u).ctl.time = { u.ctl.time with handle := h } := by
  rw [goAnswer, decide_eq_true rfl, when_true, run_all_cons, run_all_cons, run_all_nil, upd_ctl, ctl_wr]

theorem exec_go_ok (hs : s.serves a Pg.wheel) (hst : s.wheelStatus (field v.toNat 2 0) (field v.toNat 8 8) (goTarget s v) = ST.OK) :
    ∃ t, exec (.go a v) s = .next t ∧ t.rd WHEEL.SCHED_STATUS = ST.OK ∧
      ∃ e, t.ctl.time.events = s.ctl.time.events ++ [e] ∧ e.dom = field v.toNat 2 0 ∧ e.cls = field v.toNat 8 8 ∧
        e.consumer = .swEvent (field v.toNat 27 16) ∧ e.target = (goTarget s v).wt (s.wt (field v.toNat 2 0)) ∧
        t.ctl.time.handle = e.idx + 2 ^ 20 * e.gen := by
  obtain ⟨u, hrun, ht⟩ := run_request_ok (c := .swEvent (field v.toNat 27 16)) goAnswer ((wheelStatus_goState _ _ _).trans hst)
  rw [exec_go hs, hrun]
  refine ⟨_, rfl, rd_goAnswer _ _ (by norm_num) u,
    (goState s v).newEvent (field v.toNat 2 0) (field v.toNat 8 8) (goTarget s v) (.swEvent (field v.toNat 27 16)), ?_, rfl, rfl, rfl,
    congrArg (fun n => (goTarget s v).wt n) (wt_wr ..), ?_⟩
  · rw [time_goAnswer_ok, ht, goState, ctl_wr]
  · rw [time_goAnswer_ok]

theorem exec_go_refused (hs : s.serves a Pg.wheel)
    (hst : s.wheelStatus (field v.toNat 2 0) (field v.toNat 8 8) (goTarget s v) ≠ ST.OK) :
    ∃ t, exec (.go a v) s = .next t ∧
      t.rd WHEEL.SCHED_STATUS = s.wheelStatus (field v.toNat 2 0) (field v.toNat 8 8) (goTarget s v) ∧ t.ctl.time = s.ctl.time := by
  have heq := wheelStatus_goState (s := s) (v := v) (field v.toNat 2 0) (field v.toNat 8 8) (goTarget s v)
  obtain ⟨u, hrun, ht⟩ := run_request_refused (c := .swEvent (field v.toNat 27 16)) goAnswer (heq ▸ hst)
  rw [exec_go hs, hrun, heq]
  refine ⟨_, rfl, rd_goAnswer _ _ (wheelStatus_lt ..) u, ?_⟩
  rw [goAnswer, decide_eq_false hst, when_false, run_all_cons, run_all_cons, run_all_nil, run_skip, ctl_wr, ht, goState, ctl_wr]

/-- The event that a handle names (R54, R58). -/
def handleOf (v : Word) (e : WEvent) : Bool := decide (e.idx = v.toNat % 2 ^ 20) && decide (e.gen = v.toNat / 2 ^ 20)

theorem handleOf_iff {e : WEvent} : handleOf v e = true ↔ e.idx = v.toNat % 2 ^ 20 ∧ e.gen = v.toNat / 2 ^ 20 := by
  rw [handleOf, Bool.and_eq_true, decide_eq_true_iff, decide_eq_true_iff]

theorem exec_cancel (hs : s.serves a Pg.wheel) : exec (.cancel a v) s = .next ((doAll [
    wr WHEEL.CANCEL_RESULT (b2n (s.ctl.time.events.any (handleOf v))),
    ctl fun c => { c with time.events := c.time.events.filter fun e => !handleOf v e }]).run s) := by
  have hidx : field v.toNat 19 0 = v.toNat % 2 ^ 20 := by simp [field]
  have hgen : field v.toNat 31 20 = v.toNat / 2 ^ 20 := by
    have := v.isLt
    simp only [field]
    omega
  calc exec (.cancel a v) s = done (byWriter a Pg.wheel 0x74 _) s := rfl
    _ = _ := by
      rw [byWriter_next _ _ hs, run_look, hidx, hgen]
      rfl

theorem cancel_cancels (hs : s.serves a Pg.wheel) : ∃ t, exec (.cancel a v) s = .next t ∧
    t.ctl.time.events = s.ctl.time.events.filter (fun e => !handleOf v e) ∧
    (t.rd WHEEL.CANCEL_RESULT = 1 ↔ ∃ e ∈ s.ctl.time.events, e.idx = v.toNat % 2 ^ 20 ∧ e.gen = v.toNat / 2 ^ 20) ∧
    (∀ b r, (b, r) ≠ (.live, WHEEL.CANCEL_RESULT) → t.copy b r = s.copy b r) ∧ t.mem = s.mem := by
  have hm : maskAt .live WHEEL.CANCEL_RESULT.page WHEEL.CANCEL_RESULT.off = 2 ^ 1 - 1 := by decide +kernel
  refine ⟨_, exec_cancel hs, ?_, ?_, fun b r h => ?_, ?_⟩
  · rw [run_all_cons, run_all_cons, run_all_nil, upd_ctl, ctl_wr]
  · rw [run_all_cons, run_all_cons, run_all_nil, rd_upd, rd_wr_mod _ _ _ (by norm_num) hm]
    simp only [← handleOf_iff, ← List.any_eq_true]
    cases s.ctl.time.events.any (handleOf v) <;> simp [b2n]
  · rw [run_all_cons, run_all_cons, run_all_nil, copy_upd, copy_wr_other _ _ h]
  · rw [run_all_cons, run_all_cons, run_all_nil, upd_mem, mem_wr]

end

theorem wheelRequests : Says.WheelRequests := by
  intro s a v
  exact ⟨wheelStatus_eq _ _ _ _, exec_go_ok, exec_go_refused, cancel_cancels, fun _ _ => exec_softwareEventFire_due,
    fun _ _ => exec_softwareEventFire_stepped⟩

end Sys2Proof.Machine
end

section
/-! PROOF. Pulse inputs and outputs and the 10 MHz reference (02_time_and_wheel). -/

namespace Sys2Proof.Machine

/-! ## Pulse inputs and outputs (R65, R66) -/

section

variable {s : State} {a : Accessor} {m : Fin 4} {v : Word}

theorem exec_ppsInEdge_room (h : s.powered) (hen : s.bit (TIME.PPS_IN_CTL m.val) 0 = true) (hroom : (s.pps m.val).length < 4) :
    exec (.ppsInEdge m) s = .next ((doAll [setPps m.val (s.pps m.val ++
      [((s.dom (s.fd (TIME.PPS_IN_CTL m.val) 6 4)).sec, (s.dom (s.fd (TIME.PPS_IN_CTL m.val) 6 4)).ns)]),
      int Pg.time 0 (24 + m.val)]).run s) := by
  calc exec (.ppsInEdge m) s = board _ s := rfl
    _ = _ := by
      rw [board_next _ h, run_look, hen, when_true]
      dsimp only
      rw [if_pos hroom]

theorem exec_ppsInEdge_full (h : s.powered) (hen : s.bit (TIME.PPS_IN_CTL m.val) 0 = true) (hfull : 4 ≤ (s.pps m.val).length) :
    exec (.ppsInEdge m) s = .next ((wrF (TIME.PPS_IN_CTL m.val) 31 24
      (satAdd 8 (s.fd (TIME.PPS_IN_CTL m.val) 31 24) 1)).run s) := by
  calc exec (.ppsInEdge m) s = board _ s := rfl
    _ = _ := by
      rw [board_next _ h, run_look, hen, when_true]
      dsimp only
      rw [if_neg (not_lt.2 hfull)]

theorem exec_ppsCapNsRead_latched {w : Nat} (ho : s.open a Pg.time = true) (hl : tget none s.ctl.time.ppsLatch m.val = some w) :
    exec (.ppsCapNsRead a m) s = .next ((doAll [answer w,
      ctl fun c => { c with time.ppsLatch := nset none c.time.ppsLatch m.val none },
      Prog.when (tbit w 31) (setPps m.val (s.pps m.val).tail)]).run s) := by
  calc exec (.ppsCapNsRead a m) s = done (byReader a Pg.time _) s := rfl
    _ = _ := by rw [byReader_next _ ho, run_look, hl]

theorem exec_ppsCapNsRead_head (ho : s.open a Pg.time = true) (hl : tget none s.ctl.time.ppsLatch m.val = none) :
    exec (.ppsCapNsRead a m) s = .next ((answer (s.rd (TIME.PPS_IN_CAP_NS m.val))).run s) := by
  calc exec (.ppsCapNsRead a m) s = done (byReader a Pg.time _) s := rfl
    _ = _ := by rw [byReader_next _ ho, run_look, hl]

/-- Which of the bits that OUT_CTL's write and its event need are implemented. -/
theorem ppsOutCtl_mask (m : Fin 4) :
    tbit (maskAt .live (TIME.PPS_OUT_CTL m.val).page (TIME.PPS_OUT_CTL m.val).off) 0 = true ∧
    tbit (maskAt .live (TIME.PPS_OUT_CTL m.val).page (TIME.PPS_OUT_CTL m.val).off) 9 = true := by
  revert m; decide +kernel

/-- The state in which a write of OUT_CTL schedules (R66): CTL is written and the output has no event. -/
def ppsOutState (m : Nat) (v : Word) (s : State) : State := (doAll [
  wrF (TIME.PPS_OUT_CTL m) 8 0 (v.toNat % 512 &&& 0x171), cancelFor (fun c => decide (c = .periodOut m))]).run s

theorem bit_ppsOutState : (ppsOutState m.val v s).bit (TIME.PPS_OUT_CTL m.val) 0 = tbit v.toNat 0 := by
  have h0 : tbit 0x171 0 = true := by decide
  have hlow : tbit (v.toNat % 512) 0 = tbit v.toNat 0 := tbit_mod (n := 9) (by norm_num)
  rw [ppsOutState, run_all_cons, run_all_cons, run_all_nil, State.bit, cancelFor, rd_upd, wrF, run_look,
    tbit_rd_wr _ _ _ (by norm_num), (ppsOutCtl_mask m).1, tbit_setField, if_pos (by norm_num), Nat.sub_zero, tbit_and,
    hlow, h0, Bool.and_true, Bool.and_true]

/-- In a file of its own this statement's match is compiled apart from the model's, and `rfl` sees that they agree. -/
theorem exec_ppsOutEnable_on (hs : s.serves a Pg.time) (hv : tbit v.toNat 0 = true) :
    exec (.ppsOutEnable a m v) s = .next ((doAll [
      wrF (TIME.PPS_OUT_CTL m.val) 8 0 (v.toNat % 512 &&& 0x171), cancelFor (fun c => decide (c = .periodOut m.val)),
      get fun u => match u.ppsFirst m.val with
        | some k => schedulePps m.val k
        | none => .skip]).run s) := by
  have hbit := (bit_ppsOutState (s := s) (m := m)).trans hv
  rw [ppsOutState, run_all_cons, run_all_cons, run_all_nil] at hbit
  calc exec (.ppsOutEnable a m v) s = done (byWriter a Pg.time (0x500 + 32 * m.val) _) s := rfl
    _ = _ := by
      rw [byWriter_next _ _ hs, hv, Bool.not_true, when_false, run_all_cons, run_all_cons, run_all_cons, run_all_cons, run_all_nil,
        run_skip, run_look, hbit, when_true, run_all_cons, run_all_cons, run_all_cons, run_all_nil, run_look] <;> rfl

theorem exec_ppsOutEnable_off (hs : s.serves a Pg.time) (hv : tbit v.toNat 0 = false) :
    ∃ t, exec (.ppsOutEnable a m v) s = .next t ∧
      t.bit (TIME.PPS_OUT_CTL m.val) 0 = false ∧ t.bit (TIME.PPS_OUT_CTL m.val) 9 = false ∧
      t.ctl.time.events = s.ctl.time.events.filter (fun e => !decide (e.consumer = .periodOut m.val)) := by
  obtain ⟨hm0, hm9⟩ := ppsOutCtl_mask m
  have hbit := (bit_ppsOutState (s := s) (m := m)).trans hv
  have hbit' : ((wrB (TIME.PPS_OUT_CTL m.val) 9 false).run (ppsOutState m.val v s)).bit (TIME.PPS_OUT_CTL m.val) 0 = false := by
    rw [bit_wrB_bit_other _ _ _ (by norm_num) (by norm_num) hm0, hbit]
  have hev : (ppsOutState m.val v s).ctl.time.events =
      s.ctl.time.events.filter (fun e => !decide (e.consumer = .periodOut m.val)) := by
    rw [ppsOutState, run_all_cons, run_all_cons, run_all_nil, cancelFor, upd_ctl, wrF, run_look, ctl_wr]
  refine ⟨(wrB (TIME.PPS_OUT_CTL m.val) 9 false).run (ppsOutState m.val v s), ?_, hbit', bit_wrB_same _ _ _ (by norm_num) hm9, ?_⟩
  · calc exec (.ppsOutEnable a m v) s = done (byWriter a Pg.time (0x500 + 32 * m.val) _) s := rfl
      _ = _ := by
        rw [ppsOutState, run_all_cons, run_all_cons, run_all_nil] at hbit' ⊢
        rw [byWriter_next _ _ hs, hv, Bool.not_false, when_true, run_all_cons, run_all_cons, run_all_cons, run_all_cons,
          run_all_nil, run_look, hbit', when_false, run_skip]
  · rw [wrB, wrF, run_look, ctl_wr, hev]

theorem exec_ppsOutInactiveEdge (h : s.powered) (hlev : tget false s.ctl.time.ppsOutLevel m.val = true)
    (hoff : tget 0 s.ctl.time.ppsOffAt m.val * 2 ^ 24 ≤ (s.dom (s.fd (TIME.PPS_OUT_CTL m.val) 6 4)).units) :
    exec (.ppsOutInactiveEdge m) s = .next ((drivePps m.val false).run s) := by
  calc exec (.ppsOutInactiveEdge m) s = board _ s := rfl
    _ = _ := by rw [board_next _ h, run_look, hlev, Bool.true_and, decide_eq_true hoff, when_true]

/-- What driving an output does: its level, and its pin as ACTIVE_LOW gives it. -/
theorem run_drivePps (m : Nat) (on : Bool) (s : State) :
    tget false ((drivePps m on).run s).ctl.time.ppsOutLevel m = on ∧
    ((drivePps m on).run s).ctl.out = s.ctl.out ++ [.pin 0 m (xor on (s.bit (TIME.PPS_OUT_CTL m) 8))] ∧
    ((drivePps m on).run s).reg = s.reg ∧ ((drivePps m on).run s).mem = s.mem :=
  ⟨tget_fset_same .., rfl, rfl, rfl⟩

end

/-! ## The first edge of an output (R66) -/

theorem ppsAt_eq (s : State) (m k : Nat) : s.ppsAt m k * 2 ^ 24 = s.ppsAt m 0 * 2 ^ 24 + k * (s.ppsPeriod m * 2 ^ 24) := by
  simp only [State.ppsAt]
  ring

theorem le_ceilDiv_mul (a : Nat) {b : Nat} (hb : 0 < b) : a ≤ ceilDiv a b * b := by
  have := Nat.lt_div_mul_add hb (a := a + b - 1)
  rw [ceilDiv]
  omega

theorem mul_lt_of_lt_ceilDiv {a b j : Nat} (hb : 0 < b) (hj : j < ceilDiv a b) : j * b < a := by
  have := (Nat.le_div_iff_mul_le hb).1 hj
  rw [Nat.succ_mul] at this
  omega

theorem ppsFirst_first {s : State} {m k : Nat} (h : s.ppsFirst m = some k) :
    (s.dom (s.fd (TIME.PPS_OUT_CTL m) 6 4)).units ≤ s.ppsAt m k * 2 ^ 24 ∧
    ∀ j, j < k → s.ppsAt m j * 2 ^ 24 < (s.dom (s.fd (TIME.PPS_OUT_CTL m) 6 4)).units := by
  unfold State.ppsFirst at h
  generalize (s.dom (s.fd (TIME.PPS_OUT_CTL m) 6 4)).units = now at h ⊢
  dsimp only at h
  split_ifs at h with hnow hper
  · cases h
    exact ⟨hnow, fun _ hj => absurd hj (Nat.not_lt_zero _)⟩
  · cases h
    have hb : 0 < s.ppsPeriod m * 2 ^ 24 := Nat.mul_pos (Nat.pos_of_ne_zero hper) (Nat.two_pow_pos _)
    refine ⟨?_, fun j hj => ?_⟩
    · have := le_ceilDiv_mul (now - s.ppsAt m 0 * 2 ^ 24) hb
      rw [ppsAt_eq]
      omega
    · have := mul_lt_of_lt_ceilDiv hb hj
      rw [ppsAt_eq]
      omega

/-! ## The 10 MHz reference (R67) -/

section

variable {s : State} (h : s.powered) (hen : s.bit TIME.REF10M_CTL 0 = true)
include h hen

theorem exec_ref10mMeasure (v : Word) :
    exec (.ref10mMeasure v) s = .next ((doAll [wr TIME.REF10M_MEAS v.toNat, wr TIME.REF10M_STATUS 2]).run s) := by
  calc exec (.ref10mMeasure v) s = board _ s := rfl
    _ = _ := by rw [board_next _ h, run_look, hen, when_true]

theorem exec_ref10mLost :
    exec .ref10mLost s = .next ((doAll [wrB TIME.REF10M_STATUS 0 true, int Pg.time 0 28]).run s) := by
  calc exec .ref10mLost s = board _ s := rfl
    _ = _ := by rw [board_next _ h, run_look, hen, when_true]

end

theorem pulsesAndReference : Says.PulsesAndReference := by
  intro s a m v
  refine ⟨exec_ppsInEdge_room, exec_ppsInEdge_full, fun _ => exec_ppsCapNsRead_latched, exec_ppsCapNsRead_head,
    exec_ppsOutEnable_on, exec_ppsOutEnable_off, fun _ => ppsFirst_first, fun _ => exec_periodOutputEdge_due,
    fun _ => exec_periodOutputEdge_stepped, fun h hlev hoff => ?_, fun h hen => ⟨exec_ref10mMeasure h hen v, exec_ref10mLost h hen⟩⟩
  obtain ⟨hlow, hout, hreg, hmem⟩ := run_drivePps m.val false s
  exact ⟨_, exec_ppsOutInactiveEdge h hlev hoff, hlow, by rw [hout, Bool.false_xor], hreg, hmem⟩

/-- Settles O22: each guard of a pulse lets its effect through, an output's first edge is `ceilDiv`'s, and a request of the wheel answers
by `wheelStatus` and adds the one event. -/
theorem pulsesAndWheelRequests : Obligations.PulsesAndWheelRequests := by
  unfold Obligations.PulsesAndWheelRequests
  exact ⟨pulsesAndReference, wheelRequests⟩

end Sys2Proof.Machine
end

section
/-! PROOF. The copies of register pages (03_register_pages): selectors, COMMIT, DISCARD, COMMIT of ALL, and the first error. -/

namespace Sys2Proof.Machine

/-! ## Selectors (R73) -/

theorem Accessor.code_inj {a b : Accessor} (h : a.code = b.code) : a = b := by
  cases a <;> cases b <;> simp only [Accessor.code] at h
  case port.port p q => rw [Fin.ext h]
  case port.core p c => have := p.isLt; omega
  case core.port c p => have := p.isLt; omega
  case core.core c d => rw [Fin.ext (show c.val = d.val by omega)]

/-- Where no selector register changes, no accessor's selected copy does. -/
theorem instSel_congr {s t : State} (h : ∀ r, t.copy .selector r = s.copy .selector r) (a : Accessor) (page : Nat) :
    t.instSel a page = s.instSel a page := by simp only [State.instSel, h]

section Selectors

variable {s : State} {a : Accessor} {page : Nat}

theorem instSel_setCopy_same (hw : windowed page = true) (v : Nat) :
    ((setCopy .selector ⟨page, 0x40, a.code⟩ (v &&& maskAt .live page 0x40)).run s).instSel a page =
      (v % 2 ^ 32) &&& maskAt .live page 0x40 % 2 ^ 32 := by
  have hm : maskAt .selector page 0x40 = maskAt .live page 0x40 := rfl
  simp only [State.instSel, hw, if_true, copy_setCopy_same, RKey.mask, hm, BitVec.toNat_and, BitVec.toNat_ofNat,
    Nat.and_mod_two_pow, Nat.and_assoc, Nat.and_self]

theorem instSel_setCopy_other (n : Nat) {b : Accessor} {p : Nat} (h : b ≠ a ∨ p ≠ page) :
    ((setCopy .selector ⟨page, 0x40, a.code⟩ n).run s).instSel b p = s.instSel b p := by
  have hne : ¬ (Bank.selector = .selector ∧ (⟨p, 0x40, b.code⟩ : Reg) = ⟨page, 0x40, a.code⟩) := by
    rintro ⟨-, e⟩
    obtain ⟨hp, -, hc⟩ := Reg.mk.injEq .. ▸ e
    exact h.elim (· (Accessor.code_inj hc)) (· hp)
  simp only [State.instSel, copy_setCopy_other _ _ _ _ _ _ hne]

/-- An error report moves no selector. -/
theorem instSel_err (p i c r info : Nat) (s : State) (b : Accessor) (q : Nat) :
    ((err p i c r info).run s).instSel b q = s.instSel b q :=
  instSel_congr (fun _ => (side_err ..).copy _ _ fun h => Bank.noConfusion h.1) b q

end Selectors

theorem exec_instSelWrite {s : State} {a : Accessor} {page : Fin 41} (hw : windowed page.val = true) (hs : s.serves a page.val) (v : Word) :
    exec (.instSelWrite a page v) s = .next ((
      if v.toNat &&& maskAt .live page.val 0x40 < instCount page.val then
        setCopy .selector ⟨page.val, 0x40, a.code⟩ (v.toNat &&& maskAt .live page.val 0x40)
      else get fun s => err page.val (s.instSel a page.val) EC.ACCESS RS.BAD_INST (bar0 page.val 0x40)).run s) := by
  calc exec (.instSelWrite a page v) s = done (Prog.when (windowed page.val) (selectInst a page.val v.toNat)) s := rfl
    _ = _ := by rw [hw, when_true, selectInst, byWriter_next _ _ hs]

theorem instSel_mask_lt : ∀ page : Fin 41, maskAt .live page.val 0x40 < 2 ^ 32 := by decide +kernel

/-- Settles O9: the selector written is the accessor's own, and a report writes none. -/
theorem eachAccessorSelectsForItself : Obligations.EachAccessorSelectsForItself := by
  unfold Obligations.EachAccessorSelectsForItself Says.EachAccessorSelectsForItself
  intro s a page v hw hs
  refine ⟨fun hn => ⟨_, (exec_instSelWrite hw hs v).trans (by rw [if_pos hn]), ?_, fun b p h => instSel_setCopy_other _ h,
    fun r => copy_setCopy_other _ _ _ _ _ _ (by simp), rfl, rfl⟩,
    fun hn => ⟨_, (exec_instSelWrite hw hs v).trans (by rw [if_neg (Nat.not_lt.2 hn)]; rfl), rfl, instSel_err _ _ _ _ _ s⟩⟩
  rw [instSel_setCopy_same hw, Nat.mod_eq_of_lt v.isLt, Nat.mod_eq_of_lt (instSel_mask_lt page)]

/-! ## COMMIT and DISCARD (R77 to R82) -/

/-- The three sets of staged registers. -/
def Bank.isSet (b : Bank) : Prop := b = .staged ∨ b = .pending ∨ b = .committed

theorem maskAt_set {b : Bank} (hb : b.isSet) {page off : Nat} {row : RegRow} {h : Bool} (e : rowAt page off = some (row, h)) :
    maskAt b page off = halfOf h (row.st ||| row.rw) := by
  rcases hb with rfl | rfl | rfl <;> simp [maskAt, e]

theorem resetKey_set {b : Bank} (hb : b.isSet) (page inst off : Nat) :
    RKey.reset ⟨b, page, inst, off⟩ = BitVec.ofNat 32 (resetAt page off) := by
  rcases hb with rfl | rfl | rfl <;> rfl

theorem stagedOff_eq_true {page off : Nat} : stagedOff page off = true ↔
    ∃ row h, rowAt page off = some (row, h) ∧ row.st ≠ 0 := by
  unfold stagedOff
  cases rowAt page off with
  | none => simp
  | some x => obtain ⟨row, h⟩ := x; simp

/-- Where a row has staged bits, its reset value lies on the bits that the sets keep. -/
theorem staged_rows_reset : ∀ page : Fin 41, ∀ r ∈ pageRows page.val, r.st ≠ 0 → r.reset &&& (r.st ||| r.rw) = r.reset := by
  decide +kernel

theorem header_not_staged : ∀ r ∈ rowsHeader, r.st = 0 := by decide

theorem staged_row_reset {page : Fin 41} {off : Nat} {row : RegRow} {h : Bool} (e : rowAt page.val off = some (row, h)) (hst : row.st ≠ 0) :
    row.reset &&& (row.st ||| row.rw) = row.reset := by
  unfold rowAt at e
  split at e
  · exact absurd (header_not_staged row (findRow_mem e).1) hst
  · exact staged_rows_reset page row (findRow_mem e).1 hst

theorem monReset_set_bits (m : Fin 8) : monReset m.val &&& maskAt .staged 40 (0x100 + 0x10 * m.val) = monReset m.val := by
  revert m; decide +kernel

theorem class_not_staged (c : Fin 16) : stagedOff 37 (0x100 + 0x10 * c.val) = false := by
  revert c; decide +kernel

/-- What a staged register resets to lies on the bits that the sets keep. -/
theorem resetAt_and_set_mask {page : Fin 41} {off : Nat} (h : stagedOff page.val off = true) :
    resetAt page.val off &&& maskAt .staged page.val off = resetAt page.val off := by
  unfold resetAt
  split
  next c =>
    obtain ⟨hp, h1, h2, h3⟩ := c
    have ho : off = 0x100 + 0x10 * ((off - 0x100) / 0x10) := by omega
    have := monReset_set_bits ⟨(off - 0x100) / 0x10, by omega⟩
    rw [hp]
    simpa only [← ho] using this
  split
  next c =>
    obtain ⟨hp, h1, h2, h3⟩ := c
    have ho : off = 0x100 + 0x10 * ((off - 0x100) / 0x10) := by omega
    have := class_not_staged ⟨(off - 0x100) / 0x10, by omega⟩
    rw [hp, ho, this] at h
    cases h
  obtain ⟨row, hi, e, hst⟩ := stagedOff_eq_true.1 h
  simp only [e, maskAt_set (.inl rfl) e, halfOf_and, staged_row_reset e hst]

/-- A copy that no entry lists reads its reset value. -/
theorem copy_of_not_mem_bankOffs {s : State} {b : Bank} {page inst off : Nat} (h : off ∉ s.bankOffs b page inst) :
    s.copy b ⟨page, off, inst⟩ = (RKey.reset ⟨b, page, inst, off⟩).toNat := by
  rcases tget_eq_or_mem (RKey.reset ⟨b, page, inst, off⟩) s.reg ⟨b, page, inst, off⟩ with e | e
  · rw [State.copy, e]
  · exact absurd (List.mem_filterMap.2 ⟨_, e, by simp⟩) h

/-- A copy of a staged register, listed or not, holds only bits that the sets keep (R5). -/
theorem copy_and_set_mask {s : State} (hs : s.wf = true) {b : Bank} (hb : b.isSet) {page : Fin 41} {off : Nat}
    (hst : stagedOff page.val off = true) (inst : Nat) :
    BitVec.ofNat 32 (s.copy b ⟨page.val, off, inst⟩) &&& BitVec.ofNat 32 (maskAt .staged page.val off) =
      BitVec.ofNat 32 (s.copy b ⟨page.val, off, inst⟩) := by
  have hmask : RKey.mask ⟨b, page.val, inst, off⟩ = BitVec.ofNat 32 (maskAt .staged page.val off) := by
    obtain ⟨row, hi, e, -⟩ := stagedOff_eq_true.1 hst
    rw [RKey.mask, maskAt_set hb e, maskAt_set (.inl rfl) e]
  have hreg : ∀ e ∈ s.reg, e.2 &&& e.1.mask = e.2 := by
    simp only [State.wf, Regs.wf, Bool.and_eq_true, List.all_eq_true, decide_eq_true_eq] at hs
    exact hs.2.2
  rw [State.copy, BitVec.ofNat_toNat, BitVec.setWidth_eq]
  rcases tget_eq_or_mem (RKey.reset ⟨b, page.val, inst, off⟩) s.reg ⟨b, page.val, inst, off⟩ with e | e
  · rw [e, resetKey_set hb, ← BitVec.ofNat_and, resetAt_and_set_mask hst]
  · rw [← hmask]
    exact hreg _ e

/-- What a copy reads after one register at each of several offsets is written. -/
theorem copy_each_setCopy (b b' : Bank) (page inst : Nat) (l : List Nat) (f : Nat → Nat) (r : Reg) (s : State) :
    ((Prog.each l fun o => setCopy b ⟨page, o, inst⟩ (f o)).run s).copy b' r =
      if b' = b ∧ r.page = page ∧ r.inst = inst ∧ r.off ∈ l then
        (BitVec.ofNat 32 (f r.off) &&& RKey.mask ⟨b, page, inst, r.off⟩).toNat
      else s.copy b' r := by
  induction l generalizing s with
  | nil => simp
  | cons o l ih =>
    rw [run_each_cons, ih]
    by_cases hl : b' = b ∧ r.page = page ∧ r.inst = inst ∧ r.off ∈ l
    · rw [if_pos hl, if_pos ⟨hl.1, hl.2.1, hl.2.2.1, List.mem_cons_of_mem _ hl.2.2.2⟩]
    rw [if_neg hl]
    by_cases ho : b' = b ∧ r = ⟨page, o, inst⟩
    · obtain ⟨rfl, rfl⟩ := ho
      rw [copy_setCopy_same, if_pos ⟨rfl, rfl, rfl, List.mem_cons_self⟩]
    · rw [copy_setCopy_other _ _ _ _ _ _ ho, if_neg]
      rintro ⟨hb, hp, hi, hm⟩
      rcases List.mem_cons.1 hm with rfl | hm
      · exact ho ⟨hb, by cases r; simp_all⟩
      · exact hl ⟨hb, hp, hi, hm⟩

theorem each_setCopy_mem_ctl (b : Bank) (page inst : Nat) (l : List Nat) (f : Nat → Nat) (s : State) :
    ((Prog.each l fun o => setCopy b ⟨page, o, inst⟩ (f o)).run s).mem = s.mem ∧
      ((Prog.each l fun o => setCopy b ⟨page, o, inst⟩ (f o)).run s).ctl = s.ctl := by
  induction l generalizing s with
  | nil => exact ⟨rfl, rfl⟩
  | cons o l ih => exact ih _

section CopyBank

variable {s : State} {from_ to_ : Bank} {fi ti : Nat}

theorem mem_copyBank (page : Nat) : ((copyBank page from_ fi to_ ti).run s).mem = s.mem := (each_setCopy_mem_ctl ..).1

theorem ctl_copyBank (page : Nat) : ((copyBank page from_ fi to_ ti).run s).ctl = s.ctl := (each_setCopy_mem_ctl ..).2

/-- One set taking another changes that set of that copy alone. -/
theorem copy_copyBank_other (page : Nat) {b : Bank} {r : Reg} (h : b ≠ to_ ∨ r.page ≠ page ∨ r.inst ≠ ti) :
    ((copyBank page from_ fi to_ ti).run s).copy b r = s.copy b r := by
  rw [copyBank, run_look, copy_each_setCopy, if_neg (by tauto)]

/-- One set taking another: register by register, all staged bits. -/
theorem copy_copyBank {page : Fin 41} {off : Nat} (hs : s.wf = true) (hf : from_.isSet) (ht : to_.isSet)
    (hst : stagedOff page.val off = true) :
    ((copyBank page.val from_ fi to_ ti).run s).copy to_ ⟨page.val, off, ti⟩ = s.copy from_ ⟨page.val, off, fi⟩ := by
  have hmask : RKey.mask ⟨to_, page.val, ti, off⟩ = BitVec.ofNat 32 (maskAt .staged page.val off) := by
    obtain ⟨row, hi, e, -⟩ := stagedOff_eq_true.1 hst
    rw [RKey.mask, maskAt_set ht e, maskAt_set (.inl rfl) e]
  rw [copyBank, run_look, copy_each_setCopy]
  simp only [true_and, List.mem_filter, List.mem_dedup, List.mem_append, hst, and_true]
  split
  · rw [hmask, copy_and_set_mask hs hf hst, BitVec.toNat_ofNat, Nat.mod_eq_of_lt (copy_lt ..)]
  next h =>
    rw [not_or] at h
    rw [copy_of_not_mem_bankOffs h.1, copy_of_not_mem_bankOffs h.2, resetKey_set ht, resetKey_set hf]

end CopyBank

/-- Bytes of a space that become another's leave every register. -/
theorem copy_copySpace (from_ to_ inst len : Nat) (s : State) (b : Bank) (r : Reg) :
    ((copySpace from_ to_ inst len).run s).copy b r = s.copy b r := by
  rw [copySpace, run_look]
  exact (composes_keep (State.copy · b r)).each (fun _ _ _ => rfl) s

theorem ctl_copySpace (from_ to_ inst len : Nat) (s : State) : ((copySpace from_ to_ inst len).run s).ctl = s.ctl := by
  rw [copySpace, run_look]
  exact (composes_keep State.ctl).each (fun _ _ _ => rfl) s

theorem when_copySpace_keeps {c : Bool} (from_ to_ inst len : Nat) (s : State) :
    (∀ b r, ((Prog.when c (copySpace from_ to_ inst len)).run s).copy b r = s.copy b r) ∧
      ((Prog.when c (copySpace from_ to_ inst len)).run s).ctl = s.ctl := by
  cases c
  · exact ⟨fun _ _ => rfl, rfl⟩
  · exact ⟨copy_copySpace _ _ _ _ _, ctl_copySpace ..⟩

section Commits

variable {s : State} {a : Accessor} {page : Fin 41}

theorem exec_commitWrite (hs : s.serves a page.val) (v : Nat) (h : tbit v 1 = false) (h0 : tbit v 0 = true) :
    done (commitWrite a page.val v) s =
      .next ((if tbit v 2 && windowed page.val then commitEvery a page.val else commitOne a page.val).run s) := by
  rw [commitWrite, byWriter_next _ _ hs, run_look, h, h0]
  rfl

theorem exec_commit (hs : s.serves a page.val) (hst : hasStaged page.val = true) (hp : s.isPending page.val (s.instSel a page.val) = false)
    (hc : s.chapterRefuses page.val (s.instSel a page.val) (s.commitObj a page.val) = false) :
    exec (.commit a page) s = .next ((acceptCommit page.val (s.instSel a page.val) (s.commitObj a page.val)).run s) := by
  calc exec (.commit a page) s = done (commitWrite a page.val 1) s := rfl
    _ = .next ((commitOne a page.val).run s) := exec_commitWrite hs 1 rfl rfl
    _ = _ := by simp [commitOne, hst, hp, hc]

theorem exec_commit_pending (hs : s.serves a page.val) (hst : hasStaged page.val = true)
    (hp : s.isPending page.val (s.instSel a page.val) = true) :
    exec (.commit a page) s = .next ((refuseCommit page.val (s.instSel a page.val)).run s) := by
  calc exec (.commit a page) s = done (commitWrite a page.val 1) s := rfl
    _ = .next ((commitOne a page.val).run s) := exec_commitWrite hs 1 rfl rfl
    _ = _ := by simp [commitOne, hst, hp]

theorem exec_commitAll (hs : s.serves a page.val) (hw : windowed page.val = true) :
    exec (.commitAll a page) s = .next ((commitEvery a page.val).run s) := by
  calc exec (.commitAll a page) s = done (commitWrite a page.val 5) s := rfl
    _ = _ := by rw [exec_commitWrite hs 5 rfl rfl, hw]; rfl

theorem exec_discard (hs : s.serves a page.val) : exec (.discard a page false) s = .next ((discard a page.val).run s) := by
  calc exec (.discard a page false) s = done (commitWrite a page.val 2) s := rfl
    _ = _ := by rw [commitWrite, byWriter_next _ _ hs]; rfl

theorem exec_discard_both (hs : s.serves a page.val) :
    exec (.discard a page true) s = .next ((refuseCommit page.val (s.instSel a page.val)).run s) := by
  calc exec (.discard a page true) s = done (commitWrite a page.val 3) s := rfl
    _ = _ := by rw [commitWrite, byWriter_next _ _ hs]; rfl

/-- PENDING is a bit of the header's PAGE_STATUS on every page (R75). -/
theorem pageStatus_holds_pending (page : Nat) : tbit (maskAt .live page 0x0C) 0 = true := by
  have hm : maskAt .live page 0x0C = 0xFFFF000F := rfl
  rw [hm]
  rfl

theorem isPending_wrB (page inst : Nat) (b : Bool) :
    ((wrB ((HDR.PAGE_STATUS page).of inst) 0 b).run s).isPending page inst = b :=
  bit_wrB_same s _ b (by norm_num) (pageStatus_holds_pending page)

/-- A refused COMMIT touches live registers only. -/
theorem copy_refuseCommit (page inst : Nat) {b : Bank} (hb : b ≠ .live) (r : Reg) :
    ((refuseCommit page inst).run s).copy b r = s.copy b r := by
  rw [refuseCommit, run_all_cons, run_all_cons, run_all_nil, (side_err ..).copy _ _ fun h => hb h.1]
  exact copy_wr_other _ _ (by simp [hb])

theorem commitTakesTheStagedSet : Says.CommitTakesTheStagedSet := by
  intro s a page hwf hs hst hp hc
  set i := s.instSel a page.val
  set k := if objectPage page.val then s.commitObj a page.val else i
  set u := (copyBank page.val .staged i .pending k).run s
  -- what PENDING and the graph's copy add to `u`
  have hcopy : ∀ b r, b ≠ .live → ((acceptCommit page.val i (s.commitObj a page.val)).run s).copy b r = u.copy b r := fun b r hb => by
    simp only [acceptCommit, beginCommit, run_all_cons, run_all_nil, (when_copySpace_keeps ..).1]
    exact copy_wr_other _ _ (by simp [hb])
  refine ⟨_, exec_commit hs hst hp hc, ?_, fun o row h e hr => ?_, fun r => ⟨?_, ?_⟩, fun p o n h => ?_, fun h20 => ?_⟩
  · simp only [acceptCommit, beginCommit, run_all_cons, run_all_nil, State.isPending, State.bit, State.rd, (when_copySpace_keeps ..).1]
    exact isPending_wrB page.val i true
  · rw [hcopy _ _ (by decide)]
    exact copy_copyBank hwf (.inl rfl) (.inr (.inl rfl)) (stagedOff_eq_true.2 ⟨row, h, e, hr⟩)
  · rw [hcopy _ _ (by decide)]
    exact copy_copyBank_other _ (.inl (by decide))
  · rw [hcopy _ _ (by decide)]
    exact copy_copyBank_other _ (.inl (by decide))
  · rw [hcopy _ _ (by decide)]
    exact copy_copyBank_other _ (.inr (by simpa using h))
  · simp only [acceptCommit, h20, decide_false, when_false]
    exact mem_copyBank page.val

theorem discardRestoresTheCommittedSet : Says.DiscardRestoresTheCommittedSet := by
  intro s a page hwf hs
  refine ⟨_, exec_discard hs, ?_⟩
  simp only [discard, run_look, run_all_cons, run_all_nil, (when_copySpace_keeps ..).1, (when_copySpace_keeps ..).2, ctl_copyBank]
  refine ⟨fun o row h e hr => ?_, fun b r hb => ?_, fun p o n h => ?_, trivial, fun h20 => ?_⟩
  · exact copy_copyBank hwf (.inr (.inr rfl)) (.inl rfl) (stagedOff_eq_true.2 ⟨row, h, e, hr⟩)
  · exact copy_copyBank_other _ (.inl hb)
  · exact copy_copyBank_other _ (.inr (by simpa using h))
  · simp only [h20, decide_false, when_false, run_skip, mem_copyBank]

theorem commitAllBeginsEveryCopy : Says.CommitAllBeginsEveryCopy := by
  intro s a page hs hst hw hp hc
  rw [exec_commitAll hs hw]
  simp only [commitEvery, run_look, hst, hp, hc, Bool.not_true, Bool.false_eq_true, if_false]

end Commits

/-- Settles O12: each command is the copy of one set to another, beside PENDING and the graph of the PARSE page. -/
theorem commitsTakeAndDiscardsRestore : Obligations.CommitsTakeAndDiscardsRestore := by
  unfold Obligations.CommitsTakeAndDiscardsRestore
  exact ⟨commitTakesTheStagedSet, discardRestoresTheCommittedSet, commitAllBeginsEveryCopy⟩

/-- Settles O13: each of the three meets the refusal before anything else. -/
theorem refusedCommitOnlySetsCommitRej : Obligations.RefusedCommitOnlySetsCommitRej := by
  unfold Obligations.RefusedCommitOnlySetsCommitRej Says.RefusedCommitOnlySetsCommitRej
  intro s a page hs
  refine ⟨fun hst hp => exec_commit_pending hs hst hp, fun hst hw hp => ?_, exec_discard_both hs, fun b r hb => copy_refuseCommit _ _ hb r⟩
  rw [exec_commitAll hs hw]
  simp only [commitEvery, run_look, hst, hp, Bool.not_true, Bool.false_eq_true, if_false, if_true]
  rfl

/-! ## The first error (R75) -/

/-- Pages whose headers the report of an error on another page may write: those of the function, error and peephole pages. -/
def reportPages (p : Nat) : Prop := p = 13 ∨ p = 37 ∨ p = 39

/-- What an error report adds to the first error's record, in the state that it found (R479, R483). -/
def afterFirstError (p i c r info : Nat) (s : State) : Prog :=
  let report : Report := ⟨(s.rd ERR.SEQ + 1) % 2 ^ 32, c * 4096 + r, p, i % 65536, s.wt 0, info⟩
  doAll [inc (ERR.CLASS_CNT c), chain 23 (.peep 11 0 p), Prog.when (!s.bit (ERR.CLASS_CTL c) 0) (doAll [
    wr ERR.SEQ ((s.rd ERR.SEQ + 1) % 2 ^ 32),
    if s.ctl.health.intake.length < 64 then ctl fun x => { x with health.intake := x.health.intake ++ [report] }
    else doAll [loseReport report, chain 23 (.int Pg.err 0 4)]])]

theorem run_err (p i c r info : Nat) (s : State) :
    (err p i c r info).run s = (afterFirstError p i c r info s).run ((firstError p c r info).run s) := rfl

theorem side_afterFirstError (p i c r info : Nat) (s : State) : (afterFirstError p i c r info s).side reportPages := by
  have hpeep : (chain 23 (.peep 11 0 p)).side reportPages := side_chain _ _ _ (by simp [Sig.pages, reportPages])
  have hint : (chain 23 (.int Pg.err 0 4)).side reportPages := side_chain _ _ _ (by simp [Sig.pages, reportPages])
  refine side_cons (side_inc (by simp [sideReg])) (side_cons hpeep (side_cons (side_when fun _ =>
    side_cons (side_wr (by simp [sideReg])) (side_cons (side_ite (fun _ => ?_) fun _ => ?_) side_nil)) side_nil))
  · exact side_upd fun _ => ⟨_, _, _, _, _, _, _, _, rfl⟩
  · exact side_cons (side_loseReport _ (.inr (.inl rfl))) (side_cons hint side_nil)

/-- On a page other than these, the words of the first error read after a report as its record left them. -/
theorem rd_err_header (p i c r info : Nat) (s : State) {w : Reg} (hp : ¬ reportPages w.page) (ho : 0x20 ≤ w.off ∧ w.off < 0x30) :
    ((err p i c r info).run s).rd w = ((firstError p c r info).run s).rd w := by
  refine (side_afterFirstError p i c r info s _).copy .live w ?_
  unfold reportPages at *
  simp only [sideReg]
  omega

section FirstError

variable {s : State} {p c r info : Nat}

theorem bit_errFirst_inc : ((inc (HDR.ERR_COUNT p)).run s).bit (HDR.ERR_FIRST p) 31 = s.bit (HDR.ERR_FIRST p) 31 :=
  congrArg (tbit · 31) (rd_wr_other _ _ (by simp))

theorem run_firstError_first (h : s.bit (HDR.ERR_FIRST p) 31 = false) : (firstError p c r info).run s =
    (wr (HDR.ERR_FIRST_INFO p) (info % 2 ^ 32)).run ((wr (HDR.ERR_FIRST p) (2 ^ 31 + c * 4096 + r)).run ((inc (HDR.ERR_COUNT p)).run s)) := by
  rw [firstError, run_all_cons, run_all_cons, run_all_nil, run_look, bit_errFirst_inc, h]
  rfl

theorem run_firstError_later (h : s.bit (HDR.ERR_FIRST p) 31 = true) : (firstError p c r info).run s =
    (wr (HDR.ERR_OVF p) 1).run ((inc (HDR.ERR_COUNT p)).run s) := by
  rw [firstError, run_all_cons, run_all_cons, run_all_nil, run_look, bit_errFirst_inc, h]
  rfl

theorem rd_errCount_firstError :
    ((firstError p c r info).run s).rd (HDR.ERR_COUNT p) = min (s.rd (HDR.ERR_COUNT p) + 1) (2 ^ 32 - 1) := by
  rw [← rd_inc s (HDR.ERR_COUNT p) rfl]
  cases h : s.bit (HDR.ERR_FIRST p) 31
  · rw [run_firstError_first h, rd_wr_other _ _ (by simp), rd_wr_other _ _ (by simp)]
  · rw [run_firstError_later h, rd_wr_other _ _ (by simp)]

/-- ERR_FIRST holds a class, a reason of 12 bits and VALID. -/
theorem rd_wr_errFirst (u : State) :
    ((wr (HDR.ERR_FIRST p) (2 ^ 31 + EC.ACCESS * 4096 + RS.MISALIGNED)).run u).rd (HDR.ERR_FIRST p) =
      2 ^ 31 + EC.ACCESS * 4096 + RS.MISALIGNED := by
  have hm : RKey.mask ⟨.live, (HDR.ERR_FIRST p).page, (HDR.ERR_FIRST p).inst, (HDR.ERR_FIRST p).off⟩ = 0x8000FFFF := rfl
  rw [rd_wr_same, hm]
  rfl

theorem rd_wr_errOvf (u : State) : ((wr (HDR.ERR_OVF p) 1).run u).rd (HDR.ERR_OVF p) = 1 := by
  have hm : RKey.mask ⟨.live, (HDR.ERR_OVF p).page, (HDR.ERR_OVF p).inst, (HDR.ERR_OVF p).off⟩ = 1 := rfl
  rw [rd_wr_same, hm]
  rfl

theorem rd_wr_errFirstInfo (u : State) (h : info < 2 ^ 32) :
    ((wr (HDR.ERR_FIRST_INFO p) (info % 2 ^ 32)).run u).rd (HDR.ERR_FIRST_INFO p) = info := by
  have hm : RKey.mask ⟨.live, (HDR.ERR_FIRST_INFO p).page, (HDR.ERR_FIRST_INFO p).inst, (HDR.ERR_FIRST_INFO p).off⟩ = BitVec.allOnes 32 := rfl
  rw [rd_wr_same, hm, BitVec.and_allOnes, BitVec.toNat_ofNat, Nat.mod_mod, Nat.mod_eq_of_lt h]

section Report

variable (hp : ¬ reportPages p) (i : Nat)
include hp

theorem rd_errCount_err : ((err p i c r info).run s).rd (HDR.ERR_COUNT p) = min (s.rd (HDR.ERR_COUNT p) + 1) (2 ^ 32 - 1) := by
  rw [rd_err_header _ _ _ _ _ _ hp (by simp)]
  exact rd_errCount_firstError

/-- A report that finds VALID = 0 freezes its class, reason and INFO. -/
theorem err_freezes (hv : s.bit (HDR.ERR_FIRST p) 31 = false) (hinfo : info < 2 ^ 32) :
    let t := (err p i EC.ACCESS RS.MISALIGNED info).run s
    t.rd (HDR.ERR_FIRST p) = 2 ^ 31 + EC.ACCESS * 4096 + RS.MISALIGNED ∧ t.rd (HDR.ERR_FIRST_INFO p) = info ∧
      t.rd (HDR.ERR_OVF p) = s.rd (HDR.ERR_OVF p) := by
  dsimp only
  rw [rd_err_header _ _ _ _ _ _ hp (by simp), rd_err_header _ _ _ _ _ _ hp (by simp), rd_err_header _ _ _ _ _ _ hp (by simp),
    run_firstError_first hv]
  refine ⟨?_, rd_wr_errFirstInfo _ hinfo, ?_⟩
  · rw [rd_wr_other _ _ (by simp)]
    exact rd_wr_errFirst _
  · rw [rd_wr_other _ _ (by simp), rd_wr_other _ _ (by simp)]
    exact rd_wr_other _ _ (by simp)

/-- A later report sets OVF and leaves what is frozen. -/
theorem err_overflows (hv : s.bit (HDR.ERR_FIRST p) 31 = true) :
    let t := (err p i c r info).run s
    t.rd (HDR.ERR_FIRST p) = s.rd (HDR.ERR_FIRST p) ∧ t.rd (HDR.ERR_FIRST_INFO p) = s.rd (HDR.ERR_FIRST_INFO p) ∧
      t.rd (HDR.ERR_OVF p) = 1 := by
  dsimp only
  rw [rd_err_header _ _ _ _ _ _ hp (by simp), rd_err_header _ _ _ _ _ _ hp (by simp), rd_err_header _ _ _ _ _ _ hp (by simp),
    run_firstError_later hv]
  refine ⟨?_, ?_, rd_wr_errOvf _⟩
  · rw [rd_wr_other _ _ (by simp)]
    exact rd_wr_other _ _ (by simp)
  · rw [rd_wr_other _ _ (by simp)]
    exact rd_wr_other _ _ (by simp)

end Report

end FirstError

/-- Settles O6: the error's record is `firstError`, and what follows it writes the headers of FUNC, ERR and PEEP only. -/
theorem firstErrorIsFrozen : Obligations.FirstErrorIsFrozen := by
  unfold Obligations.FirstErrorIsFrozen Says.FirstErrorIsFrozen
  intro s a page off hs hpage hport
  have hp : ¬ reportPages page.val := by simpa [reportPages] using hpage
  have hinfo : bar0 page.val off.val < 2 ^ 32 := by
    have h1 := page.isLt
    have h2 := off.isLt
    simp only [bar0]
    omega
  have hside := side_err page.val (s.instSel a page.val) EC.ACCESS RS.MISALIGNED (bar0 page.val off.val) s
  obtain ⟨-, hmis, -⟩ := refusedAccessesAreOnlyRecorded s a page off
  obtain ⟨_, _, _, _, _, _, _, _, hctl⟩ := hside.ctl
  refine ⟨_, hmis hs hport, rd_errCount_err hp _, fun hv => err_freezes hp _ hv hinfo, err_overflows hp _,
    fun b q i o ho hq => hside.copy _ _ ?_, by rw [hctl], by rw [hctl], fun sp i x hx hx' hi => hside.byte _ _ _ ?_⟩
  · simp only [List.mem_cons, List.not_mem_nil, or_false, not_or] at hq
    simp only [sideReg]
    omega
  · simp only [inTrace, memKey]
    omega

end Sys2Proof.Machine
end

section
/-! PROOF. Latches, and the MAINT arbiter's decisions (03_register_pages). -/

namespace Sys2Proof.Machine

/-! ## Latches (R86 to R90) -/

theorem latchTable : Says.LatchTable := by
  intro o p h
  simp [Latch.acquire, Latch.release, Latch.clrBroken, h]

/-- A signal leaves the latches alone. -/
theorem Side.latches {P : Nat → Prop} {s t : State} (h : Side P s t) : t.ctl.latches = s.ctl.latches := by
  obtain ⟨_, _, _, _, _, _, _, _, e⟩ := h.ctl
  rw [e]

theorem Side.latch {P : Nat → Prop} {s t : State} (h : Side P s t) (n : Nat) : t.latch n = s.latch n := by
  rw [State.latch, h.latches, State.latch]

theorem latch_setLatch_same (n : Nat) (l : Latch) (s : State) : ((setLatch n l).run s).latch n = l := tget_nset_same ..

theorem latch_setLatch_other (l : Latch) (s : State) {n m : Nat} (h : m ≠ n) : ((setLatch n l).run s).latch m = s.latch m :=
  tget_nset_other _ _ _ h

/-- The peephole's event of an acquire, where one is to be seen. -/
theorem side_acquireEvent (c : Bool) (n : Nat) : (Prog.when c (peep 13 0 n)).side anyPage := side_when fun _ => side_peep _ _ _

section Acquire

variable {s : State} (n o : Nat)

/-- An acquire that answers: the latch as the table says, then what the peephole sees, then the answer. -/
theorem run_acquireLatch : ∃ t, Side anyPage ((setLatch n ((s.latch n).acquire o).1).run s) t ∧
    (acquireLatch n o answer).run s =
      (answer (((s.latch n).acquire o).2 + 65536 * ((s.latch n).acquire o).1.owner)).run t :=
  ⟨_, side_acquireEvent (decide (((s.latch n).acquire o).2 = ST.OK) || decide (((s.latch n).acquire o).2 = ST.BROKEN_LATCH)) n _, rfl⟩

theorem acquireLatch_acquires :
    ((acquireLatch n o answer).run s).latch n = ((s.latch n).acquire o).1 ∧
      ((acquireLatch n o answer).run s).ctl.answer =
        ((s.latch n).acquire o).2 + 65536 * ((s.latch n).acquire o).1.owner ∧
      ∀ m, m ≠ n → ((acquireLatch n o answer).run s).latch m = s.latch m := by
  obtain ⟨t, ht, e⟩ := run_acquireLatch (s := s) n o
  rw [e]
  exact ⟨(ht.latch n).trans (latch_setLatch_same ..), rfl, fun m hm => (ht.latch m).trans (latch_setLatch_other _ _ hm)⟩

/-- An acquire writes what a signal may, and the latch. -/
theorem acquireLatch_frame : (∀ b r, b ≠ .live → ((acquireLatch n o answer).run s).copy b r = s.copy b r) ∧
    ∀ sp x, sp ≠ 1 → x < 2 ^ 48 → ((acquireLatch n o answer).run s).byte sp 0 x = s.byte sp 0 x := by
  obtain ⟨t, ht, e⟩ := run_acquireLatch (s := s) n o
  rw [e]
  exact ⟨fun b r hb => ht.copy b r fun h => hb h.1, fun sp x hsp hx => ht.byte sp 0 x (not_inTrace_of_space hsp hx)⟩

end Acquire

theorem exec_latchAcquire_page {s : State} {a : Accessor} (hs : s.serves a Pg.latch) (n : Fin 1024) :
    exec (.latchAcquire (.page a) n) s = .next ((acquireLatch n.val (ownerOf a) answer).run s) := by
  refine (byReader_next _ hs.1).trans ?_
  simp [hs.2]

theorem exec_latchAcquire_window {s : State} {f : Fin 2048} (hw : s.windowOpen f.val = true) {n : Fin 1024}
    (hm : s.mayUseLatch n.val f.val = true) :
    exec (.latchAcquire (.window f) n) s = .next ((acquireLatch n.val (ownerFn f.val) answer).run s) := by
  refine (done_eq _ s).trans ?_
  simp [hw, hm]

theorem acquireFollowsTheTable : Says.AcquireFollowsTheTable := by
  intro s n
  refine ⟨fun a hs => ⟨_, exec_latchAcquire_page hs n, ?_⟩, fun f hw hm => ⟨_, exec_latchAcquire_window hw hm, acquireLatch_acquires ..⟩,
    fun a ho hown => (byReader_next _ ho).trans (by simp [hown])⟩
  obtain ⟨hl, ha, hother⟩ := acquireLatch_acquires (s := s) n.val (ownerOf a)
  exact ⟨hl, ha, hother, acquireLatch_frame ..⟩

section Release

variable {s : State} {n : Nat} {o : Nat}

theorem run_releaseLatch {l : Latch} (h : (s.latch n).release o = some l) :
    (releaseLatch n o).run s = (doAll [setLatch n l, peep 13 1 n]).run s := by simp [releaseLatch, h]

theorem run_releaseLatch_refused (h : (s.latch n).release o = none) :
    (releaseLatch n o).run s = (refuseRelease n).run s := by simp [releaseLatch, h]

theorem run_clrBrokenLatch {l : Latch} (h : (s.latch n).clrBroken o = some l) :
    (clrBrokenLatch n o).run s = (setLatch n l).run s := by simp [clrBrokenLatch, h]

theorem run_clrBrokenLatch_refused (h : (s.latch n).clrBroken o = none) :
    (clrBrokenLatch n o).run s = (refuseRelease n).run s := by simp [clrBrokenLatch, h]

/-- A refused RELEASE or CLR_BROKEN changes no latch. -/
theorem latch_refuseRelease (n m : Nat) (s : State) : ((refuseRelease n).run s).latch m = s.latch m :=
  (side_err _ _ _ _ _ _).latch m

end Release

section LatchCtl

variable {s : State} {a : Accessor} (hs : s.serves a Pg.latch) (n : Fin 1024)
include hs

theorem exec_latchRelease : exec (.latchRelease (.page a) n) s = .next ((releaseLatch n.val (ownerOf a)).run s) :=
  byWriter_next _ _ hs

theorem exec_clrBroken : exec (.clrBroken (.page a) n) s = .next ((clrBrokenLatch n.val (ownerOf a)).run s) :=
  byWriter_next _ _ hs

theorem exec_clrBrokenAndRelease : exec (.clrBrokenAndRelease (.page a) n) s =
    .next ((releaseLatch n.val (ownerOf a)).run ((clrBrokenLatch n.val (ownerOf a)).run s)) :=
  byWriter_next _ _ hs

end LatchCtl

theorem onlyTheOwnerReleases : Says.OnlyTheOwnerReleases := by
  intro s a n hs
  rw [exec_latchRelease hs, exec_clrBroken hs, exec_clrBrokenAndRelease hs]
  refine ⟨fun h => ?_, fun h => ⟨?_, ?_, ?_⟩, fun h => ⟨?_, ?_⟩, fun h => ⟨?_, ?_⟩, fun h => ⟨?_, ?_, fun m => latch_refuseRelease ..⟩⟩
  · rw [run_releaseLatch (l := Latch.init) (by simp [h, Latch.release])]
  · rw [run_releaseLatch (l := ⟨.broken, ownerOf a⟩) (by simp [h, Latch.release])]
  · rw [run_clrBrokenLatch (l := ⟨.held, ownerOf a⟩) (by simp [h, Latch.clrBroken])]
  · rw [run_clrBrokenLatch (l := ⟨.held, ownerOf a⟩) (by simp [h, Latch.clrBroken]),
      run_releaseLatch (l := Latch.init) (by simp [latch_setLatch_same, Latch.release])]
    rfl
  · rw [run_clrBrokenLatch_refused (by simp [h, Latch.clrBroken])]
  · rw [run_clrBrokenLatch_refused (by simp [h, Latch.clrBroken]),
      run_releaseLatch (l := Latch.init) (by simp [latch_refuseRelease, h, Latch.release])]
    rfl
  · rw [run_releaseLatch_refused (by rcases h with h | h <;> simp [h, Latch.release])]
  · rw [run_clrBrokenLatch_refused (by rcases h with h | h <;> simp [h, Latch.clrBroken])]
  · rw [run_releaseLatch_refused (by simp [h, Latch.release])]
  · rw [run_clrBrokenLatch_refused (by simp [h, Latch.clrBroken])]

/-- Settles O15: the table says what the operations do, and a signal that follows leaves every latch as it is. -/
theorem latchesFollowTheirTable : Obligations.LatchesFollowTheirTable := by
  unfold Obligations.LatchesFollowTheirTable
  exact ⟨latchTable, acquireFollowsTheTable, onlyTheOwnerReleases⟩

/-! ## The MAINT arbiter (R91 to R94) -/

/-- Pairs listed in rising order, either way round. -/
theorem any_pair_iff {l : List (Nat × Nat)} (h : ∀ p ∈ l, p.1 ≤ p.2) (a b : Nat) :
    (l.any fun p => (decide (p.1 = a) && decide (p.2 = b)) || (decide (p.1 = b) && decide (p.2 = a))) = true ↔
      (min a b, max a b) ∈ l := by
  have hp : ∀ p ∈ l, ((p.1 = a ∧ p.2 = b) ∨ (p.1 = b ∧ p.2 = a) ↔ p = (min a b, max a b)) := by
    intro p hp
    have := h p hp
    rw [Prod.ext_iff]
    omega
  simp only [List.any_eq_true, Bool.or_eq_true, Bool.and_eq_true, decide_eq_true_eq]
  exact ⟨fun ⟨p, hm, e⟩ => (hp p hm).1 e ▸ hm, fun hm => ⟨_, hm, (hp _ hm).2 rfl⟩⟩

theorem maConflict_iff (a b : Nat) : maConflict a b = true ↔ (a = b ∧ a < 14) ∨
    (min a b, max a b) ∈ [(0, 1), (2, 3), (2, 4), (3, 4), (4, 7), (5, 7), (7, 13), (8, 9), (9, 12), (10, 11)] := by
  rw [maConflict, Bool.or_eq_true, any_pair_iff (by decide), Bool.and_eq_true, decide_eq_true_eq, decide_eq_true_eq]

theorem mem_blockers {s : State} {m r : MStart} : r ∈ s.blockers m ↔ r ∈ s.ctl.maint.running ∧ maConflict m.act r.act = true ∧
    (m.scope = r.scope ∨ m.scope = 0xFF ∨ r.scope = 0xFF) := by
  simp only [State.blockers, List.mem_filter, scopesOverlap, Bool.and_eq_true, Bool.or_eq_true, decide_eq_true_eq, or_assoc]

theorem tbit_compat (i : Fin 16) : ∀ j < 32, tbit (compat i.val) j = maConflict i.val j := by
  revert i; decide +kernel

/-- COMPATi is a read-only word of page MAINT that shows the matrix; of 14 and 15, which no activity has, no row is listed. -/
theorem rowAt_compat (i : Fin 16) {row : RegRow} {h : Bool} (e : rowAt 8 (0x80 + 4 * i.val) = some (row, h)) :
    h = false ∧ row.wide = false ∧ row.rc = 0 := by
  have hall : ∀ i : Fin 16, ((rowAt 8 (0x80 + 4 * i.val)).all fun e => !e.2 && !e.1.wide && decide (e.1.rc = 0)) = true := by
    decide +kernel
  simpa [e, and_assoc] using hall i

theorem view_compat (s : State) (a : Accessor) (i : Fin 16) : s.view a 8 (0x80 + 4 * i.val) = some (compat i.val) := by
  have hi := i.isLt
  have hx : indexOf (0x80 + 4 * i.val) 0x80 4 16 = some i.val := by
    rw [indexOf, Nat.add_sub_cancel_left, Nat.mul_div_cancel_left _ (by norm_num), if_pos (by omega)]
  have hh : s.viewHeader a 8 (0x80 + 4 * i.val) = none := by
    simp only [State.viewHeader, windowed, instCount]
    rw [if_neg (by omega), if_neg (by omega), if_neg (by omega)]
    rfl
  simp [State.view, hh, hx]

theorem compat_lt (i : Fin 16) : compat i.val < 2 ^ 32 := by revert i; decide +kernel

theorem run_readReg_compat {s : State} {a : Accessor} (i : Fin 16) (hs : s.open a 8 = true) :
    (readReg a 8 (0x80 + 4 * i.val)).run s = (answer (compat i.val)).run s := by
  have hv := view_compat s a i
  have hlt : compat i.val % 4294967296 = compat i.val := Nat.mod_eq_of_lt (compat_lt i)
  rw [readReg, byReader_run _ hs]
  cases e : rowAt 8 (0x80 + 4 * i.val) with
  | none => simp [e, readValue, State.whole, hv, State.openBits, clearRead, hlt, run_when]
  | some x =>
    obtain ⟨row, hi⟩ := x
    obtain ⟨rfl, hw, hrc⟩ := rowAt_compat i e
    simp [e, readValue, State.whole, hv, State.openBits, clearRead, hlt, hw, hrc, run_when]

theorem exec_clearOnRead (a : Accessor) (page : Fin 41) (off : Fin 65536) (s : State) :
    exec (.clearOnRead a page off) s = routeRead a page.val off.val s := rfl

/-- Settles O17: the matrix is the list of pairs, and COMPATi its rows. -/
theorem conflictsOfActivities : Obligations.ConflictsOfActivities := by
  unfold Obligations.ConflictsOfActivities Says.ConflictsOfActivities
  refine ⟨maConflict_iff, fun s m r => mem_blockers, fun s a i off hs ho => ?_⟩
  refine ⟨(answer (compat i.val)).run s, ?_, ?_⟩
  · rw [exec_clearOnRead, ho]
    exact (congrFun (routeRead_plain (page := 8) a (by omega) rfl) s).trans (congrArg _ (run_readReg_compat i hs))
  · rw [answer_answer]
    exact ⟨tbit_compat i, upd_reg _ s, upd_mem _ s⟩

/-- The order of blockers (R93): by activity, then by scope. -/
def MStart.ranks (a b : MStart) : Bool := decide (a.act < b.act) || (decide (a.act = b.act) && decide (a.scope < b.scope))

section DecideStart

variable {u : State} {m : MStart}

theorem run_decideStart_runs (hb : u.blockers m = []) : (decideStart m).run u = (doAll [
    ctl fun c => { c with maint := { c.maint with running := c.maint.running ++ [m] } },
    showRunning, peep 14 0 m.act, accepted m]).run u := by
  simp [decideStart, hb, firstBy]

theorem run_decideStart_refused {r : MStart} (hr : firstBy MStart.ranks (u.blockers m) = some r) : (decideStart m).run u = (doAll [
    inc MAINT.REFUSE_CNT, wr MAINT.LAST_REFUSED (m.act + 256 * m.scope + 2 ^ 16 * r.act + 2 ^ 24 * r.scope),
    peep 14 1 m.act, refusedStart m]).run u := by
  have hr' : firstBy (fun a b => decide (a.act < b.act) || (decide (a.act = b.act) && decide (a.scope < b.scope)))
    (u.blockers m) = some r := hr
  simp [decideStart, hr']

end DecideStart

/-- The arbiter's clock: the first start leaves the queue and is decided (R94). -/
theorem exec_maintArbitrate {s : State} {m : MStart} {p : Prog} (h : s.runsBelow 4)
    (hm : firstBy MStart.before s.ctl.maint.waiting = some m)
    (hp : let u := { s with ctl := { s.ctl with maint := { s.ctl.maint with waiting := s.ctl.maint.waiting.erase m } } }
      (decideStart m).run u = p.run u) :
    exec (.maintArbitrate none) s = .next ((doAll [p, ctl fun c => { c with maint.clock := c.maint.clock + 1 }]).run
      { s with ctl := { s.ctl with maint := { s.ctl.maint with waiting := s.ctl.maint.waiting.erase m } } }) := by
  refine (live_next _ h).trans ?_
  simp only [run_all_cons, run_all_nil, run_skip, run_look, hm, ← hp]
  rfl

/-- Settles O16: the first start leaves the queue, and the blocker that ranks first decides it. -/
theorem arbiterDecidesTheFirstStart : Obligations.ArbiterDecidesTheFirstStart := by
  unfold Obligations.ArbiterDecidesTheFirstStart Says.ArbiterDecidesTheFirstStart
  intro s m h hm
  exact ⟨fun hb => exec_maintArbitrate h hm (run_decideStart_runs hb), fun r hr => exec_maintArbitrate h hm (run_decideStart_refused hr)⟩

end Sys2Proof.Machine
end

section
/-! PROOF. Clock inputs, low-power states and the patrol scrubs (R20 to R25, R96 to R99, R145, R146). -/

namespace Sys2Proof.Machine

/-- A guard that fails leaves the state as it is. -/
theorem board_skip {s : State} {p : State → Prog} (h : s.powered) {c : State → Bool} (hc : c s = false) :
    board (get fun s => Prog.when (c s) (p s)) s = .next s := by
  rw [board_next _ h, run_look, hc]
  rfl

theorem board_when {s : State} {p : State → Prog} (h : s.powered) {c : State → Bool} (hc : c s = true) :
    board (get fun s => Prog.when (c s) (p s)) s = .next ((p s).run s) := by
  rw [board_next _ h, run_look, hc]
  rfl

theorem live_when {lvl : Nat} {s : State} {p : State → Prog} (h : s.runsBelow lvl) {c : State → Bool} (hc : c s = true) :
    live lvl (get fun s => Prog.when (c s) (p s)) s = .next ((p s).run s) := by
  rw [live_next _ h, run_look, hc]
  rfl

/-! ## Clocks (R96, R97) -/

section Clocks

variable {s : State} (h : s.powered)
include h

theorem exec_clockLost {i : Fin 7} (hi : s.bit CLK.CLK_STATUS i.val = true) : exec (.clockLost i) s = .next ((doAll [
    wrB CLK.CLK_STATUS i.val false, inc CLK.LOSS_CNT,
    ctl fun c => { c with boot.clkLost := setField c.boot.clkLost i.val i.val 1 },
    int Pg.clk 0 (if i.val < 4 then 0 else if i.val = 4 then 1 else 2), clockGone i.val]).run s) := board_when h hi

theorem exec_clockLost_lost {i : Fin 7} (hi : s.bit CLK.CLK_STATUS i.val = false) : exec (.clockLost i) s = .next s := board_skip h hi

theorem exec_clockRestored {i : Fin 7} (hi : s.bit CLK.CLK_STATUS i.val = false) : exec (.clockRestored i) s = .next ((doAll [
    wrB CLK.CLK_STATUS i.val true, ctl fun c => { c with boot.clkLost := setField c.boot.clkLost i.val i.val 0 },
    int Pg.clk 0 3]).run s) := board_when h (by rw [hi]; rfl)

theorem exec_clockRestored_running {i : Fin 7} (hi : s.bit CLK.CLK_STATUS i.val = true) :
    exec (.clockRestored i) s = .next s := board_skip h (by rw [hi]; rfl)

theorem exec_refclkMeasure (off : Word) (h0 : s.bit CLK.CLK_STATUS 0 = true) (h4 : s.bit CLK.CLK_STATUS 4 = true) :
    exec (.refclkMeasure off) s = .next ((wr CLK.REFCLK_MEAS off.toNat).run s) := board_when h (by rw [h0, h4]; rfl)

end Clocks

theorem refclkMeas_full : maskAt .live CLK.REFCLK_MEAS.page CLK.REFCLK_MEAS.off = 2 ^ 32 - 1 := by decide +kernel

theorem clockInputs : Says.ClockInputs := fun s _ off h =>
  ⟨exec_clockLost h, exec_clockRestored h, exec_clockLost_lost h, exec_clockRestored_running h, fun h0 h4 =>
    ⟨_, exec_refclkMeasure h off h0 h4, rd_wr_full s _ off refclkMeas_full, fun _ _ hr => copy_wr_other s _ hr, mem_wr .., ctl_wr ..⟩⟩

/-! ## Low-power states (R98, R99, R145, R146) -/

section LowPower

variable {s : State} (h : s.runsBelow 4)
include h

theorem exec_pstateSelect (us : Nat) : exec (.pstateSelect us) s = .next ((doAll [wrF PWR.PSTATE_STATUS 3 2 s.allowed,
    wrF PWR.PSTATE_STATUS 8 4 (b2n (s.idle us 1) + 2 * b2n (s.idle us 2) + 4 * b2n (s.idle us 3) + 8 * b2n s.lanesOk +
      16 * b2n s.linksL1)]).run s) := live_next _ h

theorem exec_pstateEnter {us : Nat} (hp : s.pstate < s.enters us) (hx : s.ctl.boot.exiting = false) :
    exec (.pstateEnter us) s = .next ((doAll [wrF PWR.PSTATE_STATUS 1 0 (s.enters us), inc (PWR.ENTRY_CNT (s.enters us - 1)),
      ctl fun c => { c with boot.limits := s.limits }, peep 12 (s.enters us) 0]).run s) :=
  live_when (p := fun s => doAll [wrF PWR.PSTATE_STATUS 1 0 (s.enters us), inc (PWR.ENTRY_CNT (s.enters us - 1)),
      ctl fun c => { c with boot.limits := s.limits }, peep 12 (s.enters us) 0]) h (by simp [hp, hx])

theorem exec_pstateExitDone (hx : s.ctl.boot.exiting = true) : exec .pstateExitDone s = .next ((doAll [
    ctl fun c => { c with boot := { c.boot with exiting := false } }, wrF PWR.PSTATE_STATUS 1 0 0,
    Prog.when (decide (s.pstate = 3)) (int Pg.pwr 0 0), peep 12 0 0]).run s) := live_when h hx

theorem exec_partnerLpiExit {p : Fin 512} (hp : s.bit (MAC.MAC_STATUS.of p.val) 2 = true) :
    exec (.partnerLpiExit p) s = .next ((doAll [wrB (MAC.MAC_STATUS.of p.val) 2 false, wake 5]).run s) := live_when h hp

/-- A wake by one of R99's causes. -/
theorem exec_pstateWake {c : Fin 5} (hc : c.val < 3 ∨ (c.val = 3 ∧ (s.limits ≠ s.ctl.boot.limits ∨ s.allowed < s.pstate)) ∨
    (c.val = 4 ∧ ∃ e ∈ s.ctl.time.events, wtDiff e.target (s.wt e.dom) ≤ (exitUs s.pstate * 500 : Nat))) :
    exec (.pstateWake c) s = .next ((wake c.val).run s) := by
  refine live_when h ?_
  simp only [Bool.or_eq_true, Bool.and_eq_true, decide_eq_true_eq, List.any_eq_true]
  exact hc.symm

end LowPower

/-- The exit begins and names its cause, once. -/
theorem run_wake {s : State} (hp : 0 < s.pstate) (hx : s.ctl.boot.exiting = false) (cause : Nat) : (wake cause).run s =
    (wr PWR.WAKE_CAUSE cause).run { s with ctl := { s.ctl with boot := { s.ctl.boot with exiting := true } } } := by
  have hc : (decide (0 < s.pstate) && !s.ctl.boot.exiting) = true := by simp [hp, hx]
  simp only [wake, beginExit, run_look, hc, when_true, run_all_cons, run_all_nil, run_upd]

theorem rd_wr_wakeCause (s : State) : ∀ c : Fin 5, ((wr PWR.WAKE_CAUSE c.val).run s).rd PWR.WAKE_CAUSE = c.val := by
  have hm : RKey.mask ⟨.live, PWR.WAKE_CAUSE.page, PWR.WAKE_CAUSE.inst, PWR.WAKE_CAUSE.off⟩ = 15 := by decide +kernel
  intro c
  rw [rd_wr_same, hm]
  revert c
  decide

theorem lowPowerStates : Says.LowPowerStates := by
  intro s us h
  refine ⟨exec_pstateSelect h us, exec_pstateEnter h, fun c hc hp hx => ⟨_, exec_pstateWake h hc, ?_⟩, exec_pstateExitDone h,
    fun p => exec_partnerLpiExit h⟩
  rw [run_wake hp hx]
  exact ⟨ctl_wr .., rd_wr_wakeCause _ c, fun b r hr => copy_wr_other _ _ hr, mem_wr ..⟩

/-! ## Patrol scrubs (R20, R21, R24, R25) -/

theorem exec_scrubSegmentStart {s : State} {ddr : Bool} (h : s.powered)
    (hen : s.cbit (if ddr then MEM.DDR_SCRUB else MEM.HBM_SCRUB) 0 = true) :
    exec (.scrubSegmentStart ddr) s =
      .next ((mstart (if ddr then MA.DRAM_SCRUB else MA.HBM_SCRUB) 0xFF .periodic 0).run s) := board_when h hen

theorem patrolScrub : Says.PatrolScrub := by
  intro s ddr ces ues h
  refine ⟨fun hen => ⟨_, exec_scrubSegmentStart h hen, rfl, rfl, rfl⟩, fun hrun => ?_⟩
  refine (board_next _ h).trans ?_
  simp only [run_look, hrun, when_true, decide_eq_true_eq]

/-- Settles O18: each command is its table row under its guard. -/
theorem clocksPowerStatesAndScrub : Obligations.ClocksPowerStatesAndScrub := by
  unfold Obligations.ClocksPowerStatesAndScrub
  exact ⟨clockInputs, lowPowerStates, patrolScrub⟩

end Sys2Proof.Machine
end

section
/-! PROOF. Configuration requests, vectors, event routing and MSI-X messages (R84, R115, R126, R135 to R144, R447). -/

namespace Sys2Proof.Machine

/-! ## Configuration requests (R84, R126, R135, R144, R447) -/

/-- The answer to a configuration request that is served, with the boot lock it sets (R84). -/
def cfgAnswer (f v : Nat) : Prog := doAll [answer v, emit (.hostReply (f / 1024) f replyOk (leBytes 4 v)), setBootLock]

/-- What a request to a function that exists does, by its kind. -/
def serveConfig (s : State) (f : Nat) : CfgOp → Prog
  | .read r => cfgRead f r (cfgAnswer f)
  | .write r v => doAll [cfgWrite f r v.toNat, cfgAnswer f 0]
  | .msixEntry i addr data masked => doAll [
      Prog.when (decide (i.val < s.fd (FUNC.VEC_COUNT.of f) 11 0)) (doAll [
        modVec (s.fd (FUNC.VEC_BASE.of f) 13 0 + i.val) fun x =>
          { x with addr := addr.toNat, data := data.toNat, masked := masked }, releasePending f]),
      cfgAnswer f 0]

section Config

variable {s : State} {f : Fin 2048} (h : s.powered) (hup : s.linkUp (s.linkOf f.val) = true)
include h hup

theorem exec_configRequest_retry {op : CfgOp}
    (hr : s.ctl.host.retryEnded = false ∨ ((s.fnSt f.val).busy = true ∧ op.initiatesFlr = false) ∨ s.pf = 2) :
    exec (.configRequest f op) s = .next ((emit (.hostReply (f.val / 1024) f.val replyRetry [])).run s) := by
  have hc : (!s.ctl.host.retryEnded || ((s.fnSt f.val).busy && !op.initiatesFlr) || decide (s.pf = 2)) = true := by
    simpa [or_assoc] using hr
  refine (board_next _ h).trans ?_
  simp only [cfgRequest, run_look, hup, hc, Bool.not_true, Bool.false_eq_true, if_false, if_true]

variable (hr : s.ctl.host.retryEnded = true) (hb : (s.fnSt f.val).busy = false) (hpf : s.pf ≠ 2)
include hr hb hpf

/-- A request that gets no retry status: to a function that exists or not. -/
theorem exec_configRequest_served (op : CfgOp) : exec (.configRequest f op) s = .next ((
    if !s.fnExists f.val then doAll [dropFor f.val, emit (.hostReply (f.val / 1024) f.val replyUR [])]
    else serveConfig s f.val op).run s) := by
  have hc : (!s.ctl.host.retryEnded || ((s.fnSt f.val).busy && !op.initiatesFlr) || decide (s.pf = 2)) = false := by
    simp [hr, hb, hpf]
  have hx : (!s.fnExists f.val && !(s.fnSt f.val).busy) = !s.fnExists f.val := by rw [hb, Bool.not_false, Bool.and_true]
  refine (board_next _ h).trans ?_
  simp only [cfgRequest, run_look, hup, hc, hx, Bool.not_true, Bool.false_eq_true, if_false]
  cases op <;> rfl

end Config

theorem configurationRequests : Says.ConfigurationRequests := by
  intro s f op h hup
  refine ⟨exec_configRequest_retry h hup, fun hr hb hpf hx => ?_, fun hr hb hpf hx => ⟨fun r => ?_, fun r v => ?_, fun i addr data masked hi => ?_⟩⟩
  all_goals rw [exec_configRequest_served h hup hr hb hpf, hx]
  · rfl
  · rfl
  · rfl
  · simp only [serveConfig, hi, decide_true, when_true]
    rfl

/-! ## Vectors and routing (R136 to R138) -/

section Vectors

variable {s : State} {a : Accessor} {src : Fin 4096} {v : Word}

theorem exec_vectorRangeWrite_base (hs : s.serves a Pg.func) (hx : (s.fnCfg (s.sel a 13 0x40 % 2048)).msixEn = false)
    (ho : s.vecOverlap (s.sel a 13 0x40 % 2048) (v.toNat % 16384) (s.fd (FUNC.VEC_COUNT.of (s.sel a 13 0x40 % 2048)) 11 0) = false)
    (hend : v.toNat % 16384 + s.fd (FUNC.VEC_COUNT.of (s.sel a 13 0x40 % 2048)) 11 0 ≤ 16384)
    (hmax : s.fd (FUNC.VEC_COUNT.of (s.sel a 13 0x40 % 2048)) 11 0 ≤ (if s.sel a 13 0x40 % 2048 % 1024 < 8 then 2048 else 256)) :
    exec (.vectorRangeWrite a false v) s = .next ((wr (FUNC.VEC_BASE.of (s.sel a 13 0x40 % 2048)) (v.toNat % 16384)).run s) := by
  refine (byWriter_next _ _ hs).trans ?_
  simp only [run_look, hx, ho, Nat.not_lt.2 hend, Nat.not_lt.2 hmax, decide_false, Bool.or_false, Bool.false_eq_true, if_false]

theorem exec_vectorRangeWrite_count (hs : s.serves a Pg.func) (hx : (s.fnCfg (s.sel a 13 0x40 % 2048)).msixEn = false)
    (ho : s.vecOverlap (s.sel a 13 0x40 % 2048) (s.fd (FUNC.VEC_BASE.of (s.sel a 13 0x40 % 2048)) 13 0) (v.toNat % 4096) = false)
    (hend : s.fd (FUNC.VEC_BASE.of (s.sel a 13 0x40 % 2048)) 13 0 + v.toNat % 4096 ≤ 16384)
    (hmax : v.toNat % 4096 ≤ (if s.sel a 13 0x40 % 2048 % 1024 < 8 then 2048 else 256)) :
    exec (.vectorRangeWrite a true v) s = .next ((wr (FUNC.VEC_COUNT.of (s.sel a 13 0x40 % 2048)) (v.toNat % 4096)).run s) := by
  refine (byWriter_next _ _ hs).trans ?_
  simp only [run_look, hx, ho, Nat.not_lt.2 hend, Nat.not_lt.2 hmax, decide_false, Bool.or_false, Bool.false_eq_true, if_false, if_true]

/-- The committed words of an entry, after word 1 is written (R137). -/
theorem exec_ertCommit (hs : s.serves a Pg.func) : exec (.ertCommit a src v) s = .next (
    (setCopy .committed (FUNC.ERT_W1 src.val) v.toNat).run ((setCopy .committed (FUNC.ERT_W0 src.val) (s.rd (FUNC.ERT_W0 src.val))).run
      ((wr (FUNC.ERT_W1 src.val) v.toNat).run s))) := byWriter_next _ _ hs

theorem ertCommit_commits (hs : s.serves a Pg.func) : ∃ t, exec (.ertCommit a src v) s = .next t ∧
    t.copy .committed (FUNC.ERT_W0 src.val) = (BitVec.ofNat 32 (s.rd (FUNC.ERT_W0 src.val)) &&&
      RKey.mask ⟨.committed, 13, 0, 0x1000 + 8 * src.val⟩).toNat ∧
    t.copy .committed (FUNC.ERT_W1 src.val) = (v &&& RKey.mask ⟨.committed, 13, 0, 0x1004 + 8 * src.val⟩).toNat ∧
    (∀ b r, r ≠ FUNC.ERT_W0 src.val → r ≠ FUNC.ERT_W1 src.val → t.copy b r = s.copy b r) ∧ t.mem = s.mem ∧ t.ctl = s.ctl := by
  refine ⟨_, exec_ertCommit hs, ?_, ?_, fun b r h0 h1 => ?_, rfl, rfl⟩
  · rw [copy_setCopy_other _ _ _ _ _ _ (by simp), copy_setCopy_same]
    rfl
  · rw [copy_setCopy_same, BitVec.ofNat_toNat, BitVec.setWidth_eq]
    rfl
  · rw [copy_setCopy_other _ _ _ _ _ _ fun e => h1 e.2, copy_setCopy_other _ _ _ _ _ _ fun e => h0 e.2,
      copy_wr_other (r := FUNC.ERT_W1 src.val) _ _ fun e => h1 (Prod.ext_iff.1 e).2]

theorem exec_moderationTimeout (h : s.powered) (hn : 0 < tget 0 s.ctl.host.modCnt src.val) (hus : s.cfd (FUNC.ERT_W1 src.val) 23 16 ≠ 0) :
    exec (.moderationTimeout src) s = .next ((doAll [
      ctl fun c => { c with host.modCnt := nset 0 c.host.modCnt src.val 0 }, chain 24 (.raise src.val)]).run s) :=
  board_when h (by rw [decide_eq_true hn, decide_eq_true hus]; rfl)

end Vectors

theorem vectorsAndRouting : Says.VectorsAndRouting := fun _ _ _ _ =>
  ⟨fun hs hx => ⟨exec_vectorRangeWrite_base hs hx, exec_vectorRangeWrite_count hs hx⟩, ertCommit_commits, exec_moderationTimeout⟩

/-! ## MSI-X messages and interrupt shares (R115, R139, R142) -/

theorem fnSt_modFn (f : Nat) (g : FnSt → FnSt) (s : State) : ((modFn f g).run s).fnSt f = g (s.fnSt f) := tget_nmod_same ..

theorem vec_modVec_same (v : Nat) (g : Vec → Vec) (s : State) : ((modVec v g).run s).vec v = g (s.vec v) := tget_nmod_same ..

theorem vec_modVec_other (g : Vec → Vec) (s : State) {v w : Nat} (h : w ≠ v) : ((modVec v g).run s).vec w = s.vec w :=
  tget_nmod_other _ _ _ h

/-- What sending a vector's message does: the vector is no longer raised, a limited function gives a token, the message goes out. -/
def sendVector (f i v : Nat) (x : Vec) (limited : Bool) : Prog := doAll [
  modVec v fun x => { x with raised := false, throttled := false },
  Prog.when limited (modFn f fun x => { x with tokens := x.tokens - 1 }),
  emit (.msix f i x.addr x.data)]

section Msix

variable {s : State} {f i : Fin 2048}

theorem exec_msixSend (h : s.runsBelow 4) (hi : i.val < s.fd (FUNC.VEC_COUNT.of f.val) 11 0)
    (hraised : (s.vec (s.fd (FUNC.VEC_BASE.of f.val) 13 0 + i.val)).raised = true) (hb : (s.fnSt f.val).busy = false)
    (hbme : (s.fnCfg f.val).bme = true) (hen : (s.fnCfg f.val).msixEn = true)
    (hmask : (s.vec (s.fd (FUNC.VEC_BASE.of f.val) 13 0 + i.val)).masked = false) (hfm : (s.fnCfg f.val).fnMask = false)
    (hl : s.linkOpen (s.linkOf f.val) = true)
    (ht : s.cfd (FUNC.INT_SHARE.of f.val) 15 0 = 0 ∨ (s.fnSt f.val).tokens ≠ 0) :
    exec (.msixSend f i) s = .next ((sendVector f.val i.val (s.fd (FUNC.VEC_BASE.of f.val) 13 0 + i.val)
      (s.vec (s.fd (FUNC.VEC_BASE.of f.val) 13 0 + i.val)) (decide (s.cfd (FUNC.INT_SHARE.of f.val) 15 0 ≠ 0))).run s) := by
  have hgo : ¬ (s.fd (FUNC.VEC_COUNT.of f.val) 11 0 ≤ i.val ∨
      (s.vec (s.fd (FUNC.VEC_BASE.of f.val) 13 0 + i.val)).raised = false) :=
    not_or.2 ⟨Nat.not_le.2 hi, Bool.ne_false_iff.2 hraised⟩
  have htok : ¬ (s.cfd (FUNC.INT_SHARE.of f.val) 15 0 ≠ 0 ∧ (s.fnSt f.val).tokens = 0) := by tauto
  refine (live_next _ h).trans ?_
  simp only [run_look, hgo, htok, hb, hbme, hen, hmask, hfm, hl, Bool.false_and, Bool.and_self, Bool.or_self, Bool.not_true,
    Bool.false_eq_true, if_false]
  rfl

theorem sendVector_sends (v : Nat) (x : Vec) (limited : Bool) :
    let t := (sendVector f.val i.val v x limited).run s
    t.ctl.out = s.ctl.out ++ [.msix f.val i.val x.addr x.data] ∧ (t.vec v).raised = false ∧
      (t.fnSt f.val).tokens = (if limited then (s.fnSt f.val).tokens - 1 else (s.fnSt f.val).tokens) ∧
      (∀ w, w ≠ v → t.vec w = s.vec w) ∧ t.reg = s.reg ∧ t.mem = s.mem := by
  have hvec : ∀ w, ((sendVector f.val i.val v x limited).run s).vec w =
      ((modVec v fun x => { x with raised := false, throttled := false }).run s).vec w := by
    cases limited <;> exact fun _ => rfl
  refine ⟨by cases limited <;> rfl, ?_, ?_, fun w hw => ?_, by cases limited <;> rfl, by cases limited <;> rfl⟩
  · rw [hvec, vec_modVec_same]
  · cases limited
    · rfl
    · exact congrArg FnSt.tokens (fnSt_modFn f.val (fun x => { x with tokens := x.tokens - 1 })
        ((modVec v fun x => { x with raised := false, throttled := false }).run s))
  · rw [hvec, vec_modVec_other _ _ hw]

theorem exec_intBucketRefill_due {e : WEvent} {f : Nat} (h : s.powered) (hf : s.fires e (.intBucket f)) :
    exec .intBucketRefill s = .next ((doAll [leaves e false, refill f, reschedule e]).run s) := by
  calc exec .intBucketRefill s = board (dispatch _ _) s := rfl
    _ = _ := by
      rw [board_next _ h, run_dispatch_due _ hf rfl, hf.2.1, run_all_cons, run_all_cons, run_all_nil]
      rfl

theorem exec_intBucketRefill_stepped {e : WEvent} {f : Nat} (h : s.powered) (hf : s.steps e (.intBucket f)) :
    exec .intBucketRefill s = .next ((doAll [leaves e true, restartAtStep e]).run s) := by
  calc exec .intBucketRefill s = board (dispatch _ _) s := rfl
    _ = _ := by
      rw [board_next _ h, run_dispatch_stepped _ hf rfl, hf.2, run_all_cons, run_all_cons, run_all_nil]
      rfl

/-- A refill that gives tokens: one of a function that is not held, or every second of one that is. -/
theorem fnSt_refill {f : Nat} (hh : s.dmaHeld f = false ∨ (s.fnSt f).half = true) : ((refill f).run s).fnSt f = { s.fnSt f with
    tokens := min (max 1 (s.cfd (FUNC.INT_SHARE.of f) 23 16)) ((s.fnSt f).tokens + s.gained f / 500000)
    half := false
    frac := if (s.fnSt f).tokens + s.gained f / 500000 < max 1 (s.cfd (FUNC.INT_SHARE.of f) 23 16) then s.gained f % 500000 else 0 } := by
  have hc : (s.dmaHeld f && !(s.fnSt f).half) = false := by rcases hh with hh | hh <;> simp [hh]
  simp only [refill, run_look, hc, Bool.false_eq_true, if_false, fnSt_modFn]

theorem fnSt_refill_held {f : Nat} (hd : s.dmaHeld f = true) (hh : (s.fnSt f).half = false) :
    ((refill f).run s).fnSt f = { s.fnSt f with half := true } := by
  simp only [refill, run_look, hd, hh, Bool.not_false, Bool.and_self, if_true, fnSt_modFn]

end Msix

theorem msixSends : Says.MsixSends := by
  intro s f i
  refine ⟨fun h hi hraised hb hbme hen hmask hfm hl ht => ⟨_, exec_msixSend h hi hraised hb hbme hen hmask hfm hl ht, ?_⟩,
    fun e h hf => exec_intBucketRefill_due h hf, fun e h hf => exec_intBucketRefill_stepped h hf, fun hh => ?_, fun hd hh => ?_⟩
  · have hs := sendVector_sends (s := s) (f := f) (i := i) (s.fd (FUNC.VEC_BASE.of f.val) 13 0 + i.val)
      (s.vec (s.fd (FUNC.VEC_BASE.of f.val) 13 0 + i.val)) (decide (s.cfd (FUNC.INT_SHARE.of f.val) 15 0 ≠ 0))
    simpa only [decide_eq_true_eq, ite_not] using hs
  · rw [fnSt_refill hh]
    exact ⟨rfl, rfl, rfl⟩
  · rw [fnSt_refill_held hd hh]
    exact ⟨rfl, rfl, rfl⟩

/-- Settles O30: each command is its table row where its guards let it through, and a message touches its vector and its share alone. -/
theorem configurationVectorsAndMessages : Obligations.ConfigurationVectorsAndMessages := by
  unfold Obligations.ConfigurationVectorsAndMessages
  exact ⟨configurationRequests, vectorsAndRouting, msixSends⟩

end Sys2Proof.Machine
end

section
/-! PROOF. Engines reloaded, tested and reset, and the flow cache's sweep (R89, R304, R328 to R331, R335). -/

namespace Sys2Proof.Machine

section Control

variable {s : State} {a : Accessor} (hs : s.serves a Pg.flow)
include hs

theorem exec_reload : exec (.reload a) s = .next ((if a.isPort then csStatus (s.instSel a Pg.flow) ST.ACCESS_DENIED
    else mstart MA.CS_RELOAD (s.instSel a Pg.flow) .register 0).run s) := byWriter_next _ _ hs

theorem exec_selftest : exec (.selftest a) s = .next ((mstart MA.ENGINE_SELFTEST (s.instSel a Pg.flow) .register 0).run s) :=
  byWriter_next _ _ hs

theorem exec_loadDone (hp : s.fd (FLOW.CS_STATUS.of (s.instSel a Pg.flow)) 1 0 = 2) :
    exec (.loadDone a) s = .next ((setCs (s.instSel a Pg.flow) 3).run s) := by
  refine (byWriter_next _ _ hs).trans ?_
  simp only [run_look, hp, decide_true, when_true]

/-- A reset of an engine: threads and items end, latches break, channels are emptied. -/
theorem exec_engineReset : exec (.engineReset a) s = .next ((doAll [
    Prog.each (List.range 16) fun k => doAll [
      withUpc (16 * s.instSel a Pg.flow + k) fun u => abortThread (16 * s.instSel a Pg.flow + k) ST.ABORTED u,
      modThread (16 * s.instSel a Pg.flow + k) fun h => { h with xs := [] }],
    breakLatches (fun o => (List.range 16).any fun k => decide (o = ownerThread (16 * s.instSel a Pg.flow + k))),
    Prog.each (s.workQueue (s.instSel a Pg.flow)) fun q => match q with
      | .ring w => complete w ST.ABORTED 0
      | .frame _ => .skip,
    setWorkQueue (s.instSel a Pg.flow) [], emptyChans (s.instSel a Pg.flow)]).run s) := byWriter_next _ _ hs

theorem exec_icacheInv : exec (.icacheInv a) s = .next ((ctl fun c => { c with
    flow.icache := c.flow.icache.filter fun x => !decide (x.1 / 2 ^ 32 = s.instSel a Pg.flow) }).run s) := byWriter_next _ _ hs

end Control

/-- The threads of an engine, by their global numbers. -/
def engineThreads (e : Nat) : List Nat := (List.range 16).map (16 * e + ·)

/-- Threads of an engine that are READY or wait (R301): those that a drain waits for. -/
def State.busyThreads (s : State) (e : Nat) : List Nat := (engineThreads e).filter fun t => decide ((s.thread t).st ∈ [2, 3, 4, 5])

section Engine

variable {s : State} {e : Fin 64} (h : s.runsBelow 2)
include h

/-- The end of a drain (R302, R330 step 3, R331), when every thread rests or its time has passed. -/
theorem exec_csDrainDone {timeout : Bool} (hp : s.fd (FLOW.CS_STATUS.of e.val) 1 0 = 1) (ht : tget 0 s.ctl.flow.testing e.val ≠ 2)
    (hd : (s.busyThreads e.val).isEmpty = true ∨ timeout = true) :
    exec (.csDrainDone e timeout) s = .next ((doAll [
      Prog.each (if tget 0 s.ctl.flow.testing e.val = 1 then s.busyThreads e.val
          else (engineThreads e.val).filter fun t => !decide ((s.thread t).st ∈ [0, 7])) fun t =>
        withUpc t fun u => abortThread t ST.ABORTED u,
      if tget 0 s.ctl.flow.testing e.val = 1 then ctl fun c => { c with flow.testing := nset 0 c.flow.testing e.val 2 }
      else doAll [breakLatches (fun o => (engineThreads e.val).any fun t => decide (o = ownerThread t)), setCs e.val 2]]).run s) := by
  refine live_when h ?_
  rw [decide_eq_true hp, decide_eq_true ht, Bool.true_and, Bool.true_and, Bool.or_eq_true]
  exact hd

theorem exec_csCheckDone_ok (hp : s.fd (FLOW.CS_STATUS.of e.val) 1 0 = 3) (hc : s.csCrc e.val = s.rd (FLOW.CS_CRC.of e.val)) :
    exec (.csCheckDone e) s = .next ((doAll [
      Prog.each (List.range 16) fun k => startState (16 * e.val + k),
      setCs e.val 0, csStatus e.val ST.OK, wrB (FLOW.ENG_STATUS.of e.val) 1 false, int Pg.flow e.val 3,
      mend MA.CS_RELOAD e.val]).run s) := by
  refine (live_when h (decide_eq_true hp)).trans ?_
  rw [if_pos hc]

theorem exec_csCheckDone_bad (hp : s.fd (FLOW.CS_STATUS.of e.val) 1 0 = 3) (hc : s.csCrc e.val ≠ s.rd (FLOW.CS_CRC.of e.val)) :
    exec (.csCheckDone e) s = .next ((doAll [csStatus e.val ST.BAD_FIELD, setCs e.val 2]).run s) := by
  refine (live_when h (decide_eq_true hp)).trans ?_
  rw [if_neg hc]

theorem exec_selftestDone (ht : tget 0 s.ctl.flow.testing e.val = 2) (ok : Bool) : exec (.selftestDone e ok) s = .next ((doAll [
    ctl fun c => { c with flow.testing := nset 0 c.flow.testing e.val 0 },
    freeBytes 0x40000 fun b => poke 13 e.val 0 b, cleanse 13 e.val 0 0x40000,
    emptyChans e.val, setCs e.val 0,
    if ok && s.storeGood e.val then csStatus e.val ST.OK else doAll [csStatus e.val ST.ENGINE_FAULT, engineError e.val],
    mend MA.ENGINE_SELFTEST e.val]).run s) := live_when h (decide_eq_true ht)

end Engine

/-- An event that leaves the wheel writes no register of the flow engines. -/
theorem rd_leaves_due (w : WEvent) (s : State) {r : Reg} (hr : ¬ sideReg anyPage ⟨.live, r.page, r.inst, r.off⟩) :
    ((leaves w false).run s).rd r = s.rd r := by
  simp only [leaves, run_all_cons, run_all_nil, when_false, run_skip]
  exact (side_peep 2 1 w.dom _).copy .live r hr

/-- A sweep without aging ends the near copies alone. -/
theorem exec_flowCacheSweep {s : State} {w : WEvent} (h : s.runsBelow 2) (hage : s.bit FLOW.FC_CFG 8 = false)
    (hf : s.fires w (.aging 4)) : exec .flowCacheSweep s = .next ((doAll [
      leaves w false,
      ctl fun c => { c with flow := { c.flow with
        sweeps := c.flow.sweeps + 1
        near := c.flow.near.filter fun n => decide (c.flow.sweeps ≤ n.sweep) } },
      nextPeriod w false]).run s) := by
  have hage' : ((leaves w false).run s).bit FLOW.FC_CFG 8 = false := by
    rw [State.bit, rd_leaves_due w s (by simp [sideReg]), ← hage, State.bit]
  calc exec .flowCacheSweep s = live 2 (dispatch _ _) s := rfl
    _ = _ := by
      rw [live_next _ h, run_dispatch_due _ hf rfl]
      simp only [run_all_cons, run_all_nil, Bool.not_false, when_true, run_look, hage', when_false, run_skip]

/-- Settles O45: each command is its table row under its guard; no register that decides aging moves as the sweep's event leaves. -/
theorem enginesAreReloadedTestedAndReset : Obligations.EnginesAreReloadedTestedAndReset := by
  unfold Obligations.EnginesAreReloadedTestedAndReset Says.EnginesAreReloadedTestedAndReset
  intro s a e
  refine ⟨fun hs => ⟨exec_reload hs, exec_selftest hs, exec_loadDone hs, exec_engineReset hs, _, exec_icacheInv hs, ?_⟩,
    fun h hp ht timeout hd => exec_csDrainDone h hp ht hd, fun h hp => ⟨exec_csCheckDone_ok h hp, exec_csCheckDone_bad h hp⟩,
    fun h ht ok => exec_selftestDone h ht ok, fun h hage w hf => exec_flowCacheSweep h hage hf⟩
  exact ⟨upd_reg .., upd_mem .., congrArg (·.flow.icache) (upd_ctl ..)⟩

end Sys2Proof.Machine
end

section
/-! PROOF. Requests of a host to its BARs (R119, R121, R126, R135, R162, R163). -/

namespace Sys2Proof.Machine

/-! ## Words of BAR0 and of a doorbell page -/

theorem word_of_leBytes (v : Word) : BitVec.ofNat 32 (leVal (leBytes 4 v.toNat)) = v := by
  rw [leVal_leBytes, Nat.mod_eq_of_lt (by have := v.isLt; omega), BitVec.ofNat_toNat, BitVec.setWidth_eq]

section Bar0

variable {off page po : Nat} (ho : off = 65536 * page + po) (hpo : po < 65536)
include ho hpo

theorem bar0_page : off / 65536 = page := by omega

theorem bar0_offset : off % 65536 = po := by omega

variable (hp : page < 41) (h4 : po % 4 = 0) (ht : ¬ (page = 16 ∧ (0x8000 ≤ po ∨ po = 0x50)))
include hp h4 ht

/-- Outside the transom's port and aperture an aligned write of 32 bits is the write of the register. -/
theorem bar0Request_write (p : Fin 2) (v : Word) :
    bar0Request p off 4 (some (leBytes 4 v.toNat)) = routeWrite (.port p) page po v := by
  have hap : ¬ (page = 16 ∧ 0x8000 ≤ po) := fun e => ht ⟨e.1, .inl e.2⟩
  have hdata : ¬ (page = 16 ∧ po = 0x50) := fun e => ht ⟨e.1, .inr e.2⟩
  simp only [bar0Request, bar0_page ho hpo, bar0_offset ho hpo, Nat.not_le.2 hp, hap, hdata, h4, word_of_leBytes, decide_true,
    Bool.and_self, if_false, if_true]

/-- Such a read is answered with what the read of the register answers. -/
theorem bar0Request_read (p : Fin 2) (s : State) : bar0Request p off 4 none s =
    thenDo (routeRead (.port p) page po s) (done (sendAnswer (1024 * p.val) 4)) := by
  have hap : ¬ (page = 16 ∧ 0x8000 ≤ po) := fun e => ht ⟨e.1, .inl e.2⟩
  have hdata : ¬ (page = 16 ∧ po = 0x50) := fun e => ht ⟨e.1, .inr e.2⟩
  simp only [bar0Request, bar0_page ho hpo, bar0_offset ho hpo, Nat.not_le.2 hp, hap, hdata, h4, decide_true, Bool.and_self,
    if_false, if_true]

end Bar0

/-- An aligned word lies in one slot. -/
theorem slotsOf_word {off : Nat} {b : List Byte} (hb : b.length = 4) (ho : off % 4 = 0) :
    slotsOf off b = [(off / 8, off - 8 * (off / 8), slice b 0 4)] := by
  have hone : (off + b.length + 7) / 8 - off / 8 = 1 := by omega
  have hlo : max off (8 * (off / 8)) = off := by omega
  have hhi : min (off + b.length) (8 * (off / 8) + 8) - off = 4 := by omega
  simp only [slotsOf, hone, List.range_one, List.map_cons, List.map_nil, Nat.add_zero, hlo, hhi, Nat.sub_self]

/-- An aligned word in a doorbell slot rings it. -/
theorem bar2Write_doorbell (f : Fin 2048) {off : Nat} {b : List Byte} (hb : b.length = 4) (ho : off % 4 = 0) (hk : off / 8 < 4096)
    (s : State) : bar2Write f off b s = thenDo (execDoorbell f (idx 4095 (off / 8)) s) .next := by
  have hlen : 4 ≤ (slice b 0 4).length := by simp [slice]
  simp only [bar2Write, slotsOf_word hb ho, List.map_cons, List.map_nil, inTurn, hk, hlen, if_true]

/-! ## An inbound request by what it names -/

/-- The bytes that a request covers. -/
def inboundLen (len : Nat) (data : Option (List Byte)) : Nat :=
  match data with
  | some b => b.length
  | none => len

/-- Unsupported Request, where the request has an answer. -/
def answerUR (f : Nat) (rd : Bool) : Prog := Prog.when rd (emit (.hostReply (f / 1024) f replyUR []))

/-- Whether a request is refused whole: to BAR0 of another function than the management function, past the window, or of no length. -/
def leavesBar (f : Nat) (bar2 : Bool) (off n : Nat) : Bool :=
  !bar2 && !decide (f % 1024 = 0) || decide ((if bar2 then 65536 else 4194304) < off + n) || decide (n = 0)

theorem leavesBar_iff {f : Nat} {bar2 : Bool} {off n : Nat} : leavesBar f bar2 off n = true ↔
    bar2 = false ∧ f % 1024 ≠ 0 ∨ n = 0 ∨ (if bar2 then 65536 else 4194304) < off + n := by
  simp only [leavesBar, Bool.or_eq_true, Bool.and_eq_true, Bool.not_eq_true', decide_eq_true_eq, decide_eq_false_iff_not]
  tauto

theorem leavesBar_within {f : Nat} {bar2 : Bool} {off n : Nat} (hf : bar2 = false → f % 1024 = 0) (hn : 0 < n)
    (hend : off + n ≤ if bar2 then 65536 else 4194304) : leavesBar f bar2 off n = false := by
  rw [← Bool.not_eq_true, leavesBar_iff]
  rintro (⟨hb, hm⟩ | h0 | hpast)
  · exact hm (hf hb)
  · exact hn.ne' h0
  · exact hend.not_gt hpast

/-- What a request within its window does at the link as it stands. -/
def serveInbound (f : Fin 2048) (bar2 : Bool) (off len : Nat) (data : Option (List Byte)) (s : State) : Res :=
  if !bar2 && (s.linkOpen (s.linkOf f.val) || (decide (off / 65536 = 11) || decide (off / 65536 = 12))) then
    bar0Request (idx 1 (f.val / 1024)) off (inboundLen len data) data s
  else if !s.linkOpen (s.linkOf f.val) then done (answerUR f.val data.isNone) s
  else match data with
    | some b => bar2Write f off b s
    | none => bar2Read f off len s

section Inbound

variable {s : State} {f : Fin 2048} {off : Fin 4194304} {len : Fin 4097} {data : Option (List Byte)} {bar2 : Bool}
  (h : s.powered) (hup : s.linkUp (s.linkOf f.val) = true) (hpf : s.pf ≠ 2)
include h hup hpf

theorem exec_inboundMemoryRequest : exec (.inboundMemoryRequest f bar2 off len data) s =
    if !s.fnExists f.val then done (doAll [dropFor f.val, answerUR f.val data.isNone]) s
    else if leavesBar f.val bar2 off.val (inboundLen len.val data) then done (denyInbound f.val data.isNone) s
    else serveInbound f bar2 off.val len.val data s := by
  change execInboundMemoryRequest _ _ _ _ _ _ = _
  simp only [execInboundMemoryRequest, h.1, h.2, hup, hpf, Bool.and_self, Bool.not_true, Bool.or_self, Bool.false_eq_true,
    if_false]
  cases data <;> rfl

theorem exec_inboundMemoryRequest_noFunction (hx : s.fnExists f.val = false) : exec (.inboundMemoryRequest f bar2 off len data) s =
    .next ((doAll [dropFor f.val, answerUR f.val data.isNone]).run s) := by
  rw [exec_inboundMemoryRequest h hup hpf, hx]
  rfl

theorem exec_inboundMemoryRequest_refused (hx : s.fnExists f.val = true)
    (hd : leavesBar f.val bar2 off.val (inboundLen len.val data) = true) :
    exec (.inboundMemoryRequest f bar2 off len data) s = .next ((denyInbound f.val data.isNone).run s) := by
  rw [exec_inboundMemoryRequest h hup hpf, hx, hd]
  rfl

/-- A request of some length within the window of BAR0 of a management function, or of a doorbell page. -/
theorem exec_inboundMemoryRequest_within (hx : s.fnExists f.val = true) (hf : bar2 = false → f.val % 1024 = 0)
    (hn : 0 < inboundLen len.val data) (hend : off.val + inboundLen len.val data ≤ if bar2 then 65536 else 4194304) :
    exec (.inboundMemoryRequest f bar2 off len data) s = serveInbound f bar2 off.val len.val data s := by
  rw [exec_inboundMemoryRequest h hup hpf, hx, leavesBar_within hf hn hend]
  rfl

end Inbound

section Serve

variable {s : State} {f : Fin 2048}

theorem serveInbound_shut (hl : s.linkOpen (s.linkOf f.val) = false) (off len : Nat) (data : Option (List Byte)) :
    serveInbound f true off len data s = .next ((answerUR f.val data.isNone).run s) := by
  simp only [serveInbound, hl, Bool.not_true, Bool.false_and, Bool.false_eq_true, Bool.not_false, if_false, if_true, done_eq]

variable (hl : s.linkOpen (s.linkOf f.val) = true)
include hl

theorem serveInbound_bar0 (off len : Nat) (data : Option (List Byte)) :
    serveInbound f false off len data s = bar0Request (idx 1 (f.val / 1024)) off (inboundLen len data) data s := by
  simp only [serveInbound, hl, Bool.not_false, Bool.true_or, Bool.and_self, if_true]

theorem serveInbound_bar2_write (off len : Nat) (b : List Byte) :
    serveInbound f true off len (some b) s = bar2Write f off b s := by
  simp only [serveInbound, hl, Bool.not_true, Bool.false_and, Bool.false_eq_true, if_false]

end Serve

theorem inboundRequests : Says.InboundRequests := by
  intro s f off len data bar2 n ur h hup hpf
  have hn : n = inboundLen len.val data := by cases data <;> rfl
  rw [hn]
  refine ⟨exec_inboundMemoryRequest_noFunction h hup hpf,
    fun hx hd => exec_inboundMemoryRequest_refused h hup hpf hx (leavesBar_iff.2 hd), fun hx hl hb hpos hend => ?_,
    fun hx hl hend => ⟨fun hb hm h4 page o ho ht => ⟨fun v hv => ?_, fun hr hlen => ?_⟩, fun hb b hdata hlen h4 hk => ?_⟩⟩
  · subst hb
    exact (exec_inboundMemoryRequest_within h hup hpf hx (by simp) hpos hend).trans (serveInbound_shut hl ..)
  · subst hb hv
    obtain ⟨p, hp⟩ := exec_runs (.registerWrite (.port (idx 1 (f.val / 1024))) page o v) s
    refine ⟨_, hp, ?_⟩
    rw [exec_inboundMemoryRequest_within h hup hpf hx (fun _ => hm) (by simp [inboundLen, leBytes_length]) hend,
      serveInbound_bar0 hl, inboundLen, leBytes_length, bar0Request_write ho o.isLt page.isLt (by omega) ht]
    exact hp
  · subst hb hr
    obtain ⟨p, hp⟩ := runs_routeRead (.port (idx 1 (f.val / 1024))) page.val o.val s
    have hport : 1024 * (idx 1 (f.val / 1024)).val = f.val := by simp only [idx]; omega
    refine ⟨_, hp, ?_⟩
    rw [exec_inboundMemoryRequest_within h hup hpf hx (fun _ => hm) (by rw [inboundLen]; omega) hend,
      serveInbound_bar0 hl, inboundLen, hlen, bar0Request_read ho o.isLt page.isLt (by omega) ht, hp, hport]
    rfl
  · subst hb hdata
    obtain ⟨p, hp⟩ := exec_runs (.doorbell f (idx 4095 (off.val / 8))) s
    have hpos : 0 < inboundLen len.val (some b) := by rw [inboundLen]; omega
    refine ⟨_, hp, (exec_inboundMemoryRequest_within h hup hpf hx (by simp) hpos hend).trans ?_⟩
    rw [serveInbound_bar2_write hl, bar2Write_doorbell f hlen h4 hk]
    exact congrArg (thenDo · Host.Outcome.next) hp

/-- Settles O31: what a request names says what becomes of it, and a word of BAR0 or of a doorbell slot is the register's own access. -/
theorem inboundRequestsReachRegisters : Obligations.InboundRequestsReachRegisters := by
  unfold Obligations.InboundRequestsReachRegisters
  exact inboundRequests

end Sys2Proof.Machine
end

section
/-! PROOF. Links of the host ports: up and down, L0p and L1, errors (R100 to R106, R120 to R122, R132, R143). -/

namespace Sys2Proof.Machine

/-! ## Up and down (R100, R101, R122, R132, R143) -/

/-- The speed at which a port's link comes up: that of its training, within the port's cap. -/
def State.speedWithin (s : State) (h speed : Nat) : Nat :=
  min speed (if s.bit (HOST.LINK_CFG h) 4 then min (s.topSpeed h) 5 else s.topSpeed h)

/-- The width at which a port's link comes up: half a port's at most where the port forms two links. -/
def State.widthWithin (s : State) (h width : Nat) : Nat := if tget false s.ctl.host.formed2 h then min width 8 else width

section HostLinks

variable {s : State} {l : Fin 4} (h : s.powered)
include h

theorem exec_hostLinkUp {speed : Fin 8} {width : Fin 17} {flit : Bool} (hform : s.linkFormed l.val = true)
    (hperst : tget false s.ctl.host.perst l.val = true) (hoff : s.bit (HOST.CTL (l.val / 2)) 1 = false)
    (hclk : s.clockRuns (5 + l.val / 2) = true) : exec (.hostLinkUp l speed width flit) s = .next ((doAll [
      setLinkStatus l.val (s.speedWithin (l.val / 2) speed.val) (s.widthWithin (l.val / 2) width.val)
        ((flit || decide (s.speedWithin (l.val / 2) speed.val = 6)) && !s.bit (HOST.LINK_CFG (l.val / 2)) 4) true,
      modLink l.val fun k => { k with
        expectDown := false
        l1 := false
        trained := s.widthWithin (l.val / 2) width.val }]).run s) :=
  board_when h (by rw [hform, hperst, hoff, hclk]; rfl)

theorem exec_hostLinkDown (hup : s.linkUp l.val = true) :
    exec (.hostLinkDown l) s = .next ((linkDown l.val (s.link l.val).expectDown).run s) := board_when h hup

theorem exec_hotReset : exec (.hotReset l) s =
    .next ((doAll [modLink l.val fun k => { k with expectDown := true }, portReset l.val]).run s) := board_next _ h

theorem exec_linkDisable : exec (.linkDisable l) s = .next ((linkDown l.val true).run s) := board_next _ h

end HostLinks

theorem exec_linkOff {s : State} {a : Accessor} {h : Fin 2} (hs : s.serves a (11 + h.val)) (v : Word) :
    exec (.linkOff a h v) s = .next ((doAll [wr (HOST.CTL h.val) v.toNat,
      Prog.when (tbit v.toNat 1) (Prog.each [2 * h.val, 2 * h.val + 1] fun l => get fun u =>
        if u.linkUp l then linkDown l true else modLink l fun k => { k with expectDown := true })]).run s) := byWriter_next _ _ hs

theorem hostLinks : Says.HostLinks := fun _ _ h =>
  ⟨fun _ _ _ hform hperst hoff hclk => exec_hostLinkUp h hform hperst hoff hclk, exec_hostLinkDown h, exec_hotReset h,
    exec_linkDisable h, fun _ _ v hs => exec_linkOff hs v⟩

/-! ## L0p and L1 (R103) -/

theorem link_modLink_same (l : Nat) (f : Link → Link) (s : State) : ((modLink l f).run s).link l = f (s.link l) := tget_nmod_same ..

theorem link_modLink_other (f : Link → Link) (s : State) {l m : Nat} (h : m ≠ l) : ((modLink l f).run s).link m = s.link m :=
  tget_nmod_other _ _ _ h

/-- Where a link's fields begin in LINK_STATUS (R132). -/
def linkBase (l : Nat) : Nat := if l % 2 = 0 then 0 else 10

/-- The width that a link shows. -/
def State.linkWidth (s : State) (l : Nat) : Nat := s.fd (HOST.LINK_STATUS (l / 2)) (linkBase l + 7) (linkBase l + 3)

/-- A link asks for a width, and shows it. -/
def askWidth (l w : Nat) : Prog :=
  doAll [wrF (HOST.LINK_STATUS (l / 2)) (linkBase l + 7) (linkBase l + 3) w, emit (.linkAsk l 1 w)]

section LinkPower

variable {s : State} {l : Fin 4} (h : s.powered)
include h

section L0p

variable {tx rx : Fin 101} (hup : s.linkUp l.val = true) (hflit : s.bit (HOST.LINK_STATUS (l.val / 2)) (linkBase l.val + 8) = true)
  (hon : s.bit (HOST.L0P_CFG (l.val / 2)) 31 = false)
include hup hflit hon

/-- A link in L0p's reach asks for the width that its use calls for, unless it has it. -/
theorem exec_l0pWidthChange : exec (.l0pWidthChange l tx rx) s = .next ((
    if s.fd (HOST.L0P_CFG (l.val / 2)) 23 16 < max tx.val rx.val then
      Prog.when (decide ((s.link l.val).trained ≠ s.linkWidth l.val)) (askWidth l.val (s.link l.val).trained)
    else if max tx.val rx.val < s.fd (HOST.L0P_CFG (l.val / 2)) 7 0 ∧ 2 < s.linkWidth l.val then
      Prog.when (decide (s.linkWidth l.val / 2 ≠ s.linkWidth l.val)) (askWidth l.val (s.linkWidth l.val / 2))
    else .skip).run s) := board_when h (by rw [hup, hon]; exact congrArg (· && true) hflit)

theorem exec_l0pWidthChange_full (hbusy : s.fd (HOST.L0P_CFG (l.val / 2)) 23 16 < max tx.val rx.val)
    (hw : (s.link l.val).trained ≠ s.linkWidth l.val) :
    exec (.l0pWidthChange l tx rx) s = .next ((askWidth l.val (s.link l.val).trained).run s) := by
  rw [exec_l0pWidthChange h hup hflit hon, if_pos hbusy, decide_eq_true hw, when_true]

theorem exec_l0pWidthChange_half (hbusy : max tx.val rx.val ≤ s.fd (HOST.L0P_CFG (l.val / 2)) 23 16)
    (hidle : max tx.val rx.val < s.fd (HOST.L0P_CFG (l.val / 2)) 7 0) (hw : 2 < s.linkWidth l.val) :
    exec (.l0pWidthChange l tx rx) s = .next ((askWidth l.val (s.linkWidth l.val / 2)).run s) := by
  have hne : s.linkWidth l.val / 2 ≠ s.linkWidth l.val := by omega
  rw [exec_l0pWidthChange h hup hflit hon, if_neg hbusy.not_gt, if_pos ⟨hidle, hw⟩, decide_eq_true hne, when_true]

end L0p

theorem exec_aspmL1Entry (hup : s.linkUp l.val = true) (hreq : (s.ctl.host.reqs.any fun r => decide (r.port = l.val / 2)) = false)
    (hpost : (s.ctl.rings.posts.any fun p => decide (p.fn / 1024 = l.val / 2)) = false) (hltr : 40000 ≤ (s.link l.val).ltrSent) :
    exec (.aspmL1Entry l) s = .next ((modLink l.val fun k => { k with l1 := true }).run s) :=
  board_when h (by rw [hup, hreq, hpost, decide_eq_true hltr]; rfl)

theorem exec_aspmL1Exit : exec (.aspmL1Exit l) s = .next ((modLink l.val fun k => { k with l1 := false }).run s) := board_next _ h

end LinkPower

theorem linkPower : Says.LinkPower := by
  intro s l tx rx h
  have hl1 : ∀ b, (((modLink l.val fun k => { k with l1 := b }).run s).link l.val).l1 = b :=
    fun b => congrArg Link.l1 (link_modLink_same ..)
  exact ⟨fun hup hflit hon => ⟨exec_l0pWidthChange_full h hup hflit hon, exec_l0pWidthChange_half h hup hflit hon⟩,
    fun hup hreq hpost hltr => ⟨_, exec_aspmL1Entry h hup hreq hpost hltr, hl1 true, fun _ => link_modLink_other _ s, rfl, rfl⟩,
    _, exec_aspmL1Exit h, hl1 false, fun _ => link_modLink_other _ s, rfl, rfl⟩

/-! ## Errors of a link (R106, R120, R121) -/

section LinkErrors

variable {s : State} {l : Fin 4} {hdr : List Byte} (h : s.powered)
include h

theorem exec_aerError_cor (b : Fin 32) : exec (.aerError l (.cor b) hdr) s = .next ((aerCor l.val b.val).run s) := board_next _ h

theorem exec_aerError_buffer : exec (.aerError l .buffer hdr) s =
    .next ((doAll [aerUnc l.val 22 hdr, shutterClose l.val 3]).run s) := board_next _ h

/-- An error that concerns no request closes the shutter where, once logged, its severity is fatal. -/
theorem exec_aerError_unc (b : Fin 32) : exec (.aerError l (.unc b none) hdr) s = .next ((
    if (((aerUnc l.val b.val hdr).run s).link l.val).uncSev.getLsbD b.val = true then shutterClose l.val 2 else .skip).run
      ((aerUnc l.val b.val hdr).run s)) := by
  refine (board_next _ h).trans ?_
  simp only [run_all_cons, run_all_nil, run_look, Option.bind_none]

theorem exec_completionTimeout {p : Fin 2} {tag : Nat} {r : HostReq}
    (hr : s.ctl.host.reqs.find? (fun r => decide (r.port = p.val) && decide (r.tag = some tag)) = some r)
    (hcto : (s.fnCfg r.fn).ctoDis = false) : exec (.completionTimeout p tag) s = .next ((doAll [
      dropReq r.id, ctl fun c => { c with host.quar := c.host.quar ++ [(p.val, tag, r.resvTag)] },
      showTags p.val, showAts p.val, inc (HOST.CPL_TIMEOUT_CNT p.val), int (11 + p.val) 0 5, failReq r,
      aerUnc (s.linkOf r.fn) 14 [], fatalClose (s.linkOf r.fn) 14]).run s) := by
  refine (board_next _ h).trans ?_
  rw [run_look, hr]
  simp only [hcto, Bool.not_false, when_true]

end LinkErrors

theorem linkErrors : Says.LinkErrors := by
  intro s l hdr h
  refine ⟨exec_aerError_cor h, exec_aerError_buffer h, fun b => ⟨fun hfatal => ?_, fun hfatal => ?_⟩,
    fun p tag r hr => exec_completionTimeout h hr⟩
  · rw [exec_aerError_unc h, if_pos hfatal, run_all_cons, run_all_cons, run_all_nil]
  · rw [exec_aerError_unc h, if_neg (by rw [hfatal]; nofun), run_skip]

/-- Settles O29: each command is its table row under its guard; L0p's and L1's guards are the link's use and what it waits for. -/
theorem hostLinksTheirPowerAndErrors : Obligations.HostLinksTheirPowerAndErrors := by
  unfold Obligations.HostLinksTheirPowerAndErrors
  exact ⟨hostLinks, linkPower, linkErrors⟩

end Sys2Proof.Machine
end

section
/-! PROOF. Read tags, completions and translations (R105 to R114, R116, R118, R141). -/

namespace Sys2Proof.Machine

/-! ## Tags and completions (R105 to R107, R109, R110, R141) -/

/-- What becomes of a read whose turn it is, as its checks answer. -/
def serveRead (s : State) (r : HostReq) : Prog :=
  match s.checkP r.fn r.pasid r.addr r.len false with
  | .denied x => doAll [dropReq r.id, deny r.fn r.addr r.len false x, endRead r.purpose ST.ACCESS_DENIED []]
  | .miss p => askXlat r.fn r.pasid p
  | .pass => doAll [issueReq r ((s.tagFor r).getD false), noteHit r.fn r.pasid r.addr r.len]

/-- What becomes of the request whose turn it is, at an open link: a Translation Request passes no checks. -/
def serveRequest (s : State) (r : HostReq) : Prog :=
  match r.purpose with
  | .ats _ _ _ => doAll [issueReq r ((s.tagFor r).getD false), inc (XLAT.MISS_CNT r.port)]
  | _ => serveRead s r

theorem serveRequest_ats (s : State) {r : HostReq} {a b c : Nat} (hp : r.purpose = .ats a b c) :
    serveRequest s r = doAll [issueReq r ((s.tagFor r).getD false), inc (XLAT.MISS_CNT r.port)] := by
  rw [serveRequest, hp]

theorem serveRequest_read (s : State) {r : HostReq} (hp : ∀ a b c, r.purpose ≠ .ats a b c) : serveRequest s r = serveRead s r := by
  unfold serveRequest
  split
  · exact absurd ‹_› (hp _ _ _)
  · rfl

section Turn

variable {s : State} {h : Fin 2} {r : HostReq} {new : Bool} (hl : s.runsBelow 4) (hn : s.dmaNext h.val = some (r, new))
include hl hn

theorem exec_tagAllocate_shut (hs : s.linkOpen (s.linkOf r.fn) = false) : exec (.tagAllocate h) s = .next ((doAll [takeTurn r new,
    doAll [dropReq r.id, inc (HOST.SHUT_DISCARD_CNT r.port), endRead r.purpose ST.HOST_ABORT []]]).run s) := by
  refine (live_next _ hl).trans ?_
  rw [run_look, hn]
  simp only [hs, Bool.not_false, if_true]

theorem exec_tagAllocate_open (ho : s.linkOpen (s.linkOf r.fn) = true) :
    exec (.tagAllocate h) s = .next ((doAll [takeTurn r new, serveRequest s r]).run s) := by
  refine (live_next _ hl).trans ?_
  rw [run_look, hn]
  simp only [ho, Bool.not_true, Bool.false_eq_true, if_false]
  rfl

end Turn

section Completions

variable {s : State} {h : Fin 2} {tag : Nat} (hpow : s.powered)
include hpow

theorem exec_hostCompletion_read {kind : CplKind} {data : List Byte} {r : HostReq} (last : Bool)
    (hr : s.ctl.host.reqs.find? (fun r => decide (r.port = h.val) && decide (r.tag = some tag) && r.isRead) = some r) :
    exec (.hostCompletion h tag kind last data) s = .next ((
      if last then doAll [dropReq r.id, showTags h.val,
        Prog.when (!r.discard) (endRead r.purpose (if r.bad || !cplGood kind then ST.HOST_ABORT else ST.OK)
          (if r.bad || !cplGood kind then [] else slice (if cplGood kind then r.got ++ data else r.got) 0 r.len))]
      else modReq r.id fun q =>
        { q with got := if cplGood kind then r.got ++ data else r.got, bad := r.bad || !cplGood kind }).run s) := by
  refine (board_next _ hpow).trans ?_
  rw [run_look, hr]

/-- A completion for a tag that no request of the port holds. -/
theorem exec_hostCompletion_unexpected (kind : CplKind) (data : List Byte)
    (hr : s.ctl.host.reqs.find? (fun r => decide (r.port = h.val) && decide (r.tag = some tag)) = none) (last : Bool) :
    exec (.hostCompletion h tag kind last data) s = .next ((unexpectedCpl h.val).run s) := by
  have hread : s.ctl.host.reqs.find? (fun r => decide (r.port = h.val) && decide (r.tag = some tag) && r.isRead) = none := by
    rw [List.find?_eq_none] at hr ⊢
    intro r hmem hc
    exact hr r hmem (Bool.and_eq_true_iff.1 hc).1
  refine (board_next _ hpow).trans ?_
  rw [run_look, hread, hr]

theorem exec_tagQuarantineEnd : exec (.tagQuarantineEnd h tag) s = .next ((doAll [
    ctl fun c => { c with host.quar := c.host.quar.filter fun q => !(decide (q.1 = h.val) && decide (q.2.1 = tag)) },
    showTags h.val]).run s) := board_next _ hpow

end Completions

theorem tagsAndCompletions : Says.TagsAndCompletions := by
  intro s h r
  refine ⟨fun new hl hn => ⟨exec_tagAllocate_shut hl hn, fun ho a b c hp => ?_,
      fun ho hp => ⟨fun x hc => ?_, fun p hc => ?_, fun hc => ?_⟩⟩,
    fun tag kind data hpow => ⟨fun hr => ⟨exec_hostCompletion_read hpow true hr, exec_hostCompletion_read hpow false hr⟩,
      exec_hostCompletion_unexpected hpow kind data, exec_tagQuarantineEnd hpow⟩⟩
  · rw [exec_tagAllocate_open hl hn ho, serveRequest_ats s hp]
  all_goals rw [exec_tagAllocate_open hl hn ho, serveRequest_read s hp, serveRead, hc]

/-! ## Translations and invalidations (R108, R111 to R114, R116) -/

section Translations

variable {s : State} (hpow : s.powered)
include hpow

theorem exec_translationCompletion {h : Fin 2} {tag out : Nat} {lg : Fin 64} {rd wrt : Bool} {r : HostReq} {f p page : Nat}
    (hr : s.ctl.host.reqs.find? (fun r => decide (r.port = h.val) && decide (r.tag = some tag)) = some r)
    (hp : r.purpose = .ats f p page) (hd : r.discard = false) : exec (.translationCompletion h tag out lg rd wrt) s =
      .next ((doAll [dropReq r.id, showTags h.val, showAts h.val, doAll [
        fillXl (Xl.clip ⟨h.val, f, p, page, out, lg.val, rd, wrt, 0, true⟩), peep 1 3 f,
        Prog.when (!rd && !wrt) (endWaiting f p page ST.ACCESS_DENIED), retryPosts,
        Prog.when (!rd && !wrt) (ctl fun c => { c with host.xl := c.host.xl.filter fun x => x.rd || x.wr })]]).run s) := by
  refine (board_next _ hpow).trans ?_
  rw [run_look, hr]
  simp only [hp, hd, Bool.false_eq_true, if_false]

theorem exec_invalidateRequest (f : Fin 2048) (scope : InvScope) (addr size itag : Nat) :
    exec (.invalidateRequest f scope addr size itag) s = .next ((doAll [inc (XLAT.INV_REQ_CNT (f.val / 1024)),
      invalidate (f.val / 1024) f.val scope.key addr size itag false, showInval (f.val / 1024)]).run s) := board_next _ hpow

theorem exec_invalidateCompletion {h : Fin 2} {i : Inval}
    (hi : s.ctl.host.invals.find? (fun i => decide (i.port = h.val) && !i.flush && !s.invalUsers i) = some i) :
    exec (.invalidateCompletion h) s = .next ((doAll [
      ctl fun c => { c with host.invals := c.host.invals.erase i }, showInval h.val,
      emit (.invCompletion h.val i.fn i.itag), inc (XLAT.INV_CPL_CNT h.val)]).run s) := by
  refine (board_next _ hpow).trans ?_
  rw [run_look, hi]

theorem exec_xlatFlushDone {i : Inval} (hi : s.ctl.host.invals.find? (·.flush) = some i) (hu : s.invalUsers i = false) :
    exec .xlatFlushDone s = .next ((doAll [ctl fun c => { c with host.invals := c.host.invals.erase i },
      wr XLAT.FLUSH_STATUS 0, int Pg.xlat 0 1]).run s) := by
  refine (board_next _ hpow).trans ?_
  rw [run_look, hi]
  simp only [hu, Bool.not_false, when_true]

end Translations

/-! ## FLUSH and WIN_CTL (R114, R118) -/

/-- The window that WIN_SEL selects, counted over all functions (R118). -/
def State.selectedWindow (s : State) : Nat := 8 * s.fd XLAT.WIN_SEL 10 0 + s.fd XLAT.WIN_SEL 14 12

/-- The window that the base, the limit and a value of WIN_CTL make. -/
def State.writtenWindow (s : State) (v : Nat) : Window :=
  ⟨s.rdW XLAT.WIN_BASE, s.rdW XLAT.WIN_LIMIT, tbit v 0, tbit v 1, tbit v 2⟩

section Written

variable {s : State} {a : Accessor} {v : Word} (hs : s.serves a Pg.xlat)
include hs

theorem exec_xlatFlush (hbusy : s.bit XLAT.FLUSH_STATUS 0 = false) : exec (.xlatFlush a v) s = .next ((doAll [
    wr XLAT.FLUSH (v.toNat % 4096), wr XLAT.FLUSH_STATUS 1,
    invalidate (field v.toNat 10 0 / 1024) (field v.toNat 10 0)
      (if tbit v.toNat 11 then some (s.fd XLAT.FLUSH_PASID 19 0 + 1) else none) 0 (2 ^ 64) 0 true]).run s) := by
  refine (byWriter_next _ _ hs).trans ?_
  simp only [run_look, hbusy, Bool.not_false, when_true]
  rfl

theorem exec_xlatFlush_busy (hbusy : s.bit XLAT.FLUSH_STATUS 0 = true) :
    exec (.xlatFlush a v) s = .next ((wr XLAT.FLUSH (v.toNat % 4096)).run s) := by
  refine (byWriter_next _ _ hs).trans ?_
  simp only [run_look, hbusy, Bool.not_true, when_false]
  rfl

theorem exec_windowCommit : exec (.windowCommit a v) s = .next (
    (ctl fun c => { c with host.windows := nset Window.init c.host.windows s.selectedWindow (s.writtenWindow v.toNat) }).run
      ((wr XLAT.WIN_CTL (v.toNat % 8)).run s)) := byWriter_next _ _ hs

end Written

theorem rd_wr_winCtl (s : State) (v : Word) : ((wr XLAT.WIN_CTL (v.toNat % 8)).run s).rd XLAT.WIN_CTL = v.toNat % 8 := by
  have hm : RKey.mask ⟨.live, XLAT.WIN_CTL.page, XLAT.WIN_CTL.inst, XLAT.WIN_CTL.off⟩ = BitVec.ofNat 32 (2 ^ 3 - 1) := by
    decide +kernel
  have h8 : v.toNat % 8 % 2 ^ 32 = v.toNat % 8 := Nat.mod_eq_of_lt (by omega)
  rw [rd_wr_same, hm, BitVec.toNat_and, BitVec.toNat_ofNat, h8]
  exact (Nat.and_two_pow_sub_one_eq_mod _ 3).trans (Nat.mod_mod ..)

theorem windowCommit_commits {s : State} {a : Accessor} (hs : s.serves a Pg.xlat) (v : Word) :
    ∃ t, exec (.windowCommit a v) s = .next t ∧ t.rd XLAT.WIN_CTL = v.toNat % 8 ∧
      t.ctl.host.windows = nset Window.init s.ctl.host.windows s.selectedWindow (s.writtenWindow v.toNat) ∧
      (∀ b r, (b, r) ≠ (.live, XLAT.WIN_CTL) → t.copy b r = s.copy b r) ∧ t.mem = s.mem :=
  ⟨_, exec_windowCommit hs, rd_wr_winCtl s v, rfl, fun _ _ hr => copy_wr_other s _ hr, rfl⟩

theorem translations : Says.Translations := fun _ _ v =>
  ⟨fun _ _ _ _ _ _ _ _ _ _ hpow hr hp hd => exec_translationCompletion hpow hr hp hd,
    fun f scope addr size itag hpow => exec_invalidateRequest hpow f scope addr size itag,
    fun _ _ hpow hi => exec_invalidateCompletion hpow hi, exec_xlatFlush, exec_xlatFlush_busy,
    fun _ hpow hi hu => exec_xlatFlushDone hpow hi hu, fun hs => windowCommit_commits hs v⟩

/-- Settles O32: each command is its table row under its guard, and the request whose turn it is goes as its purpose and its checks say. -/
theorem tagsCompletionsAndTranslations : Obligations.TagsCompletionsAndTranslations := by
  unfold Obligations.TagsCompletionsAndTranslations
  exact ⟨tagsAndCompletions, translations⟩

end Sys2Proof.Machine
end

section
/-! PROOF. Function resets and shutters (R123, R124, R127, R143, R144). -/

namespace Sys2Proof.Machine

/-! ## Function resets (R143, R144) -/

/-- What a write of Device Control leaves in it, where the function has one. -/
def setDevCtl (f v : Nat) : Prog := Prog.when (decide (f % 1024 < 8)) (modCfg f fun c => { c with devCtl := v &&& 0x70F0 })

theorem fnSt_setDevCtl (s : State) (f v g : Nat) : ((setDevCtl f v).run s).fnSt g = s.fnSt g := by
  rw [setDevCtl, run_when]
  split <;> rfl

theorem run_flr_idle {s : State} {f : Nat} (hb : (s.fnSt f).busy = false) : (flr f).run s = (resetFn f).run s := by
  rw [flr, run_look, hb, if_neg Bool.false_ne_true]

theorem run_flr_busy {s : State} {f : Nat} (hb : (s.fnSt f).busy = true) :
    (flr f).run s = (inc (FUNC.RESET_CNT.of f)).run s := by
  rw [flr, run_look, if_pos hb]

section FunctionResets

variable {s : State} {f : Fin 2048} (h : s.powered)
include h

section Flr

variable (hup : s.linkUp (s.linkOf f.val) = true) (hr : s.ctl.host.retryEnded = true) (hpf : s.pf ≠ 2)
include hup hr hpf

/-- A write that sets Initiate Function Level Reset gets no retry status, not even during a reset (R144). -/
theorem exec_configRequest_initiatesFlr {v : Word} (hv : v.getLsbD 15 = true)
    (hx : s.fnExists f.val = true ∨ (s.fnSt f.val).busy = true) : exec (.configRequest f (.write .devCtl v)) s =
      .next ((doAll [setDevCtl f.val v.toNat, flr f.val, cfgAnswer f.val 0]).run s) := by
  have hretry : (!s.ctl.host.retryEnded || ((s.fnSt f.val).busy && !(CfgOp.write .devCtl v).initiatesFlr) ||
      decide (s.pf = 2)) = false := by simp [CfgOp.initiatesFlr, hr, hv, hpf]
  have hdrop : (!s.fnExists f.val && !(s.fnSt f.val).busy) = false := by rcases hx with hx | hx <;> simp [hx]
  have h15 : tbit v.toNat 15 = true := (tbit_eq ..).trans hv
  refine (board_next _ h).trans ?_
  simp only [cfgRequest, run_look, hup, hretry, hdrop, Bool.not_true, Bool.false_eq_true, if_false, run_all_cons, cfgWrite, h15, when_true]
  rfl

/-- The command is the write that sets Initiate Function Level Reset and leaves the rest of Device Control. -/
theorem exec_functionLevelReset (hx : s.fnExists f.val = true ∨ (s.fnSt f.val).busy = true) :
    exec (.functionLevelReset f) s = .next ((doAll [
      setDevCtl f.val ((0x8000 ||| (s.fnCfg f.val).devCtl) % 2 ^ 32), flr f.val, cfgAnswer f.val 0]).run s) := by
  have hv : (BitVec.ofNat 32 (0x8000 ||| (s.fnCfg f.val).devCtl)).getLsbD 15 = true := by simp
  exact exec_configRequest_initiatesFlr h hup hr hpf hv hx

theorem exec_functionLevelReset_idle (hb : (s.fnSt f.val).busy = false) (hx : s.fnExists f.val = true) :
    exec (.functionLevelReset f) s = .next ((doAll [
      setDevCtl f.val ((0x8000 ||| (s.fnCfg f.val).devCtl) % 2 ^ 32), resetFn f.val, cfgAnswer f.val 0]).run s) := by
  rw [exec_functionLevelReset h hup hr hpf (.inl hx), run_all_cons, run_all_cons, run_flr_idle (by rw [fnSt_setDevCtl, hb])]
  rfl

theorem exec_functionLevelReset_busy (hb : (s.fnSt f.val).busy = true) :
    exec (.functionLevelReset f) s = .next ((doAll [setDevCtl f.val ((0x8000 ||| (s.fnCfg f.val).devCtl) % 2 ^ 32),
      inc (FUNC.RESET_CNT.of f.val), cfgAnswer f.val 0]).run s) := by
  rw [exec_functionLevelReset h hup hr hpf (.inr hb), run_all_cons, run_all_cons, run_flr_busy (by rw [fnSt_setDevCtl, hb])]
  rfl

end Flr

theorem exec_vfDisable (p : Fin 2) (k : Fin 8) :
    exec (.vfDisable p k) s = .next ((vfDisable (1024 * p.val + k.val)).run s) := board_next _ h

theorem exec_functionResetDrained (hb : (s.fnSt f.val).busy = true) (hd : s.fnDrained f.val = true) :
    exec (.functionResetDrained f) s =
      .next ((finishReset f.val (doAll [resetOwnerQps f.val, blockReset f.val])).run s) :=
  board_when h (by rw [hb, hd]; rfl)

end FunctionResets

theorem functionResets : Says.FunctionResets := fun _ _ h =>
  ⟨fun hup hr hpf => ⟨exec_functionLevelReset_idle h hup hr hpf, exec_functionLevelReset_busy h hup hr hpf⟩, exec_vfDisable h,
    exec_functionResetDrained h⟩

/-! ## Shutters (R123, R124, R127) -/

/-- The state of a shutter is the low field of its status register. -/
theorem shutReg_holds (l : Fin 4) : (shutReg l.val).holds 1 0 := by
  revert l; decide +kernel

section Shutters

variable {s : State} {l : Fin 4} (h : s.powered)
include h

theorem exec_shutterReady (hs : s.shut l.val = 1) (hup : s.linkUp l.val = true) (hf : s.fenced = false) :
    exec (.shutterReady l) s = .next ((doAll [
      wrF (shutReg l.val) 1 0 2, int (11 + l.val / 2) 0 (if l.val % 2 = 0 then 1 else 3),
      Prog.when (s.bit (HOST.CTL (l.val / 2)) 0 && decide (s.fd (shutReg l.val) 7 4 = 1 ∨ s.fd (shutReg l.val) 7 4 = 4))
        (shutterRelease l.val)]).run s) := board_when h (by rw [hs, hup, hf]; rfl)

theorem exec_shutterOpen (hs : s.shut l.val = 3)
    (hd : (s.ctl.host.fns.any fun e => e.2.busy && decide (s.linkOf e.1 = l.val)) = false) :
    exec (.shutterOpen l) s = .next ((wrF (shutReg l.val) 1 0 0).run s) := board_when h (by rw [hs, hd]; rfl)

end Shutters

theorem shutterOpen_opens {s : State} {l : Fin 4} (h : s.powered) (hs : s.shut l.val = 3)
    (hd : (s.ctl.host.fns.any fun e => e.2.busy && decide (s.linkOf e.1 = l.val)) = false) :
    ∃ t, exec (.shutterOpen l) s = .next t ∧ t.shut l.val = 0 ∧ t.mem = s.mem ∧ t.ctl = s.ctl ∧
      ∀ b r, (b, r) ≠ (.live, shutReg l.val) → t.copy b r = s.copy b r :=
  ⟨_, exec_shutterOpen h hs hd, fd_wrF_same s _ 0 (by decide) (shutReg_holds l), rfl, rfl, fun _ _ hr => copy_wr_other s _ hr⟩

theorem run_releaseWrite_ready {s : State} {l : Nat} (hs : s.shut l = 2) (hf : s.fenced = false) :
    (releaseWrite l).run s = (shutterRelease l).run s := by
  rw [releaseWrite, run_look, if_pos ⟨hs, hf⟩]

/-- A release that a shutter is not READY for sets the bit that says it was refused (R127). -/
theorem run_releaseWrite_refused {s : State} {l : Nat} (hs : s.shut l ≠ 2) :
    (releaseWrite l).run s = (wrB (shutReg l) 2 true).run s := by
  rw [releaseWrite, run_look, if_neg fun ⟨hs', _⟩ => hs hs']

/-- A write of REL0 alone is a release of the port's first link. -/
theorem exec_shutterRelease_first {s : State} {a : Accessor} {p : Fin 2} {v : Word} (hs : s.serves a (11 + p.val))
    (hv : v.toNat % 4 = 1) : exec (.shutterRelease a p v) s = .next ((releaseWrite (2 * p.val)).run s) := by
  have hbit : ∀ i < 2, tbit v.toNat i = tbit 1 i := fun i hi => by rw [← tbit_mod hi, show v.toNat % 2 ^ 2 = 1 from hv]
  have h0 : tbit v.toNat 0 = true := hbit 0 (by decide)
  have h1 : tbit v.toNat 1 = false := hbit 1 (by decide)
  refine (byWriter_next _ _ hs).trans ?_
  simp only [h0, h1, when_true, when_false, run_all_cons, run_all_nil, run_skip]

theorem shuttersFollowTheirStates : Says.ShuttersFollowTheirStates := fun _ _ =>
  ⟨exec_shutterReady, shutterOpen_opens, fun _ _ _ hs hv =>
    ⟨fun hready hf => by rw [exec_shutterRelease_first hs hv, run_releaseWrite_ready hready hf],
      fun hready => by rw [exec_shutterRelease_first hs hv, run_releaseWrite_refused hready]⟩⟩

/-- Settles O28: each command is its table row under its guard; a function-level reset is the write that sets its bit. -/
theorem functionResetsAndShutters : Obligations.FunctionResetsAndShutters := by
  unfold Obligations.FunctionResetsAndShutters
  exact ⟨functionResets, shuttersFollowTheirStates⟩

end Sys2Proof.Machine
end

section
/-! PROOF. The transom port (R178 to R183, R186): words of HBM in port mode, refusals, bursts, ADVANCE and TGT. -/

namespace Sys2Proof.Machine

/-! ## Bytes of memory after a write of a list of them -/

theorem memKey_add (sp i a o : Nat) : memKey sp i (a + o) = memKey sp i a + o := (Nat.add_assoc ..).symm

theorem poke_cons (sp i a : Nat) (b : Byte) (l : List Byte) (s : State) :
    (poke sp i a (b :: l)).run s = (poke sp i (a + 1) l).run ((Prog.memSet (memKey sp i a) b).run s) := by
  have hshift : l.zipIdx 1 = l.zipIdx.map fun e => (e.1, e.2 + 1) := List.zipIdx_succ ..
  simp only [poke, Prog.each, List.zipIdx_cons, List.map_cons, run_all_cons, Nat.zero_add, Nat.add_zero, hshift, List.map_map]
  congr 2
  refine List.map_congr_left fun e _ => ?_
  simp only [Function.comp_apply, Nat.add_assoc, Nat.add_comm 1]

/-- A write of bytes leaves every byte outside their place. -/
theorem mem_poke_other (sp i a : Nat) (l : List Byte) (s : State) {k : Nat}
    (h : ¬ (memKey sp i a ≤ k ∧ k < memKey sp i a + l.length)) :
    tget 0 ((poke sp i a l).run s).mem k = tget 0 s.mem k := by
  induction l generalizing a s with
  | nil => rfl
  | cons b l ih =>
    rw [List.length_cons] at h
    rw [poke_cons, ih _ _ (by rw [memKey_add]; omega), memSet_mem, tget_nset_other _ _ _ (by omega)]

theorem bytes_succ (s : State) (sp i a n : Nat) : s.bytes sp i a (n + 1) = s.byte sp i a :: s.bytes sp i (a + 1) n := by
  simp only [State.bytes, List.range_succ_eq_map, List.map_cons, List.map_map, Nat.add_zero]
  refine congrArg _ (List.map_congr_left fun j _ => ?_)
  rw [Function.comp_apply, Nat.add_right_comm, Nat.add_assoc]

/-- The bytes that were written lie there. -/
theorem bytes_poke (sp i a : Nat) (l : List Byte) (s : State) : ((poke sp i a l).run s).bytes sp i a l.length = l := by
  induction l generalizing a s with
  | nil => rfl
  | cons b l ih =>
    have hb : ((poke sp i (a + 1) l).run ((Prog.memSet (memKey sp i a) b).run s)).byte sp i a = b := by
      rw [State.byte, mem_poke_other _ _ _ _ _ (by rw [memKey_add]; omega)]
      exact byte_memSet_same s sp i a b
    rw [poke_cons, List.length_cons, bytes_succ, hb, ih]

theorem poke_reg_ctl (sp i a : Nat) (l : List Byte) (s : State) :
    (((poke sp i a l).run s).reg, ((poke sp i a l).run s).ctl) = (s.reg, s.ctl) :=
  (composes_keep fun s => (s.reg, s.ctl)).each (fun _ _ _ => rfl) s

@[simp] theorem reg_poke (sp i a : Nat) (l : List Byte) (s : State) : ((poke sp i a l).run s).reg = s.reg :=
  congrArg Prod.fst (poke_reg_ctl ..)

@[simp] theorem ctl_poke (sp i a : Nat) (l : List Byte) (s : State) : ((poke sp i a l).run s).ctl = s.ctl :=
  congrArg Prod.snd (poke_reg_ctl ..)

@[simp] theorem rd_poke (sp i a : Nat) (l : List Byte) (s : State) (r : Reg) : ((poke sp i a l).run s).rd r = s.rd r := by
  rw [State.rd, State.copy, reg_poke]
  rfl

/-! ## ADDR (R179) -/

theorem and_word_align {y : Nat} (h : y < 2 ^ 32) : y &&& 0xFFFFFFFC = y / 4 * 4 := by
  have hm : ∀ i < 32, tbit 0xFFFFFFFC i = decide (2 ≤ i) := by decide
  refine eq_of_tbit (lt_of_le_of_lt Nat.and_le_left h) (by omega) fun i hi => ?_
  have h4 : tbit (y / 2 ^ 2 * 2 ^ 2) i = (decide (2 ≤ i) && tbit y i) := by
    rw [tbit_eq, tbit_eq, Nat.testBit_mul_two_pow, Nat.testBit_div_two_pow]
    by_cases h2 : 2 ≤ i
    · rw [Nat.sub_add_cancel h2]
    · simp [h2]
  rw [tbit_and, hm i hi, Bool.and_comm]
  exact h4.symm

/-- The address register holds 48 bits, the lowest two 0. -/
theorem tAddr_wrW (s : State) {x : Nat} (hx : x < 2 ^ 48) : ((wrW TRANSOM.ADDR x).run s).tAddr = x / 4 * 4 := by
  have hlo : maskAt .live TRANSOM.ADDR.page TRANSOM.ADDR.off = 0xFFFFFFFC := by decide +kernel
  have hhi : maskAt .live TRANSOM.ADDR.hi.page TRANSOM.ADDR.hi.off = 2 ^ 16 - 1 := by decide +kernel
  have hword : (BitVec.ofNat 32 (x % 2 ^ 32) &&& RKey.mask ⟨.live, TRANSOM.ADDR.page, TRANSOM.ADDR.inst, TRANSOM.ADDR.off⟩).toNat =
      x % 2 ^ 32 / 4 * 4 := by
    rw [BitVec.toNat_and, BitVec.toNat_ofNat, RKey.mask, hlo, Nat.mod_mod, BitVec.toNat_ofNat]
    exact and_word_align (Nat.mod_lt _ (by norm_num))
  rw [State.tAddr, State.rdW, wrW, run_all_cons, run_all_cons, run_all_nil, rd_wr_mod _ _ _ (by norm_num) hhi,
    rd_wr_other _ _ (by simp), rd_wr_same, hword]
  omega

/-! ## What an access of the transom's page leaves -/

/-- `u` differs from `s` at most in registers of the transom's page, in memory, and behind pages other than BOOT. -/
structure BesideTransom (s u : State) : Prop where
  rd : ∀ r : Reg, r.page ≠ 16 → u.rd r = s.rd r
  boot : u.ctl.boot = s.ctl.boot

namespace BesideTransom

variable {s u : State} (h : BesideTransom s u)
include h

theorem fd_eq {r : Reg} (hr : r.page ≠ 16) (hi lo : Nat) : u.fd r hi lo = s.fd r hi lo := by rw [State.fd, h.rd r hr, State.fd]

theorem bit_eq {r : Reg} (hr : r.page ≠ 16) (i : Nat) : u.bit r i = s.bit r i := by rw [State.bit, h.rd r hr, State.bit]

theorem rdW_eq {r : Reg} (hr : r.page ≠ 16) : u.rdW r = s.rdW r := by rw [State.rdW, h.rd r hr, h.rd r.hi hr, State.rdW]

theorem pf_eq : u.pf = s.pf := h.fd_eq (by decide) 1 0

theorem open_eq (a : Accessor) (page : Nat) : u.open a page = s.open a page := by
  cases a with
  | port p =>
    have hlink : u.linkUp (2 * p.val) = s.linkUp (2 * p.val) := h.bit_eq (by simp; omega) _
    have hshut : u.shut (2 * p.val) = s.shut (2 * p.val) := h.fd_eq (by simp [shutReg]; omega) 1 0
    rw [State.open, h.boot, h.pf_eq, hlink, hshut, h.fd_eq (by decide), State.open]
  | core c =>
    have hp : u.pstate = s.pstate := h.fd_eq (by decide) 1 0
    rw [State.open, h.boot, h.pf_eq, hp, State.open]

theorem owner_eq (a : Accessor) : u.owner a = s.owner a := by
  cases a with
  | port p => rw [State.owner, h.rd _ (by decide), State.owner]
  | core c => rfl

theorem serves_of {a : Accessor} {page : Nat} (hs : s.serves a page) : u.serves a page :=
  ⟨(h.open_eq a page).trans hs.1, (h.owner_eq a).trans hs.2⟩

theorem hbmOpaque_eq (addr : Nat) : u.hbmOpaque addr = s.hbmOpaque addr := by
  have hdirty : u.dirtyMiB = s.dirtyMiB := by rw [State.dirtyMiB, h.fd_eq (by decide), State.dirtyMiB]
  unfold State.hbmOpaque
  dsimp only
  rw [hdirty, h.rdW_eq (r := BLKF.STAGE_BASE) (by decide), h.rdW_eq (r := TM.SPILL_BASE) (by decide),
    h.rdW_eq (r := RDMA.RTX_BASE) (by decide), h.fd_eq (r := TM.SPILL_SIZE) (by decide), h.fd_eq (r := RDMA.RTX_SIZE) (by decide)]

end BesideTransom

/-! ## DATA in port mode, of a word of HBM (R178, R179, R186) -/

theorem transomSize_hbm (s : State) : s.transomSize 1 = 48 * 2 ^ 30 :=
  calc s.transomSize 1 = 51539607552 := rfl
    _ = _ := by norm_num

theorem transomRefusal_hbm {s : State} {wrt : Bool} {addr len : Nat} (hsp : s.tSpace = 1) (hlen : addr + len ≤ 48 * 2 ^ 30)
    (hro : wrt = true → s.hbmReadOnly addr len = false) : s.transomRefusal wrt addr len = 0 := by
  have hnow : s.transomNow wrt s.tSpace s.tInst = true := by
    rw [hsp]
    simp [State.transomNow, transomInst]
  have hsize : s.transomSize s.tSpace = 48 * 2 ^ 30 := by rw [hsp, transomSize_hbm]
  have hwr : ¬ (wrt = true ∧ s.tSpace = 1 ∧ s.hbmReadOnly addr len = true) := fun ⟨hw, _, h⟩ => by simp [hro hw] at h
  rw [State.transomRefusal, hnow, hsize, if_neg (by decide), if_neg (by omega), if_neg hwr]

theorem run_otherEntry_bytes {s : State} (h : isTable s.tSpace = false) (addr : Nat) : (otherEntry addr).run s = s := by
  rw [otherEntry, run_look, h]
  rfl

/-- A fetch from HBM where the device keeps no content of its own brings the bytes as they stand. -/
theorem run_transomFetch_hbm {s : State} (hsp : s.tSpace = 1) (n : Nat) (addr : Nat) (acc : List Byte) (k : List Byte → Prog)
    (hop : ∀ i < n, s.hbmOpaque (addr + i) = false) :
    (transomFetch n addr acc k).run s = (k (acc ++ s.bytes 1 s.tInst addr n)).run s := by
  induction n generalizing addr acc with
  | zero => simp [transomFetch, State.bytes]
  | succ n ih =>
    have h0 : s.opaqueAt 1 addr 1 = false := by simpa [State.opaqueAt] using hop 0 (by omega)
    have hstep : (transomFetch (n + 1) addr acc k).run s =
        (transomFetch n (addr + 1) (acc ++ [s.byte 1 s.tInst addr]) k).run s := by
      simp [transomFetch, transomPlace, isTable, hsp, h0]
    rw [hstep, ih _ _ fun i hi => by rw [Nat.add_right_comm]; exact hop (i + 1) (by omega), bytes_succ, List.append_assoc]
    rfl

section Data

variable {s : State} {a : Accessor} {v : Word} (hs : s.serves a Pg.transom) (hb : s.tBurst = false)
include hs hb

theorem exec_transomDataWrite (hr : s.transomRefusal true s.tAddr 4 = 0) : exec (.transomDataWrite a 4 v) s = .next ((doAll [
    otherEntry s.tAddr, wr TRANSOM.DATA v.toNat, transomStore s.tAddr (leBytes 4 v.toNat), stepAddr]).run s) := by
  refine (byWriter_next _ _ hs).trans ?_
  simp [hb, hr]

theorem exec_transomDataRead (hr : s.transomRefusal false s.tAddr 4 = 0) : exec (.transomDataRead a 4) s = .next ((doAll [
    otherEntry s.tAddr, transomFetch 4 s.tAddr [] fun b => answer (leVal b), stepAddr]).run s) := by
  refine (byReader_next _ hs.1).trans ?_
  simp [hb, hr]

end Data

/-- What a write of DATA does in HBM to a word at the address `addr`, the next one being `addr'`. -/
def putWord (addr addr' v : Nat) : Prog := doAll [
  wr TRANSOM.DATA v, poke 1 0 addr (leBytes 4 v), cleanse 1 0 addr 4, wrW TRANSOM.ADDR addr']

section PutWord

variable (addr addr' v : Nat) (s : State)

theorem mem_putWord : ((putWord addr addr' v).run s).mem = ((poke 1 0 addr (leBytes 4 v)).run ((wr TRANSOM.DATA v).run s)).mem := rfl

theorem rd_putWord {r : Reg} (hd : r ≠ TRANSOM.DATA) (hlo : r ≠ TRANSOM.ADDR) (hhi : r ≠ TRANSOM.ADDR.hi) :
    ((putWord addr addr' v).run s).rd r = s.rd r := by
  simp only [putWord, wrW, run_all_cons, run_all_nil]
  rw [rd_wr_other _ _ hhi, rd_wr_other _ _ hlo, cleanse, rd_upd, rd_poke, rd_wr_other _ _ hd]

theorem besideTransom_putWord : BesideTransom s ((putWord addr addr' v).run s) where
  rd r hr := by
    refine rd_putWord addr addr' v s ?_ ?_ ?_ <;> rintro rfl <;> exact hr rfl
  boot := by
    have hpoke := ctl_poke 1 0 addr (leBytes 4 v) ((wr TRANSOM.DATA v).run s)
    calc ((putWord addr addr' v).run s).ctl.boot = ((poke 1 0 addr (leBytes 4 v)).run ((wr TRANSOM.DATA v).run s)).ctl.boot := rfl
      _ = s.ctl.boot := by rw [hpoke, ctl_wr]

theorem tgt_putWord : ((putWord addr addr' v).run s).rd TRANSOM.TGT = s.rd TRANSOM.TGT :=
  rd_putWord _ _ _ _ (by decide) (by decide) (by decide)

theorem tAddr_putWord (h : addr' < 2 ^ 48) : ((putWord addr addr' v).run s).tAddr = addr' / 4 * 4 := tAddr_wrW _ h

theorem bytes_putWord : ((putWord addr addr' v).run s).bytes 1 0 addr 4 = leBytes 4 v :=
  bytes_poke 1 0 addr (leBytes 4 v) ((wr TRANSOM.DATA v).run s)

end PutWord

/-- A write of DATA that is not refused, in HBM, is the write of the word there and the step of ADDR. -/
theorem run_dataWrite_hbm {s : State} (hsp : s.tSpace = 1) (hin : s.tInst = 0) (v : Nat) :
    (doAll [otherEntry s.tAddr, wr TRANSOM.DATA v, transomStore s.tAddr (leBytes 4 v), stepAddr]).run s =
      (putWord s.tAddr ((s.tAddr + s.fd TRANSOM.INCR 15 0) % 2 ^ 48) v).run s := by
  have hother : (otherEntry s.tAddr).run s = s := run_otherEntry_bytes (by rw [hsp]; rfl) _
  have hrd : ∀ r, r ≠ TRANSOM.DATA → ((wr TRANSOM.DATA v).run s).rd r = s.rd r := fun r hr => rd_wr_other _ _ hr
  have hsp' : ((wr TRANSOM.DATA v).run s).tSpace = 1 := by rw [State.tSpace, State.fd, hrd _ (by decide)]; exact hsp
  have hin' : ((wr TRANSOM.DATA v).run s).tInst = 0 := by rw [State.tInst, State.fd, hrd _ (by decide)]; exact hin
  have hstore : (transomStore s.tAddr (leBytes 4 v)).run ((wr TRANSOM.DATA v).run s) =
      (cleanse 1 0 s.tAddr 4).run ((poke 1 0 s.tAddr (leBytes 4 v)).run ((wr TRANSOM.DATA v).run s)) := by
    rw [transomStore, run_look, hsp', hin']
    rfl
  have haddr : ∀ u : State, (∀ r, r ≠ TRANSOM.DATA → u.rd r = s.rd r) →
      stepAddr.run u = (wrW TRANSOM.ADDR ((s.tAddr + s.fd TRANSOM.INCR 15 0) % 2 ^ 48)).run u := fun u hu => by
    rw [stepAddr, run_look, State.tAddr, State.rdW, State.fd, hu _ (by decide), hu _ (by decide), hu _ (by decide)]
    rfl
  rw [run_all_cons, hother, run_all_cons, run_all_cons, hstore, run_all_cons, run_all_nil, haddr _ fun r hr => by
    rw [cleanse, rd_upd, rd_poke, hrd r hr]]
  rfl

/-- A read of DATA of a word in HBM where the device keeps no content of its own. -/
theorem exec_transomDataRead_hbm {s : State} {a : Accessor} (hs : s.serves a Pg.transom) (hb : s.tBurst = false) (hsp : s.tSpace = 1)
    (hin : s.tInst = 0) (hlen : s.tAddr + 4 ≤ 48 * 2 ^ 30) (hop : ∀ i < 4, s.hbmOpaque (s.tAddr + i) = false) :
    exec (.transomDataRead a 4) s =
      .next (stepAddr.run ((answer (leVal (s.bytes 1 0 s.tAddr 4))).run s)) := by
  have hother : (otherEntry s.tAddr).run s = s := run_otherEntry_bytes (by rw [hsp]; rfl) _
  rw [exec_transomDataRead hs hb (transomRefusal_hbm hsp hlen (by simp)), run_all_cons, hother, run_all_cons,
    run_transomFetch_hbm hsp 4 _ _ _ hop, hin, List.nil_append, run_all_cons, run_all_nil]

/-- A write of DATA leaves the selection and what decides where the device's own content lies, so a read at the same address brings
the word back. -/
theorem transomDataRead_putWord {s : State} {a : Accessor} {v : Word} (hs : s.serves a Pg.transom) (hb : s.tBurst = false)
    (hsp : s.tSpace = 1) (hin : s.tInst = 0) (hlen : s.tAddr + 4 ≤ 48 * 2 ^ 30) (hal : s.tAddr % 4 = 0)
    (hop : s.opaqueAt 1 s.tAddr 4 = false) :
    let t := (putWord s.tAddr (s.tAddr % 2 ^ 48) v.toNat).run s
    ∃ u, exec (.transomDataRead a 4) t = .next u ∧ u.ctl.answer = v.toNat ∧ u.mem = t.mem := by
  intro t
  have hside : BesideTransom s t := besideTransom_putWord ..
  have htgt : t.rd TRANSOM.TGT = s.rd TRANSOM.TGT := tgt_putWord ..
  have hb' : t.tBurst = s.tBurst := by rw [State.tBurst, State.bit, htgt, State.tBurst, State.bit]
  have hsp' : t.tSpace = s.tSpace := by rw [State.tSpace, State.fd, htgt, State.tSpace, State.fd]
  have hin' : t.tInst = s.tInst := by rw [State.tInst, State.fd, htgt, State.tInst, State.fd]
  have haddr : t.tAddr = s.tAddr := by
    rw [tAddr_putWord _ _ _ _ (Nat.mod_lt _ (by norm_num))]
    omega
  have hbytes : t.bytes 1 0 t.tAddr 4 = leBytes 4 v.toNat := by rw [haddr, bytes_putWord]
  have hfree : ∀ i < 4, t.hbmOpaque (t.tAddr + i) = false := by
    simpa [State.opaqueAt, hside.hbmOpaque_eq, haddr] using hop
  refine ⟨_, exec_transomDataRead_hbm (hside.serves_of hs) (hb'.trans hb) (hsp'.trans hsp) (hin'.trans hin)
    (haddr ▸ hlen) hfree, ?_, rfl⟩
  calc _ = leVal (t.bytes 1 0 t.tAddr 4) := rfl
    _ = v.toNat := by rw [hbytes, leVal_leBytes]; exact Nat.mod_eq_of_lt v.isLt

/-- Settles O34: a write of DATA in HBM is `putWord`, whose bytes lie there and are read back. -/
theorem transomReadsWhatItWrote : Obligations.TransomReadsWhatItWrote := by
  unfold Obligations.TransomReadsWhatItWrote Says.TransomReadsWhatItWrote
  intro s a v hs hb hsp hin hlen hal hro
  have hr : s.transomRefusal true s.tAddr 4 = 0 := transomRefusal_hbm hsp hlen fun _ => hro
  refine ⟨(putWord s.tAddr ((s.tAddr + s.fd TRANSOM.INCR 15 0) % 2 ^ 48) v.toNat).run s,
    (exec_transomDataWrite hs hb hr).trans (congrArg _ (run_dataWrite_hbm hsp hin v.toNat)), bytes_putWord .., fun k hk => ?_,
    tAddr_putWord _ _ _ _ (Nat.mod_lt _ (by norm_num)), fun hincr hop => ?_⟩
  · rw [mem_putWord, mem_poke_other _ _ _ _ _ (by rwa [leBytes_length]), mem_wr]
  · rw [hincr, Nat.add_zero]
    exact transomDataRead_putWord hs hb hsp hin hlen hal hop

/-! ## Refusals (R183) -/

section Refused

variable {s : State} {a : Accessor} {v : Word} (hs : s.serves a Pg.transom) (hb : s.tBurst = false)
include hs hb

theorem exec_transomDataWrite_badSize {len : Fin 9} (hl : len.val ≠ 4) :
    exec (.transomDataWrite a len v) s = .next ((transomReject 3 s.tAddr).run s) := by
  refine (byWriter_next _ _ hs).trans ?_
  rw [run_look, hb, if_neg (by decide), if_pos hl]

theorem exec_transomDataRead_badSize {len : Fin 9} (hl : len.val ≠ 4) :
    exec (.transomDataRead a len) s = .next ((doAll [transomReject 3 s.tAddr, answer 0]).run s) := by
  refine (byReader_next _ hs.1).trans ?_
  rw [run_look, hb, if_neg (by decide), if_pos hl]

theorem exec_transomDataWrite_refused (hr : s.transomRefusal true s.tAddr 4 ≠ 0) :
    exec (.transomDataWrite a 4 v) s = .next ((transomReject (s.transomRefusal true s.tAddr 4) s.tAddr).run s) := by
  refine (byWriter_next _ _ hs).trans ?_
  rw [run_look, hb, if_neg (by decide), if_neg (by decide)]
  split
  next h => exact absurd h hr
  next => rfl

end Refused

/-! ## The aperture in burst mode (R180 to R182) -/

section Burst

variable {s : State} {a : Accessor} (hs : s.serves a Pg.transom) (hb : s.tBurst = true) {x : Fin 65536}
include hs hb

theorem exec_apertureWrite {b : List Byte} (hok : apertureOk x.val b.length s.tAddr = true)
    (hr : s.transomRefusal true (s.tAddr + x.val - 0x8000) b.length = 0) :
    exec (.apertureWrite a x b) s = .next ((doAll [transomStore (s.tAddr + x.val - 0x8000) b, get fun t =>
      if 32768 ≤ t.fd TRANSOM.FILL 15 0 + b.length then advance
      else wr TRANSOM.FILL (t.fd TRANSOM.FILL 15 0 + b.length)]).run s) := by
  refine (byWriter_next _ _ hs).trans ?_
  simp only [run_look, hb, hok, hr, Bool.not_true, Bool.false_eq_true, if_false]

theorem exec_apertureRead {len : Fin 513} (hok : apertureOk x.val len.val s.tAddr = true)
    (hr : s.transomRefusal false (s.tAddr + x.val - 0x8000) len.val = 0) :
    exec (.apertureRead a x len) s =
      .next ((transomFetch len.val (s.tAddr + x.val - 0x8000) [] fun b => answer (leVal b)).run s) := by
  refine (byReader_next _ hs.1).trans ?_
  simp only [run_look, hb, hok, hr, Bool.not_true, Bool.false_eq_true, if_false]

end Burst

/-! ## ADVANCE and TGT (R180 to R182, R186) -/

theorem Side.transom {P : Nat → Prop} {s t : State} (h : Side P s t) : t.ctl.transom = s.ctl.transom := by
  obtain ⟨_, _, _, _, _, _, _, _, e⟩ := h.ctl
  rw [e]

/-- A partial entry is gone, and nothing else of what stands behind the transom's registers. -/
theorem transom_dropPartial (s : State) : (dropPartial.run s).ctl.transom = { s.ctl.transom with coll := [] } := by
  rw [dropPartial, run_look, run_when]
  split
  · exact (side_int Pg.transom 0 1 _).transom
  next h =>
    have hnil : s.ctl.transom.coll = [] := by simpa using h
    rw [← hnil]

section Registers

variable {s : State} {a : Accessor} {v : Word} (hs : s.serves a Pg.transom)
include hs

theorem exec_advance (hv : tbit v.toNat 0 = true) : exec (.advance a v) s = .next ((doAll [
    dropPartial, wrW TRANSOM.ADDR ((s.tAddr + 32768) % 2 ^ 48), wr TRANSOM.FILL 0]).run s) := by
  refine (byWriter_next _ _ hs).trans ?_
  rw [hv]
  rfl

theorem exec_tgtWrite : exec (.tgtWrite a v) s = .next ((doAll [dropPartial, dropLatched, wr TRANSOM.TGT v.toNat]).run s) :=
  byWriter_next _ _ hs

theorem advance_moves (hv : tbit v.toNat 0 = true) : ∃ t, exec (.advance a v) s = .next t ∧
    t.tAddr = (s.tAddr + 32768) % 2 ^ 48 / 4 * 4 ∧ t.rd TRANSOM.FILL = 0 ∧ t.ctl.transom.coll = [] := by
  refine ⟨_, exec_advance hs hv, ?_, ?_, ?_⟩
  · rw [run_all_cons, run_all_cons, run_all_cons, run_all_nil, State.tAddr, State.rdW, rd_wr_other _ _ (by decide),
      rd_wr_other _ _ (by decide)]
    exact tAddr_wrW _ (Nat.mod_lt _ (by norm_num))
  · rw [run_all_cons, run_all_cons, run_all_cons, run_all_nil, rd_wr_same, BitVec.zero_and]
    rfl
  · exact congrArg TransomSt.coll (transom_dropPartial s)

theorem tgtWrite_takes : ∃ t, exec (.tgtWrite a v) s = .next t ∧ t.ctl.transom.coll = [] ∧ t.ctl.transom.latched = none ∧
    t.rd TRANSOM.TGT = (v &&& RKey.mask ⟨.live, 16, 0, 0x40⟩).toNat := by
  refine ⟨_, exec_tgtWrite hs, congrArg TransomSt.coll (transom_dropPartial s), rfl, ?_⟩
  rw [run_all_cons, run_all_cons, run_all_cons, run_all_nil, rd_wr_same, BitVec.ofNat_toNat, BitVec.setWidth_eq]
  rfl

end Registers

/-- Settles O35: each access meets its refusal or none; ADVANCE and TGT write their registers after the partial entry is gone. -/
theorem transomRefusalsAndBursts : Obligations.TransomRefusalsAndBursts := by
  unfold Obligations.TransomRefusalsAndBursts Says.TransomRefusalsAndBursts
  intro s a v hs
  refine ⟨fun len hb hl => ⟨exec_transomDataWrite_badSize hs hb hl, exec_transomDataRead_badSize hs hb hl⟩, ?_,
    fun x b hb hok hr => exec_apertureWrite hs hb hok hr, fun x len hb hok hr => exec_apertureRead hs hb hok hr,
    advance_moves hs, tgtWrite_takes hs⟩
  rintro _ hb rfl hr
  exact exec_transomDataWrite_refused hs hb hr

end Sys2Proof.Machine
end

section
/-! PROOF. Work and completion rings (R154, R158, R160, R163 to R168, R175, R176). -/

namespace Sys2Proof.Machine

/-! ## Work rings (R154, R163 to R168) -/

/-- What reaches the page of a function whose link is OPEN, which exists and is not in reset. -/
theorem run_atPage {s : State} {f : Nat} (p : Prog) (hl : s.linkOpen (s.linkOf f) = true) (hx : s.fnExists f = true)
    (hb : (s.fnSt f).busy = false) : (atPage f p).run s = p.run s := by
  rw [atPage, run_look, hl, hx, hb]
  rfl

theorem run_atPage_noFunction {s : State} {f : Nat} (p : Prog) (hl : s.linkOpen (s.linkOf f) = true) (hx : s.fnExists f = false) :
    (atPage f p).run s = (dropFor f).run s := by
  rw [atPage, run_look, hl, hx]
  rfl

section WorkRings

variable {s : State} (h : s.runsBelow 4)
include h

section Doorbell

variable {f : Fin 2048} {w : Fin 4096} (hl : s.linkOpen (s.linkOf f.val) = true)
include hl

theorem exec_doorbell (hx : s.fnExists f.val = true) (hb : (s.fnSt f.val).busy = false) :
    exec (.doorbell f w) s = .next ((doorbell f.val w.val).run s) :=
  (live_next _ h).trans (congrArg _ (run_atPage _ hl hx hb))

theorem exec_doorbell_ring (hx : s.fnExists f.val = true) (hb : (s.fnSt f.val).busy = false) {r : Nat}
    (hr : s.ringAt false f.val w.val = some r) : exec (.doorbell f w) s = .next ((doAll [startScan r, peep 0 0 r]).run s) := by
  rw [exec_doorbell h hl hx hb, doorbell, run_look, hr]

theorem exec_doorbell_noRing (hx : s.fnExists f.val = true) (hb : (s.fnSt f.val).busy = false)
    (hr : s.ringAt false f.val w.val = none) :
    exec (.doorbell f w) s = .next ((doAll [inc RING.DB_DROP_CNT, int Pg.ring 0 0]).run s) := by
  rw [exec_doorbell h hl hx hb, doorbell, run_look, hr]

theorem exec_doorbell_noFunction (hx : s.fnExists f.val = false) :
    exec (.doorbell f w) s = .next ((doAll [inc (FUNC.EVT_DROP_CNT.of f.val), int Pg.func 0 1]).run s) :=
  (live_next _ h).trans (congrArg _ (run_atPage_noFunction _ hl hx))

end Doorbell

theorem exec_descriptorConfirm {f r turn : Nat} {new : Bool} {b : List Byte} (hp : s.pickRing = some (f, new, r, turn))
    (hr : s.headReady r = some b) : exec .descriptorConfirm s = .next ((doAll [Prog.when new (beginVisit f),
      modFn f fun x => { x with deficit := x.deficit - 1 },
      ctl fun c => { c with rings.visit := f }, ctl fun c => { c with rings.visiting := true },
      ctl fun c => { c with rings.turn := turn },
      ctl fun c => { c with rings.lastRing := nset 0 c.rings.lastRing f (r + 1) }, confirm r b]).run s) := by
  refine (live_next _ h).trans ?_
  simp only [run_look, hp, hr]

section Arrival

variable {r : Fin 65536} {e : Nat} {b : Option (List Byte)} {t : List Held} (hh : (s.ring r.val).held = ⟨e, some b⟩ :: t)
  (ha : (s.ring r.val).st = .active)
include hh ha

theorem exec_descriptorArrival_unowned (hr : s.headReady r.val = none) : exec (.descriptorArrival r) s = .next ((doAll [
    incBy RING.PREFETCH_DROP_CNT (s.ring r.val).held.length, Prog.each (s.ring r.val).held (fun _ => peep 0 3 r.val),
    dropHeld r.val, endScan r.val]).run s) := by
  refine (live_next _ h).trans ?_
  simp only [run_look, hh, ha, hr, ne_eq, not_true_eq_false, if_false, Option.isSome_none, Bool.false_eq_true]

theorem exec_descriptorArrival_ready (hr : (s.headReady r.val).isSome = true) :
    exec (.descriptorArrival r) s = .next ((noteStall r.val).run s) := by
  refine (live_next _ h).trans ?_
  simp only [run_look, hh, ha, hr, ne_eq, not_true_eq_false, if_false, if_true]

end Arrival

theorem exec_ringPoll {e : WEvent} {r : Nat} (hf : s.fires e (.ringPoll r)) :
    exec .ringPoll s = .next ((doAll [leaves e false, startScan r, reschedule e]).run s) := by
  calc exec .ringPoll s = live 4 (dispatch _ _) s := rfl
    _ = _ := by
      rw [live_next _ h, run_dispatch_due _ hf rfl, hf.2.1]
      rfl

theorem exec_ringDrained {r : Fin 65536} (hd : (s.ring r.val).st = .draining) (hw : (s.worksOf r.val).isEmpty = true) :
    exec (.ringDrained r) s = .next ((modRing r.val fun x => { x with st := .off }).run s) :=
  live_when h (by rw [hd, hw]; rfl)

end WorkRings

theorem ring_modRing_same (r : Nat) (f : RingSt → RingSt) (s : State) : ((modRing r f).run s).ring r = f (s.ring r) :=
  tget_nmod_same ..

theorem ring_modRing_other (f : RingSt → RingSt) (s : State) {r q : Nat} (hq : q ≠ r) : ((modRing r f).run s).ring q = s.ring q :=
  tget_nmod_other _ _ _ hq

theorem workRings : Says.WorkRings := fun s h =>
  ⟨fun _ _ _ hl hx hb => exec_doorbell_ring h hl hx hb, fun _ _ hl hx hb => exec_doorbell_noRing h hl hx hb,
    fun _ _ hl hx => exec_doorbell_noFunction h hl hx, fun _ _ _ _ _ => exec_descriptorConfirm h,
    fun _ _ _ _ hh ha => ⟨exec_descriptorArrival_unowned h hh ha, exec_descriptorArrival_ready h hh ha⟩,
    fun _ _ => exec_ringPoll h,
    fun _ hd hw => ⟨_, exec_ringDrained h hd hw, congrArg RingSt.st (ring_modRing_same ..), fun _ hq => ring_modRing_other _ s hq, rfl, rfl⟩⟩

/-! ## Completion rings (R158, R175, R176) -/

section CompletionRings

variable {s : State} (h : s.runsBelow 4)
include h

section HeadWrite

variable {f c : Fin 2048} {v : Word} {r : Nat} (hl : s.linkOpen (s.linkOf f.val) = true) (hx : s.fnExists f.val = true)
  (hb : (s.fnSt f.val).busy = false) (hr : s.ringAt true f.val c.val = some r)
include hl hx hb hr

theorem exec_headWrite (hlt : field v.toNat 15 0 < s.ringSize r)
    (hle : (field v.toNat 15 0 + s.ringSize r - (s.ring r).swHead) % s.ringSize r ≤
      ((s.ring r).widx + s.ringSize r - (s.ring r).swHead) % s.ringSize r) :
    exec (.headWrite f c v) s = .next ((doAll [
      modRing r fun x => { x with swHead := field v.toNat 15 0 },
      Prog.when (tbit v.toNat 31) (if (s.ring r).widx = field v.toNat 15 0 then modRing r fun x => { x with armed := true }
        else doAll [modRing r fun x => { x with armed := false }, raiseCpl r]), kickAll]).run s) := by
  refine (live_next _ h).trans ?_
  rw [run_atPage _ hl hx hb, headWrite, run_look, hr]
  dsimp only
  rw [if_pos ⟨hlt, hle⟩]

theorem exec_headWrite_refused (hout : s.ringSize r ≤ field v.toNat 15 0 ∨
      ((s.ring r).widx + s.ringSize r - (s.ring r).swHead) % s.ringSize r <
        (field v.toNat 15 0 + s.ringSize r - (s.ring r).swHead) % s.ringSize r) :
    exec (.headWrite f c v) s = .next ((doAll [inc RING.HEAD_REJ_CNT, int Pg.ring 0 1]).run s) := by
  refine (live_next _ h).trans ?_
  rw [run_atPage _ hl hx hb, headWrite, run_look, hr]
  dsimp only
  rw [if_neg (by omega)]

end HeadWrite

end CompletionRings

/-! ## Work items: NOP and scatter lists (R158, R160) -/

/-- An effect on a work item that exists. -/
theorem run_withWork {s : State} {w : Nat} {x : Work} (k : Work → Prog) (hw : s.work? w = some x) :
    (withWork w k).run s = (k x).run s := by
  rw [withWork, run_look, hw]

/-- The address and the length that an element of a scatter list gives. -/
def sglPiece (b : List Byte) : Nat × Nat := (leAt b 0 8, leAt b 8 4)

/-- LAST of an element of a scatter list. -/
def sglLast (b : List Byte) : Bool := tbit (leAt b 12 4) 0

/-- Whether an element that follows the list `l` breaks a rule of R160, in a work item of `n` bytes. -/
abbrev sglBad (l : List (Nat × Nat)) (n : Nat) (b : List Byte) : Prop :=
  (sglPiece b).2 = 0 ∨ (sglLast b = false ∧ 64 ≤ (l ++ [sglPiece b]).length) ∨
    (sglLast b = true ∧ ((l ++ [sglPiece b]).map (·.2)).sum ≠ n)

section WorkItems

variable {s : State} (h : s.runsBelow 4) {id : Nat} {w : Work} (hw : s.work? id = some w)
include h hw

theorem exec_ringNop (ht : w.typ = 0) (hst : w.stage = 0) : exec (.ringNop id) s = .next ((complete id ST.OK 0).run s) := by
  refine (live_next _ h).trans ?_
  rw [run_withWork _ hw, ht, hst]
  rfl

section Element

variable {st : Nat} {b : List Byte} (hg : s.gathered (sglPlace id) 16 = some (st, b))
include hg

/-- The element's bytes go from where they arrived, and the work item that takes it is as it was. -/
theorem exec_sglArrival : exec (.sglArrival id) s = .next ((doAll [dropReads fun q => (sglPlace id q).isSome,
    if st ≠ ST.OK then refuseWork id st
    else if sglBad w.sgl w.length b then refuseWork id ST.BAD_LENGTH
    else doAll [modWork id fun x => { x with sgl := w.sgl ++ [sglPiece b], stage := if sglLast b then 2 else 1 },
      if !sglLast b then readSgl id w (w.sgl ++ [sglPiece b]).length
      else if w.typ / 16 = 3 then blockReady id
      else fetchSource id]]).run s) := by
  have hw' : ((dropReads fun q => (sglPlace id q).isSome).run s).work? id = some w := hw
  refine (live_next _ h).trans ?_
  rw [run_look, hg]
  dsimp only
  rw [run_all_cons, run_all_cons, run_withWork _ hw']
  rfl

theorem exec_sglArrival_failed (hst : st ≠ ST.OK) : exec (.sglArrival id) s =
    .next ((doAll [dropReads fun q => (sglPlace id q).isSome, refuseWork id st]).run s) := by
  rw [exec_sglArrival h hw hg, if_pos hst]

theorem exec_sglArrival_bad (hst : st = ST.OK) (hbad : sglBad w.sgl w.length b) : exec (.sglArrival id) s =
    .next ((doAll [dropReads fun q => (sglPlace id q).isSome, refuseWork id ST.BAD_LENGTH]).run s) := by
  rw [exec_sglArrival h hw hg, if_neg (not_not.2 hst), if_pos hbad]

theorem exec_sglArrival_last (hst : st = ST.OK) (hlen : (sglPiece b).2 ≠ 0) (hlast : sglLast b = true)
    (hsum : ((w.sgl ++ [sglPiece b]).map (·.2)).sum = w.length) : exec (.sglArrival id) s =
    .next ((doAll [dropReads fun q => (sglPlace id q).isSome,
      modWork id fun x => { x with sgl := w.sgl ++ [sglPiece b], stage := 2 },
      if w.typ / 16 = 3 then blockReady id else fetchSource id]).run s) := by
  have hgood : ¬ sglBad w.sgl w.length b := by
    rintro (hzero | ⟨hmore, -⟩ | ⟨-, hne⟩)
    · exact hlen hzero
    · exact absurd (hmore.symm.trans hlast) (by decide)
    · exact hne hsum
  rw [exec_sglArrival h hw hg, if_neg (not_not.2 hst), if_neg hgood, hlast]
  rfl

theorem exec_sglArrival_more (hst : st = ST.OK) (hlen : (sglPiece b).2 ≠ 0) (hlast : sglLast b = false)
    (hroom : (w.sgl ++ [sglPiece b]).length < 64) : exec (.sglArrival id) s =
    .next ((doAll [dropReads fun q => (sglPlace id q).isSome,
      modWork id fun x => { x with sgl := w.sgl ++ [sglPiece b], stage := 1 },
      readSgl id w (w.sgl ++ [sglPiece b]).length]).run s) := by
  have hgood : ¬ sglBad w.sgl w.length b := by
    rintro (hzero | ⟨-, hfull⟩ | ⟨hend, -⟩)
    · exact hlen hzero
    · omega
    · exact absurd (hlast.symm.trans hend) (by decide)
  rw [exec_sglArrival h hw hg, if_neg (not_not.2 hst), if_neg hgood, hlast]
  rfl

end Element

end WorkItems

theorem completionRings : Says.CompletionRings := fun _ h =>
  ⟨fun _ _ _ _ hl hx hb hr => ⟨exec_headWrite h hl hx hb hr, exec_headWrite_refused h hl hx hb hr⟩,
    fun _ _ => exec_ringNop h,
    fun _ _ _ _ hg hw => ⟨exec_sglArrival_failed h hw hg, exec_sglArrival_bad h hw hg, exec_sglArrival_last h hw hg,
      exec_sglArrival_more h hw hg⟩⟩

/-- Settles O33: each command is its table row under its guard; the reads of a list that go leave its work item as it was. -/
theorem ringsFetchAndComplete : Obligations.RingsFetchAndComplete := by
  unfold Obligations.RingsFetchAndComplete
  exact ⟨workRings, completionRings⟩

end Sys2Proof.Machine
end

section
/-! PROOF. Frame preemption, LPI, lanes and FlexE calendars (R189 to R195, R202, R204, R211 to R213, R292, R295). -/

namespace Sys2Proof.Machine

/-! ## What completions and host writes leave of the network's state -/

/-- `t` has the network's state of `s` behind the registers. -/
def SameNet (s t : State) : Prop := t.ctl.net = s.ctl.net

theorem composes_sameNet : Composes SameNet := composes_keep (·.ctl.net)

theorem Side.net {P : Nat → Prop} {s t : State} (h : Side P s t) : t.ctl.net = s.ctl.net := by
  obtain ⟨_, _, _, _, _, _, _, _, e⟩ := h.ctl
  rw [e]

theorem sameNet_side {p : Prog} (h : p.side anyPage) : p.within SameNet := fun s => (h s).net

/-- Two effects in order. -/
theorem Composes.pair {R : State → State → Prop} (c : Composes R) {p q : Prog} (hp : p.within R) (hq : q.within R) :
    (Prog.all [p, q]).within R := c.cons hp (c.cons hq c.nil)

theorem within_ite {R : State → State → Prop} {c : Prop} [Decidable c] {p q : Prog} (hp : p.within R) (hq : q.within R) :
    (if c then p else q).within R := by
  split
  · exact hp
  · exact hq

theorem sameNet_wrB (r : Reg) (i : Nat) (b : Bool) : (wrB r i b).within SameNet := fun _ => rfl

theorem sameNet_withWork {w : Nat} {k : Work → Prog} (h : ∀ x, (k x).within SameNet) : (withWork w k).within SameNet :=
  within_look fun s => by
    cases s.work? w with
    | none => exact composes_sameNet.skip
    | some x => exact h x

theorem sameNet_deny (f addr len : Nat) (wrt byXlat : Bool) : (deny f addr len wrt byXlat).within SameNet :=
  within_look fun _ => composes_sameNet.pair (within_ite (fun _ => rfl) fun _ => rfl) (sameNet_side (side_int _ _ _))

theorem sameNet_askXlat (f pas page : Nat) : (askXlat f pas page).within SameNet :=
  within_look fun _ => composes_sameNet.when fun _ => rfl

theorem sameNet_noteHit (f pas addr len : Nat) : (noteHit f pas addr len).within SameNet :=
  within_look fun _ => composes_sameNet.when <|
    composes_sameNet.cons (composes_sameNet.each fun _ _ => sameNet_side (side_traceConfirmed _ _ _)) <|
    composes_sameNet.cons (fun _ => rfl) <| composes_sameNet.pair (sameNet_side (side_peep _ _ _)) (fun _ => rfl)

theorem sameNet_putOut (f pas addr : Nat) (b : List Byte) : (putOut f pas addr b).within SameNet :=
  within_look fun _ => composes_sameNet.cons (sameNet_noteHit _ _ _ _) <|
    composes_sameNet.cons (composes_sameNet.each fun _ _ _ => rfl) <|
    composes_sameNet.cons (sameNet_side (side_peep _ _ _)) <|
    composes_sameNet.pair (within_look fun _ => composes_sameNet.when fun _ => rfl) (within_look fun _ => composes_sameNet.when fun _ => rfl)

theorem sameNet_endRead (p : Purpose) (st : Nat) (b : List Byte) : (endRead p st b).within SameNet := by
  cases p <;> exact fun _ => rfl

theorem sameNet_hostReadP (f pas addr len : Nat) (p : Purpose) : (hostReadP f pas addr len p).within SameNet :=
  within_look fun _ => within_ite (fun _ => rfl) <|
    composes_sameNet.pair (fun _ => rfl) (sameNet_endRead _ _ _)

theorem sameNet_kickAll : kickAll.within SameNet :=
  within_look fun _ => composes_sameNet.each fun _ _ => within_look fun _ => composes_sameNet.each fun _ _ =>
    composes_sameNet.cons (fun _ => rfl) <| composes_sameNet.pair (sameNet_hostReadP _ _ _ _ _) (sameNet_side (side_peep _ _ _))

theorem sameNet_endWork (id : Nat) (w : Work) : (endWork id w).within SameNet :=
  composes_sameNet.cons (fun _ => rfl) <| composes_sameNet.pair (fun _ => rfl) sameNet_kickAll

theorem sameNet_raiseCpl (c : Nat) : (raiseCpl c).within SameNet :=
  within_look fun _ => composes_sameNet.when (sameNet_side (side_evt _))

theorem sameNet_badDescriptor : (doAll [inc RING.BAD_DESC_CNT, int Pg.ring 0 2]).within SameNet :=
  composes_sameNet.pair (fun _ => rfl) (sameNet_side (side_int _ _ _))

theorem sameNet_writeCpl (p : Post) (id : Nat) (w : Work) : (writeCpl p id w).within SameNet := within_look fun s => by
  dsimp only
  refine within_ite (composes_sameNet.pair (fun _ => rfl) (sameNet_endWork _ _))
    (within_ite (sameNet_endWork _ _) ?_)
  split
  case h_1 =>
    exact composes_sameNet.pair (sameNet_deny _ _ _ _ _) (sameNet_endWork _ _)
  case h_2 => exact composes_sameNet.pair (sameNet_askXlat _ _ _) (fun _ => rfl)
  case h_3 =>
    exact composes_sameNet.cons (sameNet_putOut _ _ _ _) <| composes_sameNet.cons (composes_sameNet.when sameNet_badDescriptor) <|
      composes_sameNet.cons (fun _ => rfl) <| composes_sameNet.cons (fun _ => rfl) <|
      composes_sameNet.cons (sameNet_side (side_peep _ _ _)) <|
      composes_sameNet.pair (composes_sameNet.when (sameNet_raiseCpl _)) sameNet_kickAll

theorem sameNet_serveWrites (p : Post) (l : List (Nat × List Byte)) : (serveWrites p l).within SameNet := by
  induction l generalizing p with
  | nil =>
    unfold serveWrites
    split
    · exact composes_sameNet.skip
    · exact sameNet_withWork fun _ => sameNet_writeCpl _ _ _
  | cons e l ih =>
    refine within_look fun s => within_ite (ih p) <| within_ite
      (composes_sameNet.pair (fun _ => rfl) (ih p)) (within_ite (ih p) ?_)
    split
    case h_1 => exact composes_sameNet.pair (sameNet_deny _ _ _ _ _) (ih _)
    case h_2 => exact composes_sameNet.pair (sameNet_askXlat _ _ _) (fun _ => rfl)
    case h_3 => exact composes_sameNet.pair (sameNet_putOut _ _ _ _) (ih p)

theorem sameNet_post (p : Post) : (post p).within SameNet :=
  within_look fun _ => composes_sameNet.when (within_ite (fun _ => rfl) (sameNet_serveWrites p _))

theorem sameNet_completeWith (id st len : Nat) (writes : List (Nat × List Byte)) (ts : Option (Nat × Option Nat))
    (extra : List (Nat × List Byte)) : (completeWith id st len writes ts extra).within SameNet :=
  sameNet_withWork fun _ => sameNet_post _

/-! ## What a calendar switch leaves of the switches that may go -/

/-- `t` has the groups of `s` that may switch. -/
def SameCa (s t : State) : Prop := t.ctl.net.calCa = s.ctl.net.calCa

theorem composes_sameCa : Composes SameCa := composes_keep (·.ctl.net.calCa)

theorem sameCa_of_sameNet {p : Prog} (h : p.within SameNet) : p.within SameCa := fun s => congrArg NetSt.calCa (h s)

theorem sameCa_side {p : Prog} (h : p.side anyPage) : p.within SameCa := sameCa_of_sameNet (sameNet_side h)

theorem sameCa_copyGone (c : Copy) (st : Nat) (sent : Option (Nat × Nat × Option Nat × Nat)) :
    (copyGone c st sent).within SameCa := by
  unfold copyGone
  split
  · exact composes_sameCa.skip
  next w =>
    refine within_look fun s => within_ite (fun _ => rfl) (composes_sameCa.pair (fun _ => rfl) ?_)
    split <;> exact sameCa_of_sameNet (sameNet_completeWith _ _ _ _ _ _)

theorem sameCa_sendPause (p g quanta : Nat) : (sendPause p g quanta).within SameCa :=
  within_look fun _ => composes_sameCa.when <| composes_sameCa.cons (fun _ => rfl) <|
    composes_sameCa.cons (within_ite (fun _ => rfl) fun _ => rfl) fun _ => rfl

theorem sameCa_pauseCheck (p g : Nat) : (pauseCheck p g).within SameCa :=
  within_look fun _ => within_ite (composes_sameCa.pair (fun _ => rfl) (sameCa_sendPause _ _ _))
    (within_ite (composes_sameCa.pair (fun _ => rfl) (sameCa_sendPause _ _ _))
      composes_sameCa.skip)

theorem sameCa_pauseOf (c : Copy) : (pauseOf c).within SameCa := by
  unfold pauseOf
  split
  · exact composes_sameCa.seq (sameCa_pauseCheck _ _) (sameCa_pauseCheck _ _)
  · exact composes_sameCa.skip

theorem sameCa_portDown (p : Nat) : (portDown p).within SameCa := by
  refine within_look fun s => composes_sameCa.when <| composes_sameCa.cons (fun _ => rfl) <|
    composes_sameCa.cons (sameCa_side (side_int _ _ _)) <| composes_sameCa.cons (fun _ => rfl) <|
    composes_sameCa.pair (fun _ => rfl) (composes_sameCa.each fun k _ => ?_)
  split
  · exact composes_sameCa.cons (fun _ => rfl) <| composes_sameCa.pair (sameCa_copyGone _ _ _) (sameCa_pauseOf _)
  · exact composes_sameCa.skip

theorem sameCa_portComesUp (p : Nat) : (portComesUp p).within SameCa :=
  within_look fun _ => composes_sameCa.when <| composes_sameCa.pair (fun _ => rfl) (composes_sameCa.when fun _ => rfl)

theorem sameCa_renewPort (p : Nat) : (renewPort p).within SameCa :=
  within_look fun _ => within_ite (sameCa_portComesUp p) (sameCa_portDown p)

theorem sameCa_dropLane (l : Nat) : (dropLane l).within SameCa :=
  within_look fun _ => composes_sameCa.when <| composes_sameCa.cons (fun _ => rfl) <|
    composes_sameCa.cons (sameCa_side (side_int _ _ _)) <|
    composes_sameCa.pair (composes_sameCa.each fun p _ => sameCa_portDown p) (composes_sameCa.each fun _ _ => composes_sameCa.when <|
      composes_sameCa.pair (fun _ => rfl) (sameCa_side (side_int _ _ _)))

theorem sameCa_compareGroup (g : Nat) : (compareGroup g).within SameCa := within_look fun s => by
  split <;> exact fun _ => rfl

theorem sameCa_renewGroup (g : Nat) : (renewGroup g).within SameCa :=
  within_look fun _ => composes_sameCa.cons (composes_sameCa.when (sameCa_side (side_int _ _ _))) <|
    composes_sameCa.pair (fun _ => rfl) (within_ite (fun _ => rfl) (sameCa_compareGroup g))

theorem sameCa_calApply (regs : List Reg) : (calApply regs).within SameCa :=
  within_look fun _ => composes_sameCa.cons (composes_sameCa.each fun l _ => sameCa_dropLane l) <|
    composes_sameCa.cons (composes_sameCa.each fun _ _ _ => rfl) <|
    composes_sameCa.pair (composes_sameCa.each fun g _ => sameCa_renewGroup g) (composes_sameCa.each fun p _ => sameCa_renewPort p)

theorem sameCa_endCommit (page inst : Nat) : (endCommit page inst).within SameCa :=
  within_look fun _ => composes_sameCa.cons (fun s => congrArg (fun c : Ctl => c.net.calCa) (ctl_copyBank (s := s) page)) fun _ => rfl

theorem sameCa_calDone : calDone.within SameCa :=
  composes_sameCa.cons (sameCa_endCommit _ _) <| composes_sameCa.cons
    (composes_sameCa.each fun _ _ => within_look fun _ => composes_sameCa.when fun _ => rfl) composes_sameCa.nil

theorem sameCa_calSwitch (g : Nat) : (calSwitch g).within SameCa :=
  composes_sameCa.cons (fun _ => rfl) <| composes_sameCa.cons (fun _ => rfl) <| composes_sameCa.cons (fun _ => rfl) <|
    composes_sameCa.pair (within_look fun _ => sameCa_calApply _) (within_look fun _ => composes_sameCa.when sameCa_calDone)

/-! ## A group that alone may switch (R194) -/

/-- The turn of group `h` in a round of switches. -/
def caTurn (h : Nat) : Prog := get fun t => Prog.when (tget false t.ctl.net.calCa h && !t.calBlocked h) (doAll [
  ctl fun c => { c with net.calCa := fset c.net.calCa h false }, calSwitch h])

/-- A round of switches, while a group may switch. -/
def caRound : Prog := get fun s => Prog.when (decide (s.ctl.net.calCa ≠ [])) (Prog.each (List.range 16) caTurn)

/-- Group `g` may switch. -/
def granted (g : Nat) (s : State) : State := (ctl fun c => { c with net.calCa := fset c.net.calCa g true }).run s

theorem run_calGo (g : Nat) (s : State) : (calGo g).run s = (Prog.each (List.range 16) fun _ => caRound).run (granted g s) := by
  unfold calGo granted caRound caTurn
  rw [run_all_cons, run_all_cons, run_all_nil]

theorem run_each_idle {α : Type} {l : List α} {f : α → Prog} {s : State} (h : ∀ a, (f a).run s = s) : (Prog.each l f).run s = s := by
  induction l with
  | nil => rfl
  | cons a l ih => rw [run_each_cons, h a, ih]

theorem run_caTurn_idle {s : State} {h : Nat} (hca : tget false s.ctl.net.calCa h = false) : (caTurn h).run s = s := by
  rw [caTurn, run_look, hca]
  rfl

theorem run_caRound_idle {s : State} (hca : s.ctl.net.calCa = []) : caRound.run s = s := by
  rw [caRound, run_look, hca]
  rfl

section Alone

variable {s : State} {g : Nat} (hca : s.ctl.net.calCa = [])
include hca

theorem calCa_granted : (granted g s).ctl.net.calCa = [(g, true)] := by
  show fset s.ctl.net.calCa g true = _
  rw [hca]
  rfl

/-- Withdrawing what `g` was granted gives the state before. -/
theorem run_withdraw_granted : (ctl fun c => { c with net.calCa := fset c.net.calCa g false }).run (granted g s) = s := by
  have h : fset (granted g s).ctl.net.calCa g false = s.ctl.net.calCa := by
    rw [calCa_granted hca, hca]
    simp [fset, nset, tset, tdel]
  rw [run_upd, h]
  rfl

theorem calCa_calSwitch : ((calSwitch g).run s).ctl.net.calCa = [] := (sameCa_calSwitch g s).trans hca

theorem run_caTurn_granted (hb : s.calBlocked g = false) : (caTurn g).run (granted g s) = (calSwitch g).run s := by
  have hb' : (granted g s).calBlocked g = false := hb
  rw [caTurn, run_look, calCa_granted hca, hb', tget_cons, if_pos rfl, Bool.not_false, Bool.and_true, when_true, run_all_cons,
    run_withdraw_granted hca, run_all_cons, run_all_nil]

/-- Of the turns of a round only that of `g` does something. -/
theorem run_turns_granted (hb : s.calBlocked g = false) {l : List Nat} (hg : g ∈ l) :
    (Prog.each l caTurn).run (granted g s) = (calSwitch g).run s := by
  induction l with
  | nil => cases hg
  | cons h l ih =>
    rw [run_each_cons]
    by_cases e : h = g
    · subst e
      rw [run_caTurn_granted hca hb]
      exact run_each_idle fun k => run_caTurn_idle (by rw [calCa_calSwitch hca, tget_nil])
    · have hidle : tget false (granted g s).ctl.net.calCa h = false := by
        rw [calCa_granted hca, tget_cons, if_neg (Ne.symm e), tget_nil]
      rw [run_caTurn_idle hidle]
      exact ih ((List.mem_cons.1 hg).resolve_left (Ne.symm e))

theorem run_caRound_granted (hb : s.calBlocked g = false) (hg : g < 16) : caRound.run (granted g s) = (calSwitch g).run s := by
  rw [caRound, run_look, calCa_granted hca]
  exact run_turns_granted hca hb (List.mem_range.2 hg)

/-- The first round switches `g`, and the others find no group that may switch. -/
theorem run_calGo_alone (hb : s.calBlocked g = false) (hg : g < 16) : (calGo g).run s = (calSwitch g).run s := by
  have hrounds : List.range 16 = 0 :: List.range' 1 15 := rfl
  rw [run_calGo, hrounds, run_each_cons, run_caRound_granted hca hb hg]
  exact run_each_idle fun _ => run_caRound_idle (calCa_calSwitch hca)

end Alone

/-! ## Lanes and calendars (R189, R192, R194, R195, R211) -/

/-- A free value has been taken. -/
def valueTaken (s : State) : State := (ctl fun c => { c with free := c.free + 1 }).run s

theorem run_fresh (k : Nat → Prog) (s : State) : (fresh k).run s = (k (Config.freeValue s.ctl.free)).run (valueTaken s) := rfl

section Lanes

variable {s : State} {a : Accessor} {l : Fin 64}

theorem exec_laneReconfigure (hs : s.serves a Pg.lane) (v : Word) : exec (.laneReconfigure a l v) s =
    .next ((doAll [laneDown l.val, wr (LANE.LANE_CTL l.val) v.toNat]).run s) := byWriter_next _ _ hs

variable (h : s.runsBelow 4)
include h

theorem exec_laneLinkDown : exec (.laneLinkDown l) s = .next ((laneDown l.val).run s) := live_next _ h

theorem exec_laneLinkUp (oh : Option (BitVec 20 × BitVec 256)) (mg : List Byte) (hslots : s.laneSlots l.val ≠ 0)
    (hdown : s.laneUp l.val = false) (hclk : s.clockRuns (l.val / 16) = true) :
    exec (.laneLinkUp ⟨l, oh, mg⟩) s = .next ((fresh fun snr => doAll [
      wr (LANE.LANE_STATUS l.val) (s.fd (LANE.LANE_STATUS l.val) 31 16 * 65536 + snr % 256 * 256 + 7 +
        8 * b2n (s.bit (LANE.LANE_CTL l.val) 2) + 16 * b2n (s.bit (LANE.LANE_CTL l.val) 3)),
      get fun u => doAll [
        Prog.each (u.groupsOn l.val) renewGroup, laneHears ⟨l, oh, mg⟩,
        Prog.each (u.portsOn l.val) portComesUp]]).run s) := by
  have hslots' : ¬ ((valueTaken s).laneSlots l.val = 0 ∨ (valueTaken s).clockRuns (l.val / 16) = false) := by
    rintro (h0 | h0)
    · exact hslots h0
    · exact absurd (hclk.symm.trans h0) (by decide)
  have hdown' : (valueTaken s).laneUp l.val = false := hdown
  refine (live_next _ h).trans ?_
  rw [run_fresh, run_look]
  dsimp only
  rw [hdown', if_neg Bool.false_ne_true, if_neg hslots', run_fresh]
  rfl

variable {g : Fin 16}

theorem exec_caReceived (hw : tget false s.ctl.net.calWait g.val = true) :
    exec (.caReceived g) s = .next ((calGo g.val).run s) := live_when h hw

theorem exec_caTimeout (hw : tget false s.ctl.net.calWait g.val = true) : exec (.caTimeout g) s =
    .next ((doAll [wrB (CAL.GRP_STATUS g.val) 2 true, int Pg.cal 0 0]).run s) := live_when h hw

theorem exec_crReceived (m : List Byte) (hup : s.bit (CAL.GRP_STATUS g.val) 0 = true) : exec (.crReceived ⟨g, m⟩) s = .next ((doAll [
    emit (.flexe g.val 1), wrB (CAL.GRP_STATUS g.val) 1 (!s.bit (CAL.GRP_STATUS g.val) 1),
    Prog.when (!m.isEmpty) (toManagement m)]).run s) := live_when h hup

end Lanes

/-! ## ABANDON (R195) -/

/-- `t` has the committed copies of `s`. -/
def SameCommitted (s t : State) : Prop := t.copy .committed = s.copy .committed

theorem composes_sameCommitted : Composes SameCommitted := composes_keep (·.copy .committed)

theorem sameCommitted_wrB (r : Reg) (i : Nat) (b : Bool) : (wrB r i b).within SameCommitted :=
  within_look fun _ s => funext fun _ => copy_wr_other s _ (by simp)

/-- What ABANDON does to a pending calendar. -/
def dropCalendar (s : State) : Prog := doAll [
  Prog.each ((List.range 16).filter fun g => tget false s.ctl.net.calWait g) (fun g => doAll [emit (.flexe g 2),
    wrB (CAL.GRP_STATUS g) 2 false]),
  ctl fun c => { c with net := { c.net with calWait := [], calCa := [] } },
  Prog.each (List.range 512) (fun p => Prog.when (s.bit (MAC.MAC_STATUS.of p) 5) (wrB (MAC.MAC_STATUS.of p) 5 false)),
  wrB (HDR.PAGE_STATUS Pg.cal) 0 false]

section Abandon

variable {s : State}

theorem exec_abandon {a : Accessor} (hs : s.serves a Pg.cal) (hp : s.isPending Pg.cal 0 = true) :
    exec (.abandon a) s = .next ((dropCalendar s).run s) := by
  refine (byWriter_next _ _ hs).trans ?_
  rw [run_look, hp]
  rfl

theorem isPending_dropCalendar (u : State) : ((dropCalendar s).run u).isPending Pg.cal 0 = false :=
  isPending_wrB Pg.cal 0 false

theorem calWait_dropCalendar (u : State) : ((dropCalendar s).run u).ctl.net.calWait = [] := by
  have hports : (Prog.each (List.range 512) fun p => Prog.when (s.bit (MAC.MAC_STATUS.of p) 5) (wrB (MAC.MAC_STATUS.of p) 5 false)).within
      SameNet := composes_sameNet.each fun _ _ => composes_sameNet.when (sameNet_wrB _ _ _)
  unfold dropCalendar
  rw [run_all_cons, run_all_cons, run_all_cons, run_all_cons, run_all_nil]
  refine (congrArg NetSt.calWait (composes_sameNet.trans (hports _) (sameNet_wrB _ _ _ _))).trans ?_
  rfl

theorem sameCommitted_dropCalendar : (dropCalendar s).within SameCommitted :=
  have c := composes_sameCommitted
  c.cons (c.each fun _ _ => c.pair (fun _ => rfl) (sameCommitted_wrB _ _ _)) <| c.cons (fun _ => rfl) <|
    c.pair (c.each fun _ _ => c.when (sameCommitted_wrB _ _ _)) (sameCommitted_wrB _ _ _)

end Abandon

theorem lanesAndCalendars : Says.LanesAndCalendars := fun _ _ _ g v =>
  ⟨fun hs => exec_laneReconfigure hs v, exec_laneLinkDown, fun oh mg h => exec_laneLinkUp h oh mg,
    fun h hw => ⟨exec_caReceived h hw, exec_caTimeout h hw⟩, fun hb hca => run_calGo_alone hca hb g.isLt,
    fun m h => exec_crReceived h m,
    fun hs hp => ⟨_, exec_abandon hs hp, isPending_dropCalendar _, calWait_dropCalendar _,
      congrFun (sameCommitted_dropCalendar _)⟩⟩

/-! ## Preemption (R202, R292, R295) -/

section Preemption

variable {s : State} {p : Fin 512} (h : s.runsBelow 3)
include h

theorem exec_preemptVerify (ok : Bool) (hen : s.macBit p.val 7 = true) (hver : s.macBit p.val 10 = false)
    (hst : s.fd (MAC.MAC_STATUS.of p.val) 4 3 < 2) : exec (.preemptVerify p ok) s = .next ((doAll [
      ctl fun c => { c with net.verify := nset 0 c.net.verify p.val (if ok then 0 else (tget 0 s.ctl.net.verify p.val + 1) % 3) },
      if ok then wrF (MAC.MAC_STATUS.of p.val) 4 3 2
      else if 3 ≤ tget 0 s.ctl.net.verify p.val + 1 then doAll [wrF (MAC.MAC_STATUS.of p.val) 4 3 3, int Pg.mac p.val 1]
      else wrF (MAC.MAC_STATUS.of p.val) 4 3 1]).run s) := by
  have hverifies : ¬ (!s.macBit p.val 7 || s.macBit p.val 10 || decide (2 ≤ s.fd (MAC.MAC_STATUS.of p.val) 4 3)) = true := by
    simp only [hen, hver, decide_eq_false (Nat.not_le.2 hst)]
    decide
  refine (live_next _ h).trans ?_
  rw [run_look, if_neg hverifies]

theorem exec_macPreempt {n : Nat} {x : Sending} (hx : s.sending p.val = some x) (hpre : s.preemptable p.val x.copy.cls = true)
    (hmin : s.fragMin p.val ≤ n + 4) (hleft : x.sent + n < x.copy.bytes.length) : exec (.macPreempt ⟨p, n⟩) s = .next ((doAll [
      setSending p.val none, setSending (512 + p.val) (some { x with
        cutOff := true
        sent := x.sent + n
        frags := x.frags + b2n (!x.copy.confirmed)
        holds := x.holds + b2n (!x.copy.confirmed && ((s.louvre p.val).run && tbit (s.gateWord p.val) 16)) }),
      Prog.when x.copy.confirmed (doAll [incW (MAC.MM_FRAG_TX.of p.val) 1,
        Prog.when ((s.louvre p.val).run && tbit (s.gateWord p.val) 16) (incW (MAC.MM_HOLD.of p.val) 1)]),
      emit (.fragment p.val x.copy.frame (slice x.copy.bytes x.sent n))]).run s) := by
  refine (live_next _ h).trans ?_
  simp only [run_look, hx, hpre, hmin, hleft, decide_true, Bool.and_true, when_true, Bool.not_not]

end Preemption

theorem framePreemption : Says.FramePreemption := fun _ _ h => ⟨exec_preemptVerify h, fun _ _ => exec_macPreempt h⟩

/-! ## Energy Efficient Ethernet (R204, R213) -/

section Lpi

variable {s : State} {p : Fin 512}

theorem exec_lpiEnter (h : s.runsBelow 3) (hport : s.lpiPort p.val = true) (hup : s.portUp p.val = true) (hidle : s.sending p.val = none)
    (htx : tget false s.ctl.net.lpiTx p.val = false)
    (hempty : (List.range 16).all (fun k => (s.queue (16 * p.val + k)).isEmpty) = true)
    (hdue : s.dueSoon p.val (s.cfd (MAC.LPI_TW.of p.val) 15 0 + s.cfd (MAC.LPI_IDLE.of p.val) 15 0) = false) :
    exec (.lpiEnter p) s = .next ((doAll [
      ctl fun c => { c with net.lpiTx := fset c.net.lpiTx p.val true }, wrB (MAC.MAC_STATUS.of p.val) 1 true,
      incW (MAC.LPI_TX_ENTRIES.of p.val) 1, emit (.lpi p.val true)]).run s) := by
  refine (live_next _ h).trans ?_
  rw [run_look, hport, hup, hidle, htx, hempty, hdue]
  rfl

theorem exec_lpiWake (h : s.runsBelow 3) (htx : tget false s.ctl.net.lpiTx p.val = true)
    (hframe : (List.range 16).any (fun k => !(s.queue (16 * p.val + k)).isEmpty) = true) : exec (.lpiWake p) s = .next ((doAll [
      ctl fun c => { c with net.lpiTx := fset c.net.lpiTx p.val false }, wrB (MAC.MAC_STATUS.of p.val) 1 false,
      emit (.lpi p.val false)]).run s) := by
  refine (live_next _ h).trans ?_
  rw [run_look, htx, hframe]
  rfl

theorem exec_partnerLpiEntry (h : s.runsBelow 4) (hup : s.portUp p.val = true) (hrx : s.bit (MAC.MAC_STATUS.of p.val) 2 = false) :
    exec (.partnerLpiEntry p) s = .next ((doAll [wrB (MAC.MAC_STATUS.of p.val) 2 true,
      incW (MAC.LPI_RX_ENTRIES.of p.val) 1]).run s) := by
  refine (live_next _ h).trans ?_
  rw [run_look, hup, hrx]
  rfl

end Lpi

theorem energyEfficientEthernet : Says.EnergyEfficientEthernet := fun _ _ => ⟨exec_lpiEnter, exec_lpiWake, exec_partnerLpiEntry⟩

/-- Settles O26: each command is its table row under its guard; a group that alone may switch switches, since no switch grants one to
another group. -/
theorem preemptionLpiAndLanes : Obligations.PreemptionLpiAndLanes := by
  unfold Obligations.PreemptionLpiAndLanes
  exact ⟨framePreemption, energyEfficientEthernet, lanesAndCalendars⟩

end Sys2Proof.Machine
end

section
/-! PROOF. Frames received (R197, R213, R273). -/

namespace Sys2Proof.Machine

/-! ## A frame and its early copy -/

/-- The machine with port 1 up and enabled, whose frames the default action sends to port 0, which the calendar enables. -/
def crossing : State := (doAll [wr (MAC.MAC_STATUS.of 1) 1, setCopy .committed (MAC.MAC_CTL.of 1) 1,
  setCopy .committed (CLASS.DEFAULT_ACT_W 0 0) 2, setCopy .committed (CAL.PORT 0) 1]).run State.reset

/-- The shortest good frame, without its FCS. -/
def crossingFrame : List Byte := List.replicate 60 0

/-- Whether a command's next state holds frame 0 from port 1 and its copy 1, and has 2 for the next frame or copy. -/
def numbersFrameAndCopy : Res → Bool
  | .next t => decide (t.ctl.net.frames.map (fun f => (f.id, f.src)) = [(0, 1)] ∧ t.copies.map (fun c => (c.id, c.frame, c.port)) = [(1, 0, 0)] ∧
      t.ctl.net.nextFrame = 2)
  | _ => false

/-- The copy of the frame is admitted before the frame's confirmation (R30), and takes the number after the frame's. -/
theorem rxFrame_crossing : numbersFrameAndCopy (exec (.rxFrame 1 crossingFrame false 0) crossing) = true := by decide +kernel

/-- Refutes O27: `Says.FramesReceived` has the next number rise by one when a frame arrives. In `crossing` the frame that arrives on port 1
goes to port 0, its copy is admitted at once and takes a number of its own, so the next number is 2 and not 1. -/
theorem not_framesInAndOut : ¬ Obligations.FramesInAndOut := by
  unfold Obligations.FramesInAndOut Says.FramesReceived
  rintro ⟨hreceived, -⟩
  have hruns : crossing.runsBelow 3 := by decide +kernel
  have hup : crossing.portUp 1 = true := by decide +kernel
  have hen : crossing.macBit 1 0 = true := by decide +kernel
  obtain ⟨harrives, -⟩ := hreceived crossing 1 crossingFrame hruns
  obtain ⟨t, f, ht, -, -, -, -, hnext⟩ := harrives hup hen
  have hnumbers := rxFrame_crossing
  rw [ht] at hnumbers
  obtain ⟨-, -, htwo⟩ := of_decide_eq_true hnumbers
  exact absurd (htwo.symm.trans hnext) (by decide)

end Sys2Proof.Machine
end

section
/-! PROOF. The tables that lookups end in (R240, R241, R243, R267, R270, R486). -/

namespace Sys2Proof.Machine

variable {s : State} {a : Accessor} {v : Word}

/-! ## Rule counters (R241) -/

/-- What is latched of a rule's counts beside the answer: each half reads back from a register of its own. -/
theorem copy_latchCounts (p lo hi hi' : Nat) (s : State) :
    let t := (doAll [setCopy .hiLatch (CLASS.CNT_PKT.of p) hi, setCopy .hiLatch (CLASS.CNT_BYTE.of p) lo,
      setCopy .hiLatch (CLASS.CNT_BYTE.hi.of p) hi']).run s
    t.copy .hiLatch (CLASS.CNT_PKT.of p) = hi % 2 ^ 32 ∧ t.copy .hiLatch (CLASS.CNT_BYTE.of p) = lo % 2 ^ 32 ∧
      t.copy .hiLatch (CLASS.CNT_BYTE.hi.of p) = hi' % 2 ^ 32 := by
  refine ⟨?_, ?_, copy_setCopy_hold _ _ _ _ (.inr rfl)⟩
  · exact (copy_setCopy_other _ _ _ _ _ _ (by simp)).trans <| (copy_setCopy_other _ _ _ _ _ _ (by simp)).trans <|
      copy_setCopy_hold _ _ _ _ (.inr rfl)
  · exact (copy_setCopy_other _ _ _ _ _ _ (by simp)).trans <| copy_setCopy_hold _ _ _ _ (.inr rfl)

theorem exec_ruleCounterRead (hs : s.open a Pg.cls = true) :
    let p := s.instSel a Pg.cls
    let k := p * 65536 + s.sel a Pg.cls 0x940 % 65536
    let c := tget (0, 0) s.ctl.net.ruleCnt k
    ∃ t, exec (.ruleCounterRead a) s = .next t ∧ t.ctl.answer = c.1 % 2 ^ 32 ∧
      t.copy .hiLatch (CLASS.CNT_PKT.of p) = c.1 / 2 ^ 32 % 2 ^ 32 ∧
      t.copy .hiLatch (CLASS.CNT_BYTE.of p) = c.2 % 2 ^ 32 ∧
      t.copy .hiLatch (CLASS.CNT_BYTE.hi.of p) = c.2 / 2 ^ 32 % 2 ^ 32 ∧
      tget (0, 0) t.ctl.net.ruleCnt k = (if s.owner a then (0, 0) else c) ∧
      ∀ j, j ≠ k → tget (0, 0) t.ctl.net.ruleCnt j = tget (0, 0) s.ctl.net.ruleCnt j := by
  intro p k c
  obtain ⟨hpkt, hbyte, hbyte'⟩ := copy_latchCounts p (c.2 % 2 ^ 32) (c.1 / 2 ^ 32) (c.2 / 2 ^ 32) ((answer (c.1 % 2 ^ 32)).run s)
  rw [Nat.mod_mod] at hbyte
  refine ⟨_, byReader_next _ hs, ?_⟩
  simp only [run_look, run_all_cons, run_all_nil]
  cases s.owner a
  case false => exact ⟨rfl, hpkt, hbyte, hbyte', rfl, fun _ _ => rfl⟩
  case true => exact ⟨rfl, hpkt, hbyte, hbyte', tget_nset_same (0, 0) (0, 0) s.ctl.net.ruleCnt k,
      fun _ hj => tget_nset_other (0, 0) (0, 0) s.ctl.net.ruleCnt hj⟩

/-! ## Next-hop entries (R270) -/

theorem exec_nhW3Write (hs : s.serves a Pg.lpm) :
    let p := s.instSel a Pg.lpm
    ∃ t, exec (.nhW3Write a v) s = .next t ∧ t.mem = s.mem ∧
      t.nhEntry p (s.sel a Pg.lpm 0x180 % 32768) = s.rd (LPM.NH_W0.of p) + s.rd (LPM.NH_W1.of p) * 2 ^ 32 +
        s.rd (LPM.NH_W2.of p) * 2 ^ 64 + (v.toNat &&& 0x80003FFF) * 2 ^ 96 :=
  ⟨_, byWriter_next _ _ hs, rfl, tget_nset_same ..⟩

theorem exec_nhW0Read (hs : s.open a Pg.lpm = true) :
    let p := s.instSel a Pg.lpm
    let e := s.nhEntry p (s.sel a Pg.lpm 0x180 % 32768)
    ∃ t, exec (.nhW0Read a) s = .next t ∧ t.ctl.answer = e % 2 ^ 32 ∧ tget 0 t.ctl.net.nhLatch p = e ∧ t.reg = s.reg ∧ t.mem = s.mem :=
  ⟨_, byReader_next _ hs, rfl, tget_nset_same .., rfl, rfl⟩

/-- Settles O37: each command is its table row under its guard; a count's halves are latched in registers of their own, and the last
word written and the first word read move an entry as a whole. -/
theorem lookupTables : Obligations.LookupTables := by
  unfold Obligations.LookupTables Says.LookupTables
  exact fun s a v => ⟨fun hs => byWriter_next _ _ hs, fun hs => byWriter_next _ _ hs, exec_ruleCounterRead, exec_nhW3Write,
    exec_nhW0Read⟩

end Sys2Proof.Machine
end

section
/-! PROOF. Commands of the LPM table (R263, R264, R270). -/

namespace Sys2Proof.Machine

/-! ## Bytes of an entry (R263) -/

theorem beBytes_length (n v : Nat) : (beBytes n v).length = n := by rw [beBytes, List.length_reverse, leBytes_length]

theorem slice_append_head {l : List Byte} {n : Nat} (h : l.length = n) (t : List Byte) : slice (l ++ t) 0 n = l := by
  subst h
  refine List.ext_getElem (by simp [slice]) fun k _ hk => ?_
  simp [slice, byteAt, List.getElem?_append_left hk, List.getElem?_eq_getElem hk]

theorem slice_append_tail {l : List Byte} {i : Nat} (h : l.length ≤ i) (t : List Byte) (n : Nat) :
    slice (l ++ t) i n = slice t (i - l.length) n := by
  refine List.map_congr_left fun k _ => ?_
  rw [byteAt, byteAt, List.getD_append_right _ _ _ _ (by omega), Nat.sub_add_comm h]

theorem maskPrefix_length (v6 : Bool) (len : Nat) (a : List Byte) : (maskPrefix v6 len a).length = 16 := by
  cases v6 <;> simp [maskPrefix, beBytes_length]

section Entry

variable {pfx : List Byte} (hpfx : pfx.length = 16) (len : Nat) (v6 : Bool) (vrf res nh : Nat)
include hpfx

theorem lpmBytes_length : (lpmBytes pfx len v6 vrf res nh).length = 32 := by simp [lpmBytes, leBytes_length, hpfx]

/-- The entry written for an LPM key is valid and holds that key. -/
theorem lpmHolds_lpmBytes (hlen : len < 256) (hvrf : vrf < 4096) : lpmHolds (lpmBytes pfx len v6 vrf res nh) vrf len v6 pfx = true := by
  have hslice : slice (lpmBytes pfx len v6 vrf res nh) 0 16 = pfx ∧ slice (lpmBytes pfx len v6 vrf res nh) 16 1 = leBytes 1 len ∧
      slice (lpmBytes pfx len v6 vrf res nh) 17 1 = leBytes 1 (1 + 2 * b2n v6) ∧
      slice (lpmBytes pfx len v6 vrf res nh) 18 2 = leBytes 2 vrf := by
    simp [lpmBytes, slice_append_head, slice_append_tail, hpfx, leBytes_length]
  obtain ⟨hp, hl, hf, hv⟩ := hslice
  have hflags : leAt (lpmBytes pfx len v6 vrf res nh) 17 1 = 1 + 2 * b2n v6 := by
    rw [leAt, hf, leVal_leBytes]
    cases v6 <;> rfl
  have hlen' : leAt (lpmBytes pfx len v6 vrf res nh) 16 1 = len := by rw [leAt, hl, leVal_leBytes, Nat.mod_eq_of_lt (by omega)]
  have hvrf' : leAt (lpmBytes pfx len v6 vrf res nh) 18 2 % 4096 = vrf := by
    rw [leAt, hv, leVal_leBytes]
    omega
  rw [lpmHolds, hflags, hlen', hvrf', hp]
  cases v6 <;> simp [tbit, b2n]

end Entry

/-! ## Entries in memory (R264) -/

theorem bytes_congr {s t : State} {sp i a n : Nat}
    (h : ∀ k, memKey sp i a ≤ k → k < memKey sp i a + n → tget 0 t.mem k = tget 0 s.mem k) : t.bytes sp i a n = s.bytes sp i a n := by
  refine List.map_congr_left fun j hj => ?_
  have hj' := List.mem_range.1 hj
  exact h _ (by rw [memKey_add]; omega) (by rw [memKey_add]; omega)

/-- The first place that passes a test is `i` when a place passed it before only if it was `i`, and `i` alone is tested anew. -/
theorem find?_of_changed_at {l : List Nat} {q q' : Nat → Bool} {i : Nat} (hmem : i ∈ l) (hi : q' i = true)
    (hother : ∀ j, j ≠ i → q' j = q j) (hfound : ∀ j, l.find? q = some j → j = i) : l.find? q' = some i := by
  induction l with
  | nil => cases hmem
  | cons j l ih =>
    by_cases hj : j = i
    · rw [List.find?_cons_of_pos (by rw [hj]; exact hi), hj]
    · have hq : q j = false := by
        by_contra hq
        exact hj (hfound j (List.find?_cons_of_pos (by simpa using hq)))
      rw [List.find?_cons_of_neg (by simp [hother j hj, hq])]
      refine ih (List.mem_of_ne_of_mem (Ne.symm hj) hmem) fun k hk => hfound k ?_
      rwa [List.find?_cons_of_neg (by simp [hq])]

/-- A command's write of an entry: its own field, the entry, its result. -/
def lpmWrite (p op i : Nat) (b : List Byte) : Prog := doAll [wr (LPM.CMD_CTL.of p) op, putLpm p i b, wr (LPM.CMD_STATUS.of p) 0]

/-- RESULT of a command that has ended. -/
theorem rd_wr_lpmStatus (p : Nat) (s : State) : ∀ v : Fin 4, ((wr (LPM.CMD_STATUS.of p) v.val).run s).rd (LPM.CMD_STATUS.of p) = v.val := by
  have hm : maskAt .live 23 0x120 = 0x10003 := by decide +kernel
  intro v
  rw [rd_wr_same, RKey.mask]
  simp only [Reg.of, LPM.CMD_STATUS, hm]
  revert v
  decide

section Write

variable (s : State) (p op i : Nat) {b : List Byte}

theorem status_lpmWrite : ((lpmWrite p op i b).run s).rd (LPM.CMD_STATUS.of p) = 0 := rd_wr_lpmStatus p _ 0

variable (hb : b.length = 32)
include hb

theorem mem_lpmWrite {k : Nat} (hk : ¬ (memKey 1 0 (0x18000000 + p * 0x04000000 + 32 * i) ≤ k ∧
      k < memKey 1 0 (0x18000000 + p * 0x04000000 + 32 * i) + 32)) :
    tget 0 ((lpmWrite p op i b).run s).mem k = tget 0 s.mem k :=
  mem_poke_other 1 0 _ b ((wr (LPM.CMD_CTL.of p) op).run s) (by rwa [hb])

theorem lpmEntry_lpmWrite_same : ((lpmWrite p op i b).run s).lpmEntry p i = b := by
  have h := bytes_poke 1 0 (0x18000000 + p * 0x04000000 + 32 * i) b ((wr (LPM.CMD_CTL.of p) op).run s)
  rwa [hb] at h

theorem lpmEntry_lpmWrite_other {j : Nat} (hj : j ≠ i) : ((lpmWrite p op i b).run s).lpmEntry p j = s.lpmEntry p j := by
  refine bytes_congr fun k hlo hhi => mem_lpmWrite s p op i hb ?_
  simp only [memKey_add] at hlo hhi ⊢
  omega

end Write

/-! ## The commands (R264, R270) -/

/-! The operands of a command in pipeline `p`: family, length, VRF and masked address, the places they hash to, the entry that
holds them, and the first free place. -/
def State.cmdV6 (s : State) (p : Nat) : Bool := tbit (s.rd (LPM.CMD_KEY.of p)) 8
def State.cmdLen (s : State) (p : Nat) : Nat := min (if s.cmdV6 p then 128 else 32) (field (s.rd (LPM.CMD_KEY.of p)) 7 0)
def State.cmdVrf (s : State) (p : Nat) : Nat := field (s.rd (LPM.CMD_KEY.of p)) 27 16
def State.cmdPfx (s : State) (p : Nat) : List Byte :=
  maskPrefix (s.cmdV6 p) (s.cmdLen p) ((List.range 4).flatMap fun i => beBytes 4 (s.rd ((LPM.CMD_PFX i).of p)))
def State.cmdPlaces (s : State) (p : Nat) : List Nat := lpmPlaces (s.cmdVrf p) (s.cmdLen p) (s.cmdV6 p) (s.cmdPfx p)
def State.cmdHit (s : State) (p : Nat) : Option Nat := s.lpmFind p (s.cmdVrf p) (s.cmdLen p) (s.cmdV6 p) (s.cmdPfx p)
def State.cmdRoom (s : State) (p : Nat) : Option Nat := (s.cmdPlaces p).find? fun i => !tbit (leAt (s.lpmEntry p i) 17 1) 0

/-- The entry that an INSERT places. -/
def State.cmdEntry (s : State) (p : Nat) : List Byte := lpmBytes (s.cmdPfx p) (s.cmdLen p) (s.cmdV6 p) (s.cmdVrf p)
  (s.rd (LPM.CMD_RESULT.of p)) (s.fd (LPM.CMD_NH.of p) 15 0)

section Operands

variable (s : State) (p : Nat)

theorem cmdLen_lt : s.cmdLen p < 256 := by
  rw [State.cmdLen]
  split <;> omega

theorem cmdVrf_lt : s.cmdVrf p < 4096 := Nat.mod_lt _ (by norm_num)

theorem cmdPfx_length : (s.cmdPfx p).length = 16 := maskPrefix_length ..

theorem cmdEntry_length : (s.cmdEntry p).length = 32 := lpmBytes_length (cmdPfx_length s p) ..

/-- The place of an INSERT is one of its key's. -/
theorem mem_cmdPlaces {i : Nat} (h : (s.cmdHit p).or (s.cmdRoom p) = some i) : i ∈ s.cmdPlaces p := by
  rcases Option.or_eq_some_iff.1 h with hhit | ⟨-, hroom⟩
  · rw [State.cmdHit, State.lpmFind] at hhit
    exact List.mem_of_find?_eq_some hhit
  · exact List.mem_of_find?_eq_some hroom

theorem cmdHit_eq {i j : Nat} (h : (s.cmdHit p).or (s.cmdRoom p) = some i) (hj : s.cmdHit p = some j) : j = i := by
  rw [hj, Option.some_or] at h
  exact Option.some.inj h

/-- After an INSERT its key is found where it was placed: no other place held it. -/
theorem lpmFind_lpmWrite (op : Nat) {i : Nat} (h : (s.cmdHit p).or (s.cmdRoom p) = some i) :
    ((lpmWrite p op i (s.cmdEntry p)).run s).lpmFind p (s.cmdVrf p) (s.cmdLen p) (s.cmdV6 p) (s.cmdPfx p) = some i := by
  rw [State.lpmFind]
  refine find?_of_changed_at (q := fun j => lpmHolds (s.lpmEntry p j) (s.cmdVrf p) (s.cmdLen p) (s.cmdV6 p) (s.cmdPfx p))
    (mem_cmdPlaces s p h) ?_ (fun j hj => ?_) fun j => cmdHit_eq s p h
  · rw [lpmEntry_lpmWrite_same s p op i (cmdEntry_length s p)]
    exact lpmHolds_lpmBytes (cmdPfx_length s p) _ _ _ _ _ (cmdLen_lt s p) (cmdVrf_lt s p)
  · rw [lpmEntry_lpmWrite_other s p op i (cmdEntry_length s p) hj]

end Operands

section Commands

variable {s : State} {a : Accessor} (hs : s.serves a Pg.lpm) {p : Nat} (hp : s.instSel a Pg.lpm = p)
include hs hp

theorem exec_lpmGo (op : Nat) (k : (p vrf len : Nat) → Bool → List Byte → Option Nat → Prog) : done (lpmGo a op k) s =
    .next ((k p (s.cmdVrf p) (s.cmdLen p) (s.cmdV6 p) (s.cmdPfx p) (s.cmdHit p)).run ((wr (LPM.CMD_CTL.of p) op).run s)) := by
  subst hp
  exact byWriter_next _ _ hs

/-- An INSERT writes the entry that holds its key, else the first free place, else answers 2 (R264). -/
theorem exec_lpmInsert : exec (.lpmInsert a) s = .next (match (s.cmdHit p).or (s.cmdRoom p) with
    | some i => (lpmWrite p 0 i (s.cmdEntry p)).run s
    | none => (doAll [wr (LPM.CMD_CTL.of p) 0, wr (LPM.CMD_STATUS.of p) 2, int Pg.lpm p 1]).run s) := by
  have hres : ((wr (LPM.CMD_CTL.of p) 0).run s).rd (LPM.CMD_RESULT.of p) = s.rd (LPM.CMD_RESULT.of p) := rd_wr_other _ _ (by simp)
  have hnh : ((wr (LPM.CMD_CTL.of p) 0).run s).fd (LPM.CMD_NH.of p) 15 0 = s.fd (LPM.CMD_NH.of p) 15 0 := by
    rw [State.fd, rd_wr_other _ _ (by simp), State.fd]
  have hroom : (lpmPlaces (s.cmdVrf p) (s.cmdLen p) (s.cmdV6 p) (s.cmdPfx p)).find? (fun i =>
      !tbit (leAt (((wr (LPM.CMD_CTL.of p) 0).run s).lpmEntry p i) 17 1) 0) = s.cmdRoom p := rfl
  refine (exec_lpmGo hs hp 0 _).trans ?_
  dsimp only
  rw [run_look, hres, hnh, hroom]
  cases s.cmdHit p
  case some i => rfl
  case none => cases s.cmdRoom p <;> rfl

theorem exec_lpmDelete_found {i : Nat} (hhit : s.cmdHit p = some i) :
    exec (.lpmDelete a) s = .next ((lpmWrite p 1 i (List.replicate 32 0)).run s) := by
  refine (exec_lpmGo hs hp 1 _).trans ?_
  rw [hhit]
  rfl

theorem exec_lpmDelete_absent (hhit : s.cmdHit p = none) :
    exec (.lpmDelete a) s = .next ((doAll [wr (LPM.CMD_CTL.of p) 1, wr (LPM.CMD_STATUS.of p) 1]).run s) := by
  refine (exec_lpmGo hs hp 1 _).trans ?_
  rw [hhit]
  rfl

theorem exec_lpmFind_found {i : Nat} (hhit : s.cmdHit p = some i) : exec (.lpmFind a) s = .next ((doAll [
    wr (LPM.CMD_CTL.of p) 2, wr (LPM.CMD_RESULT.of p) (leAt (s.lpmEntry p i) 20 4), wr (LPM.CMD_NH.of p) (leAt (s.lpmEntry p i) 24 2),
    wr (LPM.CMD_STATUS.of p) 0]).run s) := by
  refine (exec_lpmGo hs hp 2 _).trans ?_
  rw [hhit]
  rfl

theorem exec_lpmFind_absent (hhit : s.cmdHit p = none) :
    exec (.lpmFind a) s = .next ((doAll [wr (LPM.CMD_CTL.of p) 2, wr (LPM.CMD_STATUS.of p) 1]).run s) := by
  refine (exec_lpmGo hs hp 2 _).trans ?_
  rw [hhit]
  rfl

end Commands

theorem leAt_two_lt (l : List Byte) (i : Nat) : leAt l i 2 < 2 ^ 16 := by
  simp only [leAt, slice, List.range_succ_eq_map, List.range_zero, List.map_cons, List.map_nil, leVal]
  omega

/-- What a FIND of the entry `e` leaves in the command's registers. -/
theorem rd_lpmFind (s : State) (p : Nat) (e : List Byte) :
    let t := (doAll [wr (LPM.CMD_CTL.of p) 2, wr (LPM.CMD_RESULT.of p) (leAt e 20 4), wr (LPM.CMD_NH.of p) (leAt e 24 2),
      wr (LPM.CMD_STATUS.of p) 0]).run s
    t.rd (LPM.CMD_RESULT.of p) = leAt e 20 4 % 2 ^ 24 ∧ t.rd (LPM.CMD_NH.of p) = leAt e 24 2 ∧ t.rd (LPM.CMD_STATUS.of p) = 0 := by
  have hres : maskAt .live LPM.CMD_RESULT.page LPM.CMD_RESULT.off = 2 ^ 24 - 1 := by decide +kernel
  have hnh : maskAt .live LPM.CMD_NH.page LPM.CMD_NH.off = 2 ^ 16 - 1 := by decide +kernel
  simp only [run_all_cons, run_all_nil]
  refine ⟨?_, ?_, rd_wr_lpmStatus p _ 0⟩
  · rw [rd_wr_other _ _ (by simp), rd_wr_other _ _ (by simp), rd_wr_mod _ (LPM.CMD_RESULT.of p) _ (by norm_num) hres]
  · rw [rd_wr_other _ _ (by simp), rd_wr_mod _ (LPM.CMD_NH.of p) _ (by norm_num) hnh, Nat.mod_eq_of_lt (leAt_two_lt _ _)]

/-- Settles O38: an INSERT and a DELETE are `lpmWrite` of the place found, which changes that entry alone; an
inserted key is found there since no other place held it. -/
theorem prefixTableCommands : Obligations.PrefixTableCommands := by
  unfold Obligations.PrefixTableCommands Says.PrefixTableCommands
  intro s a hs p key v6 len vrf pfx hit room entry
  refine ⟨fun hplace => ?_, fun (hhit : s.cmdHit p = none) (hroom : s.cmdRoom p = none) => ?_,
    fun i (hhit : s.cmdHit p = some i) => ⟨⟨_, exec_lpmDelete_found hs rfl hhit, ?_, ?_, ?_⟩, _, exec_lpmFind_found hs rfl hhit, ?_⟩,
    fun (hhit : s.cmdHit p = none) => ⟨⟨_, exec_lpmDelete_absent hs rfl hhit, rd_wr_lpmStatus p _ 1, rfl⟩,
      _, exec_lpmFind_absent hs rfl hhit, rd_wr_lpmStatus p _ 1, rfl⟩⟩
  · obtain ⟨i, hi⟩ : ∃ i, (s.cmdHit p).or (s.cmdRoom p) = some i := by
      rw [← Option.isSome_iff_exists, Option.isSome_or, Bool.or_eq_true]
      exact hplace
    have hins := exec_lpmInsert hs (p := p) rfl
    rw [hi] at hins
    have hlen := cmdEntry_length s p
    exact ⟨_, i, hins, lpmFind_lpmWrite s p 0 hi, lpmEntry_lpmWrite_same s p 0 i hlen, status_lpmWrite .., fun k hk =>
      mem_lpmWrite s p 0 i hlen hk⟩
  · have hins := exec_lpmInsert hs (p := p) rfl
    rwa [hhit, hroom] at hins
  · exact lpmEntry_lpmWrite_same s p 1 i rfl
  · exact status_lpmWrite ..
  · exact fun k hk => mem_lpmWrite s p 1 i rfl hk
  · obtain ⟨hres, hnh, hst⟩ := rd_lpmFind s p (s.lpmEntry p i)
    exact ⟨hres, hnh, hst, rfl⟩

end Sys2Proof.Machine
end

section
/-! PROOF. Learning, software commands, notifications, aging and resizing (R251, R253, R256, R257, R259, R261, R262). -/

namespace Sys2Proof.Machine

/-! ## The learn engine (R251, R253, R256) -/

theorem exec_learnEvent {s : State} {p : Fin 4} {i : LearnItem} {t : List LearnItem} (h : s.runsBelow 3)
    (hfree : tget false s.ctl.net.resizing p.val = false) (hq : s.learnQ p.val = i :: t) :
    exec (.learnEvent p) s = .next ((doAll [setLearnQ p.val t, learnItem p.val i]).run s) := by
  refine (live_next _ h).trans ?_
  rw [run_look, hfree, if_neg (by decide), hq]

/-- The command that a GO write of SW_CTL makes in pipeline `p`. -/
def State.swItem (s : State) (p op : Nat) (v : Word) : LearnItem := .command op (s.rdW (FWD.SW_MAC.of p) % 2 ^ 48)
  (s.fd (FWD.SW_DOM.of p) 11 0) (s.rd (FWD.SW_RESULT.of p)) (field v.toNat 3 2 * 2 ^ 13)

section SwGo

variable {s : State} {a : Accessor} (hs : s.serves a Pg.fwd) {p : Nat} (hp : s.instSel a Pg.fwd = p) (op : Nat) (v : Word)
include hs hp

/-- A GO write is refused while BUSY, executed when nothing waits before it, and else waits (R253). -/
theorem exec_swGo : done (swGo a op v) s = .next ((doAll [wr (FWD.SW_CTL.of p) (op + 4 * field v.toNat 3 2),
    if s.bit (FWD.SW_STATUS.of p) 16 then wrF (FWD.SW_STATUS.of p) 1 0 3 else doAll [wr (FWD.SW_STATUS.of p) 0x10000,
      if (s.learnQ p).isEmpty && !tget false s.ctl.net.resizing p then learnItem p (s.swItem p op v)
      else setLearnQ p (s.learnQ p ++ [s.swItem p op v])]]).run s) := by
  subst hp
  exact byWriter_next _ _ hs

theorem exec_swGo_runs (hidle : s.bit (FWD.SW_STATUS.of p) 16 = false) (hempty : (s.learnQ p).isEmpty = true)
    (hfree : tget false s.ctl.net.resizing p = false) :
    done (swGo a op v) s = .next ((doAll [wr (FWD.SW_CTL.of p) (op + 4 * field v.toNat 3 2),
      doAll [wr (FWD.SW_STATUS.of p) 0x10000, learnItem p (s.swItem p op v)]]).run s) := by
  rw [exec_swGo hs hp, hidle, hempty, hfree]
  rfl

theorem exec_swGo_waits (hidle : s.bit (FWD.SW_STATUS.of p) 16 = false)
    (hwaits : (s.learnQ p).isEmpty = false ∨ tget false s.ctl.net.resizing p = true) :
    done (swGo a op v) s = .next ((doAll [wr (FWD.SW_CTL.of p) (op + 4 * field v.toNat 3 2),
      doAll [wr (FWD.SW_STATUS.of p) 0x10000, setLearnQ p (s.learnQ p ++ [s.swItem p op v])]]).run s) := by
  have hc : ((s.learnQ p).isEmpty && !tget false s.ctl.net.resizing p) = false := by
    rcases hwaits with h | h <;> simp [h]
  rw [exec_swGo hs hp, hidle, hc]
  rfl

theorem exec_swGo_busy (hbusy : s.bit (FWD.SW_STATUS.of p) 16 = true) :
    done (swGo a op v) s = .next ((doAll [wr (FWD.SW_CTL.of p) (op + 4 * field v.toNat 3 2),
      wrF (FWD.SW_STATUS.of p) 1 0 3]).run s) := by
  rw [exec_swGo hs hp, hbusy]
  rfl

end SwGo

/-! ## The head of a notification ring (R175, R259) -/

section NotifyHead

variable {s : State} {a : Accessor} {v : Word} (hs : s.serves a Pg.fwd) {p n h : Nat} {g : NRing} (hp : s.instSel a Pg.fwd = p)
  (hg : s.notifyRing p = g) (hn : 2 ^ max 6 (min 16 (s.fd (FWD.NOTIFY_CTL.of p) 5 1)) = n) (hh : field v.toNat 15 0 = h)
include hs hp hg hn hh

theorem exec_notifyHeadWrite (hlt : h < n) (hle : (h + n - g.head) % n ≤ (g.widx + n - g.head) % n) :
    exec (.notifyHeadWrite a v) s = .next ((doAll [
      modNotify p fun x => { x with head := h },
      Prog.when (v.getLsbD 31) (if g.widx = h then modNotify p fun x => { x with armed := true }
        else doAll [modNotify p fun x => { x with armed := false }, evt (s.fd (FWD.NOTIFY_CTL.of p) 27 16)])]).run s) := by
  subst hp hg hn hh
  refine (byWriter_next _ _ hs).trans ?_
  rw [run_look, if_pos ⟨hlt, hle⟩]

theorem exec_notifyHeadWrite_refused (hout : n ≤ h ∨ (g.widx + n - g.head) % n < (h + n - g.head) % n) :
    exec (.notifyHeadWrite a v) s = .next ((doAll [inc RING.HEAD_REJ_CNT, int Pg.ring 0 1]).run s) := by
  subst hp hg hn hh
  refine (byWriter_next _ _ hs).trans ?_
  rw [run_look, if_neg fun ⟨hlt, hle⟩ => hout.elim (Nat.not_le_of_lt hlt) (Nat.not_lt_of_le hle)]

end NotifyHead

theorem learningAndSoftwareCommands : Says.LearningAndSoftwareCommands := by
  refine fun s a v => ⟨fun p i t => exec_learnEvent, fun hs => ?_, fun hs => ?_⟩
  · intro p item go runs waits refused
    refine ⟨fun hidle hempty hfree => ?_, fun hidle hwaits => ?_, fun hbusy => ?_⟩
    · have h op := exec_swGo_runs hs (p := p) rfl op v hidle hempty hfree
      exact ⟨h 0, h 1, h 2⟩
    · have h op := exec_swGo_waits hs (p := p) rfl op v hidle hwaits
      exact ⟨h 0, h 1, h 2⟩
    · have h op := exec_swGo_busy hs (p := p) rfl op v hbusy
      exact ⟨h 0, h 1, h 2⟩
  · exact ⟨exec_notifyHeadWrite hs rfl rfl rfl rfl, exec_notifyHeadWrite_refused hs rfl rfl rfl rfl⟩

/-! ## Holds, aging and resizing (R257, R261, R262) -/

section Aging

variable {s : State} {p : Fin 4} (h : s.runsBelow 3)
include h

theorem exec_holdExpiry : exec (.holdExpiry p) s = .next ((setHolds p.val ((s.holds p.val).filter fun e =>
    decide (wtDiff (s.wt (s.fwdDom p.val)) e.2 < s.moveHold p.val + 32000))).run s) := live_next _ h

theorem exec_agingSweep {e : WEvent} (hf : s.fires e (.aging p.val)) : exec .agingSweep s =
    .next ((doAll [leaves e false, mstart MA.AGING_SWEEP p.val .periodic 0, reschedule e]).run s) := by
  calc exec .agingSweep s = live 3 (dispatch _ _) s := rfl
    _ = _ := by
      rw [live_next _ h, run_dispatch_due _ hf (decide_eq_true p.isLt), hf.2.1]
      rfl

theorem exec_agingSweepEnd (hr : s.mrunning MA.AGING_SWEEP p.val = true) :
    exec (.agingSweepEnd p) s = .next ((doAll [mend MA.AGING_SWEEP p.val, int Pg.fwd p.val 4]).run s) := live_when h hr

theorem exec_resizeDone {m : MStart}
    (hm : s.ctl.maint.running.find? (fun m => decide (m.act = MA.TABLE_RESIZE) && decide (m.scope = p.val)) = some m) :
    exec (.resizeDone p) s = .next ((doAll [
      Prog.each (s.hashValid p.val) (fun i => putHash p.val i (List.replicate 16 0)),
      Prog.each ((s.hashValid p.val).map fun i => (i, s.hashEntry p.val i)) (fun e => replace p.val (m.ref % 32) (m.ref / 32) e.1 e.2),
      wr (FWD.HASH_CFG.of p.val) (m.ref % 32), wr (FWD.HASH_SEED.of p.val) (m.ref / 32), wr (FWD.RESIZE_STATUS.of p.val) ST.OK,
      ctl fun c => { c with net.resizing := fset c.net.resizing p.val false },
      mend MA.TABLE_RESIZE p.val, int Pg.fwd p.val 5]).run s) := by
  refine (live_next _ h).trans ?_
  rw [run_look, hm]

end Aging

theorem holds_setHolds (s : State) (p : Nat) (l : List (Nat × Nat)) : ((setHolds p l).run s).holds p = l := tget_nset_same ..

theorem agingAndResize : Says.AgingAndResize := fun _ _ _ _ =>
  ⟨fun h => ⟨_, exec_holdExpiry h, rfl, rfl, holds_setHolds ..⟩, fun _ h => exec_agingSweep h, exec_agingSweepEnd,
    fun hs => byWriter_next _ _ hs, fun _ h => exec_resizeDone h⟩

/-- Settles O36: each command is its table row under its guard; a GO write of SW_CTL has its three outcomes whatever its operation. -/
theorem learningAndAging : Obligations.LearningAndAging := by
  unfold Obligations.LearningAndAging
  exact ⟨learningAndSoftwareCommands, agingAndResize⟩

end Sys2Proof.Machine
end

section
/-! PROOF. Meters and the refills of shapers and policers (R281, R282, R284, R287). -/

namespace Sys2Proof.Machine

/-! ## Commands that serve an event of the wheel (R55, R56) -/

section Events

variable {s : State} {e : WEvent} {c : Consumer}

theorem consumer_of_fires (hf : s.fires e c) : e.consumer = c := hf.2.1

theorem consumer_of_steps (hf : s.steps e c) : e.consumer = c := hf.2

variable {lvl : Nat} {want : Consumer → Bool} (k : WEvent → Bool → Prog) (h : s.runsBelow lvl)
include h

theorem live_dispatch_due (hf : s.fires e c) (hw : want c = true) :
    live lvl (dispatch want k) s = .next ((doAll [leaves e false, k e false]).run s) := by
  rw [live_next _ h, run_dispatch_due _ hf hw, run_all_cons, run_all_cons, run_all_nil]

theorem live_dispatch_stepped (hf : s.steps e c) (hw : want c = true) :
    live lvl (dispatch want k) s = .next ((doAll [leaves e true, k e true]).run s) := by
  rw [live_next _ h, run_dispatch_stepped _ hf hw, run_all_cons, run_all_cons, run_all_nil]

end Events

/-! ## Refills (R281, R282, R287) -/

section Refills

variable {s : State} {e : WEvent} {b : Nat} (h : s.runsBelow 3)
include h

theorem exec_shaperRefill_due (hf : s.fires e (.shaperRefill b)) : exec .shaperRefill s = .next ((doAll [leaves e false,
    Prog.each (List.range 64) fun k => refillShaper (64 * b + k), reschedule e]).run s) := by
  refine (live_dispatch_due _ h hf rfl).trans ?_
  rw [consumer_of_fires hf]
  rfl

theorem exec_shaperRefill_stepped (hf : s.steps e (.shaperRefill b)) :
    exec .shaperRefill s = .next ((doAll [leaves e true, restartAtStep e]).run s) := by
  refine (live_dispatch_stepped _ h hf rfl).trans ?_
  rw [consumer_of_steps hf]
  rfl

theorem exec_policerRefill_due (hf : s.fires e (.polBlock b)) : exec .policerRefill s = .next ((doAll [leaves e false,
    ctl fun c => { c with net.policers := c.net.policers.map fun x => if x.1 / 256 = b then (x.1, x.2.refill) else x },
    reschedule e]).run s) := by
  refine (live_dispatch_due _ h hf rfl).trans ?_
  rw [consumer_of_fires hf]
  rfl

theorem exec_policerRefill_stepped (hf : s.steps e (.polBlock b)) :
    exec .policerRefill s = .next ((doAll [leaves e true, restartAtStep e]).run s) := by
  refine (live_dispatch_stepped _ h hf rfl).trans ?_
  rw [consumer_of_steps hf]
  rfl

end Refills

theorem refills : Says.Refills := fun _ _ _ h =>
  ⟨exec_shaperRefill_due h, exec_shaperRefill_stepped h, exec_policerRefill_due h, exec_policerRefill_stepped h⟩

/-! ## Meters (R284) -/

/-- MODE and the colour-aware bit of W0 are its low three bits. -/
theorem mode_of_mod8 {w m : Nat} (h : w % 8 = m) (hm : m < 4) : w % 4 = m ∧ tbit w 2 = false := by
  refine ⟨by omega, ?_⟩
  rw [tbit, beq_eq_false_iff_ne]
  omega

/-- A colour-blind srTCM takes a frame from the first bucket that holds it. -/
theorem meter_srTCM {p : Policer} (h : p.w0 % 8 = 1) (n : Nat) : p.meter 0 n =
    if n * 256 ≤ p.c then (0, { p with c := p.c - n * 256 }) else if n * 256 ≤ p.e then (1, { p with e := p.e - n * 256 })
    else (2, p) := by
  obtain ⟨hmode, haware⟩ := mode_of_mod8 h (by norm_num)
  simp [Policer.meter, hmode, haware, cGreen, cYellow, cRed]

/-- A colour-blind trTCM asks the peak bucket first, and takes a green frame from both. -/
theorem meter_trTCM {p : Policer} (h : p.w0 % 8 = 2) (n : Nat) : p.meter 0 n =
    if p.e < n * 256 then (2, p) else if p.c < n * 256 then (1, { p with e := p.e - n * 256 })
    else (0, { p with c := p.c - n * 256, e := p.e - n * 256 }) := by
  obtain ⟨hmode, haware⟩ := mode_of_mod8 h (by norm_num)
  simp [Policer.meter, hmode, haware, cGreen, cYellow, cRed]

/-- A refill caps each bucket at its burst. -/
theorem refill_le_burst {p : Policer} (h : p.w0 % 4 = 1 ∨ p.w0 % 4 = 2) :
    p.refill.c ≤ p.cbs * 256 ∧ p.refill.e ≤ p.ebs * 256 := by
  unfold Policer.refill
  obtain hsr | htr := h
  · rw [if_pos hsr]
    exact ⟨min_le_left .., min_le_left ..⟩
  · rw [if_neg (by omega), if_pos htr]
    exact ⟨min_le_left .., min_le_left ..⟩

theorem meterColours : Says.MeterColours := by
  refine fun p n => ⟨fun h => ?_, fun h => ?_, refill_le_burst⟩
  · rw [meter_srTCM h]
    split_ifs <;> exact ⟨rfl, rfl, rfl⟩
  · rw [meter_trTCM h]
    split_ifs <;> exact ⟨rfl, rfl, rfl⟩

/-- Settles O23: each meter asks its buckets in its mode's order and a refill is a minimum with the burst; a refill's command serves the
wheel's event. -/
theorem metersAndRefills : Obligations.MetersAndRefills := by
  unfold Obligations.MetersAndRefills
  exact ⟨meterColours, refills⟩

end Sys2Proof.Machine
end

section
/-! PROOF. Traffic tables, gate lists, launches, telemetry and latency reports (R56, R62, R69, R130, R131, R280, R287 to R289, R293,
R296 to R298). -/

namespace Sys2Proof.Machine

/-! ## The last word of a table entry (R280, R287, R288, R298) -/

/-- Hardware writes no selector. -/
theorem sel_wr (s : State) (r : Reg) (v : Nat) (a : Accessor) (page off : Nat) : ((wr r v).run s).sel a page off = s.sel a page off := by
  simp [State.sel, State.instSel, selReg, copy_wr_other]

/-- The entry that a write of POL_W4 makes of the selected policer, from W0 to W3 and the value written (R287). -/
def State.polEntry (s : State) (i : Nat) (v : Word) : Policer := { tget Policer.init s.ctl.net.policers i with
  w0 := s.rd TM.POL_W0
  cir := s.rd TM.POL_W1
  cbs := s.fd TM.POL_W2 23 0
  pir := s.rd TM.POL_W3
  ebs := v.toNat % 2 ^ 24
  c := if s.bit TM.POL_W0 3 then s.fd TM.POL_W2 23 0 * 256 else 0
  e := if s.bit TM.POL_W0 3 then v.toNat % 2 ^ 24 * 256 else 0 }

/-- The ports that REPL_MASK names (R280). -/
def State.replMask (s : State) : Nat := ((List.range 16).map fun w => s.rd (TM.REPL_MASK w) * 2 ^ (32 * w)).sum

section Tables

variable {s : State} {a : Accessor} {v : Word} (hs : s.serves a Pg.tm)
include hs

theorem exec_polW4Write : let i := s.sel a Pg.tm 0x200 % 2 ^ 18
    exec (.polW4Write a v) s = .next ((doAll [wr TM.POL_W4 v.toNat,
      ctl fun c => { c with net.policers := nset Policer.init c.net.policers i (s.polEntry i v) }]).run s) := by
  have hrd (r : Reg) (hr : r ≠ TM.POL_W4) : ((wr TM.POL_W4 v.toNat).run s).rd r = s.rd r := rd_wr_other s _ hr
  have hcbs : ((wr TM.POL_W4 v.toNat).run s).fd TM.POL_W2 23 0 = s.fd TM.POL_W2 23 0 := congrArg (field · 23 0) (hrd _ (by simp))
  have hebs : ((wr TM.POL_W4 v.toNat).run s).fd TM.POL_W4 23 0 = v.toNat % 2 ^ 24 := by
    rw [fd_wr_same _ _ _ (by norm_num) (by decide +kernel), field, pow_zero, Nat.div_one]
  have hsel := sel_wr s TM.POL_W4 v.toNat a Pg.tm 0x200
  have hctl := ctl_wr s TM.POL_W4 v.toNat
  refine (byWriter_next _ _ hs).trans ?_
  rw [run_all_cons, run_all_cons, run_all_nil, run_all_cons, run_all_cons, run_all_nil, run_look]
  generalize (wr TM.POL_W4 v.toNat).run s = t at hrd hcbs hebs hsel hctl ⊢
  dsimp only
  rw [hebs, hcbs, hsel, hctl, hrd TM.POL_W0 (by simp), hrd TM.POL_W1 (by simp), hrd TM.POL_W3 (by simp)]
  rfl

theorem exec_replCtlWrite : let i := s.sel a Pg.tm 0x300 % 4096
    exec (.replCtlWrite a v) s = .next ((doAll [wr TM.REPL_CTL v.toNat,
      ctl fun c => { c with net.repl := nset ⟨false, 0⟩ c.net.repl i ⟨v.getLsbD 0, s.replMask⟩ }]).run s) := by
  have hrd (w : Nat) : ((wr TM.REPL_CTL v.toNat).run s).rd (TM.REPL_MASK w) = s.rd (TM.REPL_MASK w) :=
    rd_wr_other s _ (by simp; omega)
  refine (byWriter_next _ _ hs).trans ?_
  simp only [run_all_cons, run_all_nil, run_look, sel_wr, hrd, State.replMask]

variable {sel p bank : Nat} (hsel : sel = s.sel a Pg.tm 0x280) (hp : p = field sel 8 0) (hbank : bank = field sel 24 24)
include hsel hp hbank

theorem exec_lvW1Write (hfree : (s.louvre p).run = false ∨ (s.louvre p).bank ≠ bank) : exec (.lvW1Write a v) s = .next ((doAll [
    wr TM.LV_W1 v.toNat, ctl fun c => { c with
      net.lvEntry := nset (0, 0) c.net.lvEntry ((2 * p + bank) * 256 + field sel 23 16) (s.fd TM.LV_W0 16 0, v.toNat) }]).run s) := by
  subst hsel hp hbank
  refine (byWriter_next _ _ hs).trans ?_
  rw [run_look]
  dsimp only
  rw [if_neg]
  rintro ⟨hrun, heq⟩
  exact hfree.elim (fun hf => Bool.false_ne_true (hf.symm.trans hrun)) (absurd heq)

theorem exec_lvW1Write_running (hrun : (s.louvre p).run = true) (heq : (s.louvre p).bank = bank) : exec (.lvW1Write a v) s =
    .next ((err Pg.tm 0 EC.ACCESS RS.WRONG_STATE (bar0 Pg.tm 0x288)).run s) := by
  subst hsel hp hbank
  refine (byWriter_next _ _ hs).trans ?_
  rw [run_look]
  dsimp only
  rw [if_pos ⟨hrun, heq⟩]

end Tables

theorem trafficTables : Says.TrafficTables := fun s a v hs =>
  ⟨⟨_, exec_polW4Write hs, by
      simp only [run_all_cons, run_all_nil, upd_ctl, ctl_wr, tget_nset_same, State.polEntry, true_and]
      exact fun i hi => tget_nset_other _ _ _ hi⟩,
    ⟨_, exec_replCtlWrite hs, rfl, tget_nset_same .., fun i hi => tget_nset_other _ _ _ hi⟩,
    exec_lvW1Write hs rfl rfl rfl, exec_lvW1Write_running hs rfl rfl rfl⟩

/-! ## Gate events (R288, R289) -/

section Louvres

variable {s : State} {e : WEvent} {p : Nat}

theorem louvreDue_of_fires (hf : s.fires e (.louvre p)) : s.louvreDue = some (p, false) := by
  obtain ⟨hnext, hcons, -⟩ := hf
  simp only [State.louvreDue, hnext, Option.bind_some, hcons]

theorem louvreDue_of_steps (hf : s.steps e (.louvre p)) : s.louvreDue = some (p, true) := by
  obtain ⟨hnext, hcons⟩ := hf
  simp only [State.louvreDue, hnext, Option.bind_some, hcons]

theorem run_louvreEvent_due (hf : s.fires e (.louvre p)) :
    (louvreEvent p).run s = (doAll [leaves e false, louvreFire p]).run s := by
  rw [louvreEvent, run_dispatch_due _ hf (decide_eq_true rfl), run_all_cons, run_all_cons, run_all_nil, if_neg Bool.false_ne_true]

theorem run_louvreEvent_stepped (hf : s.steps e (.louvre p)) :
    (louvreEvent p).run s = (doAll [leaves e true, louvreStop p, int Pg.tm 0 3]).run s := by
  rw [louvreEvent, run_dispatch_stepped _ hf (decide_eq_true rfl), run_all_cons, if_pos rfl]

variable (h : s.runsBelow 3)
include h

theorem exec_louvreCycleStart (hf : s.fires e (.louvre p)) (hstart : s.louvreStarts p = true) :
    exec .louvreCycleStart s = .next ((doAll [leaves e false, louvreFire p]).run s) := by
  refine (live_next _ h).trans ?_
  rw [run_look, louvreDue_of_fires hf]
  dsimp only
  rw [hstart, when_true, run_louvreEvent_due hf]

theorem exec_louvreListChange_due (hf : s.fires e (.louvre p)) (hstart : s.louvreStarts p = false) :
    exec .louvreListChange s = .next ((doAll [leaves e false, louvreFire p]).run s) := by
  refine (live_next _ h).trans ?_
  rw [run_look, louvreDue_of_fires hf]
  dsimp only
  rw [hstart, Bool.not_false, when_true, run_louvreEvent_due hf]

theorem exec_louvreListChange_stepped (hf : s.steps e (.louvre p)) :
    exec .louvreListChange s = .next ((doAll [leaves e true, louvreStop p, int Pg.tm 0 3]).run s) := by
  refine (live_next _ h).trans ?_
  rw [run_look, louvreDue_of_steps hf]
  dsimp only
  rw [run_louvreEvent_stepped hf]

end Louvres

theorem louvreEvents : Says.LouvreEvents := fun _ _ _ h =>
  ⟨exec_louvreCycleStart h, exec_louvreListChange_due h, exec_louvreListChange_stepped h⟩

/-! ## Launches, telemetry and the domains of ports (R56, R62, R69, R293, R296, R297) -/

section Launches

variable {s : State} {e : WEvent} {id : Nat} (h : s.runsBelow 3)
include h

theorem exec_launchDue_due (hf : s.fires e (.frameLaunch id)) :
    exec .launchDue s = .next ((doAll [leaves e false, modCopy id fun c => { c with eligible := true }]).run s) := by
  refine (live_dispatch_due _ h hf rfl).trans ?_
  rw [consumer_of_fires hf]
  rfl

theorem exec_launchDue_stepped {c : Copy} (hf : s.steps e (.frameLaunch id))
    (hc : ((leaves e true).run s).copies.find? (fun c => decide (c.id = id)) = some c) :
    exec .launchDue s = .next ((doAll [leaves e true, unqueue c, dropCopy c ST.STEPPED]).run s) := by
  refine (live_dispatch_stepped _ h hf rfl).trans ?_
  rw [consumer_of_steps hf, run_all_cons, run_all_cons, run_all_cons]
  dsimp only
  rw [if_pos rfl, run_look, hc, run_all_nil]

theorem exec_telemetrySample_due (hf : s.fires e .telemetry) : exec .telemetrySample s = .next ((doAll [leaves e false,
    get fun u => Prog.when (u.bit TM.TEL_CFG 0) (Prog.each (List.range 8192) fun q => histStep q 0 (histBin 64 (u.qDepth true q))),
    reschedule e]).run s) := by
  refine (live_dispatch_due _ h hf rfl).trans ?_
  rw [run_all_cons, run_all_cons, run_all_nil, run_all_cons]
  rfl

theorem exec_telemetrySample_stepped (hf : s.steps e .telemetry) :
    exec .telemetrySample s = .next ((doAll [leaves e true, restartAtStep e]).run s) :=
  live_dispatch_stepped _ h hf rfl

end Launches

theorem launchesAndTelemetry : Says.LaunchesAndTelemetry := fun _ _ _ =>
  ⟨exec_launchDue_due, fun _ h => exec_launchDue_stepped h, exec_telemetrySample_due, exec_telemetrySample_stepped,
    fun _ _ _ hs => byWriter_next _ _ hs⟩

/-! ## Latency reports (R130, R131) -/

/-- The scale of an encoded latency: the least of the six under which the value fits, or the last. -/
def ltrScale (t : Nat) : Nat := ((List.range 6).find? fun k => decide (t / 32 ^ k < 1024)).getD 5

theorem ltrField_eq (t : Nat) : ltrField t = min 1023 (t / 32 ^ ltrScale t) + 1024 * ltrScale t + 32768 := rfl

theorem ltrScale_lt (t : Nat) : ltrScale t < 6 := by
  unfold ltrScale
  cases hk : (List.range 6).find? fun k => decide (t / 32 ^ k < 1024) with
  | none => norm_num
  | some k => exact List.mem_range.1 (List.mem_of_find?_eq_some hk)

/-- The ns of a field are its value times its scale. -/
theorem ltrNs_field {v k : Nat} (hv : v ≤ 1023) (hk : k < 6) : ltrNs (v + 1024 * k + 32768) = v * 32 ^ k := by
  have hvalue : (v + 1024 * k + 32768) % 1024 = v := by omega
  have hscale : (v + 1024 * k + 32768) / 1024 % 8 = k := by omega
  rw [ltrNs, hvalue, hscale]

/-- The encoding rounds down. -/
theorem ltrNs_ltrField_le (t : Nat) : ltrNs (ltrField t) ≤ t := by
  rw [ltrField_eq, ltrNs_field (min_le_left ..) (ltrScale_lt t)]
  exact (Nat.mul_le_mul_right _ (min_le_right ..)).trans (Nat.div_mul_le_self ..)

theorem ltrTarget_within {s : State} {l bytes : Nat} {frames : List (Fin 65536 × Nat)}
    (h : field (s.rd (HOST.LTR_CFG (l / 2))) 15 0 * 1000 ≤ field (s.rd (HOST.LTR_CFG (l / 2))) 31 16 * 1000) :
    field (s.rd (HOST.LTR_CFG (l / 2))) 15 0 * 1000 ≤ s.ltrTarget l bytes frames ∧
    s.ltrTarget l bytes frames ≤ field (s.rd (HOST.LTR_CFG (l / 2))) 31 16 * 1000 :=
  ⟨le_max_left .., max_le h (min_le_left ..)⟩

/-- A latency of `x` ns goes to link `l`. -/
def sendLtr (l x : Nat) : Prog := doAll [modLink l fun k => { k with ltrSent := ltrNs (ltrField x), ltrHigh := 0 },
  wr (HOST.LTR_LAST (l / 2)) (ltrField x + 65536 * ltrField x), emit (.ltr l (ltrField x + 65536 * ltrField x))]

/-- For how many updates a link's latency has been above twice the value sent. -/
def State.ltrHighNow (s : State) (l x : Nat) : Nat := if 2 * (s.link l).ltrSent < x then (s.link l).ltrHigh + 1 else 0

section Ltr

variable {s : State} {l : Fin 4} {bytes : Nat} {frames : List (Fin 65536 × Nat)} (h : s.runsBelow 3)
  (hen : (s.link l.val).ltrEn = true) (hup : s.linkUp l.val = true)
include h hen hup

theorem exec_ltrUpdate {x : Nat} (hx : s.ltrTarget l.val bytes frames = x) : exec (.ltrUpdate l bytes frames) s = .next (
    (if 4 * x < 3 * (s.link l.val).ltrSent ∨
        2 * (s.link l.val).ltrSent < x ∧ s.fd (HOST.LTR_HOLD (l.val / 2)) 15 0 ≤ 10 * s.ltrHighNow l.val x then sendLtr l.val x
      else modLink l.val fun k => { k with ltrHigh := s.ltrHighNow l.val x }).run s) := by
  refine (live_when h (by rw [hen, hup]; rfl)).trans ?_
  subst hx
  simp only [Bool.or_eq_true, Bool.and_eq_true, decide_eq_true_eq]
  rfl

variable {x : Nat} (hx : s.ltrTarget l.val bytes frames = x)
include hx

theorem exec_ltrUpdate_falls (hfalls : 4 * x < 3 * (s.link l.val).ltrSent) :
    exec (.ltrUpdate l bytes frames) s = .next ((sendLtr l.val x).run s) := by
  rw [exec_ltrUpdate h hen hup hx, if_pos (.inl hfalls)]

theorem exec_ltrUpdate_stands (hge : 3 * (s.link l.val).ltrSent ≤ 4 * x) (hle : x ≤ 2 * (s.link l.val).ltrSent) :
    exec (.ltrUpdate l bytes frames) s = .next ((modLink l.val fun k => { k with ltrHigh := 0 }).run s) := by
  rw [exec_ltrUpdate h hen hup hx, if_neg (by omega), State.ltrHighNow, if_neg (not_lt.2 hle)]

theorem exec_ltrUpdate_held (hhigh : 2 * (s.link l.val).ltrSent < x)
    (hheld : s.fd (HOST.LTR_HOLD (l.val / 2)) 15 0 ≤ 10 * ((s.link l.val).ltrHigh + 1)) :
    exec (.ltrUpdate l bytes frames) s = .next ((sendLtr l.val x).run s) := by
  rw [exec_ltrUpdate h hen hup hx, State.ltrHighNow, if_pos hhigh, if_pos (.inr ⟨hhigh, hheld⟩)]

theorem exec_ltrUpdate_waits (hhigh : 2 * (s.link l.val).ltrSent < x)
    (hwaits : 10 * ((s.link l.val).ltrHigh + 1) < s.fd (HOST.LTR_HOLD (l.val / 2)) 15 0) :
    exec (.ltrUpdate l bytes frames) s = .next ((modLink l.val fun k => { k with ltrHigh := k.ltrHigh + 1 }).run s) := by
  rw [exec_ltrUpdate h hen hup hx, State.ltrHighNow, if_pos hhigh, if_neg (by omega)]
  rfl

end Ltr

theorem latencyReports : Says.LatencyReports := by
  intro s l bytes frames h hen hup hi lo sent x sends
  exact ⟨ltrTarget_within, ltrNs_ltrField_le x, exec_ltrUpdate_falls h hen hup rfl, exec_ltrUpdate_stands h hen hup rfl,
    exec_ltrUpdate_held h hen hup rfl, exec_ltrUpdate_waits h hen hup rfl⟩

/-- Settles O24: each command is its table row under its guard; the words before an entry's last one stand as it is written, and the
encoding of a latency rounds down. -/
theorem trafficTablesGatesAndReports : Obligations.TrafficTablesGatesAndReports := by
  unfold Obligations.TrafficTablesGatesAndReports
  exact ⟨trafficTables, louvreEvents, launchesAndTelemetry, latencyReports⟩

end Sys2Proof.Machine
end

section
/-! PROOF. The scheduler's choice and the flow control of ports (R199, R208, R277, R278, R291, R294). -/

namespace Sys2Proof.Machine

/-! ## The scheduler (R208, R278, R291, R294) -/

section Scheduler

variable {s : State} {p : Fin 512}

/-- The state in which the scheduler picks: frames that no cycle of their gate could carry have gone (R291). -/
def sieved (p : Nat) (s : State) : State := (Prog.each (List.range 16) fun k => dropOversize (16 * p + k)).run s

/-- What the scheduler does with its pick in state `u`. -/
def takePick (u : State) (p : Nat) (c : Copy) (n : Nat) (d : Tbl Nat) : Prog :=
  if !u.portUp p then doAll [notePick p c n d, unqueue c, inc TM.PORT_DOWN_CNT, peep 4 1 c.queue, dropCopy c ST.PORT_DOWN]
  else if !u.macReady p then .skip
  else if u.cfg (TM.LATE_LIMIT.of (objQ c.queue)) ≠ 0 ∧ (u.cfg (TM.LATE_LIMIT.of (objQ c.queue)) : Int) < u.lateness c then
    doAll [notePick p c n d, unqueue c, inc TM.LATE_DROP_CNT, int Pg.tm 0 1, peep 4 1 c.queue, dropCopy c ST.LATE_DROP]
  else if u.cfd (MAC.MAX_FRAME.of p) 13 0 - 4 < c.bytes.length then
    doAll [notePick p c n d, unqueue c, peep 4 1 c.queue, dropCopy c ST.ABORTED]
  else doAll [notePick p c n d, startCopy c false]

variable {c : Copy} {n : Nat} {d : Tbl Nat}

theorem exec_schedulerSelect (h : s.runsBelow 3) (hpick : (sieved p.val s).pick p.val none = some (c, n, d)) :
    exec (.schedulerSelect p) s = .next ((takePick (sieved p.val s) p.val c n d).run (sieved p.val s)) := by
  rw [sieved] at hpick ⊢
  refine (live_next _ h).trans ?_
  simp only [run_all_cons, run_all_nil, run_look, hpick, takePick]

section Outcomes

variable {u : State} {q : Nat}

theorem takePick_down (hup : u.portUp q = false) : takePick u q c n d =
    doAll [notePick q c n d, unqueue c, inc TM.PORT_DOWN_CNT, peep 4 1 c.queue, dropCopy c ST.PORT_DOWN] := by
  rw [takePick, hup, Bool.not_false, if_pos rfl]

variable (hup : u.portUp q = true) (hready : u.macReady q = true)
include hup hready

theorem takePick_late (h0 : u.cfg (TM.LATE_LIMIT.of (objQ c.queue)) ≠ 0)
    (hlt : (u.cfg (TM.LATE_LIMIT.of (objQ c.queue)) : Int) < u.lateness c) : takePick u q c n d =
    doAll [notePick q c n d, unqueue c, inc TM.LATE_DROP_CNT, int Pg.tm 0 1, peep 4 1 c.queue, dropCopy c ST.LATE_DROP] := by
  rw [takePick, hup, hready, Bool.not_true, if_neg Bool.false_ne_true, if_neg Bool.false_ne_true, if_pos ⟨h0, hlt⟩]

theorem takePick_inTime
    (hin : u.cfg (TM.LATE_LIMIT.of (objQ c.queue)) = 0 ∨ u.lateness c ≤ (u.cfg (TM.LATE_LIMIT.of (objQ c.queue)) : Int)) :
    takePick u q c n d = if u.cfd (MAC.MAX_FRAME.of q) 13 0 - 4 < c.bytes.length then
      doAll [notePick q c n d, unqueue c, peep 4 1 c.queue, dropCopy c ST.ABORTED] else doAll [notePick q c n d, startCopy c false] := by
  rw [takePick, hup, hready, Bool.not_true, if_neg Bool.false_ne_true, if_neg Bool.false_ne_true, if_neg (by omega)]

end Outcomes

end Scheduler

theorem schedulerTakesItsPick : Says.SchedulerTakesItsPick := by
  intro s p c n d h u lim hpick
  have hexec : exec (.schedulerSelect p) s = .next ((takePick u p.val c n d).run u) := exec_schedulerSelect h hpick
  clear_value u
  exact ⟨fun hup => hexec.trans (by rw [takePick_down hup]), fun hup hready h0 hlt => hexec.trans (by rw [takePick_late hup hready h0 hlt]),
    fun hup hready hin hlen => hexec.trans (by rw [takePick_inTime hup hready hin, if_neg (not_lt.2 hlen)]),
    fun hup hready hin hlen => hexec.trans (by rw [takePick_inTime hup hready hin, if_pos hlen])⟩

/-! ## Flow control (R199, R277) -/

theorem liveOnly_incW (r : Reg) (n : Nat) : (incW r n).liveOnly :=
  liveOnly_look fun _ => liveOnly_seq (liveOnly_wr _ _) (liveOnly_seq (liveOnly_wr _ _) liveOnly_skip)

theorem liveOnly_gotOctets (p n : Nat) : (gotOctets p n).liveOnly :=
  liveOnly_seq (liveOnly_incW _ _) (liveOnly_seq (liveOnly_incW _ _) (liveOnly_seq (liveOnly_incW _ _) liveOnly_skip))

/-- An effect on live registers leaves a port's committed settings. -/
theorem Prog.liveOnly.macBit {q : Prog} (h : q.liveOnly) (s : State) (p i : Nat) : (q.run s).macBit p i = s.macBit p i := by
  obtain ⟨-, -, hcopy⟩ := h s
  rw [State.macBit, State.cbit, State.cfg, hcopy _ _ (by simp), State.macBit, State.cbit, State.cfg]

/-- Counting a received frame of 64 bytes leaves a port's committed settings. -/
theorem macBit_counted (s : State) (p i : Nat) (r : Reg) :
    ((incW r 1).run ((gotOctets p 64).run s)).macBit p i = s.macBit p i :=
  (liveOnly_seq (liveOnly_gotOctets p 64) (liveOnly_incW r 1)).macBit s p i

section Pauses

variable {s : State} {p : Fin 512} {g : Fin 8} {x : BitVec 16} (h : s.runsBelow 3)
include h

theorem exec_pauseReceived_pfc (hup : s.portUp p.val = true) (hrx : s.macBit p.val 0 = true) (hpfc : s.macBit p.val 4 = true) :
    exec (.pauseReceived p true [(g, x)]) s = .next ((doAll [gotOctets p.val 64, incW ((MAC.RX_PFC g.val).of p.val) 1,
      ctl fun c => { c with net.paused := fset c.net.paused (16 * p.val + g.val) (decide (x ≠ 0)) }]).run s) := by
  have hpfc' := (macBit_counted s p.val 4 ((MAC.RX_PFC g.val).of p.val)).trans hpfc
  refine (live_when h (by rw [hup, hrx]; rfl)).trans ?_
  simp only [run_all_cons, run_all_nil, if_true, run_each_cons, run_each_nil]
  generalize (incW ((MAC.RX_PFC g.val).of p.val) 1).run ((gotOctets p.val 64).run s) = u at hpfc' ⊢
  rw [run_look, hpfc', when_true, run_each_cons, run_each_nil]

theorem exec_pauseReceived_pause (hup : s.portUp p.val = true) (hrx : s.macBit p.val 0 = true) (hpause : s.macBit p.val 5 = true)
    (hpfc : s.macBit p.val 4 = false) :
    exec (.pauseReceived p false [(g, x)]) s = .next ((doAll [gotOctets p.val 64, incW (MAC.RX_PAUSE.of p.val) 1,
      ctl fun c => { c with net.paused := fset c.net.paused (16 * p.val + 8) (decide (x ≠ 0)) }]).run s) := by
  have hpause' := (macBit_counted s p.val 5 (MAC.RX_PAUSE.of p.val)).trans hpause
  have hpfc' := (macBit_counted s p.val 4 (MAC.RX_PAUSE.of p.val)).trans hpfc
  refine (live_when h (by rw [hup, hrx]; rfl)).trans ?_
  simp only [run_all_cons, run_all_nil, Bool.false_eq_true, if_false, List.any_cons, List.any_nil, Bool.or_false]
  generalize (incW (MAC.RX_PAUSE.of p.val) 1).run ((gotOctets p.val 64).run s) = u at hpause' hpfc' ⊢
  rw [run_look, hpause', hpfc', Bool.not_false, Bool.and_true, when_true]

theorem exec_pfcRepeat {k : Fin 9} (hl : s.lossless p.val k.val = true) (hsent : tget false s.ctl.net.pfcSent (16 * p.val + k.val) = true)
    (huse : s.xon p.val ≤ s.usage true p.val k.val) : exec (.pfcRepeat p k) s = .next ((sendPause p.val k.val 0xFFFF).run s) :=
  live_when h (by rw [hl, hsent, decide_eq_true huse]; rfl)

end Pauses

theorem exec_pauseExpired (s : State) (p : Fin 512) (k : Fin 9) : ∃ t, exec (.pauseExpired p k) s = .next t ∧
    tget false t.ctl.net.paused (16 * p.val + k.val) = false ∧ t.reg = s.reg ∧ t.mem = s.mem :=
  ⟨_, rfl, tget_fset_same s.ctl.net.paused (16 * p.val + k.val) false, rfl, rfl⟩

theorem flowControlOfPorts : Says.FlowControlOfPorts := fun s p _ _ =>
  ⟨exec_pauseReceived_pfc, exec_pauseReceived_pause, exec_pauseExpired s p, fun _ h => exec_pfcRepeat h⟩

/-- Settles O25: the copy picked meets the four outcomes in the scheduler's order; counting a received frame leaves the committed
settings that say whether its pause is taken. -/
theorem picksAndPauses : Obligations.PicksAndPauses := by
  unfold Obligations.PicksAndPauses
  exact ⟨schedulerTakesItsPick, flowControlOfPorts⟩

end Sys2Proof.Machine
end

section
/-! PROOF. Every command of the queue (95_what_each_step_holds), and the power states in which a control core halts (R98, R333). -/

namespace Sys2Proof.Machine

/-- Settles O1: a step is `exec` of the front command with the queue's rest. -/
theorem stepRunsTheFrontCommand : Obligations.StepRunsTheFrontCommand := fun _ _ _ => rfl

/-- Settles O2: every command is the run of an effect, and no effect touches the queue. -/
theorem everyCommandAnswersAndKeepsTheQueue : Obligations.EveryCommandAnswersAndKeepsTheQueue := fun c s => by
  obtain ⟨p, hp⟩ := exec_runs c s
  exact ⟨p.run s, hp, run_pending p s⟩

/-! ## A control core in P2 -/

/-- In P2 and above a core's halt has no effect. -/
theorem exec_coreFatal_gated {s : State} (h : 2 ≤ s.pstate) (c : Fin 48) (cause : Word) (epc : DWord) :
    exec (.coreFatal c cause epc) s = .next s := by
  calc exec (.coreFatal c cause epc) s = live 2 _ s := rfl
    _ = .next s := by
      rw [live, done_eq, during, run_look, decide_eq_false (by omega), Bool.and_false, when_false, run_skip]

/-- The machine in P2, with core 0 RUNNING. -/
def coreInP2 : State := (doAll [wr PWR.PSTATE_STATUS 2, wr (CORE.CORE_STATUS.of 0) 1]).run State.reset

/-- A core that has halted with its cause is FATAL. -/
def halts (c : Nat) (r : Res) : Bool :=
  match r with
  | .next t => decide (t.coreState c = 3)
  | _ => false

/-- Refutes O46: `Says.ChannelsAndCoresByTheirPages` lets a core halt in every power state, where R98 gates every control core in P2. In
`coreInP2` core 0 is RUNNING, and CORE_FATAL leaves the state as it is, where the statement has the core FATAL. -/
theorem not_channelsCoresAndControlQueues : ¬ Obligations.ChannelsCoresAndControlQueues := by
  unfold Obligations.ChannelsCoresAndControlQueues Says.ChannelsAndCoresByTheirPages
  rintro ⟨hpages, -⟩
  obtain ⟨-, -, -, hfatal⟩ := hpages coreInP2 (.core 0) 0
  have hruns : coreInP2.runsBelow 4 := by decide +kernel
  have hp2 : 2 ≤ coreInP2.pstate := by decide +kernel
  have hsays := hfatal hruns 0 0 0 (by decide +kernel)
  rw [exec_coreFatal_gated hp2] at hsays
  have hstands : halts 0 (.next coreInP2) = false := by decide +kernel
  rw [hsays] at hstands
  revert hstands
  decide +kernel

end Sys2Proof.Machine
end

section
/-! PROOF. Threads of the flow engines: writes of their fields, fetch and dispatch, the end of an instruction (R299 to R303, R315, R322). -/

namespace Sys2Proof.Machine

/-! ## Two writes of one entry -/

theorem tdel_tins {κ ν : Type} [DecidableEq κ] (lt : κ → κ → Bool) (k : κ) (v : ν) (t : List (κ × ν)) :
    tdel (tins lt k v t) k = tdel t k := by
  induction t with
  | nil => simp [tins, tdel]
  | cons e t ih =>
    by_cases h : lt k e.1
    · simp [tins, h, tdel]
    · simp only [tins, h, Bool.false_eq_true, if_false]
      by_cases he : e.1 = k <;> simpa [tdel, he] using ih

theorem tset_tset {κ ν : Type} [DecidableEq κ] [DecidableEq ν] (lt : κ → κ → Bool) (d : ν) (t : List (κ × ν)) (k : κ) (v w : ν) :
    tset lt d (tset lt d t k v) k w = tset lt d t k w := by
  have hdel : tdel (tset lt d t k v) k = tdel t k := by
    rw [tset]
    split
    · simp [tdel]
    · rw [tdel_tins]
      simp [tdel]
  rw [tset, hdel, ← tset]

theorem nmod_nmod {ν : Type} [DecidableEq ν] (d : ν) (t : Tbl ν) (k : Nat) (f g : ν → ν) :
    nmod d (nmod d t k f) k g = nmod d t k (g ∘ f) := by
  unfold nmod nset
  rw [tset_tset, tget_tset_same, Function.comp_apply]

/-! ## Fields of threads -/

theorem thread_modThread_same (t : Nat) (f : Thread → Thread) (s : State) :
    ((modThread t f).run s).thread t = f (s.thread t) := tget_nmod_same ..

theorem thread_modThread_other (f : Thread → Thread) (s : State) {g t : Nat} (h : g ≠ t) :
    ((modThread t f).run s).thread g = s.thread g := tget_nmod_other _ _ _ h

theorem run_modThread_modThread (t : Nat) (f g : Thread → Thread) (s : State) :
    (modThread t g).run ((modThread t f).run s) = (modThread t (g ∘ f)).run s := by
  simp only [modThread, run_upd, nmod_nmod]

/-- What a change makes of a thread depends on the thread as it stands only. -/
theorem run_modThread_congr {t : Nat} {f g : Thread → Thread} {s : State} (h : f (s.thread t) = g (s.thread t)) :
    (modThread t f).run s = (modThread t g).run s := by
  have h' : f (tget Thread.init s.ctl.flow.threads t) = g (tget Thread.init s.ctl.flow.threads t) := h
  simp only [modThread, run_upd, nmod, h']

theorem onPath_of_none {h : Thread} (hs : h.spec = none) : h.onPath = false := by rw [Thread.onPath, hs]; rfl

/-- Nothing is noted of a path while the thread's fields are its own. -/
theorem Thread.noted_of_not_onPath {h : Thread} (hp : h.onPath = false) (f : Spec → Spec) : h.noted f = h := by
  unfold Thread.noted
  cases hs : h.spec with
  | none => rw [Option.map_none, ← hs]
  | some p =>
    have hon : p.on = false := by rw [Thread.onPath, hs] at hp; exact hp
    rw [Option.map_some, hon, if_neg Bool.false_ne_true, ← hs]

/-- A thread with a flow register written. -/
def Thread.putX (h : Thread) (n v : Nat) : Thread := if n = 0 then h else { h with xs := nset 0 h.xs n (v % 2 ^ 64) }

theorem Thread.putX_eq (h : Thread) (n v : Nat) : ∃ xs, h.putX n v = { h with xs := xs } ∧
    ∀ m, ({ h with xs := xs } : Thread).x m = if m = n ∧ m ≠ 0 then v % 2 ^ 64 else h.x m := by
  by_cases hn : n = 0
  · refine ⟨h.xs, by rw [Thread.putX, if_pos hn], fun m => ?_⟩
    rw [if_neg (by omega)]
  · refine ⟨nset 0 h.xs n (v % 2 ^ 64), by rw [Thread.putX, if_neg hn], fun m => ?_⟩
    by_cases hm : m = n
    · subst hm
      simp [Thread.x, hn]
    · simp [Thread.x, hm, tget_nset_other]

theorem thread_setX {t : Nat} {s : State} (hp : (s.thread t).onPath = false) (n v : Nat) :
    ((setX t n v).run s).thread t = (s.thread t).putX n v := by
  rw [setX, Thread.putX]
  by_cases hn : n = 0
  · rw [decide_eq_false (not_not_intro hn), when_false, if_pos hn, run_skip]
  · rw [decide_eq_true hn, when_true, if_neg hn, thread_modThread_same, Thread.noted_of_not_onPath hp]

theorem thread_setT {t : Nat} {s : State} (hp : (s.thread t).onPath = false) (n v : Nat) :
    ((setT t n v).run s).thread t = { s.thread t with ts := nset 0 (s.thread t).ts n (v % 2 ^ 64) } := by
  rw [setT, thread_modThread_same, Thread.noted_of_not_onPath hp]

theorem Side.thread {P : Nat → Prop} {s u : State} (h : Side P s u) (g : Nat) : u.thread g = s.thread g := by
  obtain ⟨_, _, _, _, _, _, _, _, e⟩ := h.ctl
  rw [State.thread, e, State.thread]

theorem Side.poison {P : Nat → Prop} {s u : State} (h : Side P s u) : u.ctl.health.poison = s.ctl.health.poison := by
  obtain ⟨_, _, _, _, _, _, _, _, e⟩ := h.ctl
  rw [e]

/-! ## What the work of one thread may change -/

/-- `u` differs from `s` at most in thread `t`, in the registers and the trace buffer of signals, in bytes where `st` says, and behind the
registers other than time and network. -/
structure Works (t : Nat) (st : Nat → Nat → Nat → Prop) (s u : State) : Prop where
  others : ∀ g, g ≠ t → u.thread g = s.thread g
  copy : ∀ b q, q.page ∉ [13, 26, 37, 39] → u.copy b q = s.copy b q
  net : u.ctl.net = s.ctl.net
  time : u.ctl.time = s.ctl.time
  byte : ∀ sp j x, ¬ (sp = 1 ∧ j = 0 ∧ 0x29000000 ≤ x) → x < 2 ^ 48 → j < 64 → ¬ st sp j x → u.byte sp j x = s.byte sp j x

/-- No byte. -/
def nowhere (_ _ _ : Nat) : Prop := False

section Works

variable {t : Nat} {st : Nat → Nat → Nat → Prop}

theorem composes_works : Composes (Works t st) where
  refl _ := ⟨fun _ _ => rfl, fun _ _ _ => rfl, rfl, rfl, fun _ _ _ _ _ _ _ => rfl⟩
  trans h g := ⟨fun k hk => (g.others k hk).trans (h.others k hk), fun b q hq => (g.copy b q hq).trans (h.copy b q hq),
    g.net.trans h.net, g.time.trans h.time,
    fun sp j x h1 h2 h3 h4 => (g.byte sp j x h1 h2 h3 h4).trans (h.byte sp j x h1 h2 h3 h4)⟩

theorem Works.mono {s u : State} (h : Works t nowhere s u) : Works t st s u :=
  ⟨h.others, h.copy, h.net, h.time, fun sp j x h1 h2 h3 _ => h.byte sp j x h1 h2 h3 id⟩

theorem Works.of_side {s u : State} (h : Side reportPages s u) : Works t st s u := by
  obtain ⟨_, _, _, _, _, _, _, _, e⟩ := h.ctl
  refine ⟨fun g _ => h.thread g, fun b q hq => h.copy b q ?_, by rw [e], by rw [e], fun sp j x hx hlt hj _ => h.byte sp j x ?_⟩
  · simp only [List.mem_cons, List.not_mem_nil, or_false, not_or] at hq
    obtain ⟨h13, h26, h37, h39⟩ := hq
    simp [sideReg, reportPages, h13, h26, h37, h39]
  · simp only [inTrace, memKey]
    omega

theorem side_peep_reports (stream ev key : Nat) : (peep stream ev key).side reportPages :=
  side_chain _ _ _ (by simp [Sig.pages, reportPages])

theorem works_peep (stream ev key : Nat) : (peep stream ev key).within (Works t st) := fun s => .of_side (side_peep_reports stream ev key s)

theorem works_modThread (f : Thread → Thread) : (modThread t f).within (Works t st) := fun s =>
  ⟨fun _ hg => thread_modThread_other f s hg, fun _ _ _ => rfl, rfl, rfl, fun _ _ _ _ _ _ _ => rfl⟩

/-- A change behind the registers that leaves threads, network and time. -/
theorem works_upd {f : Ctl → Ctl} (h : ∀ c, (f c).flow.threads = c.flow.threads ∧ (f c).net = c.net ∧ (f c).time = c.time) :
    (Prog.upd f).within (Works t st) := fun s => by
  obtain ⟨hthreads, hnet, htime⟩ := h s.ctl
  exact ⟨fun g _ => congrArg (tget Thread.init · g) hthreads, fun _ _ _ => rfl, hnet, htime, fun _ _ _ _ _ _ _ => rfl⟩

theorem works_fresh {k : Nat → Prog} (h : ∀ v, (k v).within (Works t st)) : (fresh k).within (Works t st) :=
  within_look fun _ => composes_works.seq (works_upd fun _ => ⟨rfl, rfl, rfl⟩) (h _)

theorem works_setX (n v : Nat) : (setX t n v).within (Works t st) := composes_works.when (works_modThread _)

theorem works_clobber : (clobber t).within (Works t st) :=
  composes_works.cons (composes_works.each fun _ _ => works_fresh fun _ => works_modThread _)
    (composes_works.cons (works_fresh fun _ => works_modThread _) composes_works.nil)

theorem works_settle : (settle t).within (Works t st) := within_look fun _ => composes_works.when (works_modThread _)

theorem works_boundary : (boundary t).within (Works t st) := within_look fun _ => composes_works.when
  (composes_works.cons (works_modThread _) (composes_works.cons works_settle composes_works.nil))

theorem works_endInstr (fpc : Nat) : (endInstr t fpc).within (Works t st) :=
  composes_works.cons works_clobber (composes_works.cons (works_modThread _) (composes_works.cons works_boundary composes_works.nil))

/-- Bytes written where `st` says. -/
theorem works_poke {sp j a : Nat} {l : List Byte} (h : ∀ x, a ≤ x → x < a + l.length → st sp j x) (hj : j < 64) (ha : a + l.length ≤ 2 ^ 48) :
    (poke sp j a l).within (Works t st) := fun s => by
  refine ⟨fun g _ => by rw [State.thread, ctl_poke, State.thread], fun b q _ => by rw [State.copy, reg_poke, State.copy], by rw [ctl_poke],
    by rw [ctl_poke], fun sp' j' x _ hx hj' hst => mem_poke_other _ _ _ _ _ fun hin => hst ?_⟩
  have hkey : sp' = sp ∧ j' = j ∧ a ≤ x ∧ x < a + l.length := by
    simp only [memKey] at hin
    omega
  obtain ⟨rfl, rfl, hle, hlt⟩ := hkey
  exact h x hle hlt

theorem works_cleanse (sp j a n : Nat) : (cleanse sp j a n).within (Works t st) := works_upd fun _ => ⟨rfl, rfl, rfl⟩

end Works

/-! What a thread reads is the same after the work of another kind. -/

namespace Works

variable {t : Nat} {s u : State} (h : Works t nowhere s u)
include h

theorem fd_eq {r : Reg} (hr : r.page ∉ [13, 26, 37, 39]) (hi lo : Nat) : u.fd r hi lo = s.fd r hi lo := congrArg (field · hi lo) (h.copy _ r hr)

theorem rd_eq {r : Reg} (hr : r.page ∉ [13, 26, 37, 39]) : u.rd r = s.rd r := h.copy _ r hr

theorem cfd_eq {r : Reg} (hr : r.page ∉ [13, 26, 37, 39]) (hi lo : Nat) : u.cfd r hi lo = s.cfd r hi lo :=
  congrArg (field · hi lo) (h.copy _ r hr)

theorem cfg_eq {r : Reg} (hr : r.page ∉ [13, 26, 37, 39]) : u.cfg r = s.cfg r := h.copy _ r hr

theorem thrDom_eq (g : Nat) : u.thrDom g = s.thrDom g := h.cfd_eq (show Pg.flow ∉ [13, 26, 37, 39] by decide) 6 4

theorem wt_eq (n : Nat) : u.wt n = s.wt n := by rw [State.wt, State.dom, h.time, State.wt, State.dom]

theorem bytes_eq {sp j a n : Nat} (hsp : sp ≠ 1) (hj : j < 64) (ha : a + n ≤ 2 ^ 48) : u.bytes sp j a n = s.bytes sp j a n :=
  List.map_congr_left fun i hi => h.byte sp j (a + i) (by omega) (by have := List.mem_range.1 hi; omega) hj id

theorem dispatchWord_eq {e op : Nat} (he : e < 64) (hop : op < 2 ^ 32) : u.dispatchWord e op = s.dispatchWord e op := by
  rw [State.dispatchWord, State.memNat, h.bytes_eq (by decide) he (by omega), State.dispatchWord, State.memNat]

theorem hbmReadOnly_eq (a n : Nat) : u.hbmReadOnly a n = s.hbmReadOnly a n := by
  rw [State.hbmReadOnly, State.dirtyMiB, State.rdW, h.fd_eq (r := BLKF.STAGE_CFG) (by decide), h.rd_eq (r := BLKF.STAGE_BASE) (by decide),
    h.rd_eq (r := BLKF.STAGE_BASE.hi) (by decide)]
  rfl

theorem xmemOk_eq (ddr wrt : Bool) (a n : Nat) : u.xmemOk ddr wrt a n = s.xmemOk ddr wrt a n := by
  simp only [State.xmemOk, State.memGiB, h.hbmReadOnly_eq, h.fd_eq (r := MEM.DDR_STATUS) (by decide), h.fd_eq (r := MEM.HBM_STATUS) (by decide)]

end Works

/-! ## Fetch and dispatch (R315, R322) -/

section Dispatch

variable {s u : State} {t : Fin 1024} {i : Nat}

/-- An instruction that enters the cache takes a place there, and a free value when the cache is full. -/
theorem icachePut_keeps (e fpc v : Nat) (s : State) :
    ∃ fr ic, (icachePut e fpc v).run s = { s with ctl := { s.ctl with free := fr, flow.icache := ic } } := by
  unfold icachePut
  rw [run_look]
  dsimp only
  split <;> exact ⟨_, _, rfl⟩

/-- An instruction that stands dispatched at thread `t`: what else its dispatch may have changed is a signal's. -/
structure Dispatches (t i : Nat) (s u : State) : Prop where
  thread : u.thread t = { s.thread t with instr := i, fpcNext := none }
  works : Works t nowhere s u
  poison : u.ctl.health.poison = s.ctl.health.poison

theorem run_dispatched (t i : Nat) (s : State) : Dispatches t i s ((dispatched t i).run s) := by
  have hside := side_peep_reports 5 0 t ((modThread t fun h => { h with instr := i, fpcNext := none }).run s)
  refine ⟨?_, composes_works.trans (works_modThread _ s) (.of_side hside), hside.poison⟩
  exact (hside.thread t).trans (thread_modThread_same ..)

theorem run_taken (t i : Nat) (s : State) : Dispatches t i s ((taken s t i).run s) := by
  obtain ⟨fr, ic, hput⟩ := icachePut_keeps (t / 16) (s.thread t).fpc (i + 1) s
  rw [taken, run_all_cons, run_all_cons, run_all_nil, hput]
  obtain ⟨hthread, hworks, hpoison⟩ := run_dispatched t i { s with ctl := { s.ctl with free := fr, flow.icache := ic } }
  exact ⟨hthread, ⟨hworks.others, hworks.copy, hworks.net, hworks.time, hworks.byte⟩, hpoison⟩

theorem insOp_lt (i : Nat) : insOp i < 256 := Nat.mod_lt _ (by norm_num)

variable (hat : s.flowAt t.val i)
include hat

/-- The instruction at the FPC of such a thread goes on once it is in the cache. -/
theorem run_fetched (k : Nat → Prog) :
    (fetched t.val k).run s = (k i).run ((icachePut (t.val / 16) (s.thread t.val).fpc (i + 1)).run s) := by
  obtain ⟨-, -, -, -, hlt, hal, hmem, hcache, hgood, hvalid⟩ := hat
  obtain ⟨fr, ic, hput⟩ := icachePut_keeps (t.val / 16) (s.thread t.val).fpc (i + 1) s
  have hgood' : State.poisoned { s with ctl := { s.ctl with free := fr, flow.icache := ic } } 3 (t.val / 16) (4 * insOp i) 4 = false := hgood
  have hok : s.fpcOk (t.val / 16) (s.thread t.val).fpc = true := by rw [State.fpcOk, decide_eq_true hlt, decide_eq_true hal]; rfl
  rw [fetched, run_look]
  dsimp only
  rw [hok, Bool.not_true, if_neg Bool.false_ne_true, hmem, hcache, if_neg (Nat.succ_ne_zero i), if_pos rfl, run_all_cons, run_all_cons,
    run_all_nil, hput, withStore, run_look, hgood', if_neg Bool.false_ne_true, if_pos hvalid]

/-- A flow instruction at the FPC is taken, and acts as the `p` that its operation comes to once it stands dispatched. -/
theorem exec_flowRow {op : Nat} {act : Nat → Thread → Prog} (hr : s.runsBelow 2) (hop : insOp i = op) (p : Prog)
    (hp : ∀ u, Dispatches t.val i s u → (act i (s.thread t.val)).run u = p.run u) :
    live 2 (flowRow op t act) s = .next ((doAll [taken s t.val i, p]).run s) := by
  obtain ⟨hst, hupc, -⟩ := id hat
  rw [live_next _ hr, flowRow, run_look]
  dsimp only
  rw [hst, hupc, Option.isNone_none, decide_eq_true rfl, Bool.and_true, when_true, run_fetched hat, decide_eq_true hop, when_true,
    run_all_cons, run_all_cons, run_all_nil]
  exact congrArg Host.Outcome.next (hp _ (run_taken t.val i s))

end Dispatch

end Sys2Proof.Machine
end

section
/-! PROOF. The flow instructions (R299, R301, R309 to R316, R323, R328). -/

namespace Sys2Proof.Machine

/-! ## What reads of LMEM and checks of operands come to -/

theorem lmem_of_none {s : State} {t : Nat} (hs : (s.thread t).spec = none) (a n : Nat) : s.lmem t a n = s.bytes 13 (t / 16) a n := by
  rw [State.lmem, hs]

theorem run_withGood {s : State} {t a n : Nat} (h : s.poisoned 13 (t / 16) a n = false) (k : Prog) : (withGood t a n k).run s = k.run s := by
  rw [withGood, run_look, h, if_neg Bool.false_ne_true]

theorem withLmem_of_ok {a n : Nat} (h : lmemOk a n = true) (t : Nat) (k : Prog) : withLmem t a n k = k := by rw [withLmem, if_pos h]

theorem withLmemAt_of_ok {a n : Nat} (h : lmemOk a n = true) (hal : a % n = 0) (t : Nat) (k : Prog) : withLmemAt t a n k = k := by
  rw [withLmemAt, if_pos ⟨h, hal⟩]

theorem lmemOk_le {a n : Nat} (h : lmemOk a n = true) : a + n ≤ 0x40000 := of_decide_eq_true h

theorem thread_engine_lt (t : Fin 1024) : t.val / 16 < 64 := by omega

namespace Dispatches

variable {s u : State} {t : Fin 1024} {i : Nat} (h : Dispatches t.val i s u)
include h

theorem poisoned_eq (sp j a n : Nat) : u.poisoned sp j a n = s.poisoned sp j a n := by rw [State.poisoned, h.poison, State.poisoned]

theorem lmem_eq (hs : (s.thread t.val).spec = none) {a n : Nat} (ha : lmemOk a n = true) : u.lmem t.val a n = s.lmem t.val a n := by
  rw [lmem_of_none (by rw [h.thread]; exact hs), lmem_of_none hs,
    h.works.bytes_eq (by decide) (thread_engine_lt t) ((lmemOk_le ha).trans (by norm_num))]

theorem run_withGood {a n : Nat} (hg : s.lmemGood t.val a n) (k : Prog) : (withGood t.val a n k).run u = k.run u :=
  Machine.run_withGood ((h.poisoned_eq _ _ _ _).trans hg.2) k

theorem run_fcStart {op a v : Nat} (hg : s.lmemGood t.val a 32) : (fcStart t.val op a v).run u = (waitFor t.val 5 (.cache op a v)).run u := by
  rw [fcStart, withLmem_of_ok hg.1, h.run_withGood hg]

theorem run_frameStart {op a b n fn : Nat} (hf : (s.thread t.val).frame.isSome = true) :
    (frameStart t.val op a b n fn).run u = (waitFor t.val 5 (.frame op a b n fn)).run u := by
  obtain ⟨f, hf⟩ := Option.isSome_iff_exists.1 hf
  rw [frameStart]
  split
  · rw [withFrame, run_look, h.thread, hf]
  · rfl

theorem thrFn_eq : u.thrFn t.val = s.thrFn t.val := by
  rw [State.thrFn, h.works.cfg_eq (show Pg.flow ∉ [13, 26, 37, 39] by decide), h.thread, State.thrFn]

end Dispatches

/-- What the flow instruction `i` answers that comes to `p` once it is taken. -/
abbrev takes (s : State) (t i : Nat) (p : Prog) : Res := .next ((doAll [taken s t i, p]).run s)

section Act

variable {s : State} {t : Fin 1024} {i : Nat} (hr : s.runsBelow 2)
include hr

/-- An instruction that the cache lacks makes the thread wait for its fetch (R301). -/
theorem exec_nop_uncached (hst : (s.thread t.val).st = 2) (hupc : (s.thread t.val).upc = none)
    (hok : s.fpcOk (t.val / 16) (s.thread t.val).fpc = true)
    (hno : tget 0 s.ctl.flow.icache (t.val / 16 * 2 ^ 32 + (s.thread t.val).fpc) = 0) :
    exec (.nop t) s = .next ((waitFor t.val 5 .fetch).run s) := by
  calc exec (.nop t) s = live 2 (flowRow 0x00 t _) s := rfl
    _ = _ := by
      rw [live_next _ hr, flowRow, run_look]
      dsimp only
      rw [hst, hupc, Option.isNone_none, decide_eq_true rfl, Bool.and_true, when_true, fetched, run_look]
      dsimp only
      rw [hok, Bool.not_true, if_neg Bool.false_ne_true, if_pos hno]

variable (hat : s.flowAt t.val i)
include hat

theorem exec_br (hop : insOp i = 0x03) {b : Bool} (hb : brCond (insFn i % 8) ((s.thread t.val).x (insA i)) ((s.thread t.val).x (insB i)) = some b) :
    exec (.br t) s = takes s t.val i (doAll [
      Prog.when (tbit (s.dispatchWord (t.val / 16) 0x03) 14) (doAll [
        ranAhead t.val (if predicts i then ((s.thread t.val).fpc + sx32 (insImm i)) % 2 ^ 32 else ((s.thread t.val).fpc + 8) % 2 ^ 32) (predicts i == b),
        Prog.when (predicts i != b) (doAll [inc (FLOW.MISPREDICT_CNT.of (t.val / 16)), peep 5 2 t.val])]),
      endInstr t.val (if b then (s.thread t.val).fpc + sx32 (insImm i) else (s.thread t.val).fpc + 8)]) := by
  refine exec_flowRow hat hr hop _ fun u hu => ?_
  rw [hb]
  dsimp only
  rw [run_look, hu.works.dispatchWord_eq (thread_engine_lt t) (by norm_num)]
  rfl

theorem exec_xld (hop : insOp i = 0x08)
    (hok : s.xmemOk (tbit (insFn i) 3) false (addrOf i (s.thread t.val)) (sizeOf2 (insFn i)) = true) :
    exec (.xld t) s = takes s t.val i (waitFor t.val 5
      (.load (xspace (tbit (insFn i) 3)) (addrOf i (s.thread t.val)) (sizeOf2 (insFn i)) (tbit (insFn i) 2))) :=
  exec_flowRow hat hr hop _ fun u hu => by rw [xload, run_look, hu.works.xmemOk_eq, if_pos hok]

theorem exec_hcopy (hop : insOp i = 0x0A) {n : Nat} (hn : field (insImm i) 12 0 = n) (hpos : 0 < n) (hmax : n ≤ 4096)
    (hlm : lmemOk ((s.thread t.val).x (insB i)) n = true) :
    exec (.hcopy t) s = takes s t.val i (match s.thrFn t.val with
      | none => finishOp t.val (some ST.ACCESS_DENIED)
      | some f => doAll [waitFor t.val 5 (.host (!tbit (insFn i) 0) ((s.thread t.val).x (insA i)) ((s.thread t.val).x (insB i)) n),
          Prog.when (!tbit (insFn i) 0) (hostRead f ((s.thread t.val).x (insA i)) n (.thread t.val 0))]) :=
  exec_flowRow hat hr hop _ fun u hu => by
    rw [hn, hcopy, run_look, if_neg (by omega), withLmem_of_ok hlm, hu.thrFn_eq] <;> rfl

theorem exec_wait (hop : insOp i = 0x0D) : exec (.wait t) s = takes s t.val i (request (s.thrDom t.val) 1
      (if tbit (insFn i) 0 then .rel (addrOf i (s.thread t.val)) else .abs ((s.thread t.val).x (insA i) % 2 ^ 48)) (.threadWait t.val)
      fun st _ => if st = ST.OK then waitFor t.val 4 .time else finishOp t.val (some st)) :=
  exec_flowRow hat hr hop _ fun u hu => by rw [timeWait, run_look, hu.works.thrDom_eq]

theorem exec_latch (hop : insOp i = 0x0E) (hfn : insFn i % 4 < 3) :
    exec (.latch t) s = takes s t.val i (waitFor t.val 5 (.latch (field (insImm i) 9 0) (insFn i))) :=
  exec_flowRow hat hr hop _ fun u _ => by rw [latchStart, if_neg (by omega)]

theorem exec_cpl (hop : insOp i = 0x18) : exec (.cpl t) s = takes s t.val i (doAll [
      match (s.thread t.val).item with
      | none => .skip
      | some w => if (s.thread t.val).cplDone then inc (FLOW.CPL_DUP_CNT.of (t.val / 16))
        else doAll [completeWith w ((s.thread t.val).x (insA i) % 65536) ((s.thread t.val).x (insB i) % 2 ^ 32) [] none
            [(20, leBytes 8 ((s.thread t.val).x (insD i)))],
          modThread t.val fun y => { y with cplDone := true }],
      get fun u => match (s.thread t.val).item with
        | some w => if u.postWaits w then waitFor t.val 5 (.cpl w) else finishOp t.val none
        | none => finishOp t.val none]) :=
  exec_flowRow hat hr hop _ fun u hu => by
    rw [cplItem, run_look, hu.thread] <;> rfl

theorem exec_done (hop : insOp i = 0x1A) : exec (.done t) s = takes s t.val i (doneWork t.val ((s.thread t.val).fpc + 8)) :=
  exec_flowRow hat hr hop _ fun _ _ => rfl

theorem exec_halt (hop : insOp i = 0x1B) : exec (.halt t) s = takes s t.val i (haltThread t.val ((s.thread t.val).fpc + 8)) :=
  exec_flowRow hat hr hop _ fun _ _ => rfl

end Act

/-- Settles O40: each instruction is taken and acts; no dispatch changes what its operation reads. -/
theorem flowInstructionsAct : Obligations.FlowInstructionsAct := by
  unfold Obligations.FlowInstructionsAct
  refine ⟨fun _ _ hr => exec_nop_uncached hr, fun _ _ _ hr hat => ?_⟩
  exact ⟨fun hop _ => exec_br hr hat hop, exec_xld hr hat, fun hop => exec_hcopy hr hat hop rfl,
      fun hop _ => exec_flowRow hat hr hop _ fun _ _ => rfl,
      fun hop _ => exec_flowRow hat hr hop _ fun _ _ => rfl,
      exec_wait hr hat, exec_latch hr hat,
      fun hop hg => exec_flowRow hat hr hop _ fun _ hu => hu.run_fcStart hg,
      fun hop hg => exec_flowRow hat hr hop _ fun _ hu => hu.run_fcStart hg,
      fun hop hg => exec_flowRow hat hr hop _ fun _ hu => hu.run_fcStart hg,
      fun hop hf => exec_flowRow hat hr hop _ fun _ hu => hu.run_frameStart hf,
      fun hop hf => exec_flowRow hat hr hop _ fun _ hu => hu.run_frameStart hf,
      fun hop hf => exec_flowRow hat hr hop _ fun _ hu => hu.run_frameStart hf,
      fun hop hf => exec_flowRow hat hr hop _ fun _ hu => hu.run_frameStart hf,
      fun hop => exec_flowRow hat hr hop _ fun _ _ => rfl,
      exec_cpl hr hat,
      fun hop => exec_flowRow hat hr hop _ fun _ _ => rfl,
      exec_done hr hat, exec_halt hr hat⟩

end Sys2Proof.Machine
end

section
/-! PROOF. What flow instructions compute (R299, R316). -/

namespace Sys2Proof.Machine

/-! ## The end of an instruction -/

section Ends

variable {t : Nat}

theorem thread_each_setT (l : List Nat) {s : State} (hs : (s.thread t).spec = none) :
    ∃ ts, ((Prog.each l fun i => fresh fun v => setT t i v).run s).thread t = { s.thread t with ts := ts } := by
  induction l generalizing s with
  | nil => exact ⟨_, rfl⟩
  | cons a l ih =>
    have hone : ∃ ts, ((fresh fun v => setT t a v).run s).thread t = { s.thread t with ts := ts } := by
      rw [run_fresh, thread_setT (s := valueTaken s) (onPath_of_none hs)]
      exact ⟨_, rfl⟩
    obtain ⟨ts, hone⟩ := hone
    obtain ⟨ts', hrest⟩ := ih (s := (fresh fun v => setT t a v).run s) (by rw [hone]; exact hs)
    exact ⟨ts', by rw [run_each_cons, hrest, hone]⟩

/-- What an instruction leaves of its thread beside its result: free temporaries and flags. -/
theorem thread_clobber {s : State} (hs : (s.thread t).spec = none) :
    ∃ ts z lt ltu w, ((clobber t).run s).thread t = { s.thread t with ts := ts, z := z, lt := lt, ltu := ltu, w := w } := by
  obtain ⟨ts, hts⟩ := thread_each_setT (List.range 8) hs
  rw [clobber, run_all_cons, run_all_cons, run_all_nil]
  generalize (Prog.each (List.range 8) fun i => fresh fun v => setT t i v).run s = u at hts ⊢
  rw [run_fresh, thread_modThread_same, show (valueTaken u).thread t = u.thread t from rfl, hts]
  exact ⟨_, _, _, _, _, rfl⟩

theorem run_boundary_of_no_stop {s : State} (hs : (s.thread t).stopPending = false) : (boundary t).run s = s := by
  rw [boundary, run_look, hs, Bool.false_and, Bool.false_and, when_false, run_skip]

theorem thread_endInstr {s : State} (hs : (s.thread t).spec = none) (hstop : (s.thread t).stopPending = false) (fpc : Nat) :
    ∃ ts z lt ltu w, ((endInstr t fpc).run s).thread t = { s.thread t with
      ts := ts, z := z, lt := lt, ltu := ltu, w := w, fpc := fpc % 2 ^ 32, fpcNext := none, upc := none, st := 2, wait := .none } := by
  obtain ⟨ts, z, lt, ltu, w, hclobber⟩ := thread_clobber hs
  rw [endInstr, run_all_cons, run_all_cons, run_all_cons, run_all_nil]
  generalize (clobber t).run s = u at hclobber ⊢
  rw [run_boundary_of_no_stop (by rw [thread_modThread_same, hclobber]; exact hstop), thread_modThread_same, hclobber]
  exact ⟨ts, z, lt, ltu, w, rfl⟩

theorem mem_endInstr (fpc : Nat) (s : State) : ((endInstr t fpc).run s).mem = s.mem := by
  have c : Composes fun s u : State => u.mem = s.mem := composes_keep (·.mem)
  have hmod : ∀ f, (modThread t f).within fun s u => u.mem = s.mem := fun _ _ => rfl
  have hfresh : ∀ k : Nat → Prog, (∀ v, (k v).within fun s u => u.mem = s.mem) → (fresh k).within fun s u => u.mem = s.mem :=
    fun k hk s => hk _ (valueTaken s)
  have hclobber : (clobber t).within fun s u => u.mem = s.mem :=
    c.cons (c.each fun _ _ => hfresh _ fun _ => hmod _) (c.cons (hfresh _ fun _ => hmod _) c.nil)
  exact c.cons hclobber (c.cons (hmod _) (c.cons
    (within_look fun _ => c.when (c.cons (hmod _) (c.cons (within_look fun _ => c.when (hmod _)) c.nil))) c.nil)) s

/-- An instruction writes its result, if it has one, and ends. -/
def endsWith (t d fpc : Nat) (r : Option Nat) : Prog := doAll [
  match r with
  | some v => setX t d v
  | none => .skip,
  endInstr t fpc]

theorem run_endsWith_none (d fpc : Nat) (s : State) : (endsWith t d fpc none).run s = (endInstr t fpc).run s := by
  unfold endsWith
  rw [run_all_cons, run_all_cons, run_all_nil, run_skip]

theorem run_endsWith_some (d fpc v : Nat) (s : State) : (endsWith t d fpc (some v)).run s = (endInstr t fpc).run ((setX t d v).run s) := by
  unfold endsWith
  rw [run_all_cons, run_all_cons, run_all_nil]

theorem run_finishOp_instr {s : State} (h : (s.thread t).upc = none) (r : Option Nat) :
    (finishOp t r).run s = (endsWith t (insD (s.thread t).instr) ((s.thread t).fpc + 8) r).run s := by
  rw [finishOp, run_look]
  dsimp only
  rw [h]
  rfl

theorem works_endsWith {st : Nat → Nat → Nat → Prop} (d fpc : Nat) (r : Option Nat) : (endsWith t d fpc r).within (Works t st) := by
  refine composes_works.cons ?_ (composes_works.cons (works_endInstr _) composes_works.nil)
  cases r
  · exact composes_works.skip
  · exact works_setX _ _

theorem mem_endsWith (d fpc : Nat) (r : Option Nat) (s : State) : ((endsWith t d fpc r).run s).mem = s.mem := by
  cases r with
  | none => rw [run_endsWith_none, mem_endInstr]
  | some v =>
    rw [run_endsWith_some, mem_endInstr, setX, run_when]
    split <;> rfl

end Ends

section Ended

variable {s u : State} {t : Fin 1024} {i : Nat} {st : Nat → Nat → Nat → Prop}

/-- What a thread is after an instruction with its result: X registers changed, free temporaries and flags. -/
theorem thread_endsWith {t : Nat} (hspec : (u.thread t).spec = none) (hstop : (u.thread t).stopPending = false) (d fpc : Nat) (r : Option Nat) :
    ∃ xs ts z lt ltu w, ((endsWith t d fpc r).run u).thread t = { u.thread t with
      xs := xs, ts := ts, z := z, lt := lt, ltu := ltu, w := w, fpc := fpc % 2 ^ 32, fpcNext := none, upc := none, st := 2, wait := .none } ∧
      ∀ n, ({ u.thread t with xs := xs } : Thread).x n = match r with
        | some v => if n = d ∧ n ≠ 0 then v % 2 ^ 64 else (u.thread t).x n
        | none => (u.thread t).x n := by
  cases r with
  | none =>
    obtain ⟨ts, z, lt, ltu, w, hend⟩ := thread_endInstr hspec hstop fpc
    exact ⟨(u.thread t).xs, ts, z, lt, ltu, w, by rw [run_endsWith_none, hend], fun _ => rfl⟩
  | some v =>
    obtain ⟨xs, hput, hx⟩ := (u.thread t).putX_eq d v
    have hset := (thread_setX (onPath_of_none hspec) d v).trans hput
    obtain ⟨ts, z, lt, ltu, w, hend⟩ := thread_endInstr (s := (setX t d v).run u) (t := t) (by rw [hset]; exact hspec)
      (by rw [hset]; exact hstop) fpc
    rw [hset] at hend
    exact ⟨xs, ts, z, lt, ltu, w, by rw [run_endsWith_some, hend], hx⟩

variable (hat : s.flowAt t.val i)
include hat

/-- An instruction that ends after nothing but stores of its own leaves what `ended` says. -/
theorem ended_endsWith (hw : Works t.val st s u) (ht : u.thread t.val = { s.thread t.val with instr := i, fpcNext := none }) (d fpc : Nat)
    (r : Option Nat) : s.ended ((endsWith t.val d fpc r).run u) t.val d fpc r st := by
  obtain ⟨-, -, hspec, hstop, -⟩ := hat
  obtain ⟨hothers, hcopy, hnet, htime, hbyte⟩ := composes_works.trans hw (works_endsWith d fpc r u)
  obtain ⟨xs, ts, z, lt, ltu, w, hthread, hx⟩ := thread_endsWith (u := u) (by rw [ht]; exact hspec) (by rw [ht]; exact hstop) d fpc r
  rw [ht] at hthread hx
  refine ⟨?_, ?_, ?_, fun n => ?_, ?_, ?_, hothers, hcopy, hnet, htime, hbyte⟩ <;> rw [hthread]
  exact hx n

theorem ended_finishOp (r : Option Nat) :
    s.ended ((doAll [taken s t.val i, finishOp t.val r]).run s) t.val (insD i) ((s.thread t.val).fpc + 8) r nowhere := by
  have hd := run_taken t.val i s
  obtain ⟨-, hupc, -⟩ := id hat
  rw [run_all_cons, run_all_cons, run_all_nil, run_finishOp_instr (by rw [hd.thread]; exact hupc), hd.thread]
  exact ended_endsWith hat hd.works hd.thread _ _ _

variable (hr : s.runsBelow 2)
include hr

/-- An instruction that comes to its result alone. -/
theorem exec_finishes {op : Nat} {act : Nat → Thread → Prog} (hop : insOp i = op) (r : Option Nat)
    (hp : ∀ u, Dispatches t.val i s u → (act i (s.thread t.val)).run u = (finishOp t.val r).run u) :
    ∃ u, live 2 (flowRow op t act) s = .next u ∧ s.ended u t.val (insD i) ((s.thread t.val).fpc + 8) r nowhere :=
  ⟨_, exec_flowRow hat hr hop _ hp, ended_finishOp hat r⟩

/-- An instruction that comes to its result and another FPC. -/
theorem exec_jumps {op : Nat} {act : Nat → Thread → Prog} (hop : insOp i = op) (fpc v : Nat)
    (hp : ∀ u, (act i (s.thread t.val)).run u = (endsWith t.val (insD i) fpc (some v)).run u) :
    ∃ u, live 2 (flowRow op t act) s = .next u ∧ s.ended u t.val (insD i) fpc (some v) nowhere := by
  have hd := run_taken t.val i s
  refine ⟨_, exec_flowRow hat hr hop _ fun u _ => hp u, ?_⟩
  rw [run_all_cons, run_all_cons, run_all_nil]
  exact ended_endsWith hat hd.works hd.thread _ _ _

/-- A store, whose `n` bytes at `a` of a space exist. -/
theorem exec_stores {op : Nat} {act : Nat → Thread → Prog} (hop : insOp i = op) {sp j a : Nat} {l : List Byte} (hj : j < 64)
    (ha : a + l.length ≤ 2 ^ 48)
    (hp : ∀ u, Dispatches t.val i s u →
      (act i (s.thread t.val)).run u = (doAll [poke sp j a l, cleanse sp j a l.length, finishOp t.val none]).run u) :
    ∃ u, live 2 (flowRow op t act) s = .next u ∧ u.bytes sp j a l.length = l ∧ (u.thread t.val).spec = none ∧
      s.ended u t.val 0 ((s.thread t.val).fpc + 8) none fun sp' j' x => sp' = sp ∧ j' = j ∧ a ≤ x ∧ x < a + l.length := by
  have hd := run_taken t.val i s
  refine ⟨_, exec_flowRow hat hr hop _ hp, ?_⟩
  obtain ⟨-, hupc, hspec, hstop, -⟩ := id hat
  rw [run_all_cons, run_all_cons, run_all_nil, run_all_cons, run_all_cons, run_all_cons, run_all_nil]
  generalize (taken s t.val i).run s = v at hd
  have hthread : ((cleanse sp j a l.length).run ((poke sp j a l).run v)).thread t.val = { s.thread t.val with instr := i, fpcNext := none } := by
    rw [← hd.thread, State.thread, cleanse, upd_ctl, ctl_poke]
    rfl
  have hstored : Works t.val (fun sp' j' x => sp' = sp ∧ j' = j ∧ a ≤ x ∧ x < a + l.length) s
      ((cleanse sp j a l.length).run ((poke sp j a l).run v)) :=
    composes_works.trans hd.works.mono (composes_works.trans
      (works_poke (fun x h1 h2 => ⟨rfl, rfl, h1, h2⟩) hj ha v) (works_cleanse sp j a l.length _))
  have hbytes : ((cleanse sp j a l.length).run ((poke sp j a l).run v)).bytes sp j a l.length = l := bytes_poke sp j a l v
  generalize (cleanse sp j a l.length).run ((poke sp j a l).run v) = w at hthread hstored hbytes
  rw [run_finishOp_instr (by rw [hthread]; exact hupc), hthread]
  refine ⟨?_, ?_, ended_endsWith hat hstored hthread 0 _ none⟩
  · refine (bytes_congr fun k _ _ => ?_).trans hbytes
    rw [mem_endsWith]
  · obtain ⟨ts, z, lt, ltu, f, hend⟩ := thread_endInstr (s := w) (t := t.val) (by rw [hthread]; exact hspec)
      (by rw [hthread]; exact hstop) ((s.thread t.val).fpc + 8)
    rw [run_endsWith_none, hend, hthread]
    exact hspec

end Ended

section Compute

variable {s : State} {t : Fin 1024} {i : Nat} (hr : s.runsBelow 2) (hat : s.flowAt t.val i)
include hr hat

theorem exec_alu (hop : insOp i = 0x01) {v : Nat}
    (hv : aluOp (insFn i % 16) ((s.thread t.val).x (insA i)) (aluB i (s.thread t.val)) = some v) :
    ∃ u, exec (.alu t) s = .next u ∧ s.ended u t.val (insD i) ((s.thread t.val).fpc + 8) (some v) nowhere :=
  exec_finishes hat hr hop _ fun u _ => by rw [hv]

theorem exec_jr (hop : insOp i = 0x05) (ha : addrOf i (s.thread t.val) < 2 ^ 32) :
    ∃ u, exec (.jr t) s = .next u ∧
      s.ended u t.val (insD i) (addrOf i (s.thread t.val)) (some (((s.thread t.val).fpc + 8) % 2 ^ 32)) nowhere :=
  exec_jumps hat hr hop _ _ fun u => by
    rw [if_neg (by omega)]
    rfl

theorem exec_ld (hop : insOp i = 0x06) (hg : s.lmemGood t.val (addrOf i (s.thread t.val)) (sizeOf2 (insFn i)))
    (hal : addrOf i (s.thread t.val) % sizeOf2 (insFn i) = 0) :
    ∃ u, exec (.ld t) s = .next u ∧ s.ended u t.val (insD i) ((s.thread t.val).fpc + 8) (some (extend (tbit (insFn i) 2)
      (sizeOf2 (insFn i)) (leVal (s.lmem t.val (addrOf i (s.thread t.val)) (sizeOf2 (insFn i)))))) nowhere :=
  exec_finishes hat hr hop _ fun u hu => by
    obtain ⟨-, -, hspec, -⟩ := hat
    rw [withLmemAt_of_ok hg.1 hal, hu.run_withGood hg, run_look, hu.lmem_eq hspec hg.1]

theorem exec_hash (hop : insOp i = 0x12) (hg : s.lmemGood t.val ((s.thread t.val).x (insA i)) (field (insImm i) 7 0)) :
    ∃ u, exec (.hash t) s = .next u ∧ s.ended u t.val (insD i) ((s.thread t.val).fpc + 8) (some (crc32cFrom
      ((s.thread t.val).x (insB i) % 2 ^ 32) (s.lmem t.val ((s.thread t.val).x (insA i)) (field (insImm i) 7 0)))) nowhere :=
  exec_finishes hat hr hop _ fun u hu => by
    obtain ⟨-, -, hspec, -⟩ := hat
    rw [hashOp, withLmem_of_ok hg.1, hu.run_withGood hg, run_look, hu.lmem_eq hspec hg.1]

theorem exec_time (hop : insOp i = 0x1C) :
    ∃ u, exec (.time t) s = .next u ∧ s.ended u t.val (insD i) ((s.thread t.val).fpc + 8) (some (s.wt (s.thrDom t.val))) nowhere :=
  exec_finishes hat hr hop _ fun u hu => by rw [run_look, hu.works.thrDom_eq, hu.works.wt_eq]

theorem exec_st (hop : insOp i = 0x07) (hok : lmemOk (addrOf i (s.thread t.val)) (sizeOf2 (insFn i)) = true)
    (hal : addrOf i (s.thread t.val) % sizeOf2 (insFn i) = 0) :
    ∃ u, exec (.st t) s = .next u ∧
      u.lmem t.val (addrOf i (s.thread t.val)) (sizeOf2 (insFn i)) = leBytes (sizeOf2 (insFn i)) ((s.thread t.val).x (insB i)) ∧
      s.ended u t.val 0 ((s.thread t.val).fpc + 8) none fun sp j y => sp = 13 ∧ j = t.val / 16 ∧
        addrOf i (s.thread t.val) ≤ y ∧ y < addrOf i (s.thread t.val) + sizeOf2 (insFn i) := by
  have hlen := leBytes_length (sizeOf2 (insFn i)) ((s.thread t.val).x (insB i))
  obtain ⟨u, hexec, hbytes, hspec, hend⟩ := exec_stores hat hr hop (act := fun i h => withLmemAt t.val (addrOf i h) (sizeOf2 (insFn i))
      (doAll [putLmem t.val (addrOf i h) (leBytes (sizeOf2 (insFn i)) (h.x (insB i))), finishOp t.val none]))
    (sp := 13) (j := t.val / 16) (a := addrOf i (s.thread t.val))
    (l := leBytes (sizeOf2 (insFn i)) ((s.thread t.val).x (insB i))) (thread_engine_lt t)
    (by rw [hlen]; exact (lmemOk_le hok).trans (by norm_num)) fun u hu => by
      obtain ⟨-, -, hspec, -⟩ := hat
      rw [withLmemAt_of_ok hok hal, run_all_cons, putLmem, run_look, onPath_of_none (by rw [hu.thread]; exact hspec),
        if_neg Bool.false_ne_true]
      rfl
  rw [hlen] at hbytes hend
  exact ⟨u, hexec, (lmem_of_none hspec _ _).trans hbytes, hend⟩

theorem exec_xst (hop : insOp i = 0x09)
    (hok : s.xmemOk (tbit (insFn i) 3) true (addrOf i (s.thread t.val)) (sizeOf2 (insFn i)) = true) :
    ∃ u, exec (.xst t) s = .next u ∧ u.bytes (xspace (tbit (insFn i) 3)) 0 (addrOf i (s.thread t.val)) (sizeOf2 (insFn i)) =
        leBytes (sizeOf2 (insFn i)) ((s.thread t.val).x (insB i)) ∧
      s.ended u t.val 0 ((s.thread t.val).fpc + 8) none fun sp j y => sp = xspace (tbit (insFn i) 3) ∧ j = 0 ∧
        addrOf i (s.thread t.val) ≤ y ∧ y < addrOf i (s.thread t.val) + sizeOf2 (insFn i) := by
  have hlen := leBytes_length (sizeOf2 (insFn i)) ((s.thread t.val).x (insB i))
  have hlt : addrOf i (s.thread t.val) + sizeOf2 (insFn i) ≤ 2 ^ 48 := by
    simp only [State.xmemOk, Bool.and_eq_true, decide_eq_true_eq] at hok
    refine hok.1.2.trans ?_
    have hgib : s.memGiB true < 2 ^ 16 := Nat.mod_lt _ (by norm_num)
    split <;> omega
  obtain ⟨u, hexec, hbytes, -, hend⟩ := exec_stores hat hr hop
    (act := fun i h => xstore t.val (tbit (insFn i) 3) (addrOf i h) (sizeOf2 (insFn i)) (h.x (insB i)))
    (sp := xspace (tbit (insFn i) 3)) (j := 0) (a := addrOf i (s.thread t.val))
    (l := leBytes (sizeOf2 (insFn i)) ((s.thread t.val).x (insB i))) (by norm_num) (by rw [hlen]; exact hlt) fun u hu => by
      rw [xstore, run_look, hu.works.xmemOk_eq, if_pos hok, hlen]
  rw [hlen] at hbytes hend
  exact ⟨u, hexec, hbytes, hend⟩

end Compute

/-- Settles O39: each instruction comes to its result and the next FPC, and a store to its bytes before them. -/
theorem flowInstructionsCompute : Obligations.FlowInstructionsCompute := by
  unfold Obligations.FlowInstructionsCompute
  intro s t i hr hat
  exact ⟨fun hop => exec_finishes hat hr hop _ fun _ _ => rfl, fun hop _ => exec_alu hr hat hop,
    fun hop => exec_finishes hat hr hop _ fun _ _ => rfl, fun hop => exec_jumps hat hr hop _ _ fun _ => rfl, exec_jr hr hat,
    exec_ld hr hat, exec_hash hr hat, exec_time hr hat, fun hop => exec_finishes hat hr hop _ fun _ _ => rfl, exec_st hr hat,
    exec_xst hr hat⟩

end Sys2Proof.Machine
end

section
/-! PROOF. The microwords (R318 to R327). -/

namespace Sys2Proof.Machine

/-! ## A microword issues (R318, R320) -/

section Issue

variable {s : State} {t : Fin 1024} {u w mop : Nat} (hat : s.atMicro t.val u w mop)
include hat

theorem run_issue (act : Nat → Prog) : (issue mop t.val act).run s = (act w).run s := by
  obtain ⟨-, -, hupc, hgood, hw, hmop, c, hc, hcl⟩ := hat
  rw [issue, run_look, hupc]
  dsimp only
  rw [hgood, if_neg Bool.false_ne_true, hw, hmop, hc]
  dsimp only
  rw [if_neg (not_not_intro rfl), if_neg (not_lt.2 hcl)]

theorem exec_microRow (hr : s.runsBelow 2) (act : Nat → Prog) : live 2 (microRow mop t act) s = .next ((act w).run s) := by
  obtain ⟨hst, -, hupc, -, hw, hmop, -⟩ := id hat
  rw [live_next _ hr, microRow, run_look]
  dsimp only
  rw [if_neg (not_not_intro hst), hupc]
  dsimp only
  rw [hw, hmop, if_pos (.inl rfl), run_issue hat]

variable (hu : u < 16383)
include hu

theorem run_canAdvance (k : Prog) : (canAdvance t.val k).run s = k.run s := by
  obtain ⟨-, -, hupc, -⟩ := hat
  rw [canAdvance, run_look, hupc, if_neg (fun h => by injection h; omega)]

theorem run_operands {sels : List Nat} (hsels : ∀ k ∈ sels, (s.thread t.val).selOk k = true) (a b : Nat) (k : Nat → Nat → Prog) :
    (operands t.val sels a b k).run s = (k (s.sel64 t.val a) (s.sel64 t.val b)).run s := by
  rw [operands, run_look, if_pos (List.all_eq_true.2 hsels), run_canAdvance hat hu]

/-- A microword whose selectors are usable acts on the values of its operands. -/
theorem exec_operands (hr : s.runsBelow 2) {sels : Nat → List Nat} (hsels : ∀ k ∈ sels w, (s.thread t.val).selOk k = true)
    {a b : Nat → Nat} {k : Nat → Nat → Nat → Prog} {p : Prog}
    (hp : (k w (s.sel64 t.val (a w)) (s.sel64 t.val (b w))).run s = p.run s) :
    live 2 (microRow mop t fun w => operands t.val (sels w) (a w) (b w) (k w)) s = .next (p.run s) := by
  rw [exec_microRow hat hr, run_operands hat hu hsels, hp]

end Issue

/-! ## The result of a microword (R319, R320) -/

/-- A thread with what a selector names written. -/
def Thread.putSel (h : Thread) (i v : Nat) : Thread :=
  if i < 8 then { h with ts := nset 0 h.ts i (v % 2 ^ 64) }
  else if i = 8 then h.putX (insD h.instr) v
  else if i = 9 then h.putX (insA h.instr) v
  else if i = 10 then h.putX (insB h.instr) v
  else if i = 13 then { h with fpcNext := some (v % 2 ^ 32) }
  else if 16 ≤ i ∧ i < 24 then { h with shadow := { h.shadow with ts := nset 0 h.shadow.ts (i - 16) (v % 2 ^ 64) } }
  else h

/-- `u` differs from `s` at most in thread `t` and behind the registers. -/
def OnlyThread (t : Nat) (s u : State) : Prop := (∀ g, g ≠ t → u.thread g = s.thread g) ∧ u.reg = s.reg ∧ u.mem = s.mem

section Result

variable {t : Nat}

theorem composes_onlyThread : Composes (OnlyThread t) where
  refl _ := ⟨fun _ _ => rfl, rfl, rfl⟩
  trans h g := ⟨fun k hk => (g.1 k hk).trans (h.1 k hk), g.2.1.trans h.2.1, g.2.2.trans h.2.2⟩

theorem onlyThread_modThread (f : Thread → Thread) : (modThread t f).within (OnlyThread t) := fun s =>
  ⟨fun _ hg => thread_modThread_other f s hg, rfl, rfl⟩

theorem onlyThread_setX (n v : Nat) : (setX t n v).within (OnlyThread t) := composes_onlyThread.when (onlyThread_modThread _)

theorem onlyThread_setSel64 (i v : Nat) : (setSel64 t i v).within (OnlyThread t) := within_look fun s => by
  dsimp only
  exact within_ite (onlyThread_modThread _) <| within_ite (onlyThread_setX _ _) <| within_ite (onlyThread_setX _ _) <|
    within_ite (onlyThread_setX _ _) <| within_ite (onlyThread_modThread _) <| within_ite (onlyThread_modThread _) composes_onlyThread.skip

theorem thread_setSel64 {s : State} (hp : (s.thread t).onPath = false) (i v : Nat) :
    ((setSel64 t i v).run s).thread t = (s.thread t).putSel i v := by
  rw [setSel64, run_look, Thread.putSel]
  dsimp only
  split_ifs
  · exact thread_setT hp i v
  · exact thread_setX hp _ v
  · exact thread_setX hp _ v
  · exact thread_setX hp _ v
  · exact thread_modThread_same ..
  · exact thread_modThread_same ..
  · rfl

end Result

namespace Thread

variable (h : Thread) (i v : Nat)

theorem putSel_rest : ∃ xs ts fn sh, h.putSel i v = { h with xs := xs, ts := ts, fpcNext := fn, shadow := sh } := by
  have hx : ∀ n, ∃ xs ts fn sh, h.putX n v = { h with xs := xs, ts := ts, fpcNext := fn, shadow := sh } := fun n => by
    obtain ⟨xs, hput, -⟩ := h.putX_eq n v
    exact ⟨xs, _, _, _, hput⟩
  unfold putSel
  split_ifs
  · exact ⟨_, _, _, _, rfl⟩
  · exact hx _
  · exact hx _
  · exact hx _
  · exact ⟨_, _, _, _, rfl⟩
  · exact ⟨_, _, _, _, rfl⟩
  · exact ⟨_, _, _, _, rfl⟩

theorem putX_rest (n : Nat) : (h.putX n v).ts = h.ts ∧ (h.putX n v).fpcNext = h.fpcNext := by
  obtain ⟨xs, hput, -⟩ := h.putX_eq n v
  rw [hput]
  exact ⟨rfl, rfl⟩

theorem x_putX (n m : Nat) : (h.putX n v).x m = if m = n ∧ m ≠ 0 then v % 2 ^ 64 else h.x m := by
  obtain ⟨xs, hput, hx⟩ := h.putX_eq n v
  rw [hput, ← hx]

theorem ts_putSel {n : Nat} (hn : n < 8) : tget 0 (h.putSel i v).ts n = if n = i then v % 2 ^ 64 else tget 0 h.ts n := by
  unfold putSel
  by_cases hi : i < 8
  · rw [if_pos hi]
    by_cases hni : n = i
    · subst hni
      rw [if_pos rfl, tget_nset_same]
    · rw [if_neg hni, tget_nset_other _ _ _ hni]
  · rw [if_neg hi, if_neg (show ¬ n = i by omega)]
    split_ifs
    · rw [(h.putX_rest v _).1]
    · rw [(h.putX_rest v _).1]
    · rw [(h.putX_rest v _).1]
    · rfl
    · rfl
    · rfl

theorem fpcNext_putSel : (h.putSel i v).fpcNext = if i = 13 then some (v % 2 ^ 32) else h.fpcNext := by
  unfold putSel
  by_cases hi : i = 13
  · subst hi
    rfl
  · rw [if_neg hi, if_neg hi]
    split_ifs
    · rfl
    · exact (h.putX_rest v _).2
    · exact (h.putX_rest v _).2
    · exact (h.putX_rest v _).2
    · rfl
    · rfl

theorem x_putSel (n : Nat) : (h.putSel i v).x n =
    if n ≠ 0 ∧ (i = 8 ∧ n = insD h.instr ∨ i = 9 ∧ n = insA h.instr ∨ i = 10 ∧ n = insB h.instr) then v % 2 ^ 64 else h.x n := by
  by_cases h8 : i = 8
  · subst h8
    simp [putSel, x_putX, and_comm]
  · by_cases h9 : i = 9
    · subst h9
      simp [putSel, x_putX, and_comm]
    · by_cases h10 : i = 10
      · subst h10
        simp [putSel, x_putX, and_comm]
      · rw [if_neg (by tauto)]
        unfold putSel
        rw [if_neg h8, if_neg h9, if_neg h10]
        split_ifs <;> rfl

end Thread

section Operate

variable {s : State} {t : Fin 1024} {u w mop : Nat} (hat : s.atMicro t.val u w mop)
include hat

/-- What a microword with a result leaves: D written, the flags where SETF asks, the micro-PC moved on. -/
theorem thread_finishOp_micro (hmop : mop ∉ [0x0C, 0x0E]) (v : Nat) : ((finishOp t.val (some v)).run s).thread t.val =
    { (s.thread t.val).putSel (mwD w) v with
      z := if tbit w 8 then decide (v % 2 ^ 64 = 0) else (s.thread t.val).z
      lt := if tbit w 8 then tbit v 63 else (s.thread t.val).lt
      upc := some (u + 1)
      st := 2
      wait := .none } := by
  obtain ⟨-, hpath, hupc, -, hw, hm, -⟩ := hat
  obtain ⟨xs, ts, fn, sh, hput⟩ := (s.thread t.val).putSel_rest (mwD w) v
  have hsel := thread_setSel64 hpath (mwD w) v
  rw [finishOp, run_look]
  dsimp only
  rw [hupc]
  dsimp only
  rw [hw, hm, decide_eq_false hmop, Bool.not_false, Bool.and_true, run_all_cons, run_all_cons, run_all_cons, run_all_cons, run_all_nil,
    run_all_nil, nextUpc, thread_modThread_same, ← mwD]
  generalize (setSel64 t.val (mwD w) v).run s = x at hsel
  rw [hput] at hsel ⊢
  cases tbit w 8
  · rw [when_false, run_skip, hsel, hupc]
    rfl
  · rw [when_true, thread_modThread_same, hsel, hupc]
    rfl

theorem onlyThread_finishOp_micro (r : Option Nat) : OnlyThread t.val s ((finishOp t.val r).run s) := by
  obtain ⟨-, -, hupc, -⟩ := hat
  rw [finishOp, run_look]
  dsimp only
  rw [hupc]
  refine composes_onlyThread.cons ?_ (composes_onlyThread.cons (onlyThread_modThread _) composes_onlyThread.nil) s
  cases r
  · exact composes_onlyThread.skip
  · exact composes_onlyThread.cons (onlyThread_setSel64 _ _)
      (composes_onlyThread.cons (composes_onlyThread.when (onlyThread_modThread _)) composes_onlyThread.nil)

end Operate

/-- Settles O41: an operate microword comes to the end of its operation with its function's value. -/
theorem operateMicrowordsCompute : Obligations.OperateMicrowordsCompute := by
  unfold Obligations.OperateMicrowordsCompute Says.OperateMicrowordsCompute
  intro s t u w mop hr hat hu hD hA hB a b ends
  have hexec : ∀ f : Nat → Nat → Nat, live 2 (operate mop t f) s = .next ((finishOp t.val (some (f a b))).run s) := fun f =>
    exec_operands hat hu hr (sels := fun w => [mwD w, mwA w, mwB w]) (a := mwA) (b := mwB) (k := fun _ a b => finishOp t.val (some (f a b)))
      (by simp [hD, hA, hB]) rfl
  have hends : mop ∉ [0x0C, 0x0E] → ∀ v r, r = .next ((finishOp t.val (some v)).run s) → ends r v := by
    rintro hmop v _ rfl
    obtain ⟨hothers, hreg, hmem⟩ := onlyThread_finishOp_micro hat (some v)
    obtain ⟨xs, ts, fn, sh, hput⟩ := (s.thread t.val).putSel_rest (mwD w) v
    have hthread := thread_finishOp_micro hat hmop v
    refine ⟨_, rfl, ?_, ?_, fun n hn => ?_, fun n => ?_, ?_, ?_, ?_, ?_, ?_, ?_, ?_, hothers, hreg, hmem⟩
    all_goals rw [hthread]
    · exact (s.thread t.val).ts_putSel _ _ hn
    · exact (s.thread t.val).x_putSel _ _ n
    · exact (s.thread t.val).fpcNext_putSel _ _
    all_goals rw [hput]
  refine ⟨?_, ?_, ?_, ?_, ?_, ?_, ?_, ?_, ?_⟩ <;> rintro rfl
  · exact hends (by decide) _ _ (hexec _)
  · exact hends (by decide) _ _ (hexec _)
  · exact hends (by decide) _ _ (hexec _)
  · exact hends (by decide) _ _ (hexec _)
  · exact hends (by decide) _ _ (hexec _)
  · exact hends (by decide) _ _ (hexec _)
  · exact hends (by decide) _ _ (hexec _)
  · exact hends (by decide) _ _ (hexec _)
  · exact hends (by decide) _ _ (hexec _)

end Sys2Proof.Machine
end

section
/-! PROOF. The microwords that act, and the next-address microwords (R303, R304, R312 to R327). -/

namespace Sys2Proof.Machine

/-! ## The words that act once their operands are there -/

theorem run_latchStart {fn : Nat} (h : fn % 4 < 3) (t n : Nat) : latchStart t n fn = waitFor t 5 (.latch n fn) := by
  rw [latchStart, if_neg (by omega)]

theorem run_fcStart {s : State} {t a : Nat} (h : s.lmemGood t a 32) (op v : Nat) :
    (fcStart t op a v).run s = (waitFor t 5 (.cache op a v)).run s := by
  rw [fcStart, withLmem_of_ok h.1, run_withGood h.2]

theorem run_frameStart {s : State} {t op : Nat} (h : op < 4 → (s.thread t).frame.isSome = true) (a b n fn : Nat) :
    (frameStart t op a b n fn).run s = (waitFor t 5 (.frame op a b n fn)).run s := by
  rw [frameStart]
  split
  · next hop =>
    obtain ⟨f, hf⟩ := Option.isSome_iff_exists.1 (h hop)
    rw [withFrame, run_look, hf]
  · rfl

/-- Each microword's operands come to their values, and its operation to what it does with good ones. -/
theorem says_otherMicrowordsAct : Says.OtherMicrowordsAct := by
  unfold Says.OtherMicrowordsAct
  intro s t u w mop hr hat hu
  dsimp only
  refine ⟨?_, ?_, ?_, ?_, ?_, ?_, ?_, ?_, ?_, ?_, ?_, ?_, ?_, ?_, ?_, ?_, ?_, ?_⟩ <;> rintro rfl
  · exact (exec_microRow hat hr _).trans (congrArg _ (run_canAdvance hat hu _))
  · exact fun hA hB => exec_operands hat hu hr (by simp [hA, hB]) rfl
  · exact fun hD => exec_operands hat hu hr (by simp [hD]) rfl
  · intro hD hA hgood hal
    refine exec_operands hat hu hr (by simp [hD, hA]) ?_
    dsimp only
    rw [withLmemAt_of_ok hgood.1 hal, run_withGood hgood.2, run_look]
  · intro hD hA hok hal
    refine exec_operands hat hu hr (by simp [hD, hA]) ?_
    dsimp only
    rw [withLmemAt_of_ok hok hal]
  · intro hD hA hok
    refine (exec_microRow hat hr _).trans (congrArg _ ?_)
    rw [run_look, run_operands hat hu (by simp [hD, hA]), xload, run_look, if_pos hok]
  · intro hD hA hok
    refine (exec_microRow hat hr _).trans (congrArg _ ?_)
    rw [run_look, run_operands hat hu (by simp [hD, hA]), xstore, run_look, if_pos hok]
  · exact fun hD => exec_operands hat hu hr (by simp [hD]) (run_look _ _)
  · exact fun hA hB => exec_operands hat hu hr (by simp [hA, hB]) rfl
  · exact fun hD hB => exec_operands hat hu hr (by simp [hD, hB]) rfl
  · exact fun hD hA => exec_operands hat hu hr (by simp [hD, hA]) rfl
  · exact fun hD hB hfn => exec_operands hat hu hr (by simp [hD, hB]) (by rw [run_latchStart hfn])
  · intro hD hA hB hfn hgood
    refine exec_operands hat hu hr (by simp [hD, hA, hB]) ?_
    rw [if_pos hfn, run_fcStart hgood]
  · intro hD hA hB hgood
    refine exec_operands hat hu hr (by simp [hD, hA, hB]) ?_
    rw [hashOp, withLmem_of_ok hgood.1, run_withGood hgood.2, run_look]
  · intro hD hA hB hfn hframe
    refine exec_operands hat hu hr (by simp [hD, hA, hB]) ?_
    rw [run_look, if_pos hfn, run_frameStart hframe]
  · exact fun hA hB => exec_operands hat hu hr (by simp [hA, hB]) (run_look _ _)
  · exact fun hB => exec_operands hat hu hr (by simp [hB]) rfl
  · exact (exec_microRow hat hr _).trans (congrArg _ (run_look _ _))

/-! ## The next-address microwords -/

/-- At a boundary the instruction is dispatched, and predicted, before its first microword issues. -/
theorem exec_unop_boundary {s : State} {t : Fin 1024} {i : Nat} (hr : s.runsBelow 2) (hat : s.flowAt t.val i)
    (hop : field (s.microAt (t.val / 16) (field (s.dispatchWord (t.val / 16) (insOp i)) 13 0)) 31 26 = 0x00) :
    exec (.unop t) s = .next ((doAll [taken s t.val i,
      modThread t.val fun x => { x with
        upc := some (field (s.dispatchWord (t.val / 16) (insOp i)) 13 0)
        spec := if tbit (s.dispatchWord (t.val / 16) (insOp i)) 14 then some (x.predicted i) else none },
      Prog.when (tbit (s.dispatchWord (t.val / 16) (insOp i)) 14)
        (doAll [modThread t.val Thread.pathIn, pathDispatch t.val, modThread t.val Thread.pathOut]),
      issue 0x00 t.val fun _ => canAdvance t.val (nextUpc t.val)]).run s) := by
  obtain ⟨hst, hupc, -⟩ := id hat
  calc exec (.unop t) s = live 2 (microRow 0x00 t _) s := rfl
    _ = _ := by
      rw [live_next _ hr, microRow, run_look]
      dsimp only
      rw [if_neg (not_not_intro hst), hupc]
      dsimp only
      rw [run_fetched hat, hop, decide_eq_true rfl, Bool.true_or, when_true, run_all_cons, run_all_cons, run_all_cons, run_all_cons,
        run_all_nil, run_all_cons, run_all_cons, run_all_cons, run_all_cons, run_all_nil, taken, run_all_cons, run_all_cons, run_all_nil]

/-- A boundary at a READY thread outside its path: a STOP that waits is taken, and MODE OFF with it. -/
theorem thread_boundary {s : State} {t : Nat} (hst : (s.thread t).st = 2) (hp : (s.thread t).onPath = false) :
    ∃ stop mem, ((boundary t).run s).thread t = { s.thread t with
      st := if (s.thread t).stopPending && !(s.thread t).inTrap then (if s.thrMode t = 0 then 0 else 6) else 2
      stopPending := stop
      stopMem := mem } := by
  rw [boundary, run_look, hp, Bool.not_false, Bool.and_true]
  cases (s.thread t).stopPending && !(s.thread t).inTrap
  · rw [when_false, run_skip, if_neg Bool.false_ne_true, ← hst]
    exact ⟨_, _, rfl⟩
  · rw [when_true, run_all_cons, run_all_cons, run_all_nil, settle, run_look, thread_modThread_same, if_pos rfl,
      show ((modThread t fun h => { h with st := 6, stopPending := false, stopMem := false }).run s).thrMode t = s.thrMode t from rfl]
    by_cases hm : s.thrMode t = 0
    · rw [if_pos hm, decide_eq_true hm, Bool.true_and, decide_eq_true (show 6 ∈ [1, 6, 7] by decide), when_true, thread_modThread_same, thread_modThread_same]
      exact ⟨_, _, rfl⟩
    · rw [if_neg hm, decide_eq_false hm, Bool.false_and, when_false, run_skip, thread_modThread_same]
      exact ⟨_, _, rfl⟩

theorem onlyThread_boundary (t : Nat) : (boundary t).within (OnlyThread t) :=
  within_look fun _ => composes_onlyThread.when (composes_onlyThread.cons (onlyThread_modThread _) (composes_onlyThread.cons
    (within_look fun _ => composes_onlyThread.when (onlyThread_modThread _)) composes_onlyThread.nil))

/-- The flow-instruction boundary of a thread that its predicted path does not follow. -/
def uendPlain (t next : Nat) : Prog := doAll [
  modThread t fun h => { h with fpc := next, fpcNext := none, upc := none },
  modThread t fun h => { h with spec := none }, boundary t]

theorem onlyThread_uendPlain (t next : Nat) : (uendPlain t next).within (OnlyThread t) :=
  composes_onlyThread.cons (onlyThread_modThread _) (composes_onlyThread.cons (onlyThread_modThread _)
    (composes_onlyThread.cons (onlyThread_boundary t) composes_onlyThread.nil))

theorem thread_uendPlain {s : State} {t : Nat} (hst : (s.thread t).st = 2) (next : Nat) :
    ∃ stop mem, ((uendPlain t next).run s).thread t = { s.thread t with
      st := if (s.thread t).stopPending && !(s.thread t).inTrap then (if s.thrMode t = 0 then 0 else 6) else 2
      stopPending := stop
      stopMem := mem
      fpc := next
      fpcNext := none
      upc := none
      spec := none } := by
  have hends : ((modThread t fun h => { h with spec := none }).run ((modThread t fun h =>
      { h with fpc := next, fpcNext := none, upc := none }).run s)).thread t =
      { s.thread t with fpc := next, fpcNext := none, upc := none, spec := none } := by
    rw [thread_modThread_same, thread_modThread_same]
  have hmode : ((modThread t fun h => { h with spec := none }).run ((modThread t fun h =>
      { h with fpc := next, fpcNext := none, upc := none }).run s)).thrMode t = s.thrMode t := rfl
  rw [uendPlain, run_all_cons, run_all_cons, run_all_cons, run_all_nil]
  generalize (modThread t fun h => { h with spec := none }).run _ = x at hends hmode ⊢
  obtain ⟨stop, mem, hb⟩ := thread_boundary (s := x) (t := t) (by rw [hends]; exact hst) (by rw [hends]; rfl)
  rw [hb, hmode, hends]
  exact ⟨stop, mem, rfl⟩

section Next

variable {s : State} {t : Fin 1024} {u w mop : Nat} (hr : s.runsBelow 2)
include hr

theorem exec_ubr (hat : s.atMicro t.val u w 0x21) {b : Bool} (hb : (s.thread t.val).cond (field w 23 20) = some b) :
    exec (.ubr t) s = .next ((if b then goUpc t.val (mwTarget w) else canAdvance t.val (nextUpc t.val)).run s) := by
  refine (exec_microRow hat hr _).trans (congrArg _ ?_)
  rw [run_look, hb]
  cases b <;> rfl

theorem exec_ucall (hat : s.atMicro t.val u w 0x22) (hstack : (s.thread t.val).stack.length < 4) (hu : u < 16383) :
    exec (.ucall t) s = .next ((modThread t.val fun x => { x with stack := (u + 1) :: x.stack, upc := some (field w 13 0) }).run s) := by
  obtain ⟨-, -, hupc, -⟩ := id hat
  refine (exec_microRow hat hr _).trans (congrArg _ ?_)
  rw [run_look]
  dsimp only
  rw [if_neg (by omega), run_canAdvance hat hu]
  refine run_modThread_congr ?_
  rw [hupc]
  rfl

theorem exec_uret (hat : s.atMicro t.val u w 0x23) {v : Nat} {r : List Nat} (hstack : (s.thread t.val).stack = v :: r) :
    exec (.uret t) s = .next ((modThread t.val fun x => { x with upc := some v, stack := r }).run s) := by
  refine (exec_microRow hat hr _).trans (congrArg _ ?_)
  rw [run_look, hstack]

theorem exec_uend_path (hat : s.atMicro t.val u w 0x24) {q : Spec} (hq : (s.thread t.val).spec = some q)
    (hfollows : (q.resolved && decide (q.start = (s.thread t.val).fpcNext.getD (((s.thread t.val).fpc + 8) % 2 ^ 32)) &&
      !s.stopsHere t.val) = true) : exec (.uend t) s = .next ((pathTaken t.val q).run s) := by
  obtain ⟨-, hpath, -⟩ := id hat
  refine (exec_microRow hat hr _).trans (congrArg _ ?_)
  rw [run_look]
  dsimp only
  rw [hpath, if_neg Bool.false_ne_true, hq]
  dsimp only
  rw [if_pos hfollows]

theorem exec_uend_plain (hat : s.atMicro t.val u w 0x24) (hq : ∀ q, (s.thread t.val).spec = some q →
      (q.resolved && decide (q.start = (s.thread t.val).fpcNext.getD (((s.thread t.val).fpc + 8) % 2 ^ 32)) && !s.stopsHere t.val) = false) :
    exec (.uend t) s = .next ((uendPlain t.val ((s.thread t.val).fpcNext.getD (((s.thread t.val).fpc + 8) % 2 ^ 32))).run s) := by
  obtain ⟨-, hpath, -⟩ := id hat
  refine (exec_microRow hat hr _).trans (congrArg _ ?_)
  rw [run_look]
  dsimp only
  rw [hpath, if_neg Bool.false_ne_true]
  cases hs : (s.thread t.val).spec with
  | none => rfl
  | some q =>
    dsimp only
    rw [hq q hs, if_neg Bool.false_ne_true]
    rfl

theorem exec_urtt (hat : s.atMicro t.val u w 0x26) (hcause : 1 < (s.thread t.val).cause) :
    exec (.urtt t) s = .next ((modThread t.val fun x => { x with
      ts := x.shadow.ts
      z := x.shadow.z
      lt := x.shadow.lt
      ltu := x.shadow.ltu
      w := x.shadow.w
      stack := x.shadow.stack
      inTrap := false
      upc := some x.shadow.upc }).run s) := by
  refine (exec_microRow hat hr _).trans (congrArg _ ?_)
  rw [run_all_cons, run_all_cons, run_all_nil, run_look, thread_modThread_same]
  dsimp only
  rw [if_neg (by omega), Option.isNone_some, when_false, run_skip]
  refine run_modThread_congr ?_
  rw [if_neg (by omega)]

theorem exec_uabort (hat : s.atMicro t.val u w 0x27) :
    exec (.uabort t) s = .next ((abortThread t.val ST.ENGINE_FAULT u).run s) := by
  obtain ⟨-, hpath, hupc, -⟩ := id hat
  have hout : (s.thread t.val).pathOut.upc = some u := by
    unfold Thread.pathOut
    cases hs : (s.thread t.val).spec with
    | none => exact hupc
    | some p =>
      have hon : p.on = false := by rw [Thread.onPath, hs] at hpath; exact hpath
      dsimp only
      rw [hon, if_neg Bool.false_ne_true, hupc]
  refine (exec_microRow hat hr _).trans (congrArg _ ?_)
  rw [withUpc, run_look, hout]

theorem exec_utrap (hat : s.atMicro t.val u w 0x28) : exec (.utrap t) s = .next ((trapTo t.val 15 none u).run s) := by
  obtain ⟨-, -, hupc, -⟩ := id hat
  refine (exec_microRow hat hr _).trans (congrArg _ ?_)
  rw [raise, run_look, hupc]

end Next

/-! ## The resolution of a branch (R324) -/

/-- The predicted path after the branch that it was predicted of is resolved. -/
def Thread.resolved (h : Thread) (taken : Bool) : Option Spec :=
  match h.spec with
  | some q => if q.resolved then some q else if q.taken = taken then some { q with resolved := true } else none
  | none => none

/-- Whether the resolution of a branch finds its prediction wrong. -/
def Thread.mispredicts (h : Thread) (taken : Bool) : Bool := (h.spec.map fun q => !q.resolved && (q.taken != taken)).getD false

/-- The branch at a thread outside its path is resolved, a wrong path is discarded. -/
def settlePath (t : Nat) (h : Thread) (taken : Bool) : Prog :=
  match h.spec with
  | some p => Prog.when (!p.on && !p.resolved) (doAll [resolve t p.taken taken,
      modThread t fun x => { x with spec := if p.taken = taken then some { p with resolved := true } else none }])
  | none => .skip

theorem Thread.with_spec {h : Thread} {o : Option Spec} (hs : h.spec = o) : { h with spec := o } = h := by
  subst hs
  rfl

theorem mask_mispredict (e : Nat) : maskAt .live (FLOW.MISPREDICT_CNT.of e).page (FLOW.MISPREDICT_CNT.of e).off = 2 ^ 32 - 1 :=
  show maskAt .live Pg.flow FLOW.MISPREDICT_CNT.off = 2 ^ 32 - 1 by decide

theorem run_resolve (t : Nat) (predicted taken : Bool) (s : State) : ((resolve t predicted taken).run s).thread t = s.thread t ∧
    ((resolve t predicted taken).run s).rd (FLOW.MISPREDICT_CNT.of (t / 16)) =
      min (s.rd (FLOW.MISPREDICT_CNT.of (t / 16)) + b2n (predicted != taken)) (2 ^ 32 - 1) := by
  have hlt := rd_lt s (FLOW.MISPREDICT_CNT.of (t / 16))
  rw [resolve]
  cases predicted != taken
  · rw [when_false, run_skip]
    exact ⟨rfl, by rw [show b2n false = 0 from rfl]; omega⟩
  · rw [when_true, run_all_cons, run_all_cons, run_all_nil]
    have hside := side_peep_reports 5 2 t ((inc (FLOW.MISPREDICT_CNT.of (t / 16))).run s)
    have hw : Works t nowhere _ _ := .of_side hside
    rw [hside.thread t, hw.rd_eq (show Pg.flow ∉ [13, 26, 37, 39] by decide), rd_inc _ _ (mask_mispredict _)]
    exact ⟨rfl, rfl⟩

theorem run_settlePath {s : State} {t : Nat} (hp : (s.thread t).onPath = false) (taken : Bool) :
    ((settlePath t (s.thread t) taken).run s).thread t = { s.thread t with spec := (s.thread t).resolved taken } ∧
    ((settlePath t (s.thread t) taken).run s).rd (FLOW.MISPREDICT_CNT.of (t / 16)) =
      min (s.rd (FLOW.MISPREDICT_CNT.of (t / 16)) + b2n ((s.thread t).mispredicts taken)) (2 ^ 32 - 1) := by
  have hlt := rd_lt s (FLOW.MISPREDICT_CNT.of (t / 16))
  have hsame : min (s.rd (FLOW.MISPREDICT_CNT.of (t / 16)) + b2n false) (2 ^ 32 - 1) = s.rd (FLOW.MISPREDICT_CNT.of (t / 16)) := by
    rw [show b2n false = 0 from rfl]
    omega
  unfold settlePath Thread.resolved Thread.mispredicts
  cases hs : (s.thread t).spec with
  | none => exact ⟨(Thread.with_spec hs).symm, hsame.symm⟩
  | some p =>
    have hon : p.on = false := by rw [Thread.onPath, hs] at hp; exact hp
    dsimp only
    rw [hon, Bool.not_false, Bool.true_and, Option.map_some, Option.getD_some]
    cases hres : p.resolved
    · obtain ⟨hthread, hcnt⟩ := run_resolve t p.taken taken s
      rw [Bool.not_false, when_true, run_all_cons, run_all_cons, run_all_nil, thread_modThread_same, hthread, Bool.true_and]
      exact ⟨rfl, hcnt⟩
    · rw [Bool.not_true, when_false, run_skip, Bool.false_and, hsame]
      exact ⟨(Thread.with_spec hs).symm, rfl⟩

theorem exec_ufbr {s : State} {t : Fin 1024} {u w : Nat} (hr : s.runsBelow 2) (hat : s.atMicro t.val u w 0x25) {taken : Bool}
    (htaken : (s.thread t.val).cond (field w 23 20) = some taken) (hu : u < 16383) :
    exec (.ufbr t) s = .next ((doAll [settlePath t.val (s.thread t.val) taken,
      Prog.when taken (modThread t.val fun x =>
        { x with fpcNext := some (((s.thread t.val).fpc + sx32 (insImm (s.thread t.val).instr)) % 2 ^ 32) }),
      nextUpc t.val]).run s) := by
  refine (exec_microRow hat hr _).trans (congrArg _ ?_)
  rw [run_look]
  dsimp only
  rw [htaken]
  dsimp only
  rw [run_canAdvance hat hu]
  rfl

/-- What a branch leaves: the micro-PC moved on, the path settled, the target noted when it is taken. -/
theorem thread_ufbr {s : State} {t : Nat} (hp : (s.thread t).onPath = false) (taken : Bool) (target : Nat) :
    ((doAll [settlePath t (s.thread t) taken, Prog.when taken (modThread t fun x => { x with fpcNext := some target }), nextUpc t]).run s).thread t =
      { s.thread t with
        spec := (s.thread t).resolved taken
        fpcNext := if taken then some target else (s.thread t).fpcNext
        upc := (s.thread t).upc.map (· + 1)
        st := 2
        wait := .none } ∧
    ((doAll [settlePath t (s.thread t) taken, Prog.when taken (modThread t fun x => { x with fpcNext := some target }), nextUpc t]).run s).rd
      (FLOW.MISPREDICT_CNT.of (t / 16)) =
      min (s.rd (FLOW.MISPREDICT_CNT.of (t / 16)) + b2n ((s.thread t).mispredicts taken)) (2 ^ 32 - 1) := by
  obtain ⟨hthread, hcnt⟩ := run_settlePath hp taken
  rw [run_all_cons, run_all_cons, run_all_cons, run_all_nil]
  generalize (settlePath t (s.thread t) taken).run s = x at hthread hcnt ⊢
  rw [nextUpc, thread_modThread_same]
  cases taken
  · rw [when_false, run_skip, hthread]
    exact ⟨rfl, hcnt⟩
  · rw [when_true, thread_modThread_same, hthread]
    exact ⟨rfl, hcnt⟩

theorem says_nextAddressMicrowords : Says.NextAddressMicrowords := by
  unfold Says.NextAddressMicrowords
  refine ⟨fun s t i hr hat => exec_unop_boundary hr hat, fun s t u w mop hr hat => ?_⟩
  obtain ⟨hst, hpath, hupc, -⟩ := id hat
  dsimp only
  refine ⟨?_, ?_, ?_, ?_, ?_, ?_, ?_, ?_, ?_⟩
  · rintro rfl
    exact exec_microRow hat hr _
  · rintro rfl
    exact ⟨exec_ubr hr hat, fun hb hu => (exec_ubr hr hat hb).trans (congrArg _ (run_canAdvance hat hu _))⟩
  · rintro rfl
    exact exec_ucall hr hat
  · rintro v r rfl
    exact exec_uret hr hat
  · rintro rfl
    refine ⟨fun q => exec_uend_path hr hat, fun hq => ⟨_, exec_uend_plain hr hat hq, ?_⟩⟩
    obtain ⟨hothers, hreg, hmem⟩ := onlyThread_uendPlain t.val ((s.thread t.val).fpcNext.getD (((s.thread t.val).fpc + 8) % 2 ^ 32)) s
    obtain ⟨stop, mem, hthread⟩ := thread_uendPlain hst ((s.thread t.val).fpcNext.getD (((s.thread t.val).fpc + 8) % 2 ^ 32))
    rw [hthread]
    exact ⟨rfl, rfl, rfl, rfl, hothers, hreg, hmem⟩
  · rintro taken rfl htaken hu
    refine ⟨_, exec_ufbr hr hat htaken hu, ?_⟩
    obtain ⟨hthread, hcnt⟩ := thread_ufbr hpath taken (((s.thread t.val).fpc + sx32 (insImm (s.thread t.val).instr)) % 2 ^ 32)
    rw [hthread, hupc]
    exact ⟨rfl, rfl, rfl, hcnt⟩
  · rintro rfl - hcause
    exact exec_urtt hr hat hcause
  · rintro rfl
    exact exec_uabort hr hat
  · rintro rfl
    exact exec_utrap hr hat

/-- Settles O42: the microwords that act, and those that give the next address. -/
theorem otherMicrowordsAct : Obligations.OtherMicrowordsAct := ⟨says_otherMicrowordsAct, says_nextAddressMicrowords⟩

end Sys2Proof.Machine
end

section
/-! PROOF. Threads take work, are controlled, and end their waits (R301 to R307, R312 to R316). -/

namespace Sys2Proof.Machine

/-! ## Work items (R305 to R307) -/

section Take

variable {s : State} {e : Fin 64} {k : Nat} {item : FlowItem} {rest : List FlowItem} (hr : s.runsBelow 2)
  (hfind : (List.range 16).find? (fun k => decide ((s.thread (16 * e.val + k)).st = 1) && decide (s.thrMode (16 * e.val + k) = 1)) = some k)
  (hqueue : s.workQueue e.val = item :: rest)
  (hcs : s.fd (FLOW.CS_STATUS.of e.val) 1 0 = 0) (hgood : s.bit (FLOW.ENG_STATUS.of e.val) 1 = false)
include hr hfind hqueue hcs hgood

/-- The thread that takes the oldest item starts with it: its record, its registers and its entry point. -/
def startsWork (s : State) (e k : Nat) (rest : List FlowItem) (kind x3 entry : Nat) (record : List Byte) (f : Option Frame) (w : Option Nat) : Prog :=
  doAll [setWorkQueue e rest, putLmem (16 * e + k) (0x3C000 + 0x400 * k) record, setX (16 * e + k) 1 kind,
    setX (16 * e + k) 2 (0x3C000 + 0x400 * k), setX (16 * e + k) 3 x3,
    modThread (16 * e + k) fun h => { h with
      st := 2
      fpc := s.cfg ((FLOW.ENTRY entry).of e)
      fpcNext := none
      upc := none
      spec := none
      inTrap := false
      frame := f
      item := w
      itemFn := ((w.bind s.work?).map (·.fn)).getD 0
      cplDone := false }]

theorem exec_workItemTake : exec (.workItemTake e) s = .next ((match item with
    | .frame f => startsWork s e.val k rest 0 f.flowEntry (f.flowEntry % 16) f.record (some f) none
    | .ring w => match s.work? w with
      | some x => startsWork s e.val k rest 1 (x.at 20 2) (field (x.at 20 2) 11 8) x.record none (some w)
      | none => setWorkQueue e.val rest).run s) := by
  calc exec (.workItemTake e) s = live 2 _ s := rfl
    _ = _ := by
      rw [live_next _ hr, run_look, hfind, hqueue]
      dsimp only
      rw [hcs, hgood, if_neg (by decide)]
      cases item <;> rfl

end Take

/-! ## THRt_CTL (R302 to R304) -/

theorem Thread.pathOut_of_not_onPath {h : Thread} (hp : h.onPath = false) : h.pathOut = h := by
  unfold Thread.pathOut
  cases hs : h.spec with
  | none => rfl
  | some p =>
    have hon : p.on = false := by rw [Thread.onPath, hs] at hp; exact hp
    dsimp only
    rw [hon, if_neg Bool.false_ne_true]

/-- A STOP at a thread between instructions is taken at once. -/
theorem run_stop_at_boundary {s : State} {t : Nat} (htrap : (s.thread t).inTrap = false) (hpath : (s.thread t).onPath = false) :
    (doAll [modThread t fun x => { x with stopPending := true, stopMem := false }, boundary t]).run s =
      (doAll [modThread t fun x => { x with st := 6, stopPending := false, stopMem := false }, settle t]).run s := by
  have hon : ({ s.thread t with stopPending := true, stopMem := false } : Thread).onPath = false := hpath
  rw [run_all_cons, run_all_cons, run_all_nil, boundary, run_look, thread_modThread_same, hon]
  dsimp only
  rw [htrap, Bool.not_false, Bool.and_true, Bool.and_true, when_true, run_all_cons, run_all_cons, run_all_nil, run_all_cons,
    run_all_cons, run_all_nil, run_modThread_modThread]
  rfl

section Control

variable {s : State} {a : Accessor} (hs : s.serves a Pg.flow) (k : Fin 16)
include hs

theorem run_thrCtl (act : Nat → Prog) :
    done (thrCtl a k act) s = .next ((act (16 * s.instSel a Pg.flow + k.val)).run s) := byWriter_next _ _ hs

theorem exec_threadStop_waitMem (h : (s.thread (16 * s.instSel a Pg.flow + k.val)).st = 5) : exec (.threadStop a k) s =
    .next ((modThread (16 * s.instSel a Pg.flow + k.val) fun x => { x with stopPending := true, stopMem := true }).run s) := by
  refine (run_thrCtl hs k _).trans (congrArg _ ?_)
  rw [run_look]
  dsimp only
  rw [if_pos h]

theorem exec_threadStop_later (h : (s.thread (16 * s.instSel a Pg.flow + k.val)).st ∈ [2, 3, 4])
    (hlater : (s.thread (16 * s.instSel a Pg.flow + k.val)).inTrap = true ∨
      (s.thread (16 * s.instSel a Pg.flow + k.val)).st = 2 ∧ (s.thread (16 * s.instSel a Pg.flow + k.val)).upc.isSome = true) :
    exec (.threadStop a k) s =
      .next ((modThread (16 * s.instSel a Pg.flow + k.val) fun x => { x with stopPending := true, stopMem := false }).run s) := by
  refine (run_thrCtl hs k _).trans (congrArg _ ?_)
  have h5 : (s.thread (16 * s.instSel a Pg.flow + k.val)).st ≠ 5 := fun h5 => by rw [h5] at h; exact absurd h (by decide)
  rw [run_look]
  dsimp only
  rw [if_neg h5]
  by_cases htrap : (s.thread (16 * s.instSel a Pg.flow + k.val)).inTrap = true
  · rw [if_pos ⟨h, htrap⟩]
  · obtain ⟨h2, hupc⟩ := hlater.resolve_left htrap
    rw [if_neg (fun hin => htrap hin.2), if_pos h2, if_neg (by rw [Option.isNone_iff_eq_none]; exact Option.isSome_iff_ne_none.1 hupc)]

theorem exec_threadStop_boundary (h : (s.thread (16 * s.instSel a Pg.flow + k.val)).st = 2)
    (hupc : (s.thread (16 * s.instSel a Pg.flow + k.val)).upc = none) (htrap : (s.thread (16 * s.instSel a Pg.flow + k.val)).inTrap = false)
    (hpath : (s.thread (16 * s.instSel a Pg.flow + k.val)).onPath = false) : exec (.threadStop a k) s = .next ((doAll [
      modThread (16 * s.instSel a Pg.flow + k.val) fun x => { x with st := 6, stopPending := false, stopMem := false },
      settle (16 * s.instSel a Pg.flow + k.val)]).run s) := by
  refine (run_thrCtl hs k _).trans (congrArg _ ?_)
  rw [run_look]
  dsimp only
  rw [if_neg (by rw [h]; decide), if_neg (fun hin => Bool.false_ne_true (htrap.symm.trans hin.2)), if_pos h, hupc, Option.isNone_none,
    if_pos rfl, run_stop_at_boundary htrap hpath]

theorem exec_threadStop_waiting (h : (s.thread (16 * s.instSel a Pg.flow + k.val)).st = 3 ∨ (s.thread (16 * s.instSel a Pg.flow + k.val)).st = 4)
    (htrap : (s.thread (16 * s.instSel a Pg.flow + k.val)).inTrap = false) : exec (.threadStop a k) s = .next ((doAll [
      cancelWaits (16 * s.instSel a Pg.flow + k.val), clobber (16 * s.instSel a Pg.flow + k.val),
      modThread (16 * s.instSel a Pg.flow + k.val) fun x => { x with st := 6, upc := none, fpcNext := none, spec := none },
      settle (16 * s.instSel a Pg.flow + k.val)]).run s) := by
  refine (run_thrCtl hs k _).trans (congrArg _ ?_)
  rw [run_look]
  dsimp only
  rw [if_neg (by omega), if_neg (fun hin => Bool.false_ne_true (htrap.symm.trans hin.2)), if_neg (by omega), if_pos h]

theorem exec_threadAbort {u : Nat} (h : (s.thread (16 * s.instSel a Pg.flow + k.val)).st ≠ 0)
    (hpath : (s.thread (16 * s.instSel a Pg.flow + k.val)).onPath = false)
    (hupc : (s.thread (16 * s.instSel a Pg.flow + k.val)).upc = some u) :
    exec (.threadAbort a k) s = .next ((trapTo (16 * s.instSel a Pg.flow + k.val) 14 none u).run s) := by
  refine (run_thrCtl hs k _).trans (congrArg _ ?_)
  rw [run_look, decide_eq_true h, when_true, withUpc, run_look, Thread.pathOut_of_not_onPath hpath, hupc]

theorem exec_threadRun : exec (.threadRun a k) s =
    .next ((Prog.when (decide ((s.thread (16 * s.instSel a Pg.flow + k.val)).st = 6))
      (modThread (16 * s.instSel a Pg.flow + k.val) fun x => { x with st := 2 })).run s) := run_thrCtl hs k _

theorem exec_threadRestart : exec (.threadRestart a k) s =
    .next ((Prog.when (decide ((s.thread (16 * s.instSel a Pg.flow + k.val)).st = 7)) (startState (16 * s.instSel a Pg.flow + k.val))).run s) :=
  run_thrCtl hs k _

end Control

/-! ## The end of waits (R301, R312 to R316) -/

theorem run_note_none (s : State) : MemErr.none.note.run s = s := rfl

/-- What leaves the wheel leaves the threads. -/
theorem thread_leaves (e : WEvent) (stepped : Bool) (t : Nat) (s : State) : ((leaves e stepped).run s).thread t = s.thread t := by
  have c : Composes fun s u : State => u.thread t = s.thread t := composes_keep (·.thread t)
  refine c.cons ?_ (c.cons ?_ (c.cons (fun _ => rfl) (c.cons (fun u => ?_) c.nil))) s
  · exact within_ite (fun _ => rfl) fun _ => rfl
  · exact c.when fun _ => rfl
  · exact (side_peep_reports 2 1 e.dom u).thread t

section Waits

variable {s : State} {t : Fin 1024} (hr : s.runsBelow 2)
include hr

theorem exec_channelWaitDone_put {c v : Nat} (hst : (s.thread t.val).st = 3) (hwait : (s.thread t.val).wait = .chan c (some v))
    (hfirst : ((s.chan c).waiters.find? fun w => w.2.isSome).map (·.1) = some t.val) (hroom : (s.chan c).words.length < 4) :
    exec (.channelWaitDone t) s = .next ((doAll [
      modChan c fun x => { x with waiters := x.waiters.filter fun w => !decide (w.1 = t.val) },
      chanPush c v, finishOp t.val none, setW t.val false]).run s) := by
  have hfirst' : ((s.chan c).waiters.find? fun w => w.2.isSome == (some v).isSome).map (·.1) = some t.val := by
    simpa only [Option.isSome_some, beq_true] using hfirst
  calc exec (.channelWaitDone t) s = live 2 _ s := rfl
    _ = _ := by
      rw [live_next _ hr, run_look]
      dsimp only
      rw [hwait]
      dsimp only
      rw [hst, hfirst', if_neg (by simp), decide_eq_true hroom, when_true]

theorem exec_channelWaitDone_get {c v : Nat} {l : List Nat} (hst : (s.thread t.val).st = 3) (hwait : (s.thread t.val).wait = .chan c none)
    (hfirst : ((s.chan c).waiters.find? fun w => !w.2.isSome).map (·.1) = some t.val) (hwords : (s.chan c).words = v :: l) :
    exec (.channelWaitDone t) s = .next ((doAll [
      modChan c fun x => { x with waiters := x.waiters.filter fun w => !decide (w.1 = t.val) },
      chanPop c, finishOp t.val (some v), setW t.val false]).run s) := by
  have hfirst' : ((s.chan c).waiters.find? fun w => w.2.isSome == (none : Option Nat).isSome).map (·.1) = some t.val := by
    simpa only [Option.isSome_none, beq_false] using hfirst
  calc exec (.channelWaitDone t) s = live 2 _ s := rfl
    _ = _ := by
      rw [live_next _ hr, run_look]
      dsimp only
      rw [hwait]
      dsimp only
      rw [hst, hfirst', if_neg (by simp), hwords]

/-- A command that ends a thread's wait for memory: the operation is done, and the path goes out. -/
theorem waitMem_next {q : State → Prog} (hst : (s.thread t.val).st = 5) {p : Prog} (hp : (q s).run s = p.run s) :
    live 2 (get fun s => if (s.thread t.val).st ≠ 5 then .skip else .seq (q s) (pathRest t.val)) s =
      .next ((Prog.seq p (pathRest t.val)).run s) := by
  rw [live_next _ hr, run_look, if_neg (not_not_intro hst)]
  exact congrArg (fun u => Host.Outcome.next ((pathRest t.val).run u)) hp

section WaitMem

variable {e : MemErr} (hst : (s.thread t.val).st = 5)
include hst

theorem exec_memoryOpDone_load {sp a n : Nat} {sg : Bool} (hwait : (s.thread t.val).wait = .load sp a n sg) (hgood : s.poisoned sp 0 a n = false) :
    exec (.memoryOpDone t .none) s = .next ((Prog.seq (doAll [MemErr.none.note,
        if s.opaqueAt sp a n then fresh fun v => finishOp t.val (some (extend sg n (v % 2 ^ (8 * n))))
        else finishOp t.val (some (extend sg n (s.memNat sp 0 a n)))]) (pathRest t.val)).run s) :=
  waitMem_next hr hst (by
    rw [hwait]
    dsimp only
    rw [hgood, Bool.or_false, if_neg Bool.false_ne_true])

theorem exec_memoryOpDone_load_poisoned {sp a n : Nat} {sg : Bool} (hwait : (s.thread t.val).wait = .load sp a n sg)
    (hbad : s.poisoned sp 0 a n = true) :
    exec (.memoryOpDone t .none) s = .next ((Prog.seq (doAll [MemErr.none.note, raise t.val 5 (some a)]) (pathRest t.val)).run s) :=
  waitMem_next hr hst (by
    rw [hwait]
    dsimp only
    rw [hbad, Bool.or_true, if_pos rfl])

theorem exec_memoryOpDone_load_ue {sp a n : Nat} {sg : Bool} (hwait : (s.thread t.val).wait = .load sp a n sg) (sp' : Fin 12) (p : Nat) :
    exec (.memoryOpDone t (.ue sp' p)) s = .next ((Prog.seq (doAll [(MemErr.ue sp' p).note, raise t.val 5 (some a)]) (pathRest t.val)).run s) :=
  waitMem_next hr hst (by
    rw [hwait]
    dsimp only
    rw [Bool.true_or, if_pos rfl])

theorem exec_memoryOpDone_host {toL : Bool} {ad lm n : Nat} (hwait : (s.thread t.val).wait = .host toL ad lm n) :
    exec (.memoryOpDone t e) s = .next ((Prog.seq (hcopyDone t.val toL ad lm n) (pathRest t.val)).run s) :=
  waitMem_next hr hst (by rw [hwait])

theorem exec_memoryOpDone_cache {op k v : Nat} (hwait : (s.thread t.val).wait = .cache op k v) :
    exec (.memoryOpDone t .none) s = .next ((Prog.seq (doAll [MemErr.none.note, fcOp t.val op k v]) (pathRest t.val)).run s) :=
  waitMem_next hr hst (by
    rw [hwait]
    dsimp only
    rw [if_neg Bool.false_ne_true])

theorem exec_memoryOpDone_fetch (hwait : (s.thread t.val).wait = .fetch)
    (hgood : s.poisoned 2 0 (s.fpcAddr (t.val / 16) (s.thread t.val).fpc) 8 = false) :
    exec (.memoryOpDone t .none) s = .next ((Prog.seq (doAll [MemErr.none.note,
        icachePut (t.val / 16) (s.thread t.val).fpc (s.memNat 2 0 (s.fpcAddr (t.val / 16) (s.thread t.val).fpc) 8 + 1),
        modThread t.val fun x => { x with st := 2, wait := .none }, boundary t.val]) (pathRest t.val)).run s) :=
  waitMem_next hr hst (by
    rw [hwait]
    dsimp only
    rw [run_all_cons, run_all_cons, run_all_nil, run_note_none, fetchDone, run_look]
    dsimp only
    rw [hgood, Bool.or_false, if_neg Bool.false_ne_true, run_all_cons, run_all_cons, run_all_cons, run_all_nil, run_all_cons, run_all_cons,
      run_all_cons, run_all_cons, run_all_nil, run_note_none])

theorem exec_memoryOpDone_fetch_ue (hwait : (s.thread t.val).wait = .fetch) (sp' : Fin 12) (p : Nat) :
    exec (.memoryOpDone t (.ue sp' p)) s = .next ((Prog.seq (doAll [(MemErr.ue sp' p).note, trapTo t.val 1 none 0x3FFF]) (pathRest t.val)).run s) :=
  waitMem_next hr hst (by
    rw [hwait]
    dsimp only
    rw [run_all_cons, run_all_cons, run_all_nil, run_all_cons, run_all_cons, run_all_nil, fetchDone, run_look]
    dsimp only
    rw [Bool.true_or, if_pos rfl])

theorem exec_memoryOpDone_latch {n fn : Nat} (hwait : (s.thread t.val).wait = .latch n fn) :
    exec (.memoryOpDone t e) s = .next ((Prog.seq (latchOp t.val n fn) (pathRest t.val)).run s) :=
  waitMem_next hr hst (by rw [hwait])

theorem exec_memoryOpDone_frame {op a b n fn : Nat} (hwait : (s.thread t.val).wait = .frame op a b n fn) :
    exec (.memoryOpDone t .none) s = .next ((Prog.seq (doAll [MemErr.none.note, frameOp t.val op a b n fn]) (pathRest t.val)).run s) :=
  waitMem_next hr hst (by
    rw [hwait]
    dsimp only
    rw [Bool.false_and, if_neg Bool.false_ne_true])

theorem exec_memoryOpDone_frame_ue {op a b n fn : Nat} (hwait : (s.thread t.val).wait = .frame op a b n fn) (hop : op < 4)
    (sp' : Fin 12) (p : Nat) :
    exec (.memoryOpDone t (.ue sp' p)) s = .next ((Prog.seq (doAll [(MemErr.ue sp' p).note, frameLost t.val]) (pathRest t.val)).run s) :=
  waitMem_next hr hst (by
    rw [hwait]
    dsimp only
    rw [Bool.true_and, if_pos (decide_eq_true hop)])

theorem exec_memoryOpDone_cpl {w : Nat} (hwait : (s.thread t.val).wait = .cpl w) :
    exec (.memoryOpDone t e) s = .next ((Prog.seq (Prog.when (!s.postWaits w) (finishOp t.val none)) (pathRest t.val)).run s) :=
  waitMem_next hr hst (by rw [hwait])

end WaitMem

theorem exec_threadWaitDone {e : WEvent} (hst : (s.thread t.val).st = 4) (hf : s.fires e (.threadWait t.val)) :
    exec .threadWaitDone s = .next ((doAll [leaves e false, finishOp t.val (some ST.OK)]).run s) := by
  refine (live_dispatch_due _ hr hf rfl).trans (congrArg _ ?_)
  rw [run_all_cons, run_all_cons, run_all_nil, run_all_cons, run_all_cons, run_all_nil, consumer_of_fires hf, run_look, thread_leaves,
    decide_eq_true hst, when_true, if_neg Bool.false_ne_true]

theorem exec_threadWaitDone_stepped {e : WEvent} (hst : (s.thread t.val).st = 4) (hf : s.steps e (.threadWait t.val)) :
    exec .threadWaitDone s = .next ((doAll [leaves e true, finishOp t.val (some ST.STEPPED)]).run s) := by
  refine (live_dispatch_stepped _ hr hf rfl).trans (congrArg _ ?_)
  rw [run_all_cons, run_all_cons, run_all_nil, run_all_cons, run_all_cons, run_all_nil, consumer_of_steps hf, run_look, thread_leaves,
    decide_eq_true hst, when_true, if_pos rfl]

end Waits

theorem says_workItemsAreTaken : Says.WorkItemsAreTaken := by
  unfold Says.WorkItemsAreTaken
  intro s e k item rest hr hfind hqueue hcs hgood
  refine ⟨?_, ?_⟩
  · rintro f rfl
    exact exec_workItemTake hr hfind hqueue hcs hgood
  · rintro w x rfl hx
    refine (exec_workItemTake hr hfind hqueue hcs hgood).trans ?_
    dsimp only
    rw [hx]
    rfl

theorem says_threadsAreControlled : Says.ThreadsAreControlled := by
  unfold Says.ThreadsAreControlled
  intro s a k hs
  refine ⟨exec_threadStop_waitMem hs k, exec_threadStop_later hs k, exec_threadStop_boundary hs k, exec_threadStop_waiting hs k,
    fun h => ?_, fun h hpath u => exec_threadAbort hs k h hpath, fun h => ?_, fun h => ?_⟩
  · rw [exec_threadRun hs, decide_eq_true h, when_true]
  · rw [exec_threadRestart hs, decide_eq_true h, when_true]
    rfl
  · have h6 : (s.thread (16 * s.instSel a Pg.flow + k.val)).st ≠ 6 := fun h6 => by rw [h6] at h; exact absurd h (by decide)
    have h7 : (s.thread (16 * s.instSel a Pg.flow + k.val)).st ≠ 7 := fun h7 => by rw [h7] at h; exact absurd h (by decide)
    rw [exec_threadRun hs, exec_threadRestart hs, decide_eq_false h6, decide_eq_false h7, when_false, when_false, run_skip]
    exact ⟨rfl, rfl⟩

theorem says_threadWaitsEnd : Says.ThreadWaitsEnd := by
  unfold Says.ThreadWaitsEnd
  intro s t hr
  refine ⟨fun c v => exec_channelWaitDone_put hr, fun c v l => exec_channelWaitDone_get hr,
    fun sp a n sg hst hwait => ⟨exec_memoryOpDone_load hr hst hwait, exec_memoryOpDone_load_poisoned hr hst hwait,
      exec_memoryOpDone_load_ue hr hst hwait⟩,
    fun toL ad lm n hst hwait e => exec_memoryOpDone_host hr hst hwait,
    fun op k v hst => exec_memoryOpDone_cache hr hst,
    fun hst hwait => ⟨exec_memoryOpDone_fetch hr hst hwait, exec_memoryOpDone_fetch_ue hr hst hwait⟩,
    fun n fn e hst hwait hfn => ?_,
    fun op a b n fn hst hwait => ⟨exec_memoryOpDone_frame hr hst hwait, fun sp' p hop => exec_memoryOpDone_frame_ue hr hst hwait hop sp' p⟩,
    fun w e hst => exec_memoryOpDone_cpl hr hst, fun e hst => ⟨exec_threadWaitDone hr hst, exec_threadWaitDone_stepped hr hst⟩⟩
  refine (exec_memoryOpDone_latch hr hst hwait).trans ?_
  rw [latchOp]
  obtain h | h | h : fn % 4 = 0 ∨ fn % 4 = 1 ∨ fn % 4 = 2 := by omega
  all_goals exact congrArg (fun p : Prog => Host.Outcome.next ((p.seq (pathRest t.val)).run s)) (by rw [h] <;> rfl)

/-- Settles O44: work is taken, threads are controlled, and their waits end. -/
theorem threadsTakeWorkStopAndWait : Obligations.ThreadsTakeWorkStopAndWait :=
  ⟨says_workItemsAreTaken, says_threadsAreControlled, says_threadWaitsEnd⟩

end Sys2Proof.Machine
end

section
/-! PROOF. Work requests of the transport and what resumes queue pairs (R338, R344 to R353, R356 to R359). -/

namespace Sys2Proof.Machine

/-! ## A work request that is its queue pair's next (R344, R347) -/

theorem run_withWork_of {s : State} {w : Nat} {x : Work} (h : s.work? w = some x) (k : Work → Prog) : (withWork w k).run s = (k x).run s := by
  rw [withWork, run_look, h]

section Start

variable {s : State} {w : Nat} {x : Work} (hn : s.wrNext w x)
include hn

theorem run_startWr_starts (h : s.wrMayStart x) : (startWr w x.typ).run s = (wrStart s w x).run s := by
  obtain ⟨hw, hhead, hring⟩ := hn
  obtain ⟨hst, hstage, hreads, hok, hfence, hlimit, hfree⟩ := h
  have hmark : (x.flag 8 && decide (x.aux = 0) && !s.triggered x) = false := by
    obtain hf | ha | ⟨ht, -⟩ := hfree
    · simp [hf]
    · simp [ha]
    · simp [ht]
  have hsource : (x.flag 8 && decide (x.aux = 0) && decide (x.typ ∈ [0x41, 0x43]) && decide (x.length ≠ 0)) = false := by
    obtain hf | ha | ⟨-, ht | hl⟩ := hfree
    · rw [hf]; rfl
    · rw [decide_eq_false ha, Bool.and_false]; rfl
    · rw [decide_eq_false ht, Bool.and_false]; rfl
    · rw [decide_eq_false (not_not_intro hl), Bool.and_false]
  rw [startWr, run_withWork_of hw, run_look]
  dsimp only
  rw [if_neg (not_not_intro rfl), if_neg (not_not_intro hring), hhead, Option.map_some, if_neg (not_not_intro rfl), if_neg (by omega),
    if_neg (not_not_intro hst), hmark, if_neg Bool.false_ne_true, if_neg (by omega), if_neg (not_not_intro hok), hsource,
    if_neg Bool.false_ne_true, if_neg, if_neg]
  · rfl
  · rw [Bool.and_eq_true, Bool.and_eq_true, decide_eq_true_eq, Bool.not_eq_true']
    rintro ⟨⟨hread, hsome⟩, hle⟩
    obtain hnil | hlt := hlimit hread
    · rw [hnil] at hsome
      exact absurd hsome (by decide)
    · omega
  · rw [Bool.and_eq_true, Bool.not_eq_true']
    rintro ⟨hflag, hsome⟩
    rw [hfence hflag] at hsome
    exact absurd hsome (by decide)

theorem run_startWr_source (hst : (s.qp x.qpn).st = 3) (hflag : x.flag 8 = true) (haux : x.aux = 0) (htrig : s.triggered x = true)
    (hstage : x.stage ≠ 1) (hreads : x.reads = 0) (hok : x.status = ST.OK) (hlen : x.length ≠ 0) (htyp : x.typ ∈ [0x41, 0x43]) :
    (startWr w x.typ).run s = (doAll [modQp x.qpn fun y => { y with armedWait := false },
      modWork w fun y => { y with aux := 1 }, gather w x.fn x.pieces 0]).run s := by
  obtain ⟨hw, hhead, hring⟩ := hn
  rw [startWr, run_withWork_of hw, run_look]
  dsimp only
  rw [if_neg (not_not_intro rfl), if_neg (not_not_intro hring), hhead, Option.map_some, if_neg (not_not_intro rfl), if_neg (by omega),
    if_neg (not_not_intro hst), htrig, Bool.not_true, Bool.and_false, if_neg Bool.false_ne_true, if_neg (by omega),
    if_neg (not_not_intro hok), hflag, decide_eq_true haux, decide_eq_true htyp, decide_eq_true hlen, Bool.and_self, Bool.and_self, Bool.and_self,
    if_pos rfl]

theorem run_startWr_marked (hst : (s.qp x.qpn).st = 3) (hflag : x.flag 8 = true) (haux : x.aux = 0) (htrig : s.triggered x = false) :
    (startWr w x.typ).run s = (modQp x.qpn fun y => { y with armedWait := true }).run s := by
  obtain ⟨hw, hhead, hring⟩ := hn
  rw [startWr, run_withWork_of hw, run_look]
  dsimp only
  rw [if_neg (not_not_intro rfl), if_neg (not_not_intro hring), hhead, Option.map_some, if_neg (not_not_intro rfl), if_neg (by omega),
    if_neg (not_not_intro hst), hflag, decide_eq_true haux, htrig, if_pos (by decide)]

theorem run_startWr_failed (hst : (s.qp x.qpn).st = 3) (hflag : x.flag 8 = false) (hstage : x.stage ≠ 1) (hreads : x.reads = 0)
    (hbad : x.status ≠ ST.OK) : (startWr w x.typ).run s = (badHeadsAll x.qpn).run s := by
  obtain ⟨hw, hhead, hring⟩ := hn
  rw [startWr, run_withWork_of hw, run_look]
  dsimp only
  rw [if_neg (not_not_intro rfl), if_neg (not_not_intro hring), hhead, Option.map_some, if_neg (not_not_intro rfl), if_neg (by omega),
    if_neg (not_not_intro hst), hflag, Bool.false_and, Bool.false_and, if_neg Bool.false_ne_true, if_neg (by omega), if_pos hbad]

theorem run_startWr_flushed (hst : (s.qp x.qpn).st = 0 ∨ (s.qp x.qpn).st = 4) :
    (startWr w x.typ).run s = (doAll [wrDone x.qpn w ST.QP_FLUSHED 0 none, badHeadsAll x.qpn]).run s := by
  obtain ⟨hw, hhead, hring⟩ := hn
  rw [startWr, run_withWork_of hw, run_look]
  dsimp only
  rw [if_neg (not_not_intro rfl), if_neg (not_not_intro hring), hhead, Option.map_some, if_neg (not_not_intro rfl), if_pos hst]

theorem exec_armedWrTrigger (hr : s.runsBelow 4) {q : Fin 262144} (hq : q.val = x.qpn) (hwait : (s.qp x.qpn).armedWait = true) (hflag : x.flag 8 = true)
    (htrig : s.triggered x = true) {p : Prog} (h : (startWr w x.typ).run s = p.run s) : exec (.armedWrTrigger q) s = .next (p.run s) := by
  obtain ⟨-, hhead, -⟩ := hn
  obtain ⟨l, hl⟩ := List.head?_eq_some_iff.1 hhead
  calc exec (.armedWrTrigger q) s = live 4 _ s := rfl
    _ = _ := by
      rw [live_next _ hr, run_look, hq, hl]
      dsimp only
      rw [hwait, hflag, htrig, Bool.and_self, Bool.and_self, when_true, h]

end Start

/-- The start command of a work request's TYPE starts it. -/
theorem exec_ofType {s : State} {w : Nat} {x : Work} (hr : s.runsBelow 4) {p : Prog} (h : (startWr w x.typ).run s = p.run s) :
    (x.typ = 0x41 → exec (.send w) s = .next (p.run s)) ∧ (x.typ = 0x43 → exec (.write w) s = .next (p.run s)) ∧
    (x.typ = 0x45 → exec (.read w) s = .next (p.run s)) ∧ (x.typ = 0x46 → exec (.cas w) s = .next (p.run s)) ∧
    (x.typ = 0x47 → exec (.faa w) s = .next (p.run s)) ∧ (x.typ = 0x48 → exec (.flush w) s = .next (p.run s)) := by
  have hgo : ∀ typ, x.typ = typ → live 4 (startWr w typ) s = .next (p.run s) := fun typ htyp => by
    rw [live_next _ hr, ← htyp, h]
  exact ⟨hgo _, hgo _, hgo _, hgo _, hgo _, hgo _⟩

theorem says_workRequestsStart : Says.WorkRequestsStart := by
  unfold Says.WorkRequestsStart
  refine ⟨fun s w x hr hn => ⟨fun h => ?_, fun hst hflag haux htrig hstage hreads hok hlen => ?_, fun hst hflag haux htrig => ?_,
    fun hst hflag hstage hreads hbad => ?_, fun hst => ?_⟩, fun s a v hs => byWriter_next _ _ hs⟩
  · have hrun := run_startWr_starts hn h
    obtain ⟨hsend, hwrite, hread, hcas, hfaa, hflush⟩ := exec_ofType hr hrun
    exact ⟨hsend, hwrite, hread, hcas, hfaa, hflush, fun k hk hwait hflag htrig => exec_armedWrTrigger hn hr hk hwait hflag htrig hrun⟩
  · have hrun := fun htyp => run_startWr_source hn hst hflag haux htrig hstage hreads hok hlen htyp
    exact ⟨fun htyp => (exec_ofType hr (hrun (by simp [htyp]))).1 htyp, fun htyp => (exec_ofType hr (hrun (by simp [htyp]))).2.1 htyp,
      fun k hk hwait htyp => exec_armedWrTrigger hn hr hk hwait hflag htrig (hrun htyp)⟩
  · exact exec_ofType hr (run_startWr_marked hn hst hflag haux htrig)
  · obtain ⟨hsend, hwrite, -⟩ := exec_ofType hr (run_startWr_failed hn hst hflag hstage hreads hbad)
    exact ⟨hsend, hwrite⟩
  · exact exec_ofType hr (run_startWr_flushed hn hst)

/-! ## What the wheel and the ports bring -/

theorem qp_modQp_same (q : Nat) (f : Qp → Qp) (s : State) : ((modQp q f).run s).qp q = f (s.qp q) := tget_nmod_same ..

/-- `u` has the queue pairs of `s`, and its staged, pending and committed registers. -/
def SameQps (s u : State) : Prop := u.ctl.rdma.qps = s.ctl.rdma.qps ∧ ∀ b r, b ≠ .live → u.copy b r = s.copy b r

theorem composes_sameQps : Composes SameQps :=
  ⟨fun _ => ⟨rfl, fun _ _ _ => rfl⟩, fun h g => ⟨g.1.trans h.1, fun b r hb => (g.2 b r hb).trans (h.2 b r hb)⟩⟩

namespace SameQps

variable {s u : State} (h : SameQps s u)
include h

theorem qp_eq (q : Nat) : u.qp q = s.qp q := congrArg (tget Qp.init · q) h.1

theorem cfd_eq (r : Reg) (hi lo : Nat) : u.cfd r hi lo = s.cfd r hi lo := congrArg (field · hi lo) (h.2 .committed r (by decide))

theorem cbit_eq (r : Reg) (i : Nat) : u.cbit r i = s.cbit r i := congrArg (tbit · i) (h.2 .committed r (by decide))

end SameQps

theorem sameQps_upd {f : Ctl → Ctl} (h : ∀ c, (f c).rdma.qps = c.rdma.qps) : (Prog.upd f).within SameQps := fun s => ⟨h s.ctl, fun _ _ _ => rfl⟩

theorem sameQps_wr (r : Reg) (v : Nat) : (wr r v).within SameQps := fun s =>
  ⟨rfl, fun _ _ hb => copy_wr_other s v fun h => hb (congrArg Prod.fst h)⟩

theorem sameQps_inc (r : Reg) : (inc r).within SameQps := within_look fun _ => sameQps_wr _ _

theorem sameQps_peep (stream ev key : Nat) : (peep stream ev key).within SameQps := fun s => by
  have hside := side_peep_reports stream ev key s
  obtain ⟨_, _, _, _, _, _, _, _, hctl⟩ := hside.ctl
  exact ⟨by rw [hctl], fun b r hb => hside.copy b r fun h => hb h.1⟩

theorem sameQps_leaves (e : WEvent) (stepped : Bool) : (leaves e stepped).within SameQps :=
  composes_sameQps.cons (within_ite (sameQps_upd fun _ => rfl) (sameQps_upd fun _ => rfl))
    (composes_sameQps.cons (composes_sameQps.when (sameQps_inc _))
      (composes_sameQps.cons (within_look fun _ => sameQps_upd fun _ => rfl) (composes_sameQps.cons (sameQps_peep _ _ _) composes_sameQps.nil)))

section Resumed

variable {s : State} (hr : s.runsBelow 4)
include hr

theorem exec_rtxResume {q : Fin 262144} {p : TxPkt} (hp : (s.qp q.val).out[(s.qp q.val).next]? = some p) (hwait : (s.qp q.val).rtxWait = true)
    (hroom : s.rtxBytes + p.payload.length ≤ s.fd RDMA.RTX_SIZE 15 0 * 2 ^ 20) :
    exec (.rtxResume q) s = .next ((doAll [modQp q.val fun y => { y with rtxWait := false }, pumpAll q.val]).run s) := by
  calc exec (.rtxResume q) s = live 4 _ s := rfl
    _ = _ := by
      rw [live_next _ hr, run_look]
      dsimp only
      rw [hp]
      dsimp only
      rw [hwait, decide_eq_true hroom, Bool.and_self, when_true]

theorem exec_pacingRelease {e : WEvent} {q : Nat} (hf : s.fires e (.pacing q)) :
    exec .pacingRelease s = .next ((doAll [leaves e false, pumpAll q]).run s) := by
  refine (live_dispatch_due _ hr hf rfl).trans (congrArg _ ?_)
  rw [consumer_of_fires hf]
  dsimp only
  rw [when_false, run_all_cons, run_all_cons, run_all_nil, run_all_cons, run_all_cons, run_all_nil, run_all_cons, run_all_cons, run_all_nil, run_skip]

theorem exec_pacingRelease_stepped {e : WEvent} {q : Nat} (hf : s.steps e (.pacing q)) :
    exec .pacingRelease s = .next ((doAll [leaves e true, modQp q fun y => { y with pace := none }, pumpAll q]).run s) := by
  refine (live_dispatch_stepped _ hr hf rfl).trans (congrArg _ ?_)
  rw [consumer_of_steps hf]
  dsimp only
  rw [when_true, run_all_cons, run_all_cons, run_all_nil, run_all_cons, run_all_cons, run_all_nil, run_all_cons, run_all_cons, run_all_cons, run_all_nil]

theorem exec_retransmitTimeout {e : WEvent} {q : Nat} (hf : s.fires e (.retx q)) :
    exec .retransmitTimeout s = .next ((doAll [leaves e false, inc RDMA.TIMEOUT_CNT,
      Prog.when (s.cbit (RDMA.QP_CC.of q) 0) (modQp q fun y => { y with rate := y.rate / 2 }),
      if s.cfd (RDMA.QP_TIMERS.of q) 7 5 ≤ (s.qp q).retries then enterError q ST.RETRY_EXCEEDED ((s.qp q).out.head?.map (·.wr))
      else doAll [modQp q fun y => { y with retries := y.retries + 1 }, resendOldest q]]).run s) := by
  refine (live_dispatch_due _ hr hf rfl).trans (congrArg _ ?_)
  have hsame : SameQps s ((inc RDMA.TIMEOUT_CNT).run ((leaves e false).run s)) :=
    composes_sameQps.trans (sameQps_leaves e false s) (sameQps_inc _ _)
  rw [consumer_of_fires hf, run_all_cons, run_all_cons, run_all_nil, run_all_cons, run_all_cons, run_all_cons, run_all_nil,
    run_all_cons, run_all_cons, run_all_cons, run_all_cons, run_all_nil]
  generalize (inc RDMA.TIMEOUT_CNT).run ((leaves e false).run s) = u at hsame
  have hhalf : ∀ b : Bool, ((Prog.when b (modQp q fun y => { y with rate := y.rate / 2 })).run u).qp q =
      { u.qp q with rate := if b then (u.qp q).rate / 2 else (u.qp q).rate } := fun b => by
    cases b
    · rfl
    · rw [when_true, qp_modQp_same, if_pos rfl]
  have hcfd : ∀ b : Bool, ((Prog.when b (modQp q fun y => { y with rate := y.rate / 2 })).run u).cfd (RDMA.QP_TIMERS.of q) 7 5 =
      u.cfd (RDMA.QP_TIMERS.of q) 7 5 := fun b => by cases b <;> rfl
  rw [run_look, run_look, useRetry, run_look, hcfd, hhalf, hsame.cbit_eq, hsame.cfd_eq, hsame.qp_eq]

theorem exec_rnrWaitExpiry {e : WEvent} {q : Nat} (hf : s.fires e (.rnr q)) :
    exec .rnrWaitExpiry s = .next ((doAll [leaves e false, startTimer q, pumpAll q]).run s) := by
  refine (live_dispatch_due _ hr hf rfl).trans (congrArg _ ?_)
  rw [consumer_of_fires hf]
  dsimp only
  rw [if_neg Bool.false_ne_true, run_all_cons, run_all_cons, run_all_nil, run_all_cons, run_all_cons, run_all_nil, run_all_cons, run_all_cons, run_all_cons, run_all_nil]

theorem exec_rnrWaitExpiry_stepped {e : WEvent} {q : Nat} (hf : s.steps e (.rnr q)) :
    exec .rnrWaitExpiry s = .next ((doAll [leaves e true, resendOldest q]).run s) := by
  refine (live_dispatch_stepped _ hr hf rfl).trans (congrArg _ ?_)
  rw [consumer_of_steps hf]
  dsimp only
  rw [if_pos rfl]

end Resumed

/-! ## The retry of a refused reschedule (R57) -/

/-- The retry asks again for what the consumer was refused, at a target. -/
def asksAgain (s : State) (r : Retry) (c : Consumer) (target : Nat) : Prog :=
  request r.dom 1 (.rel ((target % 2 ^ 48 + 2 ^ 48 - s.wt r.dom) % 2 ^ 48)) c fun st _ =>
    Prog.when (decide (st = ST.OK)) (ctl fun x => { x with time.retry := x.time.retry.filter fun y => !decide (y.consumer = c) })

theorem run_retryConsumer {s : State} {c : Consumer} {r : Retry} (hfind : s.ctl.time.retry.find? (fun r => decide (r.consumer = c)) = some r)
    {dom p : Nat} (hp : s.period c = some (dom, p)) : (retryConsumer c).run s = (asksAgain s r c (if wtDiff r.last (s.wt r.dom) > 0 then r.last
      else r.last + ((s.wt r.dom + 2 ^ 48 - r.last % 2 ^ 48) % 2 ^ 48 / max 1 p + 1) * p)).run s := by
  rw [retryConsumer, run_look, hfind]
  dsimp only
  rw [hp]
  rfl

theorem run_retryTimer {s : State} {c : Consumer} {r : Retry} (hfind : s.ctl.time.retry.find? (fun r => decide (r.consumer = c)) = some r) :
    (retryTimer c).run s = (retryConsumer c).run s := by
  have hany : (s.ctl.time.retry.any fun r => decide (r.consumer = c)) = true :=
    List.any_eq_true.2 ⟨r, List.mem_of_find?_eq_some hfind, List.find?_some (p := fun r : Retry => decide (r.consumer = c)) hfind⟩
  rw [retryTimer, run_look, hany, when_true]

theorem exec_rescheduleRetry {s : State} (hr : s.runsBelow 4) {k : PeriodicKind} {i : Nat} {c : Consumer} (hk : retried k i = some c)
    {r : Retry} (hfind : s.ctl.time.retry.find? (fun r => decide (r.consumer = c)) = some r) :
    exec (.rescheduleRetry k i) s = .next ((retryConsumer c).run s) := by
  cases k
  case queuePair => cases hk
  case flushTimer | deadPeer =>
    cases hk
    exact (live_next _ hr).trans (congrArg _ (run_retryTimer hfind))
  all_goals
    cases hk
    exact live_next _ hr

theorem exec_frameTxEnd {s : State} (hr : s.runsBelow 4) {p : Fin 512} {x : Sending} (hx : s.sending p.val = some x)
    (hconf : x.copy.confirmed = true) (e : MemErr) : exec (.frameTxEnd p e) s = .next ((Prog.seq e.note (match e with
      | .ue _ _ => doAll [setSending p.val none, copyGone x.copy ST.UNCORRECTABLE none, pauseOf x.copy]
      | _ => doAll [txDone x, packetsLeft])).run s) := by
  calc exec (.frameTxEnd p e) s = live 4 _ s := rfl
    _ = _ := by
      rw [live_next _ hr, run_look, hx]
      dsimp only
      rw [hconf, Bool.not_true, if_neg Bool.false_ne_true] <;> rfl

theorem says_queuePairsAreResumed : Says.QueuePairsAreResumed := by
  unfold Says.QueuePairsAreResumed
  intro s hr
  refine ⟨fun q p hp => exec_rtxResume hr hp, fun e q => ⟨exec_pacingRelease hr, exec_pacingRelease_stepped hr⟩,
    fun e q => exec_retransmitTimeout hr, fun e q => ⟨exec_rnrWaitExpiry hr, exec_rnrWaitExpiry_stepped hr⟩,
    fun k i c r hk hfind dom p hp => ⟨fun h => ?_, fun h => ?_⟩, fun i kind tick l hagain => ?_, fun p x hx hconf => ⟨?_, fun m ad => ?_⟩⟩
  · rw [exec_rescheduleRetry hr hk hfind, run_retryConsumer hfind hp, if_neg (not_lt.2 h)]
    rfl
  · rw [exec_rescheduleRetry hr hk hfind, run_retryConsumer hfind hp, if_pos h]
    rfl
  · refine (live_next _ hr).trans (congrArg _ ?_)
    dsimp only
    rw [qpRetry, run_look, hagain]
  · exact exec_frameTxEnd hr hx hconf _
  · exact exec_frameTxEnd hr hx hconf _

/-- Settles O47: work requests start, and queue pairs go on. -/
theorem workRequestsStartAndResume : Obligations.WorkRequestsStartAndResume := ⟨says_workRequestsStart, says_queuePairsAreResumed⟩

end Sys2Proof.Machine
end

section
/-! PROOF. Received packets and responses of the transport (R339 to R343, R349 to R358). -/

namespace Sys2Proof.Machine

/-! ## The oldest frame of a queue pair (R339, R340) -/

section Rx

variable {s : State} {id : Nat} {f : Frame}

theorem run_withRx (h : s.oldestRx id f) (k : Frame → RPkt → Prog) : (withRx id k).run s = (k f f.rocePkt).run s := by
  obtain ⟨hgood, hfind, hfirst⟩ := h
  rw [withRx, run_look, hfind]
  dsimp only
  rw [hfirst, if_neg Bool.false_ne_true, hgood, if_neg Bool.false_ne_true]

theorem id_of_oldestRx (h : s.oldestRx id f) : f.id = id := by
  obtain ⟨-, hfind, -⟩ := h
  exact of_decide_eq_true (List.find?_some (p := fun f : Frame => decide (f.id = id)) hfind)

/-- A packet that passes the header checks: its key, its ICRC, its number and the state of its queue pair (R339, R340). -/
theorem rxGood_iff {p : RPkt} : s.rxGood p = true ↔ (p.pkey = 0xFFFF ∨ p.pkey = 0x7FFF) ∧ p.icrcOk = true ∧ 2 ≤ p.qpn ∧ p.qpn < 262144 ∧
    p.op ≠ opCnp ∧ ((s.qp p.qpn).st = 2 ∨ (s.qp p.qpn).st = 3) := by
  simp only [State.rxGood, Bool.and_eq_true, Bool.or_eq_true, decide_eq_true_eq, and_assoc]

/-- The opcodes of responses and acknowledgements are no request's. -/
theorem not_response_of_isRequest {op : Nat} (h : isRequest op = true) :
    op ∉ [opRespFirst, opRespMiddle, opRespLast, opRespOnly, opAck, opAtomicAck] := by
  simp only [isRequest, Bool.or_eq_true, decide_eq_true_eq, List.mem_cons, List.not_mem_nil, or_false] at h
  simp only [opRespFirst, opRespMiddle, opRespLast, opRespOnly, opAck, opAtomicAck, List.mem_cons, List.not_mem_nil, or_false]
  omega

/-- What a request that is in order does (R354): `runRequest` names the branches of RDMA_PACKET_RX for it. -/
def runRequest (id : Nat) (f : Frame) (p : RPkt) (x : Qp) : Prog :=
  if isSendOp p.op then runSend f p
  else if isWriteOp p.op then runWrite f p
  else if x.inb.isSome then invalidNak id p.qpn p.psn
  else if p.op = opReadReq then runRead f p none
  else if p.op = opCas ∨ p.op = opFaa then runAtomic f p
  else if p.op = opFlush then runFlush f p
  else invalidNak id p.qpn p.psn

variable (hr : s.runsBelow 4) (hold : s.oldestRx id f)
include hr hold

section Drop

variable (hkey : f.rocePkt.pkey = 0xFFFF ∨ f.rocePkt.pkey = 0x7FFF)

theorem exec_rdmaPacketRx_foreign (hkey : ¬ (f.rocePkt.pkey = 0xFFFF ∨ f.rocePkt.pkey = 0x7FFF)) :
    exec (.rdmaPacketRx id) s = .next ((doAll [dropRx id, inc RDMA.BAD_HDR_CNT]).run s) := by
  refine (live_next _ hr).trans (congrArg _ ?_)
  rw [run_withRx hold, run_look, if_pos (by tauto)]

include hkey

theorem exec_rdmaPacketRx_badIcrc (hicrc : f.rocePkt.icrcOk = false) :
    exec (.rdmaPacketRx id) s = .next ((doAll [dropRx id, inc RDMA.ICRC_ERR_CNT, int Pg.rdma 0 2]).run s) := by
  refine (live_next _ hr).trans (congrArg _ ?_)
  rw [run_withRx hold, run_look, if_neg (by tauto), hicrc, Bool.not_false, if_pos rfl]

variable (hicrc : f.rocePkt.icrcOk = true)
include hicrc

theorem exec_rdmaPacketRx_cnp (hop : f.rocePkt.op = opCnp) :
    exec (.rdmaPacketRx id) s = .next ((doAll [dropRx id, inc RDMA.CNP_RX_CNT]).run s) := by
  refine (live_next _ hr).trans (congrArg _ ?_)
  rw [run_withRx hold, run_look, if_neg (by tauto), hicrc, Bool.not_true, if_neg Bool.false_ne_true, if_pos hop]

theorem exec_rdmaPacketRx_control (hop : f.rocePkt.op ≠ opCnp) (hq : f.rocePkt.qpn = 1) :
    exec (.rdmaPacketRx id) s = .next ((doAll [dropRx id, Prog.when (!actFlag f.dec.act actCopyCtrl) (limitedToCores f)]).run s) := by
  refine (live_next _ hr).trans (congrArg _ ?_)
  rw [run_withRx hold, run_look, if_neg (by tauto), hicrc, Bool.not_true, if_neg Bool.false_ne_true, if_neg hop, if_pos hq]

end Drop

/-- A request that nothing before it holds: ahead of the expected PSN, behind it, or in order. -/
theorem exec_rdmaPacketRx_request (hgood : s.rxGood f.rocePkt = true) (hreq : isRequest f.rocePkt.op = true) (hop : f.rocePkt.op < 0x20)
    (hflush : (s.qp f.rocePkt.qpn).flush = none) (herr : ((s.qp f.rocePkt.qpn).resp.any fun r => r.err.isSome) = false) :
    exec (.rdmaPacketRx id) s = .next ((
      if psnDiff f.rocePkt.psn (s.qp f.rocePkt.qpn).rpsn > 0 then doAll [acceptRx id f.rocePkt.qpn,
        Prog.when (!(s.qp f.rocePkt.qpn).naked) (doAll [modQp f.rocePkt.qpn fun y => { y with naked := true }, sendSeqNak f.rocePkt.qpn])]
      else if psnDiff f.rocePkt.psn (s.qp f.rocePkt.qpn).rpsn < 0 then runDuplicate f f.rocePkt
      else runRequest id f f.rocePkt (s.qp f.rocePkt.qpn)).run s) := by
  obtain ⟨hkey, hicrc, hlo, hhi, hcnp, hst⟩ := rxGood_iff.1 hgood
  refine (live_next _ hr).trans (congrArg _ ?_)
  rw [run_withRx hold, run_look, if_neg (by tauto), hicrc, Bool.not_true, if_neg Bool.false_ne_true, if_neg hcnp, if_neg (by omega)]
  dsimp only
  rw [if_neg (by omega), if_neg (by omega), if_neg (not_response_of_isRequest hreq), hflush, herr,
    if_neg (by simp)]
  rfl

end Rx

/-- A repeated SEND, WRITE or FLUSH is acknowledged again (R355). -/
theorem run_runDuplicate {s : State} {f : Frame} {p : RPkt} (h : isSendOp p.op = true ∨ isWriteOp p.op = true ∨ p.op = opFlush) :
    (runDuplicate f p).run s = (doAll [inc RDMA.DUP_CNT, acceptRx f.id p.qpn,
      sendAck p.qpn (psnAdd (s.qp p.qpn).rpsn (2 ^ 24 - 1)) synAck]).run s := by
  have hop : p.op ≠ opReadReq ∧ ¬ (p.op = opCas ∨ p.op = opFaa) := by
    simp only [isSendOp, isWriteOp, Bool.and_eq_true, decide_eq_true_eq, opFlush] at h
    simp only [opReadReq, opCas, opFaa]
    omega
  rw [runDuplicate, run_look]
  dsimp only
  rw [if_neg hop.1, if_neg hop.2]

/-! ## A WRITE of one packet (R341, R342, R349, R350) -/

theorem pasOf_pasCode (pasid : Option Nat) : pasOf (pasCode pasid) = pasid := by
  cases pasid with
  | none => rfl
  | some n => rw [pasCode, Option.map_some, Option.getD_some, pasOf, if_neg (Nat.succ_ne_zero n), Nat.add_sub_cancel]

theorem checkAll_one {s : State} {f : Nat} {pasid : Option Nat} {a n : Nat} {wr : Bool} (h : s.checkFor f pasid a n wr = .pass) :
    s.checkAll f pasid [(a, n)] wr = .pass := by
  have hnone : (([(a, n)] : List (Nat × Nat)).filter fun x => decide (x.2 ≠ 0)).find?
      (fun x => decide (s.checkFor f pasid x.1 x.2 wr ≠ .pass)) = none := by
    rw [List.find?_eq_none]
    intro x hx
    rw [List.mem_singleton.1 (List.mem_of_mem_filter hx), h]
    decide
  rw [State.checkAll, hnone]

/-- An access whose checks are passed at an open link that is not held back is made. -/
theorem run_gateRx {s : State} {id f : Nat} {pasid : Option Nat} {wr : Bool} {l : List (Nat × Nat)} (hlink : s.linkOpen (s.linkOf f) = true)
    (hheld : s.dmaHeld f = false) (hwait : s.waitRes (.frame id) = none) (hcheck : s.checkAll f pasid l wr = .pass) (pass failed : Prog)
    (refused : Bool → Prog) : (gateRx id f pasid [(wr, l)] pass failed refused).run s = (doAll [endWait (.frame id), pass]).run s := by
  have hnone : ([(wr, l)].map fun x => s.checkAll f pasid x.2 x.1).find? (· ≠ .pass) = none := by
    rw [List.map_singleton, hcheck]
    decide
  rw [gateRx, run_look, hlink, Bool.not_true, if_neg Bool.false_ne_true, hheld, if_neg Bool.false_ne_true, hwait]
  dsimp only
  rw [hnone]

/-- The use of a region by a frame is noted. -/
def noteUse (id rkey fn : Nat) (pasid : Option Nat) : Prog :=
  ctl fun c => { c with rdma.uses := nset none c.rdma.uses id (some ⟨rkey, fn, pasCode pasid, none⟩) }

theorem run_withGrant {s : State} {id q rkey va len right acc : Nat} {g : Nat × Option Nat} (huse : tget none s.ctl.rdma.uses id = none)
    (hgrant : s.mrGrant q rkey va len right acc = some g) (refused : Prog) (k : Nat → Option Nat → Prog) :
    (withGrant id q rkey va len right acc refused k).run s = (k g.1 g.2).run ((noteUse id rkey g.1 g.2).run s) := by
  rw [withGrant, run_look, huse, Option.filter_none]
  dsimp only
  rw [hgrant]
  rfl

/-- A host write for a frame goes at once: its link is open, its function is not held back, no translation is waited for, its checks are passed. -/
def State.writeGoes (s : State) (id fn : Nat) (pasid : Option Nat) (va len : Nat) : Prop :=
  s.linkOpen (s.linkOf fn) = true ∧ s.dmaHeld fn = false ∧ s.waitRes (.frame id) = none ∧ s.checkFor fn pasid va len true = .pass

theorem run_gateRx_of_writeGoes {s : State} {id f va len : Nat} {pasid : Option Nat} (h : s.writeGoes id f pasid va len) (pass failed : Prog)
    (refused : Bool → Prog) : (gateRx id f pasid [(true, [(va, len)])] pass failed refused).run s = (doAll [endWait (.frame id), pass]).run s := by
  obtain ⟨hlink, hheld, hwait, hcheck⟩ := h
  exact run_gateRx hlink hheld hwait (checkAll_one hcheck) ..

section NoteUse

variable (s : State) (id rkey fn : Nat) (pasid : Option Nat)

theorem qpMtu_noteUse (q : Nat) : ((noteUse id rkey fn pasid).run s).qpMtu q = s.qpMtu q := rfl

theorem writeGoes_noteUse {s : State} {va len : Nat} (h : s.writeGoes id fn pasid va len) :
    ((noteUse id rkey fn pasid).run s).writeGoes id fn pasid va len := by
  obtain ⟨hlink, hheld, hwait, hcheck⟩ := h
  exact ⟨hlink, hheld, hwait, hcheck⟩

end NoteUse

/-- The only packet of a WRITE whose region grants it and whose access passes: the data go to the host, the packet is executed and acknowledged. -/
theorem run_writePacket {s : State} {f : Frame} {p : RPkt} {m : Inbound} {len : Nat} (hop : p.op = 0x0A) (hdata : (p.body.drop 16).length = len)
    (hmtu : len ≤ s.qpMtu p.qpn) (hleft : m.left = len) (hgoes : s.writeGoes f.id m.fn (pasOf m.pasid) m.va len) :
    (writePacket f p m len 16).run s = (doAll [endWait (.frame f.id), putHost m.fn (pasOf m.pasid) [(m.va, p.body.drop 16)],
      modQp p.qpn fun y => { y with inb := none }, executed f.id p.qpn 1 true, Prog.when p.ackReq (sendAck p.qpn p.psn synAck)]).run s := by
  have hfits : pktFits (s.qpMtu p.qpn) p.op (p.body.drop 16).length (some m.left) = true := by
    rw [pktFits, hop, hdata, hleft, show opEnds 0x0A = true by decide, show opStarts 0x0A = true by decide, if_pos rfl, decide_eq_true hmtu]
    rw [if_pos rfl, decide_eq_true rfl]
    rfl
  rw [writePacket, run_look]
  dsimp only
  rw [hfits, Bool.not_true, if_neg Bool.false_ne_true, run_gateRx_of_writeGoes hgoes, hop,
    show opEnds 0x0A = true by decide, show opImm 0x0A = false by decide, Bool.not_true, if_neg Bool.false_ne_true, if_neg Bool.false_ne_true]
  simp only [run_all_cons, run_all_nil]

theorem run_runWrite {s : State} {f : Frame} {p : RPkt} {g : Nat × Option Nat} (hop : p.op = 0x0A) (hinb : (s.qp p.qpn).inb = none)
    (hmax : beAt p.body 12 4 ≤ 2 ^ 31) (hbad : s.mrBad (beAt p.body 8 4) = false) (huse : tget none s.ctl.rdma.uses f.id = none)
    (hgrant : s.mrGrant p.qpn (beAt p.body 8 4) (beAt p.body 0 8) (beAt p.body 12 4) 2 1 = some g)
    (hdata : (p.body.drop 16).length = beAt p.body 12 4) (hmtu : beAt p.body 12 4 ≤ s.qpMtu p.qpn)
    (hgoes : s.writeGoes f.id g.1 g.2 (beAt p.body 0 8) (beAt p.body 12 4)) :
    (runWrite f p).run s = (doAll [noteUse f.id (beAt p.body 8 4) g.1 g.2, endWait (.frame f.id),
      putHost g.1 g.2 [(beAt p.body 0 8, p.body.drop 16)], modQp p.qpn fun y => { y with inb := none },
      executed f.id p.qpn 1 true, Prog.when p.ackReq (sendAck p.qpn p.psn synAck)]).run s := by
  rw [runWrite, run_look]
  dsimp only
  rw [hinb, hop, show opStarts 0x0A = true by decide, show opImm 0x0A = false by decide, hbad, Bool.and_false, if_neg Bool.false_ne_true,
    if_neg (by simp; omega)]
  dsimp only
  have hmtu' := (qpMtu_noteUse s f.id (beAt p.body 8 4) g.1 g.2 p.qpn).symm ▸ hmtu
  have hgoes' := writeGoes_noteUse f.id (beAt p.body 8 4) g.1 g.2 hgoes
  rw [run_withGrant huse hgrant, run_look, if_pos rfl, if_neg Bool.false_ne_true, run_all_cons]
  generalize (noteUse f.id (beAt p.body 8 4) g.1 g.2).run s = u at hmtu' hgoes' ⊢
  rw [run_writePacket hop hdata hmtu' rfl (by rw [pasOf_pasCode]; exact hgoes'), pasOf_pasCode]

theorem says_packetsAreReceived : Says.PacketsAreReceived := by
  unfold Says.PacketsAreReceived
  intro s id f hr hold
  refine ⟨exec_rdmaPacketRx_foreign hr hold, exec_rdmaPacketRx_badIcrc hr hold, exec_rdmaPacketRx_cnp hr hold, exec_rdmaPacketRx_control hr hold,
    fun hgood hreq hop hflush herr => ?_⟩
  have hexec := exec_rdmaPacketRx_request hr hold hgood hreq hop hflush herr
  have hid := id_of_oldestRx hold
  refine ⟨fun hd => ?_, fun hd hkind => ?_, fun hd => ?_⟩
  · rw [hexec, if_pos hd]
  · rw [hexec, if_neg (by omega), if_pos hd, run_runDuplicate hkind, hid]
  · rw [if_neg (by omega), if_neg (by omega), runRequest] at hexec
    have hsend : isWriteOp f.rocePkt.op = true → isSendOp f.rocePkt.op = false := by
      simp only [isWriteOp, isSendOp, Bool.and_eq_true, decide_eq_true_eq, decide_eq_false_iff_not]
      omega
    have hwrite : isWriteOp f.rocePkt.op = true → exec (.rdmaPacketRx id) s = .next ((runWrite f f.rocePkt).run s) := fun h => by
      rw [hexec, hsend h, if_neg Bool.false_ne_true, if_pos h]
    refine ⟨fun h => ?_, hwrite, fun hinb h => ?_, fun hinb h => ?_, fun hinb h => ?_,
      fun g hop hinb hmax hbad huse hgrant hdata hmtu hpos hlink hheld hcheck hwait => ?_⟩
    · rw [hexec, if_pos h]
    · rw [hexec, h, hinb]
      rfl
    · rw [hexec, hinb]
      obtain h | h := h
      all_goals
        rw [h]
        rfl
    · rw [hexec, h, hinb]
      rfl
    · subst hid
      rw [hwrite (by rw [hop]; decide), run_runWrite hop hinb hmax hbad huse hgrant hdata hmtu
        ⟨hlink, hheld, hwait, hcheck⟩]
      rfl

/-! ## Acknowledgements at the requester (R350, R356, R357) -/

theorem sameQps_acceptRx (id q : Nat) : (acceptRx id q).within SameQps :=
  composes_sameQps.cons (composes_sameQps.cons (sameQps_upd fun _ => rfl) (composes_sameQps.cons (sameQps_upd fun _ => rfl)
      (composes_sameQps.cons (sameQps_upd fun _ => rfl) (composes_sameQps.cons (sameQps_upd fun _ => rfl) composes_sameQps.nil))))
    (composes_sameQps.cons (sameQps_inc _) (composes_sameQps.cons (sameQps_peep _ _ _) composes_sameQps.nil))

theorem wt_acceptRx (id q d : Nat) (s : State) : ((acceptRx id q).run s).wt d = s.wt d := by
  have htime : ((acceptRx id q).run s).ctl.time = s.ctl.time := time_peep 8 1 q _
  rw [State.wt, State.dom, htime, State.wt, State.dom]

/-- Commands in a list within a list within a list run in their order. -/
theorem run_inner_all (a b c d e g h : Prog) (s : State) :
    (doAll [a, doAll [b, c, d, doAll [e, g, h]]]).run s = (doAll [a, b, c, d, e, g, h]).run s := rfl

theorem qpDom_of_sameQps {s u : State} (h : SameQps s u) (q : Nat) : u.qpDom q = s.qpDom q := h.cfd_eq _ _ _

section Requester

variable {s : State} {id : Nat} {f : Frame} (hr : s.runsBelow 4) (hold : s.oldestRx id f) (hgood : s.rxGood f.rocePkt = true)
  (hst : (s.qp f.rocePkt.qpn).st = 3)
include hr hold hgood hst

theorem exec_withAck (hop : f.rocePkt.op = opAck) {kind : Nat} (hkind : beAt f.rocePkt.body 0 1 / 32 = kind) (k : Frame → RPkt → Nat → Prog) :
    live 4 (withAck id kind k) s =
      .next ((doAll [acceptRx id f.rocePkt.qpn, k f f.rocePkt (beAt f.rocePkt.body 0 1)]).run s) := by
  rw [live_next _ hr, withAck, run_withRx hold, run_look]
  dsimp only
  rw [hgood, decide_eq_true hst, decide_eq_true hop, decide_eq_true hkind, Bool.and_self, Bool.and_self, Bool.and_self, when_true]

theorem exec_nakRx_seq (hop : f.rocePkt.op = opAck) (hsyn : beAt f.rocePkt.body 0 1 = synSeq) :
    exec (.nakRx id) s = .next ((doAll [acceptRx id f.rocePkt.qpn, doAll [
      ackPsn f.rocePkt.qpn (psnAdd f.rocePkt.psn (2 ^ 24 - 1)) f false, inc RDMA.SEQ_NAK_RX_CNT,
      get fun t => useRetry f.rocePkt.qpn (t.wrAt f.rocePkt.qpn f.rocePkt.psn) (resendFrom f.rocePkt.qpn f.rocePkt.psn)]]).run s) := by
  refine (exec_withAck hr hold hgood hst hop (by rw [hsyn]; decide) _).trans (congrArg _ ?_)
  rw [hsyn, if_pos rfl]
  simp only [run_all_cons, run_all_nil]

theorem exec_nakRx_last (hop : f.rocePkt.op = opAck) (hkind : beAt f.rocePkt.body 0 1 / 32 = 3) (hsyn : beAt f.rocePkt.body 0 1 ≠ synSeq) :
    exec (.nakRx id) s = .next ((doAll [acceptRx id f.rocePkt.qpn, doAll [
      ackPsn f.rocePkt.qpn (psnAdd f.rocePkt.psn (2 ^ 24 - 1)) f false,
      get fun t => enterError f.rocePkt.qpn (if beAt f.rocePkt.body 0 1 = synAccess then ST.REMOTE_ACCESS else ST.REMOTE_OP)
        (t.wrAt f.rocePkt.qpn f.rocePkt.psn)]]).run s) := by
  refine (exec_withAck hr hold hgood hst hop hkind _).trans (congrArg _ ?_)
  rw [if_neg hsyn]

theorem exec_rnrNakRx_waits (hop : f.rocePkt.op = opAck) (hkind : beAt f.rocePkt.body 0 1 / 32 = 1)
    (hlim : s.cfd (RDMA.QP_TIMERS.of f.rocePkt.qpn) 10 8 = 7 ∨
      (s.qp f.rocePkt.qpn).rnrs < s.cfd (RDMA.QP_TIMERS.of f.rocePkt.qpn) 10 8) :
    exec (.rnrNakRx id) s = .next ((doAll [acceptRx id f.rocePkt.qpn, doAll [inc RDMA.RNR_NAK_RX_CNT,
      ackPsn f.rocePkt.qpn (psnAdd f.rocePkt.psn (2 ^ 24 - 1)) f false,
      modQp f.rocePkt.qpn fun y => { y with
        rnrs := y.rnrs + 1
        next := (y.out.takeWhile fun r => decide (psnDiff f.rocePkt.psn (psnAdd r.psn (r.n - 1)) > 0)).length
        again := y.again.filter fun a => decide (a.1 = 3) },
      cancelFor (fun c => decide (c ∈ [Consumer.retx f.rocePkt.qpn, .rnr f.rocePkt.qpn])),
      qpEvent f.rocePkt.qpn 2 ((s.wt (s.qpDom f.rocePkt.qpn) + 5000 * rnrTime (beAt f.rocePkt.body 0 1)) % 2 ^ 48)]]).run s) := by
  have hsame := sameQps_acceptRx id f.rocePkt.qpn s
  refine (exec_withAck hr hold hgood hst hop hkind _).trans (congrArg _ ?_)
  rw [run_all_cons, run_all_cons, run_all_nil, run_all_cons (acceptRx id f.rocePkt.qpn), run_all_cons, run_all_nil, run_look]
  dsimp only
  rw [hsame.cfd_eq, hsame.qp_eq, qpDom_of_sameQps hsame, wt_acceptRx, if_neg (by omega)]
  simp only [run_all_cons, run_all_nil]

theorem exec_rnrNakRx_exceeded (hop : f.rocePkt.op = opAck) (hkind : beAt f.rocePkt.body 0 1 / 32 = 1)
    (hne : s.cfd (RDMA.QP_TIMERS.of f.rocePkt.qpn) 10 8 ≠ 7)
    (hle : s.cfd (RDMA.QP_TIMERS.of f.rocePkt.qpn) 10 8 ≤ (s.qp f.rocePkt.qpn).rnrs) :
    exec (.rnrNakRx id) s = .next ((doAll [acceptRx id f.rocePkt.qpn, doAll [inc RDMA.RNR_NAK_RX_CNT,
      ackPsn f.rocePkt.qpn (psnAdd f.rocePkt.psn (2 ^ 24 - 1)) f false,
      get fun t => enterError f.rocePkt.qpn ST.RNR_EXCEEDED (t.wrAt f.rocePkt.qpn f.rocePkt.psn)]]).run s) := by
  have hsame := sameQps_acceptRx id f.rocePkt.qpn s
  refine (exec_withAck hr hold hgood hst hop hkind _).trans (congrArg _ ?_)
  rw [run_all_cons, run_all_cons, run_all_nil, run_all_cons (acceptRx id f.rocePkt.qpn), run_all_cons, run_all_nil, run_look]
  dsimp only
  rw [hsame.cfd_eq, hsame.qp_eq, if_pos ⟨hne, hle⟩]

/-- The only response of the oldest READ, which passes at the host port, goes there and ends its work request. -/
theorem exec_readAtomicResponseRx {r : TxPkt} {x : Work} (hop : f.rocePkt.op = opRespOnly)
    (hfind : (s.qp f.rocePkt.qpn).out.find? (·.needsResp) = some r) (hx : s.work? r.wr = some x) (hsent : r.sent = true) (hgot : r.got = 0)
    (hn : r.n = 1) (hpsn : f.rocePkt.psn = psnAdd r.psn 0) (hread : r.op = opReadReq)
    (hlink : s.linkOpen (s.linkOf x.fn) = true) (hheld : s.dmaHeld x.fn = false)
    (hcheck : s.checkAll x.fn none (piecesFrom x.pieces 0 ((f.rocePkt.body.drop 4).take x.length).length) true = .pass)
    (hwait : s.waitRes (.frame f.id) = none) :
    exec (.readAtomicResponseRx id) s = .next ((doAll [endWait (.frame f.id), acceptRx id f.rocePkt.qpn,
      ackPsn f.rocePkt.qpn (psnAdd r.psn (2 ^ 24 - 1)) f true,
      putHost x.fn none (scatter (piecesFrom x.pieces 0 ((f.rocePkt.body.drop 4).take x.length).length) ((f.rocePkt.body.drop 4).take x.length)),
      freePackets f.rocePkt.qpn 1 true,
      get fun t =>
        let st := ((t.work? r.wr).map (·.status)).getD ST.OK
        wrEnds f.rocePkt.qpn r.wr st (if st = ST.OK then x.length else 0) (if st = ST.OK then some f.ts.wt else none),
      pumpAll f.rocePkt.qpn]).run s) := by
  refine (live_next _ hr).trans (congrArg _ ?_)
  rw [run_withRx hold, run_look]
  dsimp only
  rw [hgood, hst, hop, if_neg (by decide), hfind]
  dsimp only
  rw [hx]
  dsimp only
  rw [hsent, hgot, hn, hread, Nat.zero_mul, Nat.sub_zero, if_neg (by simp [hpsn, opRespOnly, opAtomicAck]), if_neg (by decide)]
  rw [if_neg (show opRespOnly ≠ opRespMiddle by decide), run_gateRx hlink hheld hwait hcheck,
    show decide (0 + 1 = 1) = true by decide, if_pos rfl]
  exact run_inner_all ..

end Requester

/-! ## Receive buffers, FLUSHes and the tables (R341, R349, R352, R360) -/

theorem exec_recv {s : State} {w : Nat} {x : Work} (hr : s.runsBelow 4) (hw : s.work? w = some x) (htyp : x.typ = 0x51)
    (hstage : x.stage ∉ [1, 3]) : exec (.recv w) s = .next ((modWork w fun y => { y with aux := 1 }).run s) := by
  simp only [List.mem_cons, List.not_mem_nil, or_false, not_or] at hstage
  refine (live_next _ hr).trans (congrArg _ ?_)
  rw [run_withWork_of hw, decide_eq_true htyp, decide_eq_true hstage.1, decide_eq_true hstage.2, Bool.and_self, Bool.and_self, when_true]

theorem exec_responderFlushAck {s : State} {q : Fin 262144} {psn id st : Nat} {b : List Byte} (hr : s.runsBelow 4)
    (hflush : (s.qp q.val).flush = some (psn, id)) (hres : s.readResult id 4 = some (st, b)) :
    exec (.responderFlushAck q) s = .next ((doAll [dropRx id, modQp q.val fun y => { y with flush := none },
      if st = ST.OK then sendAck q.val psn synAck
      else if st = ST.ACCESS_DENIED then sendLastNak q.val psn synAccess ST.REMOTE_ACCESS
      else sendLastNak q.val psn synOp ST.REMOTE_OP]).run s) := by
  refine (live_next _ hr).trans (congrArg _ ?_)
  rw [run_look, hflush]
  dsimp only
  rw [hres]

/-- What a write of MR_W7 makes of the selected entry of the region table. -/
def State.newMrEntry (s : State) : List Byte := ((List.range 7).flatMap fun k => leBytes 4 (s.rd (RDMA.MR_W k))) ++ leBytes 4 0

theorem length_newMrEntry (s : State) : s.newMrEntry.length = 32 := by
  simp [State.newMrEntry, List.length_flatMap, leBytes]

/-- A write of MR_W7 for an entry in the table. -/
def mrStore (s : State) (v i : Nat) : Prog := doAll [wr (RDMA.MR_W 7) v,
  doAll [staleUses i, poke 2 0 (s.mrAddr i) s.newMrEntry, cleanse 2 0 (s.mrAddr i) 32]]

section Table

variable (s : State) (v i : Nat)

theorem reg_mrStore : ((mrStore s v i).run s).reg = ((wr (RDMA.MR_W 7) v).run s).reg := by
  have hcleanse : ∀ x : State, ((cleanse 2 0 (s.mrAddr i) 32).run x).reg = x.reg := fun _ => rfl
  have hstale : ∀ x : State, ((staleUses i).run x).reg = x.reg := fun _ => rfl
  rw [mrStore, run_all_cons, run_all_cons, run_all_nil, run_all_cons, run_all_cons, run_all_cons, run_all_nil, hcleanse, reg_poke, hstale]

theorem copy_mrStore (b : Bank) (r : Reg) : ((mrStore s v i).run s).copy b r = ((wr (RDMA.MR_W 7) v).run s).copy b r := by
  rw [State.copy, reg_mrStore, State.copy]

theorem mem_mrStore : ∃ u, u.mem = s.mem ∧ ((mrStore s v i).run s).mem = ((poke 2 0 (s.mrAddr i) s.newMrEntry).run u).mem := by
  have hcleanse : ∀ x : State, ((cleanse 2 0 (s.mrAddr i) 32).run x).mem = x.mem := fun _ => rfl
  refine ⟨(staleUses i).run ((wr (RDMA.MR_W 7) v).run s), rfl, ?_⟩
  rw [mrStore, run_all_cons, run_all_cons, run_all_nil, run_all_cons, run_all_cons, run_all_cons, run_all_nil, hcleanse]

theorem mrEntry_mrStore : ((mrStore s v i).run s).mrEntry i = s.newMrEntry := by
  have hcopy : ∀ r : Reg, r ≠ RDMA.MR_W 7 → ((mrStore s v i).run s).rd r = s.rd r := fun r hr =>
    (copy_mrStore s v i .live r).trans (rd_wr_other s v hr)
  have haddr : ((mrStore s v i).run s).mrAddr i = s.mrAddr i := by
    rw [State.mrAddr, State.rdW, hcopy _ (by decide), hcopy _ (by decide), State.mrAddr, State.rdW]
  obtain ⟨u, -, hmem⟩ := mem_mrStore s v i
  have hbytes : ((mrStore s v i).run s).bytes 2 0 (s.mrAddr i) 32 = ((poke 2 0 (s.mrAddr i) s.newMrEntry).run u).bytes 2 0 (s.mrAddr i) 32 :=
    bytes_congr fun k _ _ => by rw [hmem]
  have hpoke := bytes_poke 2 0 (s.mrAddr i) s.newMrEntry u
  rw [length_newMrEntry] at hpoke
  rw [State.mrEntry, haddr, hbytes, hpoke]

theorem byte_mrStore (hi : i < 2 ^ 20) (hbase : s.rdW RDMA.MR_BASE < 2 ^ 47) {sp j x : Nat} (hx : x < 2 ^ 48) (hj : j < 64)
    (hout : ¬ (sp = 2 ∧ j = 0 ∧ s.mrAddr i ≤ x ∧ x < s.mrAddr i + 32)) : ((mrStore s v i).run s).byte sp j x = s.byte sp j x := by
  obtain ⟨u, hu, hmem⟩ := mem_mrStore s v i
  have haddr : s.mrAddr i + 32 < 2 ^ 48 := by
    rw [State.mrAddr]
    omega
  rw [State.byte, hmem, mem_poke_other _ _ _ _ _ (fun hin => hout ?_), hu, State.byte]
  rw [length_newMrEntry] at hin
  simp only [memKey] at hin
  omega

end Table

theorem exec_mrW7Write {s : State} {a : Accessor} (hs : s.serves a Pg.rdma) (v : Word) (hi : s.sel a Pg.rdma 0x10C % 2 ^ 20 < s.mrCount) :
    exec (.mrW7Write a v) s = .next ((mrStore s v.toNat (s.sel a Pg.rdma 0x10C % 2 ^ 20)).run s) := by
  refine (byWriter_next _ _ hs).trans (congrArg _ ?_)
  rw [run_look]
  dsimp only
  rw [decide_eq_true hi, when_true]
  rfl

theorem getLsbD_eq_tbit (v : Word) (i : Nat) : v.getLsbD i = tbit v.toNat i := by
  rw [tbit_eq]
  rfl

/-- What a write of LIP_CTL commits of the address selected. -/
def State.newLip (s : State) (v : Nat) : Option Lip :=
  if tbit v 0 then some ⟨tbit v 1, (List.range (if tbit v 1 then 4 else 1)).flatMap fun j => beBytes 4 (s.rd (RDMA.LIP_W j))⟩ else none

theorem exec_lipCtlWrite {s : State} {a : Accessor} (hs : s.serves a Pg.rdma) (v : Word) :
    exec (.lipCtlWrite a v) s = .next ((doAll [wr RDMA.LIP_CTL v.toNat,
      ctl fun c => { c with rdma.lips := nset none c.rdma.lips (s.sel a Pg.rdma 0x160 % 16) (s.newLip v.toNat) }]).run s) := by
  refine (byWriter_next _ _ hs).trans (congrArg _ ?_)
  rw [run_look, State.newLip, ← getLsbD_eq_tbit, ← getLsbD_eq_tbit]

theorem says_requesterAndTables : Says.RequesterAndTables := by
  unfold Says.RequesterAndTables
  refine ⟨fun s id f hr hold hgood hst => ⟨fun hop hkind => exec_withAck hr hold hgood hst hop hkind _, exec_nakRx_seq hr hold hgood hst,
      exec_nakRx_last hr hold hgood hst, exec_rnrNakRx_waits hr hold hgood hst, exec_rnrNakRx_exceeded hr hold hgood hst,
      fun r x => exec_readAtomicResponseRx hr hold hgood hst⟩, fun s w x => exec_recv,
    fun s q psn id st b => exec_responderFlushAck, fun s a v hs => ⟨fun hi => ⟨_, exec_mrW7Write hs v hi, ?_, mrEntry_mrStore _ _ _,
      fun b r hne => (copy_mrStore _ _ _ b r).trans (copy_wr_other s _ hne),
      fun hbase sp j x hx hj hout => byte_mrStore _ _ _ (Nat.mod_lt _ (by norm_num)) hbase hx hj hout⟩, ?_⟩⟩
  · exact (copy_mrStore ..).trans ((rd_wr_mod s (RDMA.MR_W 7) v.toNat (w := 0) (by norm_num) (by decide +kernel)).trans (Nat.mod_one _))
  · refine ⟨_, exec_lipCtlWrite hs v, ?_, ?_, ?_, ?_⟩
    · exact rd_wr_mod s RDMA.LIP_CTL v.toNat (w := 2) (by norm_num) (by decide +kernel)
    · exact tget_nset_same ..
    · exact fun k hk => tget_nset_other _ _ _ hk
    · rfl

/-- Settles O48: packets at the responder, and at the requester and the transport's tables. -/
theorem packetsAndResponsesAreReceived : Obligations.PacketsAndResponsesAreReceived := ⟨says_packetsAreReceived, says_requesterAndTables⟩

end Sys2Proof.Machine
end

section
/-! PROOF. Block commands (R371, R373, R376, R377, R380 to R382). -/

namespace Sys2Proof.Machine

/-! ## A new command is refused, held or started (R373, R376) -/

section Arrives

variable {s : State} {id : Nat} {w : Work} {start : Prog} (hw : s.work? id = some w) (hstart : (startBlock id w).run s = start.run s)
include hw hstart

theorem run_blockPassed : (blockPassed id w).run s = (blockGoes s id w start).run s := by
  rw [blockPassed, blockGoes]
  split_ifs with hlisted hheld
  · rfl
  · rw [blockReady, run_withWork_of hw, run_look, if_pos hheld]
  · rw [blockReady, run_withWork_of hw, run_look, if_neg hheld, hstart]

theorem run_blockArrives : (blockArrives id w).run s = (blockAnswer s id w start).run s := by
  rw [blockArrives, run_look, blockAnswer]
  dsimp only
  by_cases hdef : s.blockCheck w = ST.DEFERRED_ERROR
  · rw [hdef, if_pos (show ST.DEFERRED_ERROR ≠ ST.OK by decide), refuseBlock, if_pos rfl, if_pos rfl]
  · rw [if_neg hdef]
    split_ifs with hok
    · rw [refuseBlock, if_neg hdef]
    · exact run_blockPassed hw hstart

end Arrives

theorem run_newBlock {s : State} {id t : Nat} {w : Work} (h : s.newCmd id t w) (k : Work → Prog) :
    (newBlock id t k).run s = (k w).run s := by
  obtain ⟨hw, htyp, hring, haux, hstage⟩ := h
  rw [newBlock, run_look, run_withWork_of hw, decide_eq_true htyp, decide_eq_true hring, decide_eq_true haux, decide_eq_true hstage,
    Bool.and_self, Bool.and_self, Bool.and_self, when_true]

/-! What each kind of command does when it starts. -/

section Start

variable {s : State} {id : Nat} {w : Work}

theorem run_startBlock_read (h : w.typ = btRead) : (startBlock id w).run s = (startReadCmd id w).run s := by
  rw [startBlock, run_look, if_pos h]

theorem run_startBlock_task (h : w.typ = btTask) : (startBlock id w).run s = (startTask id w).run s := by
  rw [startBlock, run_look, h, if_neg (by decide), if_pos rfl]

theorem run_startBlock_flush (h : w.typ = btFlush) : (startBlock id w).run s = (flushStarts s id w).run s := by
  rw [startBlock, run_look, h, if_neg (by decide), if_neg (by decide), if_pos rfl]
  rfl

theorem run_startBlock_staging (h : w.typ ∈ [btWrite, btZero]) : (startBlock id w).run s = (stagingStarts s id w).run s := by
  have hne : w.typ ≠ btRead ∧ w.typ ≠ btTask ∧ w.typ ≠ btFlush := by
    simp only [List.mem_cons, List.not_mem_nil, or_false, btWrite, btZero] at h
    simp only [btRead, btTask, btFlush]
    omega
  obtain ⟨hread, htask, hflush⟩ := hne
  rw [startBlock, run_look, if_neg hread, if_neg htask, if_neg hflush]
  rfl

end Start

/-! ## A READ that meets an uncorrectable word (R21, R377) -/

/-- `u` has the block services of `s`, its staged, pending and committed registers, and poison at least where `s` has it. -/
structure Spoils (s u : State) : Prop where
  blk : u.ctl.blk = s.ctl.blk
  copy : ∀ b r, b ≠ .live → u.copy b r = s.copy b r
  poisoned : ∀ sp i a n, s.poisoned sp i a n = true → u.poisoned sp i a n = true

theorem composes_spoils : Composes Spoils :=
  ⟨fun _ => ⟨rfl, fun _ _ _ => rfl, fun _ _ _ _ => id⟩, fun h g => ⟨g.blk.trans h.blk, fun b r hb => (g.copy b r hb).trans (h.copy b r hb),
    fun sp i a n hs => g.poisoned sp i a n (h.poisoned sp i a n hs)⟩⟩

theorem Spoils.of_side {P : Nat → Prop} {s u : State} (h : Side P s u) : Spoils s u := by
  obtain ⟨_, _, _, _, _, _, _, _, hctl⟩ := h.ctl
  exact ⟨by rw [hctl], fun b r hb => h.copy b r fun hside => hb hside.1, fun sp i a n hs => by rw [State.poisoned, h.poison]; exact hs⟩

theorem spoils_wr (r : Reg) (v : Nat) : (wr r v).within Spoils := fun s =>
  ⟨rfl, fun _ _ hb => copy_wr_other s v fun h => hb (congrArg Prod.fst h), fun _ _ _ _ => id⟩

theorem spoils_memUE (m addr : Nat) (byScrub : Bool) : (memUE m addr byScrub).within Spoils := within_look fun _ =>
  composes_spoils.cons (within_look fun _ => spoils_wr _ _)
    (composes_spoils.cons (fun _ => ⟨rfl, fun _ _ _ => rfl, fun _ _ _ _ => id⟩)
      (composes_spoils.cons (composes_spoils.when (composes_spoils.cons (spoils_wr _ _) (composes_spoils.cons
          (composes_spoils.cons (spoils_wr _ _) (composes_spoils.cons (spoils_wr _ _) composes_spoils.nil)) composes_spoils.nil)))
        (composes_spoils.cons (fun s => .of_side (side_int _ _ _ s)) composes_spoils.nil)))

theorem spoils_poison (sp i a n : Nat) : (poison sp i a n).within Spoils := fun s =>
  ⟨rfl, fun _ _ _ => rfl, fun sp' i' a' n' hs => by
    have happend : ((poison sp i a n).run s).ctl.health.poison = s.ctl.health.poison ++ [(memKey sp i a, n)] := rfl
    rw [State.poisoned, happend, List.any_append, Bool.or_eq_true]
    exact .inl hs⟩

theorem spoils_spoil (sp i a n : Nat) : (spoil sp i a n).within Spoils := within_look fun s => by
  refine composes_spoils.cons (composes_spoils.when (spoils_poison sp i a n)) (composes_spoils.cons ?_ composes_spoils.nil)
  cases s.ownerOf (memKey sp i a) with
  | none => exact composes_spoils.skip
  | some e => exact composes_spoils.when fun s => .of_side (side_err _ _ _ _ _ s)

theorem spoils_ueSeen (m addr : Nat) (byScrub : Bool) : (ueSeen m addr byScrub).within Spoils := by
  refine composes_spoils.cons (spoils_memUE m addr byScrub) (composes_spoils.cons ?_ composes_spoils.nil)
  cases spoiled m addr with
  | none => exact composes_spoils.skip
  | some e => exact spoils_spoil _ _ _ _

/-- What the checks of R373 after the poisoned context ask of a READ. -/
def State.readCheck (s : State) (w : Work) : Nat :=
  if !s.volEn w.vol then ST.BAD_FIELD
  else if !decide (w.fn = s.cfd (BLKF.VOL_OWNER.of w.vol) 10 0) then ST.ACCESS_DENIED
  else if decide (2 ≤ s.volMode w.vol) || !s.ctl.blk.rebuilt || (s.volPair w.vol && !s.ownsVol w.vol) then ST.VOLUME_OFFLINE
  else if (s.vol w.vol).pend then ST.DEFERRED_ERROR
  else if decide (w.length < s.volBs w.vol) || decide (4194304 < w.length) || decide (w.length % s.volBs w.vol ≠ 0) then ST.BAD_LENGTH
  else if decide (s.volExts w.vol * 65536 < w.lba * s.volBs w.vol + w.length) then ST.LBA_RANGE
  else ST.OK

theorem blockCheck_read {s : State} {w : Work} (h : w.typ = btRead) :
    s.blockCheck w = if s.volBad w.vol then ST.UNCORRECTABLE else s.readCheck w := by
  simp [State.blockCheck, State.readCheck, State.blockLen, h, btRead, btTask, btWrite, btFlush, btZero]

theorem Spoils.readCheck_eq {s u : State} (h : Spoils s u) (w : Work) : u.readCheck w = s.readCheck w := by
  have hcfg : ∀ r : Reg, u.cfg r = s.cfg r := fun r => h.copy .committed r (by decide)
  have hcbit : ∀ (r : Reg) i, u.cbit r i = s.cbit r i := fun r i => congrArg (tbit · i) (hcfg r)
  have hcfd : ∀ (r : Reg) hi lo, u.cfd r hi lo = s.cfd r hi lo := fun r hi lo => congrArg (field · hi lo) (hcfg r)
  have hexts : u.volExts w.vol = s.volExts w.vol := by rw [State.volExts, State.cfgW, hcfg, hcfg, State.volExts, State.cfgW]
  have hbs : u.volBs w.vol = s.volBs w.vol := by rw [State.volBs, hcbit, State.volBs]
  rw [State.readCheck, State.volEn, State.volMode, State.volPair, State.ownsVol, State.vol, hbs, hexts, hcbit, hcbit, hcbit, hcfd, hcfd, h.blk]
  rfl

/-- A READ that an uncorrectable word did not spoil for R373 had passed it before. -/
theorem Spoils.blockCheck_read {s u : State} (h : Spoils s u) {w : Work} (htyp : w.typ = btRead) (hok : u.blockCheck w = ST.OK) :
    s.blockCheck w = ST.OK := by
  rw [Machine.blockCheck_read htyp] at hok ⊢
  cases hbad : u.volBad w.vol
  · rw [hbad, if_neg Bool.false_ne_true, h.readCheck_eq] at hok
    have hgood : s.volBad w.vol = false := by
      rw [Bool.eq_false_iff]
      exact fun hs => Bool.false_ne_true (hbad.symm.trans (h.poisoned _ _ _ _ hs))
    rw [hgood, if_neg Bool.false_ne_true, hok]
  · rw [hbad, if_pos rfl] at hok
    exact absurd hok (by decide)

/-! ## The commands -/

section Commands

variable {s : State} {id : Nat} {w : Work} (hr : s.runsBelow 4)
include hr

theorem exec_blockRead (h : s.newCmd id btRead w) :
    exec (.blockRead id .none) s = .next ((blockAnswer s id w (startReadCmd id w)).run s) :=
  (live_next _ hr).trans (congrArg _ ((run_newBlock h _).trans (run_blockArrives h.1 (run_startBlock_read h.2.1))))

theorem exec_blockRead_ue (h : s.newCmd id btRead w) {m : Fin 12} {ad : Nat} (hok : ((ueSeen m.val ad false).run s).blockCheck w = ST.OK) :
    exec (.blockRead id (.ue m ad)) s = .next ((doAll [ueSeen m.val ad false,
      Prog.when (decide (4 ≤ m.val)) (doAll [inc MAP.MAP_UE_CNT, int Pg.map 0 1]),
      inc BLKF.READ_CNT, blockCpl id ST.UNCORRECTABLE 0 [] []]).run s) := by
  refine (live_next _ hr).trans (congrArg _ ((run_newBlock h _).trans ?_))
  dsimp only
  rw [run_look, (spoils_ueSeen m.val ad false s).blockCheck_read h.2.1 hok, if_neg (not_not_intro rfl)]
  simp only [run_all_cons, run_all_nil]

theorem exec_blockWrite (h : s.newCmd id btWrite w) :
    exec (.blockWrite id) s = .next ((blockAnswer s id w (stagingStarts s id w)).run s) :=
  (live_next _ hr).trans (congrArg _ ((run_newBlock h _).trans (run_blockArrives h.1 (run_startBlock_staging (by simp [h.2.1])))))

theorem exec_zero (h : s.newCmd id btZero w) : exec (.zero id) s = .next ((blockAnswer s id w (stagingStarts s id w)).run s) :=
  (live_next _ hr).trans (congrArg _ ((run_newBlock h _).trans (run_blockArrives h.1 (run_startBlock_staging (by simp [h.2.1])))))

theorem exec_blockFlush (h : s.newCmd id btFlush w) :
    exec (.blockFlush id) s = .next ((blockAnswer s id w (flushStarts s id w)).run s) :=
  (live_next _ hr).trans (congrArg _ ((run_newBlock h _).trans (run_blockArrives h.1 (run_startBlock_flush h.2.1))))

/-- A held command that nothing holds any longer starts. -/
theorem exec_blockCommandStart (hw : s.work? id = some w) (haux : w.aux = 1) (hring : s.ringConsumer w.ring = 3)
    (hheld : s.blockHeld id w = false) {start : Prog} (hstart : (startBlock id w).run s = start.run s) :
    exec (.blockCommandStart id) s = .next (start.run s) := by
  refine (live_next _ hr).trans (congrArg _ ?_)
  rw [run_look, run_withWork_of hw, decide_eq_true haux, decide_eq_true hring, hheld, Bool.and_self, Bool.not_false, Bool.and_self, when_true,
    hstart]

variable (hw : s.work? id = some w) (htyp : w.typ ∈ [btWrite, btZero]) (hring : s.ringConsumer w.ring = 3) (haux : w.aux = 2)
  (hreads : w.reads = 0)
include hw htyp hring haux hreads

theorem exec_stagingRecord_failed (hbad : w.status ≠ ST.OK) :
    exec (.stagingRecord id) s = .next ((blockCpl id w.status 0 [] []).run s) := by
  refine (live_next _ hr).trans (congrArg _ ?_)
  rw [run_look, run_withWork_of hw, decide_eq_true htyp, decide_eq_true hring, decide_eq_true haux, decide_eq_true hreads, Bool.and_self,
    Bool.and_self, Bool.and_self, when_true, if_pos hbad]

theorem exec_stagingRecord (hok : w.status = ST.OK) : exec (.stagingRecord id) s = .next ((doAll [
    modWork id fun x => { x with aux := 4 },
    record w.vol w.tag (some id) w.lba (s.blockLen w) (decide (w.typ = btZero)) w.placed (s.volPair w.vol && decide (s.pairState = prPaired))
      none w.buf fun q => doAll [
        mirrorRec q w (s.blockLen w),
        if w.placed then get fun t => wantPieces (t.ctl.blk.pieces.filter fun p => decide (p.seq = q))
        else Prog.when (!(s.volPair w.vol && decide (s.pairState = prPaired))) (ackRec q (s.volPair w.vol))],
    placeHigh]).run s) := by
  refine (live_next _ hr).trans (congrArg _ ?_)
  rw [run_look, run_withWork_of hw, decide_eq_true htyp, decide_eq_true hring, decide_eq_true haux, decide_eq_true hreads, Bool.and_self,
    Bool.and_self, Bool.and_self, when_true, if_neg (not_not_intro hok)]

end Commands

/-- Settles O49: each command answers as its checks and its ring let it. -/
theorem blockCommandsStart : Obligations.BlockCommandsStart := by
  unfold Obligations.BlockCommandsStart Says.BlockCommandsStart
  intro s id w hr
  refine ⟨exec_blockRead hr, exec_blockWrite hr, exec_zero hr, exec_blockFlush hr, fun h m ad => exec_blockRead_ue hr h,
    fun hw haux hring hheld => ?_, fun hw htyp hring haux hreads => ⟨exec_stagingRecord_failed hr hw htyp hring haux hreads,
      exec_stagingRecord hr hw htyp hring haux hreads⟩⟩
  exact ⟨fun h => exec_blockCommandStart hr hw haux hring hheld (run_startBlock_read h),
    fun h => exec_blockCommandStart hr hw haux hring hheld (run_startBlock_flush h),
    fun h => exec_blockCommandStart hr hw haux hring hheld (run_startBlock_task h),
    fun h => exec_blockCommandStart hr hw haux hring hheld (run_startBlock_staging h)⟩

end Sys2Proof.Machine
end

section
/-! PROOF. Task windows and the end of placements (R369, R383, R384, R390 to R392, R396). -/

namespace Sys2Proof.Machine

/-! ## Task windows (R390, R391) -/

section Task

variable {s : State} {id : Nat} {w : Work} (hr : s.runsBelow 4) (h : s.newCmd id btTask w)

/-- A TASK's window is taken for it. -/
def takeWindow (f id : Nat) : Prog := modBlk fun b => { b with tasks := nset 0 b.tasks f (id + 1) }

theorem blockGoes_takeWindow (f : Nat) (start : Prog) : blockGoes ((takeWindow f id).run s) id w start = blockGoes s id w start := rfl

/-- The state in which a TASK's command runs once its window is taken. -/
def inWindow (s : State) (id f : Nat) : State := (modWork id fun x => { x with aux := 6, stage := 3 }).run ((takeWindow f id).run s)

include h in
/-- A TASK that its window's commands name runs as `runs` says, where that is what its operation does in its window. -/
theorem run_taskArrives {op : Nat} (hop : w.taskOp = op) {runs : Prog}
    (hruns : (startTask id w).run ((takeWindow w.fn id).run s) = runs.run (inWindow s id w.fn)) :
    (taskArrives id op).run s = (taskAnswer s id w runs).run s := by
  rw [taskArrives, run_newBlock h, run_look, taskAnswer]
  dsimp only
  rw [decide_eq_true hop, Bool.true_or, when_true]
  split_ifs with hok hbusy
  · rfl
  · rfl
  · have hw : ((takeWindow w.fn id).run s).work? id = some w := h.1
    rw [run_all_cons, run_all_cons, run_all_nil, run_all_cons, run_all_cons, run_all_nil, ← takeWindow,
      run_blockPassed hw (start := doAll [modWork id fun x => { x with aux := 6, stage := 3 }, runs])
        ((run_startBlock_task h.2.1).trans hruns), blockGoes_takeWindow]

include hr h

theorem exec_volInfo (hop : w.taskOp = 1) : exec (.volInfo id) s = .next ((taskAnswer s id w (taskDone id ST.OK (scatter w.pieces
    (slice (Config.layout 2 [s.volBs w.vol, s.volExts w.vol, s.volMode w.vol, b2n (s.volPair w.vol), b2n (s.vol w.vol).solo,
      s.setState (s.volSet w.vol)]) 0 64)))).run s) := by
  refine (live_next _ hr).trans (congrArg _ (run_taskArrives h hop ?_))
  rw [startTask, run_all_cons, run_all_cons, run_all_nil, if_pos hop, volInfo, run_look]
  rfl

theorem exec_errRead (hop : w.taskOp = 2) : exec (.errRead id) s = .next ((taskAnswer s id w (taskDone id ST.OK (scatter w.pieces
    (slice (Config.layout 3 [b2n (s.vol w.vol).pend, b2n (s.vol w.vol).multi, (s.vol w.vol).tag, (s.vol w.vol).status,
      (s.vol w.vol).lba]) 0 32)))).run s) := by
  refine (live_next _ hr).trans (congrArg _ (run_taskArrives h hop ?_))
  rw [startTask, run_all_cons, run_all_cons, run_all_nil, hop, if_neg (by decide), if_pos rfl, errRead, run_look]
  rfl

theorem exec_volMode (hop : w.taskOp = 3) :
    exec (.volMode id) s = .next ((taskAnswer s id w (modVol w.vol fun x => { x with mode := some (w.lba % 4) })).run s) := by
  refine (live_next _ hr).trans (congrArg _ (run_taskArrives h hop ?_))
  rw [startTask, run_all_cons, run_all_cons, run_all_nil, hop, if_neg (by decide), if_neg (by decide), if_pos rfl]
  rfl

theorem exec_ssdAct (hop : w.taskOp = 4) : exec (.ssdAct id) s = .next ((taskAnswer s id w (
    if !s.suits (w.lba % 16) (field w.lba 5 4) then taskDone id ST.BAD_FIELD []
    else mstart (ssdActivity (field w.lba 5 4)) (w.lba % 16) .ring (actRef (field w.lba 10 8) (id + 1)))).run s) := by
  have hsuits : ∀ i op, (inWindow s id w.fn).suits i op = s.suits i op := fun _ _ => rfl
  refine (live_next _ hr).trans (congrArg _ (run_taskArrives h hop ?_))
  rw [startTask, run_all_cons, run_all_cons, run_all_nil, hop, if_neg (by decide), if_neg (by decide), if_neg (by decide), ssdActTask,
    run_look]
  dsimp only
  rw [← inWindow, hsuits]

end Task

theorem exec_taskAbort {s : State} {a : Accessor} {v : Word} {id : Nat} (hs : s.serves a Pg.blkf) (hgo : tbit v.toNat 0 = true)
    (hwin : s.window? (s.sel a 29 0x140 % 2048) = some id) : exec (.taskAbort a v) s = .next ((doAll [
      withWork id fun w => Prog.when (decide (w.taskOp = 3)) (modVol w.vol fun x => { x with mode := none }),
      ctl fun c => { c with maint.waiting := c.maint.waiting.filter fun m =>
        !(decide (m.act ∈ [MA.SSD_SCRUB, MA.SANITISE, MA.FORMAT]) && decide (m.ref / 8 = id + 1)) },
      dropReads fun p => (sglPlace id p).isSome,
      taskDone id ST.ABORTED []]).run s) := by
  refine (byWriter_next _ _ hs).trans (congrArg _ ?_)
  rw [run_look, hgo, when_true, hwin]
  dsimp only
  rw [windowLeaves]
  simp only [run_all_cons, run_all_nil]

theorem says_tasksUseTheirWindow : Says.TasksUseTheirWindow := by
  unfold Says.TasksUseTheirWindow
  exact ⟨fun s id w hr h => ⟨exec_volInfo hr h, exec_errRead hr h, exec_volMode hr h, exec_ssdAct hr h⟩,
    fun s a v id => exec_taskAbort⟩

/-! ## Placements (R369, R383, R384, R396) -/

section Placement

variable {s : State} (hp : s.powered)
include hp

/-- The old physical extents that a journal record lets go (R369). -/
def State.oldPexts (s : State) (r : JRec) : List (Nat × Nat) := r.changes.filterMap fun c => match s.volOfExt c.1 with
  | some v => if eMapped (s.entry c.1) && !decide (ePext (s.entry c.1) = ePext c.2 ∧ eMapped c.2 = true)
      then some (s.volSet v, ePext (s.entry c.1)) else none
  | none => none

/-- The placement of a durable journal record waits for its end, and the peer hears of it while this unit mirrors (R473). -/
def tellsPlacement (s : State) (r : JRec) : Prog := match r.pl with
  | some id => doAll [modPl id fun p => { p with stage := 4 },
      match s.placing? id with
      | some p => Prog.when (s.volPair p.vol && s.mirrors && !(s.placedSeqs id).isEmpty) (sendMsg clsJournal (.journal (s.placedSeqs id)))
      | none => .skip]
  | none => .skip

theorem exec_journalDurable {r : JRec} (hsettles : s.settles = true) (hready : s.jrnlReady = some r) :
    exec .journalDurable s = .next ((doAll [
      Prog.each r.changes (fun c => setEntry c.1 c.2),
      wrW MAP.JRNL_SEQ r.seq, inc MAP.JRNL_REC_CNT,
      modBlk fun b => { b with jrecs := b.jrecs.map fun x => if x.seq = r.seq then { x with durable := true } else x },
      Prog.when (s.bit BLKB.BE_CFG 0) (doAll [modBlk fun b => { b with deallocs := b.deallocs ++ s.oldPexts r }, deallocNext]),
      writeCkpt r, tellsPlacement s r, freeRecords r.seq]).run s) := by
  refine (board_next _ hp).trans (congrArg _ ?_)
  rw [run_look, hsettles, when_true, hready]
  rfl

theorem exec_placementDone {id : Nat} {p : Placing} (hsettles : s.settles = true) (hpl : s.placing? id = some p) (hstage : p.stage = 4) :
    let gone := (s.ctl.blk.pieces.filter fun x => decide (x.taken = some id)).map (·.seq)
    let left := (s.ctl.blk.pieces.filter fun x => !decide (x.taken = some id)).map (·.seq)
    exec (.placementDone id) s = .next ((doAll [
        Prog.each ((gone.dedup).filter fun q => !decide (q ∈ left)) (fun q => get fun t =>
          match t.rec? q with
          | some r => Prog.when r.placed (ackRec q false)
          | none => .skip),
        modBlk fun b => { b with
          placings := b.placings.filter fun x => !decide (x.id = id)
          pieces := b.pieces.filter fun x => !decide (x.taken = some id)
          restored := b.restored.filter fun q => !(decide (q ∈ gone) && !decide (q ∈ left)) },
        freeKey p, peep 6 2 p.vol, afterRelease]).run s) := by
  refine (board_next _ hp).trans (congrArg _ ?_)
  rw [run_look, hpl]
  dsimp only
  rw [hsettles, decide_eq_true hstage, Bool.and_self, when_true] <;> rfl

theorem exec_flushDeadline {e : WEvent} {v : Nat} {b : Bool} (hnext : s.nextEvent = some (e, b)) (hcons : e.consumer = .flushDeadline v)
    (hdue : b = false → e.due = some s.dispatchSlot.1) : exec .flushDeadline s = .next ((doAll [leaves e b,
      get fun t => wantPieces (t.ctl.blk.pieces.filter fun p => decide (p.vol = v))]).run s) := by
  refine (board_next _ hp).trans (congrArg _ ?_)
  cases b
  · rw [run_dispatch_due _ ⟨hnext, hcons, hdue rfl⟩ rfl, run_all_cons, run_all_cons, run_all_nil, run_look, run_look, hcons]
  · rw [run_dispatch_stepped _ ⟨hnext, hcons⟩ rfl, run_all_cons, run_all_cons, run_all_nil, run_look, run_look, hcons]

end Placement

theorem says_placementEnds : Says.PlacementEnds := by
  unfold Says.PlacementEnds
  intro s hp
  exact ⟨fun r hsettles hready => (exec_journalDurable hp hsettles hready).trans rfl, fun id p => exec_placementDone hp,
    fun e v b => exec_flushDeadline hp⟩

/-- Settles O50: tasks take their windows, and placements end. -/
theorem tasksAndPlacement : Obligations.TasksAndPlacement := ⟨says_tasksUseTheirWindow, says_placementEnds⟩

end Sys2Proof.Machine
end

section
/-! PROOF. SSDs and their activities (R361 to R363, R387 to R389, R392 to R397, R415). -/

namespace Sys2Proof.Machine

/-- A command whose last part is a list of parts runs the whole list. -/
theorem run_all_last (p : Prog) (l : List Prog) (s : State) : (doAll [p, doAll l]).run s = (doAll (p :: l)).run s := rfl

/-! ## Completions, timeouts and resets (R361, R362, R387, R388) -/

section Drives

variable {s : State} (hp : s.powered)
include hp

theorem exec_nvmeCompletion {id : Nat} {c : NCmd} (st : NvStatus) (data : List Byte) (dma : List Nat)
    (hc : s.ctl.blk.cmds.find? (fun c => decide (c.id = id)) = some c) :
    exec (.nvmeCompletion id st data dma) s = .next ((doAll [
      incBy BLKB.INBOUND_DENY_CNT (dma.filter fun a => !s.inStaging a).length,
      Prog.each (dma.filter fun a => !s.inStaging a) (fun a => emit (.ssdRefused c.ssd a)),
      dropCmd id, peep 7 1 c.ssd, if st = .ok then goodCmd c data else badCmd c, deallocNext, scrubAll, kickPlace]).run s) := by
  refine (board_next _ hp).trans (congrArg _ ?_)
  rw [run_look, hc]
  cases st with
  | ok => rw [if_pos rfl]
  | failed => rw [if_neg (by decide)]
  | deallocated => rw [if_neg (by decide)]

theorem exec_nvmeTimeout {id : Nat} {c : NCmd} (hc : s.ctl.blk.cmds.find? (fun c => decide (c.id = id)) = some c)
    (ha : c.aborting = false) : exec (.nvmeTimeout id) s = .next ((doAll [
        modBlk fun b => { b with cmds := b.cmds.map fun x => if x.id = id then { x with aborting := true } else x },
        sendNvme c.ssd 7 id 0 [], inc (BLKB.SSD_TIMEOUT_CNT c.ssd), int Pg.blkb 0 3, peep 7 2 c.ssd]).run s) := by
  refine (board_next _ hp).trans (congrArg _ ?_)
  rw [run_look, hc]
  dsimp only
  rw [ha, Bool.not_false, when_true]

/-- An SSD's resets of the last 60 s, the one now begun with them. -/
def State.resetTimes (s : State) (i : Nat) : List Nat :=
  ((tget [] s.ctl.blk.resets i).filter fun t => decide (s.ctl.health.sysSec ≤ t + 60)) ++ [s.ctl.health.sysSec]

/-- A reset is sent and counted; then the SSD has FAILED, or each of its commands is sent once more. -/
theorem exec_controllerReset {i : Fin 16} {ok : Bool} (ha : (s.ctl.blk.cmds.any fun c => decide (c.ssd = i.val) && c.aborting) = true) :
    exec (.controllerReset i ok) s = .next ((doAll [
      doAll [sendNvme i.val 8 0 0 [], modBlk fun b => { b with resets := nset [] b.resets i.val (s.resetTimes i.val) }],
      if ok = false ∨ 3 ≤ (s.resetTimes i.val).length then failSsd i.val else doAll [
        modBlk fun b => { b with cmds := (b.cmds.filter fun c => !(decide (c.ssd = i.val) && c.again)).map fun c =>
          if c.ssd = i.val then { c with aborting := false, again := true } else c },
        Prog.each ((s.ctl.blk.cmds.filter fun c => decide (c.ssd = i.val)).filter fun c => !c.again)
          (fun c => sendNvme c.ssd c.op c.lba c.n c.bytes),
        Prog.each ((s.ctl.blk.cmds.filter fun c => decide (c.ssd = i.val)).filter fun c => c.again) badCmd]]).run s) := by
  refine (board_next _ hp).trans (congrArg _ ?_)
  rw [run_look, ha, when_true]
  rfl

theorem exec_controllerReset_failed {i : Fin 16} {ok : Bool}
    (ha : (s.ctl.blk.cmds.any fun c => decide (c.ssd = i.val) && c.aborting) = true)
    (hfails : ok = false ∨ 3 ≤ (s.resetTimes i.val).length) : exec (.controllerReset i ok) s = .next ((doAll [
      doAll [sendNvme i.val 8 0 0 [], modBlk fun b => { b with resets := nset [] b.resets i.val (s.resetTimes i.val) }],
      failSsd i.val]).run s) := by
  rw [exec_controllerReset hp ha, if_pos hfails]

theorem exec_controllerReset_back {i : Fin 16} (ha : (s.ctl.blk.cmds.any fun c => decide (c.ssd = i.val) && c.aborting) = true)
    (hfew : (s.resetTimes i.val).length < 3) : exec (.controllerReset i true) s = .next ((doAll [
      doAll [sendNvme i.val 8 0 0 [], modBlk fun b => { b with resets := nset [] b.resets i.val (s.resetTimes i.val) }],
      modBlk fun b => { b with cmds := (b.cmds.filter fun c => !(decide (c.ssd = i.val) && c.again)).map fun c =>
        if c.ssd = i.val then { c with aborting := false, again := true } else c },
      Prog.each ((s.ctl.blk.cmds.filter fun c => decide (c.ssd = i.val)).filter fun c => !c.again)
        (fun c => sendNvme c.ssd c.op c.lba c.n c.bytes),
      Prog.each ((s.ctl.blk.cmds.filter fun c => decide (c.ssd = i.val)).filter fun c => c.again) badCmd]).run s) := by
  rw [exec_controllerReset hp ha, if_neg (by simpa using hfew), run_all_last]

/-! ## Links and identification (R361, R363, R387) -/

theorem exec_ssdLinkDown (i : Fin 16) : exec (.ssdLinkDown i) s =
    .next ((doAll [wrB (BLKB.SSD_STATUS i.val) 3 false, failSsd i.val, actFails i.val]).run s) := board_next _ hp

theorem exec_ssdCriticalWarning (i : Fin 16) : exec (.ssdCriticalWarning i) s = .next ((failSsd i.val).run s) := board_next _ hp

theorem exec_ssdLinkUp {i : Fin 16} (hen : s.ssdEn i.val = true) (habsent : s.ssd i.val = ssdAbsent)
    (hno : (s.ctl.blk.cmds.any fun c => decide (c.ssd = i.val) && decide (c.job = .identify)) = false) :
    exec (.ssdLinkUp i) s = .next ((doAll [wrB (BLKB.SSD_STATUS i.val) 3 true, nvme i.val 0 0 0 [] .identify]).run s) := by
  refine (board_next _ hp).trans (congrArg _ ?_)
  rw [run_look, hen, Bool.true_or, when_true, decide_eq_true habsent, Bool.true_or, hno, Bool.not_false, Bool.and_self, when_true]

/-- The commands of an SSD but its identification. -/
def dropIdentify (i : Nat) : Prog :=
  modBlk fun b => { b with cmds := b.cmds.filter fun c => !(decide (c.ssd = i) && decide (c.job = .identify)) }

section Identify

variable {i : Fin 16} (hid : (s.ctl.blk.cmds.any fun c => decide (c.ssd = i.val) && decide (c.job = .identify)) = true) (lbas : Nat)
include hid

theorem exec_ssdIdentify_ok : exec (.ssdIdentify i true lbas) s = .next ((doAll [dropIdentify i.val,
    modBlk fun b => { b with caps := nset 0 b.caps i.val lbas }, sendNvme i.val 9 7 16 [], sendNvme i.val 10 7 0 [],
    Prog.when (s.ssdEn i.val) (setSsd i.val (roleState (s.cfd (BLKB.SSD_CFG i.val) 2 1))), kickPlace]).run s) := by
  refine (board_next _ hp).trans (congrArg _ ?_)
  rw [run_look, hid, when_true, if_pos rfl, run_all_last, dropIdentify]

theorem exec_ssdIdentify_unfit : exec (.ssdIdentify i false lbas) s = .next ((doAll [dropIdentify i.val, setSsd i.val ssdDead,
    wrF (BLKB.SSD_STATUS i.val) 31 16 ST.BAD_FIELD, int Pg.blkb 0 0, lifeAdd 21 1, actFails i.val]).run s) := by
  refine (board_next _ hp).trans (congrArg _ ?_)
  rw [run_look, hid, when_true, if_neg (by decide), run_all_last, dropIdentify]

end Identify

end Drives

theorem says_drivesAnswerAndFail : Says.DrivesAnswerAndFail := by
  unfold Says.DrivesAnswerAndFail
  intro s hp
  exact ⟨fun id c st data dma hc => exec_nvmeCompletion hp st data dma hc, fun id c hc ha => exec_nvmeTimeout hp hc ha,
    fun i ha => ⟨exec_controllerReset_failed hp ha (.inl rfl), fun h => exec_controllerReset_failed hp ha (.inr h),
      exec_controllerReset_back hp ha⟩,
    fun i => ⟨exec_ssdLinkDown hp i, exec_ssdCriticalWarning hp i, fun hen habsent hno => exec_ssdLinkUp hp hen habsent hno,
      fun hid lbas => ⟨exec_ssdIdentify_ok hp hid lbas, exec_ssdIdentify_unfit hp hid lbas⟩⟩⟩

/-! ## Activities (R392 to R395) -/

/-- A write of GO with an operation asks the arbiter where the SSD's state suits. -/
theorem run_ssdCmd {s : State} {a : Accessor} {i op : Nat} {v : Word} (hs : s.serves a Pg.blkb) (hgo : tbit v.toNat 31 = true)
    (hop : field v.toNat 1 0 = op) : done (ssdCmd a i op v) s = .next ((doAll [wr (BLKB.SSD_CMD i) (v.toNat % 2 ^ 31),
      if s.suits i op then mstart (ssdActivity op) i .register (actRef (field v.toNat 10 8) 0)
      else wrF (BLKB.SSD_STATUS i) 31 16 ST.BAD_FIELD]).run s) := by
  refine (byWriter_next _ _ hs).trans (congrArg _ ?_)
  rw [run_look, hgo, decide_eq_true hop, Bool.and_self, when_true]
  cases hsuits : s.suits i op <;> rfl

section Activity

variable {s : State} {i : Fin 16} {x : SsdAct} (hp : s.powered) (hact : s.act? i.val = some x)
include hp hact

section Sanitise

variable (hsan : x.act = 1) (hruns : x.stage = 1)
include hsan hruns

theorem exec_sanitizePoll_running (p : Nat) : exec (.sanitizePoll i (.running p)) s = .next ((doAll [sendNvme i.val 6 0 0 [],
    setAct i.val (some { x with pct := min 100 p }), wrF (BLKB.SSD_STATUS i.val) 15 8 (min 100 p),
    Prog.when (decide (x.pct / 10 < min 100 p / 10)) (progressRecord i.val 1)]).run s) := by
  refine (board_next _ hp).trans (congrArg _ ?_)
  rw [run_look, hact]
  dsimp only
  rw [decide_eq_true hsan, decide_eq_true hruns, Bool.and_self, when_true, run_all_last]

theorem exec_sanitizePoll_completed (hrng : s.rngState = 1) (hcap : 0 < tget 0 s.ctl.blk.caps i.val) :
    exec (.sanitizePoll i .completed) s = .next ((doAll [sendNvme i.val 6 0 0 [],
      setAct i.val (some { x with stage := 2, pct := 100 }), wrF (BLKB.SSD_STATUS i.val) 15 8 100,
      Prog.each (List.range 256) fun _ => fresh fun n => sendNvme i.val 1 (n % tget 0 s.ctl.blk.caps i.val) 1 []]).run s) := by
  refine (board_next _ hp).trans (congrArg _ ?_)
  rw [run_look, hact]
  dsimp only
  rw [decide_eq_true hsan, decide_eq_true hruns, Bool.and_self, when_true, hrng, if_neg (by decide), decide_eq_true rfl,
    decide_eq_true hcap, Bool.and_self, when_true, run_all_last]

end Sanitise

theorem exec_ssdActivityEnd_failed (hfails : x.stage = 4) (b : Bool) (reads : List (Option (List Byte))) :
    exec (.ssdActivityEnd i b reads) s = .next ((endAct i.val x ST.MEDIA_ERROR).run s) := by
  refine (board_next _ hp).trans (congrArg _ ?_)
  rw [run_look, hact]
  dsimp only
  rw [if_pos (by simp [hfails])]

/-- What the end of an activity that has not failed does. -/
theorem exec_ssdActivityEnd (hstage : x.stage ≠ 4) (reads : List (Option (List Byte))) :
    exec (.ssdActivityEnd i false reads) s = .next ((
      if x.act = 1 then Prog.when (decide (x.stage = 2)) (
        if s.rngState = 2 then endAct i.val x ST.ENTROPY_FAILED
        else Prog.when (decide (reads.length = 256))
          (endAct i.val x (if reads.all (sanitised x.arg) then ST.OK else ST.MEDIA_ERROR)))
      else if x.act = 2 then Prog.when (decide (x.stage = 3)) (endAct i.val x ST.OK)
      else Prog.when x.todo.isEmpty (endAct i.val x ST.OK)).run s) := by
  refine (board_next _ hp).trans (congrArg _ ?_)
  rw [run_look, hact]
  dsimp only
  rw [if_neg (by simp [hstage])]

theorem exec_ssdActivityEnd_noEntropy (hsan : x.act = 1) (hstage : x.stage = 2) (hrng : s.rngState = 2)
    (reads : List (Option (List Byte))) :
    exec (.ssdActivityEnd i false reads) s = .next ((endAct i.val x ST.ENTROPY_FAILED).run s) := by
  rw [exec_ssdActivityEnd hp hact (by omega), if_pos hsan, decide_eq_true hstage, when_true, if_pos hrng]

theorem exec_ssdActivityEnd_verified (hsan : x.act = 1) (hstage : x.stage = 2) (hrng : s.rngState ≠ 2)
    {reads : List (Option (List Byte))} (hreads : reads.length = 256) : exec (.ssdActivityEnd i false reads) s =
      .next ((endAct i.val x (if reads.all (sanitised x.arg) then ST.OK else ST.MEDIA_ERROR)).run s) := by
  rw [exec_ssdActivityEnd hp hact (by omega), if_pos hsan, decide_eq_true hstage, when_true, if_neg hrng, decide_eq_true hreads, when_true]

theorem exec_ssdActivityEnd_format (hfmt : x.act = 2) (hstage : x.stage = 3) :
    exec (.ssdActivityEnd i false []) s = .next ((endAct i.val x ST.OK).run s) := by
  rw [exec_ssdActivityEnd hp hact (by omega), if_neg (by omega), if_pos hfmt, decide_eq_true hstage, when_true]

theorem exec_ssdActivityEnd_scrub (hscrub : x.act = 3) (hstage : x.stage ≠ 4) (htodo : x.todo = []) :
    exec (.ssdActivityEnd i false []) s = .next ((endAct i.val x ST.OK).run s) := by
  rw [exec_ssdActivityEnd hp hact hstage, if_neg (by omega), if_neg (by omega), htodo, List.isEmpty_nil, when_true]

end Activity

/-! ## Rebuild (R397, R415) -/

theorem exec_rebuild {s : State} {a : Accessor} {v : Word} (d : RebuildData) (hs : s.serves a Pg.map) (hgo : tbit v.toNat 0 = true)
    (hidle : s.bit MAP.REBUILD_STATUS 8 = false) : exec (.rebuild a v d) s = .next ((doAll [
      modBlk fun b => { b with rebuild := some d }, mstart MA.MAP_REBUILD 0xFF .register 0]).run s) := by
  refine (byWriter_next _ _ hs).trans (congrArg _ ?_)
  rw [run_look, hgo, when_true, hidle, Bool.not_false, when_true]

theorem exec_rebuildDone {s : State} {d : RebuildData} (hp : s.powered) (hbusy : s.bit MAP.REBUILD_STATUS 8 = true)
    (hd : s.ctl.blk.rebuild = some d) (hrest : s.ctl.blk.restored = []) (hpf : s.pf = 0) (hun : s.ctl.blk.unrestored = false) :
    exec .rebuildDone s = .next ((doAll [dumpStatus d, modBlk fun b => { b with rebuilt := true, unrestored := false },
      endRebuild ST.OK, wrF MAP.REBUILD_STATUS 7 0 100, int Pg.map 0 2]).run s) := by
  refine (board_next _ hp).trans (congrArg _ ?_)
  rw [run_look, hbusy, hd, hrest, decide_eq_true hpf, hun]
  rfl

theorem says_driveActivities : Says.DriveActivities := by
  unfold Says.DriveActivities
  refine ⟨fun s a i v hs hgo => ⟨run_ssdCmd hs hgo, run_ssdCmd hs hgo, run_ssdCmd hs hgo⟩, fun s i x hp hact => ?_,
    fun s a v d => exec_rebuild d, fun s d => exec_rebuildDone⟩
  exact ⟨fun hsan hruns => ⟨exec_sanitizePoll_running hp hact hsan hruns, exec_sanitizePoll_completed hp hact hsan hruns⟩,
    fun reads hfails b => exec_ssdActivityEnd_failed hp hact hfails b reads,
    fun reads hsan hstage hrng => exec_ssdActivityEnd_noEntropy hp hact hsan hstage hrng reads,
    fun reads hsan hstage hrng hreads => exec_ssdActivityEnd_verified hp hact hsan hstage hrng hreads,
    exec_ssdActivityEnd_format hp hact, exec_ssdActivityEnd_scrub hp hact⟩

/-- Settles O51: the SSDs answer, fail and work. -/
theorem drivesAnswerFailAndWork : Obligations.DrivesAnswerFailAndWork := ⟨says_drivesAnswerAndFail, says_driveActivities⟩

end Sys2Proof.Machine
end

section
/-! PROOF. Cipher jobs and commands of the vault (R426, R427, R432 to R438, R440, R441, R444). -/

namespace Sys2Proof.Machine

/-! ## Uses of keys (R432, R433) -/

section Keys

variable {s : State} {slot n : Nat} {kinds : List Nat} {attr : Nat} {k : Nat → Nat → Prog}

/-- What a use of a key does, by what the slot permits and by what is left of its limit. -/
theorem run_useKey (k : Nat → Nat → Prog) : (useKey slot n kinds attr k).run s = (
    if 16384 ≤ slot ∨ (s.slot slot).kind ∉ kinds ∨ tbit (s.slot slot).attr attr = false then k ST.KEY_INVALID 0
    else if (s.slot slot).limit < (s.slot slot).use + n then k ST.KEY_SPENT 0
    else keyed s slot n (k ST.OK)).run s := rfl

theorem run_useKey_invalid (h : 16384 ≤ slot ∨ (s.slot slot).kind ∉ kinds ∨ tbit (s.slot slot).attr attr = false) :
    (useKey slot n kinds attr k).run s = (k ST.KEY_INVALID 0).run s := by rw [run_useKey, if_pos h]

section Permitted

variable (hslot : slot < 16384) (hkind : (s.slot slot).kind ∈ kinds) (hattr : tbit (s.slot slot).attr attr = true)
include hslot hkind hattr

theorem permits : ¬ (16384 ≤ slot ∨ (s.slot slot).kind ∉ kinds ∨ tbit (s.slot slot).attr attr = false) := by
  simp [hkind, hattr, hslot]

theorem run_useKey_spent (h : (s.slot slot).limit < (s.slot slot).use + n) :
    (useKey slot n kinds attr k).run s = (k ST.KEY_SPENT 0).run s := by
  rw [run_useKey, if_neg (permits hslot hkind hattr), if_pos h]

theorem run_useKey_ok (h : (s.slot slot).use + n ≤ (s.slot slot).limit) :
    (useKey slot n kinds attr k).run s = (keyed s slot n (k ST.OK)).run s := by
  rw [run_useKey, if_neg (permits hslot hkind hattr), if_neg (Nat.not_lt.mpr h)]

end Permitted

end Keys

/-! ## Cipher jobs (R426, R427) -/

section Jobs

variable {s : State} {id typ : Nat} {w : Work}

/-- A job that is ready runs on fresh masks. -/
theorem run_startJob (h : s.jobReady id typ w) (run : Work → Prog) : (startJob id typ run).run s = (run w).run s := by
  obtain ⟨hw, htyp, hstage, hreads, hst, hmask⟩ := h
  rw [startJob, run_look, run_withWork_of hw, if_neg (by simp [htyp, hstage, hreads]), if_neg (by simp [hst]), if_neg (by simp [hmask])]

variable (hr : s.runsBelow 2) {kinds : List Nat} (n : Work → Nat) (run : Work → Nat → Prog) (h : s.jobReady id typ w)
include hr h

/-- How a job with a key runs: refused as its key refuses, or counted and run. -/
theorem exec_keyedJob :
    let x := s.slot w.jobKey
    let r := live 2 (startJob id typ fun w => withJobKey id w kinds (n w) (run w)) s
    (16384 ≤ w.jobKey ∨ x.kind ∉ kinds ∨ tbit x.attr atJob = false → r = .next ((complete id ST.KEY_INVALID 0).run s)) ∧
    (w.jobKey < 16384 → x.kind ∈ kinds → tbit x.attr atJob = true →
      (x.limit < x.use + n w → r = .next ((complete id ST.KEY_SPENT 0).run s)) ∧
      (x.use + n w ≤ x.limit → r = .next ((keyed s w.jobKey (n w) (run w)).run s))) := by
  dsimp only
  rw [live_next _ hr, run_startJob h, withJobKey]
  refine ⟨fun hbad => congrArg _ ?_, fun hslot hkind hattr => ⟨fun hspent => congrArg _ ?_, fun hleft => congrArg _ ?_⟩⟩
  · rw [run_useKey_invalid hbad, if_pos (by decide)]
  · rw [run_useKey_spent hslot hkind hattr hspent, if_pos (by decide)]
  · rw [run_useKey_ok hslot hkind hattr hleft]
    rfl

end Jobs

section Random

variable {s : State} {id : Nat}

theorem run_askRng (q : RngReq) (serve : Nat → Prog) (fail : Prog) : (askRng q serve fail).run s = (
    if s.rngState = 1 then fresh serve else if s.rngState = 2 then doAll [inc RNG.HELD_FAIL_CNT, fail]
    else doAll [ctl fun c => { c with ciph.held := c.ciph.held ++ [q] }, showHeld]).run s := rfl

variable {w : Work} (hr : s.runsBelow 2) (h : s.jobReady id 0x67 w)
include hr h

/-- A RANDOM job waits, and asks the source. -/
theorem exec_random : exec (.random id) s = .next ((
    if s.rngState = 1 then fresh (serveRandom id)
    else if s.rngState = 2 then doAll [inc RNG.HELD_FAIL_CNT, complete id ST.ENTROPY_FAILED 0]
    else doAll [ctl fun c => { c with ciph.held := c.ciph.held ++ [.job id] }, showHeld]).run
      ((modWork id fun y => { y with stage := 4 }).run s)) := by
  refine (live_next _ hr).trans (congrArg _ ?_)
  rw [run_startJob h, run_all_cons, run_all_cons, run_all_nil, run_askRng]
  rfl

theorem exec_random_served (hrng : s.rngState = 1) : exec (.random id) s =
    .next ((doAll [modWork id fun y => { y with stage := 4 }, fresh (serveRandom id)]).run s) := by
  rw [exec_random hr h, if_pos hrng, run_all_cons, run_all_cons, run_all_nil]

theorem exec_random_failed (hrng : s.rngState = 2) : exec (.random id) s = .next ((doAll [modWork id fun y => { y with stage := 4 },
    inc RNG.HELD_FAIL_CNT, complete id ST.ENTROPY_FAILED 0]).run s) := by
  rw [exec_random hr h, if_neg (by omega), if_pos hrng, ← run_all_cons]

theorem exec_random_held (hrng : s.rngState ∉ [1, 2]) : exec (.random id) s = .next ((doAll [modWork id fun y => { y with stage := 4 },
    ctl fun c => { c with ciph.held := c.ciph.held ++ [.job id] }, showHeld]).run s) := by
  rw [exec_random hr h, if_neg fun e => hrng (by simp [e]), if_neg fun e => hrng (by simp [e]), ← run_all_cons]

end Random

theorem says_cipherJobs : Says.CipherJobs := by
  unfold Says.CipherJobs
  intro s id w hr
  exact ⟨exec_keyedJob hr (fun _ => 1) _, exec_keyedJob hr (fun _ => 1) _, exec_keyedJob hr (fun _ => 1) _,
    exec_keyedJob hr (fun _ => 1) _, exec_keyedJob hr (fun w => w.length / max 1 w.duLen) _,
    exec_keyedJob hr (fun w => w.length / max 1 w.duLen) _,
    fun h => ⟨exec_random_served hr h, exec_random_failed hr h, exec_random_held hr h⟩⟩

/-- Settles O56: cipher jobs use their keys and answer as their algorithm does. -/
theorem cipherJobs : Obligations.CipherJobs := says_cipherJobs

/-! ## Commands of the vault (R434 to R438, R444) -/

/-- A GO leaves the key slots and the state of the entropy source. -/
def sameKeys (s t : State) : Prop := (t.ctl.ciph.slots, t.rd RNG.STATUS) = (s.ctl.ciph.slots, s.rd RNG.STATUS)

theorem composes_sameKeys : Composes sameKeys := composes_keep fun s => (s.ctl.ciph.slots, s.rd RNG.STATUS)

theorem sameKeys_wr {r : Reg} (hr : r.page = 33) (v : Nat) : (wr r v).within sameKeys := fun s =>
  Prod.ext rfl (rd_wr_other s v fun e => by rw [← e] at hr; exact absurd hr (by decide))

theorem sameKeys_writeOut (b : List Byte) : (writeOut b).within sameKeys := by
  refine composes_sameKeys.cons (within_look fun s => composes_sameKeys.each fun o _ => sameKeys_wr rfl 0) ?_
  exact composes_sameKeys.cons (composes_sameKeys.each fun i _ => sameKeys_wr rfl _) (composes_sameKeys.cons (sameKeys_wr rfl _)
    composes_sameKeys.nil)

theorem slot_of_sameKeys {s t : State} (h : sameKeys s t) : t.slot = s.slot := by
  funext k
  exact congrArg (fun l => tget KeySlot.empty l k) (congrArg Prod.fst h)

theorem rngState_of_sameKeys {s t : State} (h : sameKeys s t) : t.rngState = s.rngState := by
  exact congrArg (fun v => field v 1 0) (congrArg Prod.snd h)

section Vault

variable {s : State} {a : Accessor} {v : Word} (hs : s.serves a Pg.vault)

/-- The command that a GO of an operation gives. -/
def State.vaultCmd (s : State) (op : Nat) : VaultCmd := ⟨op, s.fd VAULT.SLOT 13 0, s.rd VAULT.ARG, s.vaultIn, none, []⟩

/-- What a GO writes before its operation is decided. -/
def vaultTakes (v : Word) (c : VaultCmd) : Prog :=
  doAll [wr VAULT.CMD (v.toNat / 256 % 2 ^ 23 * 256 + c.op), wrB VAULT.STATUS 0 true, writeOut [], setVault (some c)]

theorem sameKeys_vaultTakes (v : Word) (c : VaultCmd) : (vaultTakes v c).within sameKeys := by
  refine composes_sameKeys.cons (sameKeys_wr rfl _) (composes_sameKeys.cons (within_look fun _ => sameKeys_wr rfl _)
    (composes_sameKeys.cons (sameKeys_writeOut _) (composes_sameKeys.cons (fun _ => rfl) composes_sameKeys.nil)))

include hs

theorem exec_vaultGo_busy (op : Nat) (run : VaultCmd → Prog) (hbusy : s.bit VAULT.STATUS 0 = true) :
    done (vaultGo a op v run) s = .next ((doAll [wr VAULT.CMD (v.toNat % 256), wrB VAULT.STATUS 1 true]).run s) := by
  refine (byWriter_next _ _ hs).trans (congrArg _ ?_)
  rw [run_look, if_pos hbusy]

theorem exec_vaultGo_idle (op : Nat) {run : VaultCmd → Prog} {p : Prog} (hidle : s.bit VAULT.STATUS 0 = false)
    (hrun : ∀ t, sameKeys s t → (run (s.vaultCmd op)).run t = p.run t) :
    done (vaultGo a op v run) s = .next ((doAll [wr VAULT.CMD (v.toNat / 256 % 2 ^ 23 * 256 + op), wrB VAULT.STATUS 0 true,
      writeOut [], setVault (some (s.vaultCmd op)), p]).run s) := by
  refine (byWriter_next _ _ hs).trans (congrArg _ ?_)
  rw [run_look, if_neg (by rw [hidle]; decide)]
  exact hrun _ (sameKeys_vaultTakes v (s.vaultCmd op) s)

/-- A GO is refused while BUSY, and otherwise decides its operation. -/
theorem exec_vaultGo (op : Nat) {run : VaultCmd → Prog} {p : Prog} (hrun : ∀ t, sameKeys s t → (run (s.vaultCmd op)).run t = p.run t) :
    (s.bit VAULT.STATUS 0 = true →
      done (vaultGo a op v run) s = .next ((doAll [wr VAULT.CMD (v.toNat % 256), wrB VAULT.STATUS 1 true]).run s)) ∧
    (s.bit VAULT.STATUS 0 = false → done (vaultGo a op v run) s = .next ((doAll [wr VAULT.CMD (v.toNat / 256 % 2 ^ 23 * 256 + op),
      wrB VAULT.STATUS 0 true, writeOut [], setVault (some (s.vaultCmd op)), p]).run s)) :=
  ⟨exec_vaultGo_busy hs op run, fun hidle => exec_vaultGo_idle hs op hidle hrun⟩

end Vault

section Decided

variable {s t : State} (h : sameKeys s t)
include h

/-- A request of the vault is served, failed or held by the state of the source. -/
theorem run_askVault (serve : Nat → Prog) : (askRng .vault serve (vaultResult ST.ENTROPY_FAILED [])).run t = (
    if s.rngState = 1 then fresh serve
    else if s.rngState = 2 then doAll [inc RNG.HELD_FAIL_CNT, vaultResult ST.ENTROPY_FAILED []]
    else doAll [ctl fun c => { c with ciph.held := c.ciph.held ++ [.vault] }, showHeld]).run t := by
  rw [run_askRng, rngState_of_sameKeys h]

/-- A command that uses a key of keys counts the use, or is refused as the key refuses. -/
theorem run_withKek (kek : Nat) (run : Nat → Prog) :
    (useKey kek 1 [4] atWrap fun st key => if st ≠ ST.OK then vaultResult st [] else run key).run t = (
      if 16384 ≤ kek ∨ (s.slot kek).kind ∉ [4] ∨ tbit (s.slot kek).attr atWrap = false then vaultResult ST.KEY_INVALID []
      else if (s.slot kek).limit < (s.slot kek).use + 1 then vaultResult ST.KEY_SPENT []
      else keyed s kek 1 run).run t := by
  rw [run_useKey, keyed, slot_of_sameKeys h]
  rfl

end Decided

theorem run_ite {c : Prop} [Decidable c] (p q : Prog) (s : State) : (if c then p else q).run s = if c then p.run s else q.run s :=
  apply_ite (fun p : Prog => p.run s) c p q

theorem says_vaultCommands : Says.VaultCommands := by
  unfold Says.VaultCommands
  intro s a v hs
  refine ⟨exec_vaultGo hs 1 fun t h => ?_, exec_vaultGo hs 2 fun t h => ?_, exec_vaultGo hs 3 fun t h => ?_,
    exec_vaultGo hs 4 fun t h => rfl, exec_vaultGo hs 5 fun t h => ?_, exec_vaultGo hs 6 fun t h => ?_,
    exec_vaultGo hs 7 fun t h => run_askVault h _, exec_vaultGo hs 8 fun t h => ?_, exec_vaultGo hs 9 fun t h => rfl⟩
  · rw [run_look, slot_of_sameKeys h, run_ite, run_ite, run_askVault h]
    rfl
  · rw [run_look, slot_of_sameKeys h, run_ite, run_ite, run_withKek h]
    rfl
  · rw [run_look]
    dsimp only
    rw [slot_of_sameKeys h, run_ite, run_ite, run_withKek h]
    rfl
  · rw [run_look]
    dsimp only
    rw [slot_of_sameKeys h]
    rfl
  · rw [run_look]
    dsimp only
    rw [slot_of_sameKeys h]
    simp only [List.mem_cons, List.not_mem_nil, or_false, not_or]
    rfl
  · simp only [List.mem_cons, List.not_mem_nil, or_false, not_or]
    rfl

/-- Settles O57: a GO of the vault is refused while BUSY, and otherwise its operation is decided. -/
theorem vaultCommands : Obligations.VaultCommands := says_vaultCommands

end Sys2Proof.Machine
end

section
/-! PROOF. The vault's ends, the entropy source, masks, SA entries and parity faults of the cipher (R421, R425, R430, R436 to R442). -/

namespace Sys2Proof.Machine

/-! ## The vault's command ends (R436, R437) -/

section Ends

variable {s : State} (hr : s.runsBelow 4)
include hr

section Vault

variable {c : VaultCmd} (hc : s.ctl.ciph.vault = some c)
include hc

theorem exec_vaultCommandDone {st : Nat} (hst : c.status = some st) (hop : c.op ≠ 4) (b : Bool) : exec (.vaultCommandDone b) s =
    .next ((if b && decide (c.op = 7) && decide ((s.slot c.slot).kind = 6) then vaultEnd { c with out := [] } ST.ABORTED
      else vaultEnd c st).run s) := by
  refine (live_next _ hr).trans (congrArg _ ?_)
  rw [run_look, hc]
  dsimp only
  rw [hst]
  dsimp only
  rw [decide_eq_true hop, when_true]

theorem exec_vaultCommandDone_ends {st : Nat} (hst : c.status = some st) (hop : c.op ≠ 4) (hsign : c.op ≠ 7) (b : Bool) :
    exec (.vaultCommandDone b) s = .next ((vaultEnd c st).run s) := by
  rw [exec_vaultCommandDone hr hc hst hop, if_neg (by simp [hsign])]

theorem exec_vaultCommandDone_exhausted {st : Nat} (hst : c.status = some st) (hsign : c.op = 7) (hkind : (s.slot c.slot).kind = 6) :
    exec (.vaultCommandDone true) s = .next ((vaultEnd { c with out := [] } ST.ABORTED).run s) := by
  rw [exec_vaultCommandDone hr hc hst (by omega), if_pos (by simp [hsign, hkind])]

theorem exec_eraseDone (hop : c.op = 4) (hfree : c.slot ∉ s.ctl.ciph.keysBusy) :
    exec .eraseDone s = .next ((vaultEnd c (c.status.getD 0)).run s) := by
  refine (live_next _ hr).trans (congrArg _ ?_)
  rw [run_look, hc]
  dsimp only
  rw [decide_eq_true hop, decide_eq_false hfree, Bool.not_false, Bool.and_self, when_true]

end Vault

/-! ## The entropy source and the masks (R439 to R442) -/

theorem exec_healthTestFail {h : HealthSeen} (n : Nat) (hrng : s.rngState = 1) :
    (match h with | HealthSeen.rct k => s.rctFails k | HealthSeen.apt k => s.aptFails k) = true →
    exec (.healthTestFail h n) s = .next ((doAll [
      inc (match h with | .rct _ => RNG.RCT_FAIL_CNT | .apt _ => RNG.APT_FAIL_CNT), incBy RNG.DISCARD_CNT n,
      wrF RNG.STATUS 31 16 (s.fd RNG.STATUS 31 16 + 1), int Pg.rng 0 0,
      if s.consec = 2 then sourceFailed else wrF RNG.STATUS 3 0 (4 * (s.consec + 1))]).run s) := by
  intro hfails
  refine (live_next _ hr).trans (congrArg _ ?_)
  have hthird : (s.consec + 1 = 3) = (s.consec = 2) := by simp
  rw [run_look]
  simp only [hthird]
  cases h with
  | rct k =>
    replace hfails : s.rctFails k = true := hfails
    dsimp only
    rw [decide_eq_true hrng, hfails, Bool.and_self, when_true]
  | apt k =>
    replace hfails : s.aptFails k = true := hfails
    dsimp only
    rw [decide_eq_true hrng, hfails, Bool.and_self, when_true]

theorem exec_consecClear (hrng : s.rngState = 1) : exec .consecClear s = .next ((wrF RNG.STATUS 3 2 0).run s) := by
  refine (live_next _ hr).trans (congrArg _ ?_)
  rw [run_look, decide_eq_true hrng, when_true]

theorem exec_maskReseed (hrng : s.rngState = 1) : exec .maskReseed s = .next ((doAll [
    drbgRequest 32 false, wr CIPH.MASK_STATUS 128, Prog.when s.maskStopped resumeStore]).run s) := by
  refine (live_next _ hr).trans (congrArg _ ?_)
  rw [run_look, if_pos hrng]

theorem exec_maskReseed_fallback (hrng : s.rngState ≠ 1) (hgo : s.maskStopped = false) : exec .maskReseed s = .next ((doAll [
    Prog.when (!s.bit CIPH.MASK_STATUS 8) (doAll [wrB CIPH.MASK_STATUS 8 true, int Pg.ciph 0 4]),
    wrF CIPH.MASK_STATUS 7 0 (s.fd CIPH.MASK_STATUS 7 0 - 1),
    Prog.when (decide (s.fd CIPH.MASK_STATUS 7 0 ≤ 1)) maskStop]).run s) := by
  refine (live_next _ hr).trans (congrArg _ ?_)
  rw [run_look, if_neg hrng, hgo, if_neg (by decide)]

theorem exec_maskStop (hfallback : s.bit CIPH.MASK_STATUS 8 = true) (hgo : s.maskStopped = false) :
    exec .maskStop s = .next ((doAll [wrB CIPH.MASK_STATUS 9 true, int Pg.ciph 0 5]).run s) := by
  refine (live_next _ hr).trans (congrArg _ ?_)
  rw [run_look, hfallback, when_true, maskStop, run_look, hgo, Bool.not_false, when_true]

theorem exec_entropyHoldTimeout {q : RngReq} {l : List RngReq} (hheld : s.ctl.ciph.held = q :: l) : exec .entropyHoldTimeout s =
    .next ((doAll [ctl fun c => { c with ciph.held := l }, failHeld q, showHeld]).run s) := by
  refine (live_next _ hr).trans (congrArg _ ?_)
  rw [run_look, hheld]

section Restart

variable (hrng : s.rngState = 0) (t : StartUp)
include hrng

theorem exec_rngRestartDone_passed (hrct : s.rctFails t.run = false) (hapt : s.aptFails t.count = false) :
    exec (.rngRestartDone t) s = .next ((doAll [seedDrbg, wrF RNG.STATUS 1 0 1, int Pg.rng 0 2,
      ctl fun c => { c with ciph.held := [] }, Prog.each s.ctl.ciph.held serveHeld, showHeld]).run s) := by
  refine (live_next _ hr).trans (congrArg _ ?_)
  rw [run_look, decide_eq_true hrng, when_true, hrct, hapt, Bool.not_false, Bool.and_self, if_pos rfl]

theorem exec_rngRestartDone_failed (hfails : s.rctFails t.run = true ∨ s.aptFails t.count = true) :
    exec (.rngRestartDone t) s = .next ((doAll [wrF RNG.STATUS 31 16 (s.fd RNG.STATUS 31 16 + 1),
      Prog.when (s.rctFails t.run) (inc RNG.RCT_FAIL_CNT), Prog.when (s.aptFails t.count) (inc RNG.APT_FAIL_CNT),
      if s.consec < 2 then wrF RNG.STATUS 3 2 (s.consec + 1) else sourceFailed]).run s) := by
  have hbad : ¬ (!s.rctFails t.run && !s.aptFails t.count) = true := by rcases hfails with h | h <;> simp [h]
  refine (live_next _ hr).trans (congrArg _ ?_)
  rw [run_look, decide_eq_true hrng, when_true, if_neg hbad]

end Restart

end Ends

/-! ## Zeroisation, RESTART and RESEED (R438, R439, R441) -/

/-- A signal leaves the cipher's state. -/
theorem Side.ciph {P : Nat → Prop} {s t : State} (h : Side P s t) : t.ctl.ciph = s.ctl.ciph := by
  obtain ⟨_, _, _, _, _, _, _, _, e⟩ := h.ctl
  rw [e]

/-- Slot 0 alone is left of the slots. -/
theorem slots_emptySlots (s : State) (k : Nat) : ((emptySlots.run s).ctl.ciph.slots.find? fun e => decide (e.1 = k)) =
    if k = 0 then s.ctl.ciph.slots.find? (fun e => decide (e.1 = 0)) else none := by
  have hslots : (emptySlots.run s).ctl.ciph.slots = s.ctl.ciph.slots.filter fun e => decide (e.1 = 0) := rfl
  rw [hslots, List.find?_filter]
  split_ifs with hk
  · simp [hk]
  · rw [List.find?_eq_none]
    intro e _ he
    simp only [decide_eq_true_eq] at he
    omega

theorem exec_vaultZeroise (s : State) : ∃ t, exec .vaultZeroise s = .next t ∧
    (∀ k, k ≠ 0 → t.ctl.ciph.slots.find? (fun e => decide (e.1 = k)) = none) ∧
    t.ctl.ciph.slots.find? (fun e => decide (e.1 = 0)) = s.ctl.ciph.slots.find? (fun e => decide (e.1 = 0)) ∧
    t.rd VAULT.SLOTS_USED = 1 := by
  have hside := side_int Pg.vault 0 1 (emptySlots.run s)
  refine ⟨_, rfl, fun k hk => ?_, ?_, ?_⟩
  · exact hside.ciph ▸ (slots_emptySlots s k).trans (if_neg hk)
  · exact hside.ciph ▸ slots_emptySlots s 0
  · refine (hside.copy .live VAULT.SLOTS_USED (by simp [sideReg])).trans ?_
    exact (rd_wr_mod _ VAULT.SLOTS_USED 1 (w := 15) (by omega) (by decide +kernel))

section Rng

variable {s : State} {a : Accessor} (hs : s.serves a Pg.rng)
include hs

theorem exec_restart (hcore : a.isPort = false) (hrng : s.rngState = 2) :
    exec (.restart a) s = .next ((wrF RNG.STATUS 3 0 0).run s) := by
  refine (byWriter_next _ _ hs).trans (congrArg _ ?_)
  rw [run_look, hcore, decide_eq_true hrng, Bool.not_false, Bool.and_self, when_true]

theorem exec_reseed : exec (.reseed a) s = .next ((Prog.when (decide (s.rngState = 1)) seedDrbg).run s) :=
  byWriter_next _ _ hs

end Rng

theorem says_vaultEndsAndEntropy : Says.VaultEndsAndEntropy := by
  unfold Says.VaultEndsAndEntropy
  intro s
  refine ⟨fun hr => ⟨fun c st hc hst hop hsign => exec_vaultCommandDone_ends hr hc hst hop hsign,
    fun c st hc hst hsign hkind => exec_vaultCommandDone_exhausted hr hc hst hsign hkind, fun c hc => exec_eraseDone hr hc,
    fun hrng => ⟨fun h n => exec_healthTestFail hr n hrng, exec_consecClear hr hrng, exec_maskReseed hr hrng⟩,
    fun hrng t => ⟨exec_rngRestartDone_passed hr hrng t, exec_rngRestartDone_failed hr hrng t⟩,
    fun q l => exec_entropyHoldTimeout hr, exec_maskReseed_fallback hr, exec_maskStop hr⟩, exec_vaultZeroise s,
    fun a hs => ⟨exec_restart hs, fun hrng => ?_, fun hrng => ?_⟩⟩
  · rw [exec_reseed hs, decide_eq_true hrng, when_true]
  · rw [exec_reseed hs, decide_eq_false hrng, when_false, run_skip]

/-! ## SA entries (R421, R425) -/

theorem bytes_add (s : State) (sp i a m n : Nat) : s.bytes sp i a (m + n) = s.bytes sp i a m ++ s.bytes sp i (a + m) n := by
  simp only [State.bytes, List.range_add, List.map_append, List.map_map, Function.comp_def, Nat.add_assoc]

/-- The bytes from 40 on of an SA entry, which a write of the entry leaves. -/
theorem drop_sa (s : State) (i : Nat) : (s.sa i).drop 40 = s.bytes 17 0 (64 * i + 40) 24 := by
  rw [State.sa, show 64 = 40 + 24 from rfl, bytes_add, List.drop_left' (by simp [State.bytes])]

section SaEntry

variable (s : State) (v : Word) (i : Nat)

/-- The words of an SA entry that software writes. -/
def State.saBytes (s : State) : List Byte := (List.range 10).flatMap fun w => leBytes 4 (s.rd (CIPH.SA_W w))

/-- What follows the words of an SA entry: its poison is gone, and its replay window starts anew. -/
def saStarts (i : Nat) : Prog := doAll [cleanse 17 0 (64 * i) 64, ctl fun c => { c with ciph := { c.ciph with
  saSeen := nset [] c.ciph.saSeen i [], saWords := setField c.ciph.saWords 15 15 0 } }]

theorem saStarts_frame (u : State) : ((saStarts i).run u).mem = u.mem ∧ ((saStarts i).run u).reg = u.reg ∧
    ((saStarts i).run u).ctl.ciph.saSeen = nset [] u.ctl.ciph.saSeen i [] := ⟨rfl, rfl, rfl⟩

/-- The state after an SA entry was written. -/
def saPut (s : State) (v : Word) (i : Nat) : State :=
  (saStarts i).run ((poke 17 0 (64 * i) s.saBytes).run ((wr (CIPH.SA_W 15) v.toNat).run s))

theorem length_saBytes : s.saBytes.length = 40 := by simp [State.saBytes, leBytes]

/-- The memory after an SA entry was written is that after its bytes were. -/
theorem mem_saPut : (saPut s v i).mem = ((poke 17 0 (64 * i) s.saBytes).run ((wr (CIPH.SA_W 15) v.toNat).run s)).mem :=
  (saStarts_frame i _).1

theorem tget_mem_saPut_other {k : Nat} (h : ¬ (memKey 17 0 (64 * i) ≤ k ∧ k < memKey 17 0 (64 * i) + 40)) :
    tget 0 (saPut s v i).mem k = tget 0 s.mem k := by
  rw [mem_saPut, mem_poke_other _ _ _ _ _ (by rwa [length_saBytes]), mem_wr]

theorem sa_saPut_same : (saPut s v i).sa i = s.saBytes ++ (s.sa i).drop 40 := by
  have hwritten : (saPut s v i).bytes 17 0 (64 * i) 40 = s.saBytes := by
    have h := bytes_poke 17 0 (64 * i) s.saBytes ((wr (CIPH.SA_W 15) v.toNat).run s)
    rw [length_saBytes] at h
    exact (bytes_congr fun k _ _ => by rw [mem_saPut]).trans h
  have hkept : (saPut s v i).bytes 17 0 (64 * i + 40) 24 = s.bytes 17 0 (64 * i + 40) 24 :=
    bytes_congr fun k hlow _ => tget_mem_saPut_other s v i (by rw [memKey_add] at hlow; omega)
  rw [drop_sa, ← hkept, ← hwritten, ← bytes_add]
  rfl

theorem sa_saPut_other {j : Nat} (hj : j ≠ i) : (saPut s v i).sa j = s.sa j :=
  bytes_congr fun k hlow hhigh => tget_mem_saPut_other s v i (by simp only [memKey] at hlow hhigh ⊢; omega)

theorem byte_saPut {sp n x : Nat} (hi : i < 32768) (hsp : sp ≠ 17) (hn : n < 64) (hx : x < 2 ^ 48) :
    (saPut s v i).byte sp n x = s.byte sp n x :=
  tget_mem_saPut_other s v i (by simp only [memKey]; omega)

theorem copy_saPut {b : Bank} {r : Reg} (h : (b, r) ≠ (.live, CIPH.SA_W 15)) : (saPut s v i).copy b r = s.copy b r := by
  have hreg : (saPut s v i).reg = ((wr (CIPH.SA_W 15) v.toNat).run s).reg :=
    (saStarts_frame i _).2.1.trans (reg_poke ..)
  rw [← copy_wr_other s v.toNat h, State.copy, hreg]
  rfl

theorem saSeen_saPut : (saPut s v i).ctl.ciph.saSeen = nset [] s.ctl.ciph.saSeen i [] :=
  (saStarts_frame i _).2.2.trans (by rw [ctl_poke, ctl_wr])

end SaEntry

theorem exec_saW15Write {s : State} {a : Accessor} (v : Word) (hs : s.serves a Pg.ciph) :
    exec (.saW15Write a v) s = .next (saPut s v (s.sel a 32 0x40 % 32768)) := by
  refine (byWriter_next _ _ hs).trans (congrArg _ ?_)
  rw [run_look, run_all_cons, run_all_cons, saPut, saStarts, State.saBytes]

/-! ## Parity faults of the cipher (R430) -/

section Fault

variable {s : State} (hr : s.runsBelow 2)
include hr

theorem exec_cipherParityFault_frame {id : Nat}
    (h : ((s.ctl.net.frames.any fun f => decide (f.id = id)) || s.copies.any fun k => decide (k.frame = id)) = true) :
    exec (.cipherParityFault (.frame id)) s =
      .next ((doAll [doAll [inc CIPH.FAULT_CNT, int Pg.ciph 0 0], abortFrame id ST.ABORTED]).run s) := by
  refine (live_next _ hr).trans (congrArg _ ?_)
  rw [run_look]
  dsimp only
  rw [h, when_true]

theorem exec_cipherParityFault_job {w n : Nat} {x : Work} (hx : s.work? w = some x) (hlow : 0x61 ≤ x.typ) (hhigh : x.typ ≤ 0x67)
    (hstage : 3 ≤ x.stage) : exec (.cipherParityFault (.job w n)) s = .next ((jobStarts w x (doAll [
      doAll [inc CIPH.FAULT_CNT, int Pg.ciph 0 0], freeBytes (min n (jobOutput x).2) fun b =>
        completeWith w ST.CIPHER_FAULT (min n (jobOutput x).2)
          (if min n (jobOutput x).2 = 0 then [] else [((jobOutput x).1, b)]) none []])).run s) := by
  refine (live_next _ hr).trans (congrArg _ ?_)
  rw [run_look]
  dsimp only
  rw [run_withWork_of hx, decide_eq_true hlow, decide_eq_true hhigh, decide_eq_true hstage, Bool.and_self, Bool.and_self, when_true]

theorem exec_cipherParityFault_store : exec (.cipherParityFault .store) s =
    .next ((doAll [doAll [inc CIPH.FAULT_CNT, int Pg.ciph 0 0], storeFault]).run s) :=
  live_next _ hr

end Fault

theorem says_saEntriesAndCipherFaults : Says.SaEntriesAndCipherFaults := by
  unfold Says.SaEntriesAndCipherFaults
  refine ⟨fun s a v hs => ?_, fun s hr => ⟨fun id => exec_cipherParityFault_frame hr, fun w n x => exec_cipherParityFault_job hr,
    exec_cipherParityFault_store hr⟩⟩
  have hi : s.sel a 32 0x40 % 32768 < 32768 := Nat.mod_lt _ (by decide)
  refine ⟨_, exec_saW15Write v hs, sa_saPut_same s v _, fun j hj _ => sa_saPut_other s v _ hj, ?_, fun j hj => ?_,
    fun sp n x => byte_saPut s v _ hi, fun b r => copy_saPut s v _⟩
  · rw [saSeen_saPut]
    exact tget_nset_same ..
  · rw [saSeen_saPut]
    exact tget_nset_other _ _ _ hj

/-- Settles O58: the vault's commands end, the entropy source and the masks follow their rules, and the cipher's faults end what they met. -/
theorem vaultEndsEntropyAndCipherFaults : Obligations.VaultEndsEntropyAndCipherFaults :=
  ⟨says_vaultEndsAndEntropy, says_saEntriesAndCipherFaults⟩

end Sys2Proof.Machine
end

section
/-! PROOF. The error log, the life log, the thermal trip, CNT_CLR and the TAP (R3, R483 to R490, R496 to R499, R512). -/

namespace Sys2Proof.Machine

/-! ## The error log (R483 to R485) -/

section Recorder

variable {s : State} {r : Report} {l : List Report} (hp : s.powered) (hin : s.ctl.health.intake = r :: l)
include hp hin

/-- The recorder takes the oldest report out of the intake, into a free record or into the count of lost ones. -/
theorem exec_errorRecordWrite : exec .errorRecordWrite s = .next ((doAll [
    ctl fun c => { c with health := { c.health with intake := l } },
    if s.unread < 256 then doAll [
      putRecord (fun k => ERR.REC (8 * s.fd ERR.REC_TAIL 7 0 + k)) (r.bytes (s.fd (ERR.CLASS_CTL (r.code / 4096)) 2 1)),
      showTail (s.fd ERR.REC_TAIL 7 0 + 1) (s.unread + 1), int Pg.err 0 (s.fd (ERR.CLASS_CTL (r.code / 4096)) 2 1)]
    else doAll [loseReport r, int Pg.err 0 4]]).run s) := by
  refine (board_next _ hp).trans (congrArg _ ?_)
  rw [run_look, hin]

theorem exec_errorRecordWrite_free (hroom : s.unread < 256) : exec .errorRecordWrite s = .next ((doAll [
    ctl fun c => { c with health := { c.health with intake := l } },
    putRecord (fun k => ERR.REC (8 * s.fd ERR.REC_TAIL 7 0 + k)) (r.bytes (s.fd (ERR.CLASS_CTL (r.code / 4096)) 2 1)),
    showTail (s.fd ERR.REC_TAIL 7 0 + 1) (s.unread + 1), int Pg.err 0 (s.fd (ERR.CLASS_CTL (r.code / 4096)) 2 1)]).run s) := by
  rw [exec_errorRecordWrite hp hin, if_pos hroom, run_all_last]

theorem exec_errorRecordWrite_full (hfull : 256 ≤ s.unread) : exec .errorRecordWrite s = .next ((doAll [
    ctl fun c => { c with health := { c.health with intake := l } }, loseReport r, int Pg.err 0 4]).run s) := by
  rw [exec_errorRecordWrite hp hin, if_neg (by omega), run_all_last]

end Recorder

/-- A value of REC_HEAD is taken from the old head forward to the tail. -/
theorem exec_recHeadWrite {s : State} {a : Accessor} (v : Word) (hs : s.serves a Pg.err) : exec (.recHeadWrite a v) s = .next ((
    if (v.toNat % 256 + 256 - s.fd ERR.REC_HEAD 7 0) % 256 ≤ s.unread then doAll [wr ERR.REC_HEAD (v.toNat % 256),
      showTail (s.fd ERR.REC_TAIL 7 0) (s.unread - (v.toNat % 256 + 256 - s.fd ERR.REC_HEAD 7 0) % 256)]
    else err Pg.err 0 EC.ACCESS RS.WRONG_STATE (bar0 Pg.err 0x40)).run s) := byWriter_next _ _ hs

theorem says_errorLog : Says.ErrorLog := by
  unfold Says.ErrorLog
  refine ⟨fun s r l hp hin => ⟨exec_errorRecordWrite_free hp hin, exec_errorRecordWrite_full hp hin⟩,
    fun s a v hs => ⟨fun htake => ?_, fun hrefuse => ?_⟩⟩
  · rw [exec_recHeadWrite v hs, if_pos htake]
  · rw [exec_recHeadWrite v hs, if_neg (Nat.not_le.mpr hrefuse)]

/-! ## Commits of the life log (R489, R490, R499) -/

theorem exec_lifeCommitPeriod {s : State} (hr : s.runsBelow 4) (hidle : s.bit LIFE.STATUS 0 = false) :
    (match s.ctl.health.lifeRetry with
      | some t => t + 60 ≤ s.ctl.health.sysSec
      | none => 86400 ≤ s.ctl.health.lifeSince) →
    exec .lifeCommitPeriod s = .next ((doAll [wrB LIFE.STATUS 0 true, mstart MA.LIFE_COMMIT 0xFF .periodic 0]).run s) := by
  intro hdue
  refine (live_next _ hr).trans (congrArg _ ?_)
  rw [run_look, hidle]
  cases hretry : s.ctl.health.lifeRetry with
  | some t =>
    rw [hretry] at hdue
    dsimp only at hdue ⊢
    rw [decide_eq_true hdue, Bool.not_false, Bool.and_self, when_true]
  | none =>
    rw [hretry] at hdue
    dsimp only at hdue ⊢
    rw [decide_eq_true hdue, Bool.not_false, Bool.and_self, when_true]

section Request

variable {s : State} {a : Accessor} {v : Word} (hs : s.serves a Pg.life)
include hs

theorem exec_lifeCommitRequest (hcore : a.isPort = false) (hidle : s.bit LIFE.STATUS 0 = false) (hgo : tbit v.toNat 0 = true) :
    exec (.lifeCommitRequest a v) s = .next ((doAll [wrB LIFE.STATUS 0 true, mstart MA.LIFE_COMMIT 0xFF .register 0]).run s) := by
  refine (byWriter_next _ _ hs).trans (congrArg _ ?_)
  rw [run_look, hcore, hidle, hgo, if_neg (by decide)]

theorem exec_lifeCommitRequest_refused (h : a.isPort = true ∨ s.bit LIFE.STATUS 0 = true ∨ tbit v.toNat 0 = false) :
    exec (.lifeCommitRequest a v) s = .next ((err Pg.life 0 EC.ACCESS RS.WRONG_STATE (bar0 Pg.life 0x40)).run s) := by
  have hbad : (a.isPort || s.bit LIFE.STATUS 0 || !tbit v.toNat 0) = true := by
    rcases h with h | h | h <;> rw [h]
    · rw [Bool.true_or, Bool.true_or]
    · rw [Bool.or_true, Bool.true_or]
    · rw [Bool.not_false, Bool.or_true]
  refine (byWriter_next _ _ hs).trans (congrArg _ ?_)
  rw [run_look, hbad, if_pos rfl]

end Request

/-- The place of the life log's next record. -/
def State.lifeNext (s : State) : Nat := match s.lifeNewest with
  | some (i, _) => (i + 1) % 208
  | none => 0

/-- The sequence number of the life log's next record. -/
def State.lifeNextSeq (s : State) : Nat := match s.lifeNewest with
  | some (_, q) => (q + 1) % 2 ^ 32
  | none => 1

theorem lifeNextSeq_eq (s : State) : ((s.lifeNewest.map (·.2)).getD 0 + 1) % 2 ^ 32 = s.lifeNextSeq := by
  rw [State.lifeNextSeq]
  cases s.lifeNewest <;> rfl

theorem exec_lifeCommitDone {s : State} (hp : s.powered) (hruns : s.mrunning MA.LIFE_COMMIT 0xFF = true)
    (hgo : NvWrite.life ∉ s.ctl.lsio.nvWait) : exec .lifeCommitDone s = .next ((doAll [
      Prog.when (decide (s.lifeNext % 16 = 0)) (doAll [eraseFlash 0 (lifeAt s.lifeNext) 65536, lifeAdd 9 1]),
      poke 14 0 (lifeAt s.lifeNext) (lifeRecord s.lifeNextSeq s.ctl.health.lifeSnap), lifeAdd 8 1,
      ctl fun c => { c with health := { c.health with lifeSince := 0 } },
      wr LIFE.SINCE_S 0, showLife, wr LIFE.STATUS 0, int Pg.life 0 0, mend MA.LIFE_COMMIT 0xFF]).run s) := by
  refine (board_next _ hp).trans (congrArg _ ?_)
  rw [run_look]
  dsimp only
  rw [lifeNextSeq_eq, hruns, decide_eq_false hgo, Bool.not_false, Bool.and_self, when_true]
  rfl

/-! ## A second of the life log (R487, R488, R512) -/

/-- The second itself. -/
def lifeSecond (s : State) : Prog := doAll [
  ctl fun c => { c with health := { c.health with sysSec := c.health.sysSec + 1, lifeSince := c.health.lifeSince + 1 } },
  wr LIFE.SINCE_S (s.ctl.health.lifeSince + 1), lifeAdd 0 1]

/-- What a second adds to the other counters. -/
def lifeCounts (s : State) (t : Int) (watts : Nat) : Prog := doAll [
  setLife 10 (ofSigned 64 (max (toSigned 64 (s.life 10)) t)), setLife 11 (addSigned (s.life 11) t),
  Prog.when (decide (1360 < t)) (lifeAdd 12 1), Prog.when (decide (1680 < t)) (lifeAdd 13 1),
  lifeAdd (24 + s.pstate) 1, lifeAdd (32 + tjBin t) 1, lifeAdd (48 + pwrBin watts) 1,
  Prog.each ((List.range 64).filter fun l => !decide (s.fd (LANE.LANE_CTL l) 1 0 = 0)) fun l => lifeAdd (64 + l) 1]

/-- The average temperature is shown, and raised where it has passed its bound. -/
def lifeAverage (s : State) : Prog := get fun u => doAll [wr LIFE.TJ_AVG (ofSigned 16 u.tjAvg),
  Prog.when (decide (1360 < u.tjAvg) && !decide (1360 < s.tjAvg)) (int Pg.life 0 2)]

/-- Whether the device counts as warm at a temperature. -/
def State.warmAt (s : State) (t : Int) : Bool := if 1680 ≤ t then true else if t ≤ 1600 then false else s.ctl.boot.warm

/-- The pin that tells of a warm device follows. -/
def lifeWarm (s : State) (t : Int) : Prog := Prog.when (s.warmAt t != s.ctl.boot.warm) (doAll [
  ctl fun c => { c with boot := { c.boot with warm := s.warmAt t } }, emit (.pin 2 0 (!s.warmAt t))])

theorem exec_lifeSample {s : State} (tj : BitVec 16) (watts : Nat) (hp : s.powered) : exec (.lifeSample tj watts) s = .next (
    (lifeWarm s tj.toInt).run ((lifeAverage s).run ((wr LIFE.TJ_NOW tj.toNat).run
      ((lifeCounts s tj.toInt watts).run ((lifeSecond s).run s))))) := by
  refine (board_next _ hp).trans (congrArg _ ?_)
  rw [run_look, lifeSecond, lifeCounts, lifeAverage, lifeWarm]
  simp only [run_all_cons, run_all_nil, State.warmAt]

/-- What a second of the life log shows, and whether the device is warm. -/
def lifeShown (s : State) : Nat × Nat × Nat × Nat × Bool :=
  (s.ctl.health.sysSec, s.ctl.health.lifeSince, s.rd LIFE.SINCE_S, s.life 0, s.ctl.boot.warm)

/-- `t` shows of the second what `s` does. -/
def sameSecond (s t : State) : Prop := lifeShown t = lifeShown s

theorem composes_sameSecond : Composes sameSecond := composes_keep lifeShown

theorem sameSecond_setLife {i : Nat} (v : Nat) (hi : 0 ≠ i) : (setLife i v).within sameSecond := fun s => by
  have h0 : ((setLife i v).run s).life 0 = s.life 0 := tget_nset_other _ _ _ hi
  rw [sameSecond, lifeShown, h0]
  rfl

theorem sameSecond_lifeAdd {i : Nat} (n : Nat) (hi : 0 ≠ i) : (lifeAdd i n).within sameSecond := fun s => by
  have h0 : ((lifeAdd i n).run s).life 0 = s.life 0 :=
    tget_nmod_other 0 s.ctl.health.life (fun v => satAdd 64 v n) hi
  rw [sameSecond, lifeShown, h0]
  rfl

theorem sameSecond_wr {r : Reg} (v : Nat) (hr : LIFE.SINCE_S ≠ r) : (wr r v).within sameSecond := fun s => by
  rw [sameSecond, lifeShown, rd_wr_other s v hr]
  rfl

theorem sameSecond_int (p i b : Nat) : (int p i b).within sameSecond := fun s => by
  have h := side_int p i b s
  obtain ⟨_, _, _, _, _, _, _, _, hctl⟩ := h.ctl
  have hrd : ((int p i b).run s).rd LIFE.SINCE_S = s.rd LIFE.SINCE_S := h.copy .live _ (by simp [sideReg])
  rw [sameSecond, lifeShown, hrd, State.life, hctl]
  rfl

theorem sameSecond_lifeCounts (s : State) (t : Int) (watts : Nat) : (lifeCounts s t watts).within sameSecond := by
  refine composes_sameSecond.cons (sameSecond_setLife _ (by omega)) (composes_sameSecond.cons (sameSecond_setLife _ (by omega)) ?_)
  refine composes_sameSecond.cons (composes_sameSecond.when (sameSecond_lifeAdd _ (by omega)))
    (composes_sameSecond.cons (composes_sameSecond.when (sameSecond_lifeAdd _ (by omega))) ?_)
  refine composes_sameSecond.cons (sameSecond_lifeAdd _ (by omega)) (composes_sameSecond.cons (sameSecond_lifeAdd _ (by omega)) ?_)
  exact composes_sameSecond.cons (sameSecond_lifeAdd _ (by omega)) (composes_sameSecond.cons
    (composes_sameSecond.each fun l _ => sameSecond_lifeAdd _ (by omega)) composes_sameSecond.nil)

theorem sameSecond_lifeAverage (s : State) : (lifeAverage s).within sameSecond :=
  within_look fun _ => composes_sameSecond.cons (sameSecond_wr _ (by decide))
    (composes_sameSecond.cons (composes_sameSecond.when (sameSecond_int _ _ _)) composes_sameSecond.nil)

theorem tjNow_lifeAverage (s u : State) : ((lifeAverage s).run u).rd LIFE.TJ_NOW = u.rd LIFE.TJ_NOW := by
  have c : Composes fun s t : State => t.rd LIFE.TJ_NOW = s.rd LIFE.TJ_NOW := composes_keep fun s => s.rd LIFE.TJ_NOW
  refine within_look (R := fun s t => t.rd LIFE.TJ_NOW = s.rd LIFE.TJ_NOW) (fun _ => c.cons (fun v => rd_wr_other v _ (by decide))
    (c.cons (c.when fun v => (side_int Pg.life 0 2 v).copy .live _ (by simp [sideReg])) c.nil)) u

theorem lifeShown_lifeSecond (s : State) : lifeShown ((lifeSecond s).run s) = (s.ctl.health.sysSec + 1, s.ctl.health.lifeSince + 1,
    (s.ctl.health.lifeSince + 1) % 2 ^ 32, satAdd 64 (s.life 0) 1, s.ctl.boot.warm) := by
  have hlife : ((lifeSecond s).run s).life 0 = satAdd 64 (s.life 0) 1 :=
    tget_nmod_same 0 s.ctl.health.life 0 fun v => satAdd 64 v 1
  have hrd : ((lifeSecond s).run s).rd LIFE.SINCE_S = (s.ctl.health.lifeSince + 1) % 2 ^ 32 :=
    rd_wr_mod _ LIFE.SINCE_S _ (w := 32) le_rfl (by decide +kernel)
  rw [lifeShown, hlife, hrd]
  rfl

/-- The pin of a warm device leaves what the second shows. -/
theorem lifeWarm_frame (s u : State) (t : Int) : ((lifeWarm s t).run u).ctl.health = u.ctl.health ∧
    ((lifeWarm s t).run u).reg = u.reg ∧ (u.ctl.boot.warm = s.ctl.boot.warm → ((lifeWarm s t).run u).ctl.boot.warm = s.warmAt t) := by
  rw [lifeWarm]
  by_cases h : s.warmAt t = s.ctl.boot.warm
  · rw [bne_eq_false_iff_eq.mpr h, when_false, run_skip]
    exact ⟨rfl, rfl, fun hu => hu.trans h.symm⟩
  · rw [bne_iff_ne.mpr h, when_true]
    exact ⟨rfl, rfl, fun _ => rfl⟩

theorem exec_lifeSample_shows {s : State} (tj : BitVec 16) (watts : Nat) (hp : s.powered) : ∃ t, exec (.lifeSample tj watts) s = .next t ∧
    t.ctl.health.sysSec = s.ctl.health.sysSec + 1 ∧ t.ctl.health.lifeSince = s.ctl.health.lifeSince + 1 ∧
    t.rd LIFE.SINCE_S = (s.ctl.health.lifeSince + 1) % 2 ^ 32 ∧ t.rd LIFE.TJ_NOW = tj.toNat ∧ t.life 0 = satAdd 64 (s.life 0) 1 ∧
    t.ctl.boot.warm = s.warmAt tj.toInt := by
  refine ⟨_, exec_lifeSample tj watts hp, ?_⟩
  have htj := (tjNow_lifeAverage s _).trans (rd_wr_mod ((lifeCounts s tj.toInt watts).run ((lifeSecond s).run s)) LIFE.TJ_NOW tj.toNat
    (w := 16) (by omega) (by decide +kernel))
  have hsame := (composes_sameSecond.trans (sameSecond_lifeCounts s tj.toInt watts _) (composes_sameSecond.trans
    (sameSecond_wr (r := LIFE.TJ_NOW) tj.toNat (by decide) _) (sameSecond_lifeAverage s _))).trans (lifeShown_lifeSecond s)
  generalize (lifeAverage s).run ((wr LIFE.TJ_NOW tj.toNat).run ((lifeCounts s tj.toInt watts).run ((lifeSecond s).run s))) = u at htj hsame ⊢
  obtain ⟨hhealth, hreg, hwarm⟩ := lifeWarm_frame s u tj.toInt
  have hrd : ∀ r, ((lifeWarm s tj.toInt).run u).rd r = u.rd r := fun r => by rw [State.rd, State.copy, hreg]; rfl
  simp only [lifeShown, Prod.mk.injEq] at hsame
  obtain ⟨hsec, hsince, hshown, hlife, hu⟩ := hsame
  refine ⟨hhealth ▸ hsec, hhealth ▸ hsince, (hrd _).trans hshown, (hrd _).trans (htj.trans (Nat.mod_eq_of_lt tj.isLt)), ?_, hwarm hu⟩
  rw [State.life, hhealth]
  exact hlife

/-! ## The thermal trip, CNT_CLR and the TAP (R3, R496, R497, R512) -/

theorem exec_thermtrip {s : State} (hpwr : s.ctl.boot.pwrok = true) (hno : s.ctl.boot.tripped = false) : exec .thermtrip s =
    .next ((doAll [ctl fun c => { c with boot := { c.boot with tripped := true } }, emit (.pin 1 0 false)]).run s) := by
  refine (done_eq _ _).trans (congrArg _ ?_)
  rw [run_look, hpwr, hno, Bool.not_false, Bool.and_self, when_true]

/-- Register copies that are zeroed read 0, and every other as before. -/
theorem tget_zeroed (l : List (RKey × Word)) (s : State) (k : RKey) :
    tget k.reset ((Prog.each l fun e => .regSet e.1 0).run s).reg k = if k ∈ l.map (·.1) then 0 else tget k.reset s.reg k := by
  induction l generalizing s with
  | nil => rfl
  | cons e l ih =>
    have hzero : (0 : Word) &&& e.1.mask = 0 := BitVec.zero_and
    rw [run_each_cons, ih, regSet_reg, hzero, List.map_cons]
    by_cases hl : k ∈ l.map (·.1)
    · rw [if_pos hl, if_pos (List.mem_cons_of_mem _ hl)]
    · rw [if_neg hl]
      by_cases he : k = e.1
      · rw [if_pos (he ▸ List.mem_cons_self), he, tget_tset_same]
      · rw [if_neg (by simp only [List.mem_cons, he, hl, or_self, not_false_eq_true]), tget_tset_other _ _ _ _ _ he]

/-- An unlisted key reads the default. -/
theorem tget_unlisted {κ ν : Type} [DecidableEq κ] (d : ν) {t : List (κ × ν)} {k : κ} (h : k ∉ t.map (·.1)) : tget d t k = d := by
  have hfind : t.find? (fun e => decide (e.1 = k)) = none :=
    List.find?_eq_none.mpr fun e he hk => h (List.mem_map.mpr ⟨e, he, of_decide_eq_true hk⟩)
  rw [tget, hfind]

/-- No register of the peephole's page from 0x40 on has a reset value. -/
theorem resetAt_peep {o : Nat} (ho : 0x40 ≤ o) : resetAt Pg.peep o = 0 := by
  rw [resetAt, if_neg fun h => absurd h.1 (by decide), if_neg fun h => absurd h.1 (by decide), rowAt, if_neg (by omega)]
  cases hrow : findRow o (pageRows Pg.peep) with
  | none => rfl
  | some e =>
    have hzero : ∀ r ∈ pageRows Pg.peep, r.reset = 0 := by decide +kernel
    simp only [hzero e.1 (findRow_mem hrow).1]
    cases e.2 <;> rfl

/-- The register copies that CNT_CLR clears: the peephole's counters. -/
def isCounter (k : RKey) : Bool :=
  decide (k.bank = .live) && decide (k.page = Pg.peep) && decide (0x1000 ≤ k.off) && decide (k.off < 0x3000)

/-- The counters are cleared. -/
def clearCounters : Prog := get fun s => Prog.each (s.reg.filter fun e => isCounter e.1) fun e => .regSet e.1 0

theorem exec_cntClr {s : State} {a : Accessor} {v : Word} (hs : s.serves a Pg.peep) (hgo : tbit v.toNat 0 = true) :
    exec (.cntClr a v) s = .next (clearCounters.run s) := by
  refine (byWriter_next _ _ hs).trans (congrArg _ ?_)
  rw [run_look, hgo, when_true]
  rfl

theorem mem_ctl_clearCounters (s : State) : ((clearCounters.run s).mem, (clearCounters.run s).ctl) = (s.mem, s.ctl) :=
  within_look (R := fun s t : State => (t.mem, t.ctl) = (s.mem, s.ctl))
    (fun _ => (composes_keep fun s : State => (s.mem, s.ctl)).each fun _ _ _ => rfl) s

theorem tget_clearCounters (s : State) (k : RKey) : tget k.reset (clearCounters.run s).reg k =
    if isCounter k ∧ k ∈ s.reg.map (·.1) then 0 else tget k.reset s.reg k := by
  rw [clearCounters, run_look, tget_zeroed]
  refine if_congr ?_ rfl rfl
  simp only [List.mem_map, List.mem_filter]
  exact ⟨fun ⟨e, he, hk⟩ => hk ▸ ⟨he.2, e, he.1, rfl⟩, fun ⟨hc, e, he, hk⟩ => ⟨e, ⟨he, hk ▸ hc⟩, hk⟩⟩

theorem rd_clearCounters_counter (s : State) {r : Reg} (hpage : r.page = Pg.peep) (hlow : 0x1000 ≤ r.off) (hhigh : r.off < 0x3000) :
    (clearCounters.run s).rd r = 0 := by
  have hcounter : isCounter ⟨.live, r.page, r.inst, r.off⟩ = true := by simp [isCounter, hpage, hlow, hhigh]
  have hreset : RKey.reset ⟨.live, r.page, r.inst, r.off⟩ = 0 := by
    simp only [RKey.reset, hpage, resetAt_peep (by omega : 0x40 ≤ r.off)]
    rfl
  rw [State.rd, State.copy, tget_clearCounters]
  split_ifs with hlisted
  · rfl
  · rw [tget_unlisted _ fun hk => hlisted ⟨hcounter, hk⟩, hreset]
    rfl

theorem copy_clearCounters_other (s : State) {b : Bank} {r : Reg} (h : b ≠ .live ∨ r.page ≠ Pg.peep ∨ r.off < 0x1000 ∨ 0x3000 ≤ r.off) :
    (clearCounters.run s).copy b r = s.copy b r := by
  have hother : ¬ isCounter ⟨b, r.page, r.inst, r.off⟩ = true := by
    simp only [isCounter, Bool.and_eq_true, decide_eq_true_eq]
    rintro ⟨⟨⟨hb, hpage⟩, hlow⟩, hhigh⟩
    rcases h with h | h | h | h
    · exact h hb
    · exact h hpage
    · omega
    · omega
  rw [State.copy, tget_clearCounters, if_neg fun hc => hother hc.1]
  rfl

theorem exec_jtagInstruction {s : State} (i : Fin 4) (hpwr : s.ctl.boot.pwrok = true) : exec (.jtagInstruction i) s = .next ((emit (
    if i.val = 0 then .ctrlBus 20 0 (leBytes 4 s.idcode)
    else if i.val = 2 ∧ (decide (s.fd FUSE.BOOT_CFG 9 8 = 0) && !s.bit FUSE.BOOT_CFG 6) = true then .ctrlBus 22 0 []
    else .ctrlBus 21 0 [])).run s) := by
  refine (done_eq _ _).trans (congrArg _ ?_)
  rw [run_look]
  dsimp only
  rw [hpwr, when_true, apply_ite emit, apply_ite emit]

theorem says_lifeLogAndTap : Says.LifeLogAndTap := by
  unfold Says.LifeLogAndTap
  intro s
  refine ⟨exec_lifeCommitPeriod, fun a v hs => ⟨exec_lifeCommitRequest hs, exec_lifeCommitRequest_refused hs⟩, exec_lifeCommitDone,
    fun hp tj watts => exec_lifeSample_shows tj watts hp, fun hpwr hno => ⟨_, exec_thermtrip hpwr hno, rfl, rfl, rfl, rfl⟩,
    fun a v _ hs hgo => ⟨_, exec_cntClr hs hgo, fun r => rd_clearCounters_counter s, fun b r => copy_clearCounters_other s,
      congrArg Prod.fst (mem_ctl_clearCounters s), congrArg Prod.snd (mem_ctl_clearCounters s)⟩, fun hpwr i => exec_jtagInstruction i hpwr⟩

/-- Settles O60: the error log, the life log, the thermal trip, CNT_CLR and the TAP. -/
theorem errorLogLifeLogAndTap : Obligations.ErrorLogLifeLogAndTap := ⟨says_errorLog, says_lifeLogAndTap⟩

end Sys2Proof.Machine
end

section
/-! PROOF. What hearing a message of the pair leaves: a signal writes live registers alone, and keeps the list of committed ones. -/

namespace Sys2Proof.Machine

/-! ## Signals write live registers alone -/

/-- The listed copies of registers other than live ones, in their order. -/
def State.setRegs (s : State) : List (RKey × Word) := s.reg.filter fun e => !decide (e.1.bank = .live)

/-- Nothing but live registers has changed among the registers. -/
def sameSets (s t : State) : Prop := t.setRegs = s.setRegs

theorem composes_sameSets : Composes sameSets := composes_keep State.setRegs

theorem filter_tins_of_not {κ ν : Type} (lt : κ → κ → Bool) {p : κ × ν → Bool} {k : κ} {v : ν} (h : p (k, v) = false)
    (t : List (κ × ν)) : (tins lt k v t).filter p = t.filter p := by
  induction t with
  | nil => rw [tins, List.filter_cons_of_neg (by simp [h])]
  | cons e t ih =>
    rw [tins]
    split_ifs
    · rw [List.filter_cons_of_neg (by simp [h])]
    · rw [List.filter_cons, ih, List.filter_cons]

/-- A change at a key that a filter drops leaves what the filter keeps. -/
theorem filter_tset_of_not {κ ν : Type} [DecidableEq κ] [DecidableEq ν] (lt : κ → κ → Bool) (d : ν) {p : κ × ν → Bool} {k : κ} {v : ν}
    (h : ∀ w, p (k, w) = false) (t : List (κ × ν)) : (tset lt d t k v).filter p = t.filter p := by
  have hdel : (tdel t k).filter p = t.filter p := by
    rw [tdel, List.filter_filter]
    refine List.filter_congr fun e _ => ?_
    by_cases he : e.1 = k
    · rw [show e = (k, e.2) from Prod.ext he rfl, h, Bool.false_and]
    · rw [decide_eq_false he, Bool.not_false, Bool.and_true]
  rw [tset]
  split_ifs
  · exact hdel
  · rw [filter_tins_of_not lt (h v), hdel]

theorem sameSets_wr (r : Reg) (v : Nat) : (wr r v).within sameSets := fun _ =>
  filter_tset_of_not _ _ (fun _ => rfl) _

theorem sameSets_upd (f : Ctl → Ctl) : (Prog.upd f).within sameSets := fun _ => rfl

theorem sameSets_poke (sp i a : Nat) (l : List Byte) : (poke sp i a l).within sameSets := fun s => by
  rw [sameSets, State.setRegs, reg_poke]
  rfl

theorem sameSets_wrB (r : Reg) (i : Nat) (b : Bool) : (wrB r i b).within sameSets := within_look fun _ => sameSets_wr _ _

theorem sameSets_inc (r : Reg) : (inc r).within sameSets := within_look fun _ => sameSets_wr _ _

theorem sameSets_incW (r : Reg) (n : Nat) : (incW r n).within sameSets := within_look fun _ =>
  composes_sameSets.cons (sameSets_wr _ _) (composes_sameSets.cons (sameSets_wr _ _) composes_sameSets.nil)

theorem sameSets_firstError (p c r i : Nat) : (firstError p c r i).within sameSets :=
  composes_sameSets.cons (sameSets_inc _) (composes_sameSets.cons (within_look fun _ => within_ite (sameSets_wr _ _)
    (composes_sameSets.cons (sameSets_wr _ _) (composes_sameSets.cons (sameSets_wr _ _) composes_sameSets.nil))) composes_sameSets.nil)

theorem sameSets_loseReport (r : Report) : (loseReport r).within sameSets := within_look fun _ =>
  composes_sameSets.cons (sameSets_inc _) (composes_sameSets.cons (sameSets_wr _ _) (composes_sameSets.cons
    (composes_sameSets.each fun _ _ => sameSets_wr _ _) composes_sameSets.nil))

theorem sameSets_chanEvent (ch src : Nat) : (chanEvent ch src).within sameSets := within_look fun _ =>
  within_ite (sameSets_inc _) (within_ite (sameSets_upd _) (sameSets_upd _))

theorem sameSets_traceRecord (st ev key : Nat) : (traceRecord st ev key).within sameSets := by
  refine within_look fun _ => composes_sameSets.seq (sameSets_upd _) (within_look fun _ => composes_sameSets.cons (sameSets_poke _ _ _ _)
    (composes_sameSets.cons (sameSets_wr _ _) (composes_sameSets.cons (sameSets_upd _) (composes_sameSets.cons
      (composes_sameSets.when (composes_sameSets.cons (within_ite (sameSets_wrB _ _ _) (sameSets_wr _ _)) composes_sameSets.nil))
      composes_sameSets.nil))))

/-- Whatever signal starts it, a chain writes live registers alone. -/
theorem sameSets_chain (n : Nat) (g : Sig) : (chain n g).within sameSets := by
  have c := composes_sameSets
  induction n generalizing g with
  | zero => cases g <;> exact c.skip
  | succ n ih =>
    cases g with
    | int p i b =>
      refine within_look fun _ => within_ite c.skip (c.cons (sameSets_wrB _ _ _) (c.cons ?_ (c.cons (c.when (ih _)) c.nil)))
      cases intClass p b
      · exact c.skip
      · exact c.when (within_look fun _ => c.seq (sameSets_upd _) (ih _))
    | err p i k r info =>
      exact within_look fun _ => c.cons (sameSets_firstError _ _ _ _) (c.cons (sameSets_inc _) (c.cons (ih _) (c.cons
        (c.when (c.cons (sameSets_wr _ _) (c.cons (within_ite (sameSets_upd _) (c.cons (sameSets_loseReport _) (c.cons (ih _) c.nil)))
          c.nil))) c.nil)))
    | evt src =>
      exact within_look fun _ => within_ite c.skip (within_ite (ih _) (within_ite (ih _)
        (within_ite (c.seq (sameSets_upd _) (ih _)) (sameSets_upd _))))
    | raise src =>
      exact within_look fun _ => within_ite (within_ite (ih _) (sameSets_upd _)) (within_ite (sameSets_upd _)
        (within_ite (sameSets_chanEvent _ _) c.skip))
    | drop f => exact c.seq (sameSets_inc _) (ih _)
    | peep st ev key =>
      exact within_look fun _ => c.cons (c.each fun _ _ => c.cons (sameSets_incW _ _) (c.cons (within_look fun _ => c.when
        (c.cons (sameSets_wrB _ _ _) (c.cons (sameSets_upd _) (c.cons (ih _) c.nil)))) c.nil)) (c.cons (c.when (ih _)) c.nil)
    | trace st ev key =>
      exact within_look fun _ => c.when (c.cons (sameSets_traceRecord _ _ _) (c.cons (within_look fun _ => c.when (ih _)) c.nil))

/-- The volumes that are on, by the copies of registers other than live ones. -/
theorem volsOn_eq (s : State) : s.volsOn = ((s.setRegs.filterMap fun e =>
    if e.1.bank = .committed ∧ e.1.page = 29 ∧ e.1.off = 0x44 then some e.1.inst else none).filter fun v => s.volEn v).dedup := by
  rw [State.setRegs, List.filterMap_filter, State.volsOn]
  congr 3
  funext e
  by_cases hlive : e.1.bank = .live
  · simp [hlive]
  · simp [hlive]

/-! ## What hearing a message leaves (R464, R467) -/

/-- `u` differs from `s` at most in what a signal touches, in the peer's epoch and in the streams of the pair. -/
structure Hears (s u : State) : Prop where
  set : ∀ r, u.copy .committed r = s.copy .committed r
  rd : ∀ r : Reg, ¬ sideReg anyPage ⟨.live, r.page, r.inst, r.off⟩ → r ≠ PAIR.PEER_EPOCH → u.rd r = s.rd r
  sets : sameSets s u
  rings : u.ctl.rings = s.ctl.rings
  blk : u.ctl.blk = s.ctl.blk
  pair : ∃ l, u.ctl.pair = { s.ctl.pair with streams := l }

theorem Hears.trans {s t u : State} (h : Hears s t) (g : Hears t u) : Hears s u := by
  obtain ⟨l, hl⟩ := h.pair
  obtain ⟨l', hl'⟩ := g.pair
  exact ⟨fun r => (g.set r).trans (h.set r), fun r hr hne => (g.rd r hr hne).trans (h.rd r hr hne),
    composes_sameSets.trans h.sets g.sets, g.rings.trans h.rings, g.blk.trans h.blk, l', by rw [hl', hl]⟩

theorem hears_peerEpoch (s : State) (v : Nat) : Hears s ((wr PAIR.PEER_EPOCH v).run s) :=
  ⟨fun _ => copy_wr_other s v (by simp), fun _ _ hne => rd_wr_other s v hne, sameSets_wr _ _ s, rfl, rfl, _, rfl⟩

theorem hears_peep (s : State) (st ev key : Nat) : Hears s ((peep st ev key).run s) := by
  have h := side_peep st ev key s
  obtain ⟨_, _, _, _, _, _, _, _, hctl⟩ := h.ctl
  exact ⟨fun r => h.copy _ _ (by simp [sideReg]), fun r hr _ => h.copy .live r hr, sameSets_chain _ _ s, by rw [hctl], by rw [hctl],
    s.ctl.pair.streams, by rw [hctl]⟩

theorem hears_modStream (s : State) (c : Nat) (f : PStream → PStream) : Hears s ((modStream c f).run s) :=
  ⟨fun _ => rfl, fun _ _ _ => rfl, rfl, rfl, rfl, _, rfl⟩

theorem hears_heard (s : State) (epoch : Word) (c : Nat) : Hears s ((heard epoch c).run s) := by
  rw [heard, run_all_cons, run_all_cons, run_all_cons, run_all_nil]
  exact ((hears_peerEpoch s _).trans (hears_peep _ _ _ _)).trans (hears_modStream _ _ _)

section Heard

variable {s u : State} (h : Hears s u)
include h

theorem Hears.status : u.rd PAIR.STATUS = s.rd PAIR.STATUS := h.rd _ (by simp [sideReg]) (by decide)

theorem Hears.pairState : u.pairState = s.pairState := by rw [State.pairState, State.fd, h.status, State.pairState, State.fd]

theorem Hears.pairEn : u.pairEn = s.pairEn := by rw [State.pairEn, State.cbit, State.cfg, h.set]; rfl

theorem Hears.epoch : u.rd PAIR.EPOCH = s.rd PAIR.EPOCH := h.rd _ (by simp [sideReg]) (by decide)

theorem Hears.asked : u.ctl.pair.asked = s.ctl.pair.asked := by
  obtain ⟨_, hl⟩ := h.pair
  rw [hl]

theorem Hears.mine : u.ctl.pair.mine = s.ctl.pair.mine := by
  obtain ⟨_, hl⟩ := h.pair
  rw [hl]

theorem Hears.held : u.ctl.pair.held = s.ctl.pair.held := by
  obtain ⟨_, hl⟩ := h.pair
  rw [hl]

theorem Hears.cfg (r : Reg) : u.cfg r = s.cfg r := h.set r

theorem Hears.cfd (r : Reg) (hi lo : Nat) : u.cfd r hi lo = s.cfd r hi lo := by rw [State.cfd, h.cfg, State.cfd]

theorem Hears.volBs (v : Nat) : u.volBs v = s.volBs v := by rw [State.volBs, State.cbit, h.cfg, State.volBs, State.cbit]

theorem Hears.volOfExt (g : Nat) : u.volOfExt g = s.volOfExt g := by
  have hen : ∀ v, u.volEn v = s.volEn v := fun v => by rw [State.volEn, State.cbit, h.cfg, State.volEn, State.cbit]
  have hon : u.volsOn = s.volsOn := by
    rw [volsOn_eq, volsOn_eq, h.sets]
    simp only [hen]
  have hfirst : ∀ v, u.volFirst v = s.volFirst v := fun v => by rw [State.volFirst, State.cfgW, h.cfg, h.cfg]; rfl
  have hexts : ∀ v, u.volExts v = s.volExts v := fun v => by rw [State.volExts, State.cfgW, h.cfg, h.cfg]; rfl
  simp only [State.volOfExt, hon, hfirst, hexts]

theorem Hears.volFirst (v : Nat) : u.volFirst v = s.volFirst v := by rw [State.volFirst, State.cfgW, h.cfg, h.cfg]; rfl

theorem Hears.pf : u.pf = s.pf := by
  have hrd : u.rd SUPPLY.PF_STATE = s.rd SUPPLY.PF_STATE := h.rd _ (by simp [sideReg]) (by decide)
  rw [State.pf, State.fd, hrd, State.pf, State.fd]

/-! Whether a mirrored write goes on (R380, R472) rests on nothing that hearing it changes. -/

theorem Hears.ringConsumer (r : Nat) : u.ringConsumer r = s.ringConsumer r := h.cfd _ _ _

theorem Hears.mirrorNeeds (m : StageMsg) : u.mirrorNeeds m = s.mirrorNeeds m := by
  simp only [State.mirrorNeeds, h.volBs]

theorem Hears.promised : u.promised = s.promised := by
  simp only [State.promised, State.needs, h.rings, h.ringConsumer, h.volBs]

theorem Hears.dirtyWaiters : u.dirtyWaiters = s.dirtyWaiters := by
  simp only [State.dirtyWaiters, h.rings, h.ringConsumer]

theorem Hears.effMiB : u.effMiB = s.effMiB := by
  have hctl : u.rd SUPPLY.DUMP_CTL = s.rd SUPPLY.DUMP_CTL := h.rd _ (by simp [sideReg]) (by decide)
  have hrate : u.rd SUPPLY.DUMP_RATE = s.rd SUPPLY.DUMP_RATE := h.rd _ (by simp [sideReg]) (by decide)
  have hus : u.rd SUPPLY.HOLDUP_US = s.rd SUPPLY.HOLDUP_US := h.rd _ (by simp [sideReg]) (by decide)
  have hcfg : u.rd BLKF.STAGE_CFG = s.rd BLKF.STAGE_CFG := h.rd _ (by simp [sideReg]) (by decide)
  have henforced : u.enforced = s.enforced := by simp only [State.enforced, State.bit, hctl, hrate]
  have hholdup : u.holdupMiB = s.holdupMiB := by simp only [State.holdupMiB, State.fd, hus, hrate]
  have hdirty : u.dirtyMiB = s.dirtyMiB := by simp only [State.dirtyMiB, State.fd, hcfg]
  rw [State.effMiB, henforced, hholdup, hdirty, State.effMiB]

theorem Hears.mirrorGoes (m : StageMsg) : u.mirrorGoes m = s.mirrorGoes m := by
  have hused : u.rd BLKF.STAGE_USED = s.rd BLKF.STAGE_USED := h.rd _ (by simp [sideReg]) (by decide)
  simp only [State.mirrorGoes, State.mirrorFits, h.held, h.mirrorNeeds, h.dirtyWaiters, h.promised, h.effMiB, hused]

end Heard

end Sys2Proof.Machine
end

section
/-! PROOF. Messages of the pair (R464, R467, R468, R472, R473, R475, R476). -/

namespace Sys2Proof.Machine

/-! ## A message in order (R464, R467) -/

section Order

variable {s : State} {seq epoch : Word} {c : Nat} {late : State → Bool} {k : Prog}

/-- A message of this unit's epoch shows it, and is taken. -/
theorem run_epochCheck (hen : s.pairEn = true)
    (he : epoch.toNat = s.rd PAIR.EPOCH ∨ (s.pairState = prJoining ∧ s.ctl.pair.admEpoch = some epoch.toNat)) :
    (epochCheck epoch.toNat k).run s = k.run ((wr PAIR.PEER_EPOCH epoch.toNat).run s) := by
  rw [epochCheck, run_look, if_neg (by rw [hen]; decide), if_pos he, run_all_cons, run_all_cons, run_all_nil]

/-- The message expected is executed, and acknowledged unless its acknowledgement comes late. -/
theorem run_rxReliable (hseq : seqDiff seq.toNat (s.stream c).expect = 0) : (rxReliable c seq.toNat late k).run s =
    (Prog.when (!late s) (sendPairAck c seq.toNat)).run (k.run ((doAll [peep 9 1 c,
      modStream c fun x => { x with expect := (x.expect + 1) % 2 ^ 32, naked := none }]).run s)) := by
  rw [rxReliable, run_look]
  dsimp only
  rw [if_pos hseq, run_all_last, run_all_cons, run_all_cons, run_all_cons, run_all_cons, run_all_nil, run_all_cons, run_all_cons,
    run_all_nil]

/-- A message in order, once its epoch has been shown. -/
theorem run_rxHeard (hseq : seqDiff seq.toNat (s.stream c).expect = 0) :
    (rxReliable c seq.toNat late k).run ((wr PAIR.PEER_EPOCH epoch.toNat).run s) =
      (Prog.when (!late ((wr PAIR.PEER_EPOCH epoch.toNat).run s)) (sendPairAck c seq.toNat)).run (k.run ((heard epoch c).run s)) := by
  rw [run_rxReliable (s := (wr PAIR.PEER_EPOCH epoch.toNat).run s) hseq, heard, run_all_cons (wr PAIR.PEER_EPOCH epoch.toNat)]

/-- A message that is expected does what it says after it was heard. -/
theorem run_expected (h : s.expects c seq epoch) : (epochCheck epoch.toNat (rxReliable c seq.toNat late k)).run s =
    (Prog.when (!late ((wr PAIR.PEER_EPOCH epoch.toNat).run s)) (sendPairAck c seq.toNat)).run (k.run ((heard epoch c).run s)) := by
  obtain ⟨_, hen, hseq, he⟩ := h
  rw [run_epochCheck hen he, run_rxHeard hseq]

/-- A message that is acknowledged when it has acted. -/
theorem run_acknowledged (h : s.expects c seq epoch) : (epochCheck epoch.toNat (rxReliable c seq.toNat (fun _ => false) k)).run s =
    (doAll [heard epoch c, k, sendPairAck c seq.toNat]).run s := by
  rw [run_expected h, Bool.not_false, when_true, run_all_cons, run_all_cons, run_all_cons, run_all_nil]

end Order

theorem run_all_middle (p r : Prog) (l : List Prog) (s : State) : (doAll [p, doAll l, r]).run s = (doAll (p :: (l ++ [r]))).run s := by
  rw [run_all_cons, run_all_cons, run_all_cons, run_all_nil, run_all_cons, run_all_append, run_all_cons, run_all_nil]

/-! ## HELLO (R467, R468, R476) -/

section Hello

variable {s : State} {seq epoch : Word} (unit : Fin 2) (st : Fin 6) (surv : Bool) (adm : Option Bool)

/-- Whether a HELLO is the message expected, or one that an admission takes whatever its epoch. -/
def State.takesHello (s : State) (seq epoch : Word) : Prop :=
  s.expects clsMgmt seq epoch ∨ s.powered ∧ s.admits epoch.toNat = true ∧ seqDiff seq.toNat (s.stream clsMgmt).expect = 0

/-- A HELLO in order acts once it was heard. -/
theorem exec_helloRx (h : s.takesHello seq epoch) : exec (.helloRx seq epoch unit st surv adm) s = .next ((doAll [
    heard epoch clsMgmt, helloActs epoch.toNat unit.val surv adm, sendPairAck clsMgmt seq.toNat]).run s) := by
  have hp : s.powered := h.elim (·.1) (·.1)
  refine (board_next _ hp).trans (congrArg _ ?_)
  rw [run_look]
  dsimp only
  by_cases hadm : s.admits epoch.toNat = true
  · have hseq : seqDiff seq.toNat (s.stream clsMgmt).expect = 0 := h.elim (·.2.2.1) (·.2.2)
    rw [if_pos hadm, run_all_cons, run_all_cons, run_all_nil, run_rxHeard hseq, Bool.not_false, when_true, run_all_cons, run_all_cons,
      run_all_cons, run_all_nil]
  · rw [if_neg hadm]
    exact run_acknowledged (h.resolve_right fun e => hadm e.2.1)

variable {u : State} (hu : Hears s u)
include hu

theorem run_helloActs_same (hunit : unit.val = s.cfd PAIR.CFG 1 1) (hasked : s.ctl.pair.asked = 0) :
    (helloActs epoch.toNat unit.val surv none).run u =
      (doAll [wrB PAIR.STATUS 6 surv, modPair fun p => { p with clash := true }]).run u := by
  rw [helloActs, run_look]
  dsimp only
  rw [hu.cfd, hu.asked, decide_eq_true hunit, decide_eq_false (not_not_intro hasked), Bool.and_false, when_false, Bool.not_true, Bool.false_and,
    Bool.false_and, Bool.false_and, Bool.false_and, if_neg Bool.false_ne_true]
  simp only [run_all_cons, run_all_nil, run_skip]

theorem run_helloActs_refused (hunit : unit.val = s.cfd PAIR.CFG 1 1) (hasked : s.ctl.pair.asked ≠ 0) :
    (helloActs epoch.toNat unit.val surv none).run u = (doAll [wrB PAIR.STATUS 6 surv, modPair fun p => { p with clash := true },
      int Pg.pair 0 2, wrF PAIR.RESYNC_STATUS 31 16 ST.BAD_FIELD]).run u := by
  rw [helloActs, run_look]
  dsimp only
  rw [hu.cfd, hu.asked, decide_eq_true hunit, decide_eq_true hasked, Bool.and_self, when_true, Bool.not_true, Bool.false_and,
    Bool.false_and, Bool.false_and, Bool.false_and, if_neg Bool.false_ne_true]
  simp only [run_all_cons, run_all_nil, run_skip]

theorem run_helloActs_other (hunit : unit.val ≠ s.cfd PAIR.CFG 1 1) : (helloActs epoch.toNat unit.val surv adm).run u = (doAll [
    wrB PAIR.STATUS 6 surv, modPair fun p => { p with clash := false },
    if surv && s.bit PAIR.STATUS 5 && decide (epoch.toNat = s.rd PAIR.EPOCH) && decide (s.cfd PAIR.CFG 1 1 = 1) then enterFenced 3
    else match adm with
      | some true => doAll [modPair fun p => { p with theirs := true },
          Prog.when (s.ctl.pair.mine && decide (s.pairState ≠ prJoining)) enterJoining]
      | some false => Prog.when (decide (s.ctl.pair.asked ≠ 0)) (endAdmission ST.CONFLICT)
      | none => .skip]).run u := by
  have hbit : u.bit PAIR.STATUS 5 = s.bit PAIR.STATUS 5 := by rw [State.bit, hu.status, State.bit]
  rw [helloActs, run_look]
  dsimp only
  rw [hu.cfd, hu.asked, hu.mine, hu.pairState, hu.epoch, hbit, decide_eq_false hunit, Bool.false_and, when_false, Bool.not_false,
    Bool.true_and]
  simp only [run_all_cons, run_skip] <;> rfl

end Hello

section Hellos

variable {s : State} {seq epoch : Word} (h : s.takesHello seq epoch) (unit : Fin 2) (st : Fin 6) (surv : Bool)
include h

/-- What a HELLO does, by what it does once it was heard. -/
theorem exec_helloRx_of {adm : Option Bool} {l : List Prog}
    (hl : ∀ u, Hears s u → (helloActs epoch.toNat unit.val surv adm).run u = (doAll l).run u) :
    exec (.helloRx seq epoch unit st surv adm) s =
      .next ((doAll (heard epoch clsMgmt :: (l ++ [sendPairAck clsMgmt seq.toNat]))).run s) := by
  rw [exec_helloRx unit st surv adm h, run_all_cons, run_all_cons, hl _ (hears_heard s epoch clsMgmt), run_all_cons, run_all_nil,
    run_all_cons, run_all_append, run_all_cons, run_all_nil]

end Hellos

/-! ## Fences, heartbeats and mirrored writes (R467, R469, R472) -/

theorem exec_fenceOrderRx {s : State} {seq epoch : Word} (hp : s.powered) (hen : s.pairEn = true) (hnew : s.rd PAIR.EPOCH < epoch.toNat) :
    exec (.fenceOrderRx seq epoch) s = .next ((doAll [wr PAIR.PEER_EPOCH epoch.toNat, enterFenced 1,
      rxReliable clsMgmt seq.toNat (fun _ => false) .skip]).run s) := by
  refine (board_next _ hp).trans (congrArg _ ?_)
  rw [run_look]
  dsimp only
  rw [hen, decide_eq_true hnew, Bool.and_self, if_pos rfl]

theorem exec_heartbeatRx {s : State} {epoch : Word} (hp : s.powered) (hen : s.pairEn = true) (he : epoch.toNat = s.rd PAIR.EPOCH)
    (hbeats : s.beats = true) : exec (.heartbeatRx epoch) s =
      .next ((doAll [wr PAIR.PEER_EPOCH epoch.toNat, inc PAIR.HB_RX_CNT, restartDead]).run s) := by
  have hbeats' : ((wr PAIR.PEER_EPOCH epoch.toNat).run s).beats = true := by
    rwa [State.beats, (hears_peerEpoch s _).pairState]
  refine (board_next _ hp).trans (congrArg _ ?_)
  rw [run_epochCheck hen (.inl he), run_look, hbeats', when_true, run_all_cons (wr PAIR.PEER_EPOCH epoch.toNat)]

section Mirror

variable {s : State} {seq epoch : Word} {m : StageMsg} (h : s.expects clsStage seq epoch) (hr : s.runsBelow 4)
include h hr

/-- A STAGE message is recorded and acknowledged, or held and acknowledged later. -/
theorem exec_stageMessageRx : exec (.stageMessageRx seq epoch m) s = .next (
    (Prog.when (s.mirrorGoes m) (sendPairAck clsStage seq.toNat)).run ((if s.mirrorGoes m then recordMirror m else doAll [
      modPair fun p => { p with held := p.held ++ [(seq.toNat, s.ctl.rings.nextWork, m)] },
      Prog.when (decide (s.mirrorNeeds m ≠ 0)) (doAll [inc BLKF.DIRTY_WAIT_CNT, int Pg.blkf 0 1])]).run ((heard epoch clsStage).run s))) := by
  have hu := hears_heard s epoch clsStage
  refine (live_next _ hr).trans (congrArg _ ?_)
  rw [run_expected h, (hears_peerEpoch s _).mirrorGoes, Bool.not_not, run_look, hu.mirrorGoes, hu.rings, hu.mirrorNeeds]

theorem exec_stageMessageRx_goes (hgoes : s.mirrorGoes m = true) : exec (.stageMessageRx seq epoch m) s = .next ((doAll [
    heard epoch clsStage, recordMirror m, sendPairAck clsStage seq.toNat]).run s) := by
  rw [exec_stageMessageRx h hr, hgoes, when_true, if_pos rfl, run_all_cons, run_all_cons, run_all_cons, run_all_nil]

theorem exec_stageMessageRx_held (hstays : s.mirrorGoes m = false) : exec (.stageMessageRx seq epoch m) s = .next ((doAll [
    heard epoch clsStage, modPair fun p => { p with held := p.held ++ [(seq.toNat, s.ctl.rings.nextWork, m)] },
    Prog.when (decide (s.mirrorNeeds m ≠ 0)) (doAll [inc BLKF.DIRTY_WAIT_CNT, int Pg.blkf 0 1])]).run s) := by
  rw [exec_stageMessageRx h hr, hstays, when_false, run_skip, if_neg (by decide), run_all_cons (heard epoch clsStage)]

end Mirror

section Dirty

variable {s : State} (hr : s.runsBelow 4)
include hr

theorem exec_dirtyWaitRelease_mirrored {q n : Nat} {m : StageMsg} {l : List (Nat × Nat × StageMsg)}
    (hheld : s.ctl.pair.held = (q, n, m) :: l) (hfirst : ∀ e, s.dirtyWaiters.head? = some e → n ≤ e.1) (hfits : s.mirrorFits m = true) :
    exec .dirtyWaitRelease s = .next ((doAll [
      modPair fun p => { p with held := l }, recordMirror m, sendPairAck clsStage q]).run s) := by
  have hnone : ¬ (s.dirtyWaiters.head?.any fun e => decide (e.1 < n)) = true := by
    rw [Option.any_eq_true]
    rintro ⟨e, he, hlt⟩
    exact absurd (hfirst e he) (Nat.not_le.mpr (of_decide_eq_true hlt))
  refine (live_next _ hr).trans (congrArg _ ?_)
  rw [run_look, hheld]
  dsimp only
  rw [if_neg hnone, hfits, when_true]

theorem exec_dirtyWaitRelease_command {id : Nat} {w : Work} {l : List (Nat × Work)} (hwaits : s.dirtyWaiters = (id, w) :: l)
    (hfirst : ∀ e, s.ctl.pair.held.head? = some e → id < e.2.1) (hfits : s.dirtyFits w = true) :
    exec .dirtyWaitRelease s = .next ((doAll [modWork id fun x => { x with aux := 2, stage := 3 },
      Prog.when (decide (w.typ = btWrite)) (gather id w.fn w.pieces 0)]).run s) := by
  have hrelease : releaseDirty.run s = (gatherBlock id w).run s := by
    rw [releaseDirty, run_look, hwaits]
    dsimp only
    rw [hfits, when_true]
  refine (live_next _ hr).trans (congrArg _ ?_)
  rw [run_look]
  cases hheld : s.ctl.pair.held with
  | nil => exact hrelease
  | cons e t =>
    obtain ⟨q, n, m⟩ := e
    have hlt : id < n := hfirst (q, n, m) (by rw [hheld]; rfl)
    dsimp only
    rw [if_pos (by rw [hwaits]; exact decide_eq_true hlt)]
    exact hrelease

end Dirty

/-! ## Journal, copies and notifications (R473, R475, R476) -/

theorem exec_journalMessageRx {s : State} {seq epoch : Word} (h : s.expects clsJournal seq epoch) (l : List (Nat × Nat)) :
    exec (.journalMessageRx seq epoch l) s = .next ((doAll [heard epoch clsJournal,
      modPair fun p => { p with orders := p.orders ++ [l] }, nextOrder, sendPairAck clsJournal seq.toNat]).run s) := by
  refine (board_next _ h.1).trans (congrArg _ ?_)
  rw [run_acknowledged h]
  exact run_all_middle ..

/-- A copy of one extent, taken in state `s`. -/
def takesCopy (s : State) (g : Nat) (data : Option (List Byte)) : Prog := match s.volOfExt g, data with
  | some v, some d =>
    let off := (g - s.volFirst v) * 65536
    let q := s.ctl.blk.seq + 1
    Prog.when (decide (s.pf = 0)) (stageData off (some (slice d 0 65536)) fun room => doAll [
      modBlk fun b => { b with
        seq := q
        recs := ⟨q, v, 0, none, off / s.volBs v, 65536, false, 0, false, false, some 0⟩ :: b.recs
        pieces := ⟨q, v, off / 262144, off, 65536, some (slice d 0 65536), none, room, true⟩ :: b.pieces },
      stageRecord q v 0 (off / s.volBs v) 65536 false, showStage,
      get fun t => wantPieces (t.ctl.blk.pieces.filter fun p => decide (p.seq = q))])
  | _, _ => .skip

/-- What a copy does rests on nothing that hearing it changes. -/
theorem takesCopy_of_hears {s u : State} (h : Hears s u) (g : Nat) (data : Option (List Byte)) : takesCopy u g data = takesCopy s g data := by
  simp only [takesCopy, h.volOfExt, h.volFirst, h.blk, h.pf, h.volBs]

theorem exec_resyncMessageRx {s : State} {seq epoch : Word} (h : s.expects clsResync seq epoch) (g : Nat) (d : Option (List Byte)) :
    exec (.resyncMessageRx seq epoch g d) s =
      .next ((doAll [heard epoch clsResync, takesCopy s g d, sendPairAck clsResync seq.toNat]).run s) := by
  have hcopy : (get fun t => takesCopy t g d).run ((heard epoch clsResync).run s) = (takesCopy s g d).run ((heard epoch clsResync).run s) := by
    rw [run_look, takesCopy_of_hears (hears_heard s epoch clsResync)]
  refine (board_next _ h.1).trans (congrArg _ ?_)
  refine (run_acknowledged h (k := get fun t => takesCopy t g d)).trans ?_
  simp only [run_all_cons, run_all_nil, hcopy]

theorem exec_notificationMirrorRx {s : State} {seq epoch : Word} (h : s.expects clsMgmt seq epoch) {pipe : Fin 4} (b : List Byte)
    (hon : s.bit (FWD.NOTIFY_CTL.of pipe.val) 0 = true) : exec (.notificationMirrorRx seq epoch pipe b) s = .next ((doAll [
      heard epoch clsMgmt, putNotify pipe.val (slice (splice b 18 (leBytes 2 (leAt b 18 2 % 32768 + 32768))) 0 32),
      sendPairAck clsMgmt seq.toNat]).run s) := by
  have hon' : ((heard epoch clsMgmt).run s).bit (FWD.NOTIFY_CTL.of pipe.val) 0 = true := by
    have hrd : ((heard epoch clsMgmt).run s).rd (FWD.NOTIFY_CTL.of pipe.val) = s.rd (FWD.NOTIFY_CTL.of pipe.val) :=
      (hears_heard s epoch clsMgmt).rd _ (by simp [sideReg, Reg.of]) fun e =>
        (show ¬ (22 : Nat) = 35 by decide) (congrArg Reg.page e)
    rwa [State.bit, hrd]
  refine (board_next _ h.1).trans (congrArg _ ?_)
  rw [run_acknowledged h, run_all_cons, run_all_cons, run_look, hon', when_true, run_all_cons (heard epoch clsMgmt), run_all_cons (putNotify _ _)]

/-! ## Acknowledgements (R464, R472) -/

section Acks

variable {s : State} {epoch : Word} (hp : s.powered) (hen : s.pairEn = true) (he : epoch.toNat = s.rd PAIR.EPOCH) (upto : Word)
include hp hen he

theorem exec_stageAckRx : exec (.stageAckRx epoch upto) s = .next ((doAll [wr PAIR.PEER_EPOCH epoch.toNat, get fun s => doAll [
    Prog.each ((s.stream clsStage).kept.filter fun e => decide (seqDiff e.1 upto.toNat ≤ 0)) (fun e =>
      match e.2 with
      | .stage m => get fun t => match t.rec? m.seq with
        | some r => doAll [modRec m.seq fun x => { x with waitPeer := false },
            Prog.when (r.waitPeer && !r.placed) (ackRec m.seq false)]
        | none => .skip
      | _ => .skip),
    ackStream clsStage upto.toNat]]).run s) := by
  refine (board_next _ hp).trans (congrArg _ ?_)
  rw [run_epochCheck hen (.inl he), run_all_cons, run_all_cons, run_all_nil] <;> rfl

theorem exec_pairAckRx {c : Fin 6} (hc : c.val ∈ [clsMgmt, clsJournal, clsResync]) : exec (.pairAckRx c epoch upto) s =
    .next ((doAll [wr PAIR.PEER_EPOCH epoch.toNat, ackStream c.val upto.toNat]).run s) := by
  refine (board_next _ hp).trans (congrArg _ ?_)
  rw [run_epochCheck hen (.inl he), decide_eq_true hc, when_true, run_all_cons, run_all_cons, run_all_nil]

theorem exec_pairNakRx {c : Fin 6} (hc : c.val ∈ [clsMgmt, clsStage, clsJournal, clsResync]) : exec (.pairNakRx c epoch upto) s =
    .next ((doAll [wr PAIR.PEER_EPOCH epoch.toNat, inc PAIR.RETX_CNT, resendStream c.val upto.toNat]).run s) := by
  refine (board_next _ hp).trans (congrArg _ ?_)
  rw [run_epochCheck hen (.inl he), decide_eq_true hc, when_true, run_all_cons (wr PAIR.PEER_EPOCH epoch.toNat)]

end Acks

theorem says_pairMessagesAct : Says.PairMessagesAct := by
  unfold Says.PairMessagesAct
  intro s seq epoch
  refine ⟨fun h unit st surv adm => ⟨fun hunit hasked hadm => ?_, fun hunit hasked hadm => ?_, fun hunit => ?_⟩,
    exec_fenceOrderRx, exec_heartbeatRx, fun h hr m => ⟨exec_stageMessageRx_goes h hr, exec_stageMessageRx_held h hr⟩,
    fun hr q n m l => exec_dirtyWaitRelease_mirrored hr, fun hr id w l => exec_dirtyWaitRelease_command hr,
    exec_journalMessageRx, exec_resyncMessageRx, fun h pipe b => exec_notificationMirrorRx h b,
    fun hp hen he upto => ⟨exec_stageAckRx hp hen he upto, fun c => exec_pairAckRx hp hen he upto, fun c => exec_pairNakRx hp hen he upto⟩⟩
  · subst hadm
    exact exec_helloRx_of h unit st surv fun u hu => run_helloActs_same unit surv hu hunit hasked
  · subst hadm
    exact exec_helloRx_of h unit st surv fun u hu => run_helloActs_refused unit surv hu hunit hasked
  · exact exec_helloRx_of h unit st surv fun u hu => run_helloActs_other unit surv adm hu hunit

/-- Settles O52: messages of the pair act in order and are acknowledged. -/
theorem pairMessagesAct : Obligations.PairMessagesAct := says_pairMessagesAct

end Sys2Proof.Machine
end

section
/-! PROOF. The pair's link, heartbeats and time, and how pairs form and join (R462 to R466, R469, R470, R474, R476, R477). -/

namespace Sys2Proof.Machine

/-! ## The link (R462, R464) -/

section Link

variable {s : State} (hp : s.powered)
include hp

theorem exec_xindaordLinkDown (hup : s.pairUp = true) : exec .xindaordLinkDown s = .next (pairDown.run s) := by
  refine (board_next _ hp).trans (congrArg _ ?_)
  rw [run_look, hup, when_true]

/-- A link whose one group of lanes is whole comes up, NARROW where the other is not. -/
theorem exec_xindaordLinkUp (hdown : s.pairUp = false) (hclk : s.clockRuns 3 = true) (bad : Fin 256) : exec (.xindaordLinkUp bad) s =
    .next ((Prog.when (decide (bad.val % 16 = 0) || decide (bad.val / 16 = 0)) (doAll [wrB PAIR.STATUS 3 true,
      wrB PAIR.STATUS 4 (!(decide (bad.val % 16 = 0) && decide (bad.val / 16 = 0))), pumpStreams])).run s) := by
  refine (board_next _ hp).trans (congrArg _ ?_)
  rw [run_look]
  dsimp only
  rw [hdown, hclk, Bool.not_false, Bool.and_self, Bool.true_and]

theorem exec_xindaordLinkUp_comes (hdown : s.pairUp = false) (hclk : s.clockRuns 3 = true) {bad : Fin 256}
    (hgroup : bad.val % 16 = 0 ∨ bad.val / 16 = 0) : exec (.xindaordLinkUp bad) s = .next ((doAll [
      wrB PAIR.STATUS 3 true, wrB PAIR.STATUS 4 (decide (bad.val ≠ 0)), pumpStreams]).run s) := by
  have hnarrow : (!(decide (bad.val % 16 = 0) && decide (bad.val / 16 = 0))) = decide (bad.val ≠ 0) := by
    rw [← Bool.decide_and, ← decide_not]
    exact decide_eq_decide.mpr (by omega)
  rw [exec_xindaordLinkUp hp hdown hclk, hnarrow, ← Bool.decide_or, decide_eq_true hgroup, when_true]

theorem exec_xindaordLinkUp_stays (hdown : s.pairUp = false) (hclk : s.clockRuns 3 = true) {bad : Fin 256}
    (hlow : bad.val % 16 ≠ 0) (hhigh : bad.val / 16 ≠ 0) : exec (.xindaordLinkUp bad) s = .next s := by
  rw [exec_xindaordLinkUp hp hdown hclk, decide_eq_false hlow, decide_eq_false hhigh, Bool.or_self, when_false, run_skip]

theorem exec_helloSend (hup : s.pairUp = true) (hen : s.pairEn = true) : exec .helloSend s =
    .next ((sendMsg clsMgmt (.hello (s.cfd PAIR.CFG 1 1) s.pairState (s.bit PAIR.STATUS 5))).run s) := by
  refine (board_next _ hp).trans (congrArg _ ?_)
  rw [run_look, hup, hen, Bool.and_self, when_true]

end Link

/-- The link shows down once it went down, out of PAIRED and JOINING. -/
theorem pairUp_pairDown {s : State} (hst : s.pairState ∉ [prPaired, prJoining]) : (pairDown.run s).pairUp = false := by
  have hkeeps : ∀ u : State, u.rd PAIR.STATUS = ((wrB PAIR.STATUS 3 false).run s).rd PAIR.STATUS → u.pairUp = false := by
    intro u hu
    rw [State.pairUp, State.bit, hu]
    refine (tbit_rd_wr s PAIR.STATUS _ (by omega)).trans ?_
    rw [tbit_setField_same, Bool.false_and]
  have hpaired : s.pairState ≠ prPaired := fun h => hst (by simp [h])
  have hjoining : s.pairState ≠ prJoining := fun h => hst (by simp [h])
  rw [pairDown, run_look, decide_eq_false hpaired, decide_eq_false hjoining]
  refine hkeeps _ ?_
  have c : Composes fun s t : State => t.rd PAIR.STATUS = s.rd PAIR.STATUS := composes_keep fun s => s.rd PAIR.STATUS
  refine (c.cons (p := inc PAIR.LINK_DOWN_CNT) (fun v => rd_wr_other v _ (by decide)) (c.cons (p := int Pg.pair 0 2)
    (fun v => (side_int Pg.pair 0 2 v).copy .live _ (by simp [sideReg])) (c.cons (fun v => rfl) (c.cons c.skip (c.cons c.skip c.nil))))
    ((wrB PAIR.STATUS 3 false).run s))

/-! ## Heartbeats, time and silence (R464, R469, R474) -/

theorem copy_leaves_due (w : WEvent) (s : State) {b : Bank} {r : Reg} (hr : ¬ sideReg anyPage ⟨b, r.page, r.inst, r.off⟩) :
    ((leaves w false).run s).copy b r = s.copy b r := by
  simp only [leaves, run_all_cons, run_all_nil, when_false, run_skip]
  exact (side_peep 2 1 w.dom _).copy b r hr

section Beats

variable {s : State} (e : WEvent)

theorem pairState_leaves : ((leaves e false).run s).pairState = s.pairState := by
  rw [State.pairState, State.fd, rd_leaves_due e s (by simp [sideReg]), State.pairState, State.fd]

theorem beats_leaves : ((leaves e false).run s).beats = s.beats := by rw [State.beats, pairState_leaves, State.beats]

theorem cbit_leaves (r : Reg) (i : Nat) : ((leaves e false).run s).cbit r i = s.cbit r i := by
  rw [State.cbit, State.cfg, copy_leaves_due e s (by simp [sideReg])]
  rfl

variable {e} (hp : s.powered)
include hp

theorem exec_heartbeatSend (hbeats : s.beats = true) (h : s.fires e .hbSend) : exec .heartbeatSend s = .next ((doAll [leaves e false,
    pairOut clsHb 0 .heartbeat, inc PAIR.HB_TX_CNT, nextPeriod e false]).run s) := by
  refine (board_next _ hp).trans (congrArg _ ?_)
  rw [run_dispatch_due _ h rfl, run_look, beats_leaves, hbeats, when_true]
  simp only [run_all_cons, run_all_nil]

theorem exec_deadPeerTimeout_steps (h : s.steps e .deadPeer) :
    exec .deadPeerTimeout s = .next ((doAll [leaves e true, restartAtStep e]).run s) := by
  refine (board_next _ hp).trans (congrArg _ ?_)
  rw [run_dispatch_stepped _ h rfl, run_look, if_pos rfl, run_all_cons, run_all_cons, run_all_nil]

section Dead

variable (h : s.fires e .deadPeer) (hbeats : s.beats = true)
include h hbeats

theorem exec_deadPeerTimeout_declares (hdeclares : s.cbit PAIR.CFG 3 = true) :
    exec .deadPeerTimeout s = .next ((doAll [leaves e false, declareDead]).run s) := by
  refine (board_next _ hp).trans (congrArg _ ?_)
  rw [run_dispatch_due _ h rfl, run_look, if_neg Bool.false_ne_true, beats_leaves, hbeats, when_true, cbit_leaves, if_pos hdeclares,
    run_all_cons, run_all_cons, run_all_nil]

theorem exec_deadPeerTimeout_suspends (hsuspends : s.cbit PAIR.CFG 3 = false) (hst : s.pairState ≠ prJoining) :
    exec .deadPeerTimeout s = .next ((doAll [leaves e false, leavePaired prSuspended, int Pg.pair 0 4]).run s) := by
  refine (board_next _ hp).trans (congrArg _ ?_)
  rw [run_dispatch_due _ h rfl, run_look, if_neg Bool.false_ne_true, beats_leaves, hbeats, when_true, cbit_leaves, hsuspends,
    if_neg Bool.false_ne_true, pairState_leaves, decide_eq_false hst, when_false]
  simp only [run_all_cons, run_all_nil, run_skip]

end Dead

end Beats

section Time

variable {s : State} {n : Fin 8} {m : TimeMsg} (hp : s.powered) (hup : s.pairUp = true) (hon : s.pairState ≠ prOff)
  (hgoes : s.pairState ≠ prFenced) (hmirrors : s.cbit PAIR.MIRROR_CFG n.val = true)

/-- What a message that goes out changes of the pair: no register, and nothing but the messages that wait for the link. -/
theorem pairOut_frame (c q : Nat) (x : PMsg) (s : State) : ((pairOut c q x).run s).reg = s.reg ∧
    ((pairOut c q x).run s).ctl.pair.admEpoch = s.ctl.pair.admEpoch := by
  rw [pairOut, run_look]
  cases s.mayTalk c <;> exact ⟨rfl, rfl⟩

theorem rd_pairOut (c q : Nat) (x : PMsg) (s : State) (r : Reg) : ((pairOut c q x).run s).rd r = s.rd r := by
  rw [State.rd, State.copy, (pairOut_frame c q x s).1]
  rfl

theorem pairEn_pairOut (c q : Nat) (x : PMsg) (s : State) : ((pairOut c q x).run s).pairEn = s.pairEn := by
  rw [State.pairEn, State.cbit, State.cfg, State.copy, (pairOut_frame c q x s).1]
  rfl

include hp hup hon hgoes hmirrors

/-- A masked domain's stamp goes out, and the peer's message is taken by its epoch. -/
theorem exec_timeExchange : exec (.timeExchange n m) s = .next ((epochCheck m.epoch.toNat (doAll [
    wrW (PAIR.TOFF n.val) m.off.toNat,
    Prog.when (decide (s.fd PAIR.TIME_ALARM_NS 19 0 * 256 < (toSigned 64 m.off.toNat).natAbs)) (int Pg.pair 0 5)])).run
      ((pairOut clsTime 0 (.stamp n.val)).run s)) := by
  refine (board_next _ hp).trans (congrArg _ ?_)
  rw [run_look, hup, decide_eq_true hon, decide_eq_true hgoes, hmirrors, Bool.and_self, Bool.and_self, Bool.and_self, when_true,
    run_all_cons, run_all_cons, run_all_nil]

theorem exec_timeExchange_same (hen : s.pairEn = true) (he : m.epoch.toNat = s.rd PAIR.EPOCH) : exec (.timeExchange n m) s =
    .next ((doAll [pairOut clsTime 0 (.stamp n.val), wr PAIR.PEER_EPOCH m.epoch.toNat, wrW (PAIR.TOFF n.val) m.off.toNat,
      Prog.when (decide (s.fd PAIR.TIME_ALARM_NS 19 0 * 256 < (toSigned 64 m.off.toNat).natAbs)) (int Pg.pair 0 5)]).run s) := by
  rw [exec_timeExchange hp hup hon hgoes hmirrors, run_epochCheck ((pairEn_pairOut _ _ _ s).trans hen) (.inl (by rw [rd_pairOut, he])),
    run_all_cons (pairOut _ _ _), run_all_cons (wr _ _)]

theorem exec_timeExchange_newer (hen : s.pairEn = true) (hnew : s.rd PAIR.EPOCH < m.epoch.toNat) (hst : s.pairState ≠ prJoining) :
    exec (.timeExchange n m) s = .next ((doAll [
      pairOut clsTime 0 (.stamp n.val), wr PAIR.PEER_EPOCH m.epoch.toNat, enterFenced 2]).run s) := by
  have hst' : ((pairOut clsTime 0 (.stamp n.val)).run s).pairState = s.pairState := by
    rw [State.pairState, State.fd, rd_pairOut, State.pairState, State.fd]
  rw [exec_timeExchange hp hup hon hgoes hmirrors, epochCheck, run_look, pairEn_pairOut, hen, rd_pairOut, hst',
    if_neg (by decide), if_neg fun h => h.elim (by omega) fun h => hst h.1, if_neg (by omega)]
  simp only [run_all_cons, run_all_nil]

end Time

theorem exec_pairRto {s : State} (hp : s.powered) {c : Fin 6} {e : Nat × PMsg} {l : List (Nat × PMsg)}
    (hkept : (s.stream c.val).kept = e :: l) (htalks : s.mayTalk c.val = true) : exec (.pairRto c) s = .next ((doAll [
      modStream c.val fun x => { x with tries := x.tries + 1 }, inc PAIR.RETX_CNT, resendStream c.val e.1,
      Prog.when (decide (max 1 (s.cfd PAIR.LINK_CFG 15 8) ≤ (s.stream c.val).tries + 1)) (doAll [
        modStream c.val fun x => { x with tries := 0 }, pairDown])]).run s) := by
  refine (board_next _ hp).trans (congrArg _ ?_)
  rw [run_look]
  dsimp only
  rw [hkept]
  dsimp only
  rw [htalks, when_true]

theorem says_pairLinkAndBeats : Says.PairLinkAndBeats := by
  unfold Says.PairLinkAndBeats
  intro s hp
  exact ⟨fun hup => ⟨exec_xindaordLinkDown hp hup, _, exec_xindaordLinkDown hp hup, pairUp_pairDown⟩,
    fun hdown hclk bad => ⟨exec_xindaordLinkUp_comes hp hdown hclk, exec_xindaordLinkUp_stays hp hdown hclk⟩,
    exec_helloSend hp, fun hbeats e => exec_heartbeatSend hp hbeats,
    fun e => ⟨exec_deadPeerTimeout_steps hp,
      fun h hbeats => ⟨exec_deadPeerTimeout_declares hp h hbeats, exec_deadPeerTimeout_suspends hp h hbeats⟩⟩,
    fun n m hup hon hgoes hmirrors => ⟨exec_timeExchange_same hp hup hon hgoes hmirrors, exec_timeExchange_newer hp hup hon hgoes hmirrors⟩,
    fun c e l => exec_pairRto hp⟩

/-! ## Pairs form and join (R465, R466, R469, R476) -/

section Forms

variable {s : State} {a : Accessor} (hs : s.serves a Pg.pair)
include hs

/-- A write of PAIR.CTL where it may act. -/
theorem exec_pairCtl {ok : State → Bool} (p : Prog) (hok : ok s = true) : done (pairCtl a ok p) s = .next (p.run s) := by
  refine (byWriter_next _ _ hs).trans (congrArg _ ?_)
  rw [run_look, if_pos hok]

theorem exec_form (hst : s.pairState = prAlone) (hepoch : s.rd PAIR.EPOCH = 0) : exec (.form a) s =
    .next ((doAll [wr PAIR.EPOCH 1, dropStreams, modPair fun p => { p with formed := true }]).run s) :=
  exec_pairCtl hs _ (by rw [decide_eq_true hst, decide_eq_true hepoch, Bool.and_self])

theorem exec_join (hen : s.pairEn = true) (hst : s.pairState ∈ [prAlone, prFenced]) (hasked : s.ctl.pair.asked = 0) :
    exec (.join a) s = .next ((askAdmission 2).run s) := by
  have hor : (decide (s.pairState = prAlone) || decide (s.pairState = prFenced)) = true := by simpa using hst
  exact exec_pairCtl hs _ (by rw [hen, hor, decide_eq_true hasked, Bool.and_self, Bool.and_self])

theorem exec_admitJoin (hen : s.pairEn = true) (hst : s.pairState = prAlone)
    (hmay : s.bit PAIR.STATUS 5 = true ∨ s.ctl.pair.formed = true) (hasked : s.ctl.pair.asked = 0) :
    exec (.admitJoin a) s = .next ((askAdmission 1).run s) := by
  have hor : (s.bit PAIR.STATUS 5 || s.ctl.pair.formed) = true := by rwa [Bool.or_eq_true]
  exact exec_pairCtl hs _ (by rw [hen, decide_eq_true hst, hor, decide_eq_true hasked, Bool.and_self, Bool.and_self, Bool.and_self])

theorem exec_declare (hcore : a.isPort = false) (hst : s.pairState = prSuspended) : exec (.declare a) s = .next (declareDead.run s) :=
  exec_pairCtl hs _ (by rw [hcore, decide_eq_true hst, Bool.not_false, Bool.and_self])

end Forms

/-- What holds of the default and of every value after a change holds of every entry. -/
theorem tget_map_of {ν : Type} {P : ν → Prop} {d : ν} (hd : P d) {f : ν → ν} (hf : ∀ x, P (f x)) (l : Tbl ν) (k : Nat) :
    P (tget d (l.map fun e => (e.1, f e.2)) k) := by
  rw [tget]
  split
  next e hfind =>
    obtain ⟨e', _, rfl⟩ := List.mem_map.mp (List.mem_of_find?_eq_some hfind)
    exact hf _
  next => exact hd

/-- A dropped stream has nothing to send. -/
theorem stream_dropStreams (s : State) (c : Nat) : ((dropStreams.run s).stream c).kept = [] ∧ ((dropStreams.run s).stream c).queue = [] :=
  tget_map_of (P := fun x : PStream => x.kept = [] ∧ x.queue = []) (d := PStream.init) ⟨rfl, rfl⟩
    (f := fun x => { x with kept := [], queue := [] }) (fun _ => ⟨rfl, rfl⟩) s.ctl.pair.streams c

theorem exec_form_forms {s : State} {a : Accessor} (hs : s.serves a Pg.pair) (hst : s.pairState = prAlone) (hepoch : s.rd PAIR.EPOCH = 0) :
    ∃ t, exec (.form a) s = .next t ∧ t.rd PAIR.EPOCH = 1 ∧ t.ctl.pair.formed = true ∧
      (∀ c, (t.stream c).kept = [] ∧ (t.stream c).queue = []) ∧ t.ctl.pair.held = [] ∧ t.mem = s.mem :=
  ⟨_, exec_form hs hst hepoch, rd_wr_mod s PAIR.EPOCH 1 (w := 32) le_rfl (by decide +kernel), rfl,
    stream_dropStreams ((wr PAIR.EPOCH 1).run s), rfl, rfl⟩

theorem exec_admissionComplete {s : State} {epoch : Word} (hp : s.powered) (hst : s.pairState = prJoining)
    (hclash : s.ctl.pair.clash = false) (hover : s.ctl.pair.asked = 1 → s.resyncOver = true) :
    exec (.admissionComplete epoch) s = .next ((doAll [
      Prog.when (decide (s.ctl.pair.asked ≠ 1)) (doAll [wr PAIR.EPOCH epoch.toNat, dropStreams]),
      setPair prPaired, wrB PAIR.STATUS 5 false,
      modBlk fun b => { b with vols := b.vols.map fun e => if s.volPair e.1 then (e.1, { e.2 with solo := false }) else e },
      wr PAIR.RESYNC_STATUS 100, int Pg.pair 0 3, mend MA.PAIR_RESYNC 0xFF, Prog.when s.ctl.pair.wasFenced leaveFenced,
      modPair fun p => { p with
        asked := 0
        mine := false
        theirs := false
        wasFenced := false
        resyncing := false
        admEpoch := none }]).run s) := by
  have hready : (!decide (s.ctl.pair.asked = 1) || s.resyncOver) = true := by
    by_cases h : s.ctl.pair.asked = 1
    · rw [hover h, Bool.or_true]
    · rw [decide_eq_false h, Bool.not_false, Bool.true_or]
  refine (board_next _ hp).trans (congrArg _ ?_)
  rw [run_look]
  dsimp only
  rw [decide_eq_true hst, hclash, hready, Bool.not_false, Bool.and_self, Bool.and_self, when_true, ← decide_not]

theorem says_pairsFormAndJoin : Says.PairsFormAndJoin := by
  unfold Says.PairsFormAndJoin
  exact ⟨fun s a hs => ⟨exec_form_forms hs, exec_join hs, exec_admitJoin hs, exec_declare hs⟩,
    fun s epoch => exec_admissionComplete⟩

/-- Settles O53: the pair's link and beats, and pairs form and join. -/
theorem pairLinksFormAndJoin : Obligations.PairLinksFormAndJoin := ⟨says_pairLinkAndBeats, says_pairsFormAndJoin⟩

end Sys2Proof.Machine
end

section
/-! PROOF. Pads, GPIO, and the low-speed controllers: I2C, UARTs, octal SPI and MDIO (R402, R515 to R525). -/

namespace Sys2Proof.Machine

/-! ## Pads and GPIO (R515 to R517, R523) -/

section Pads

variable {s : State} (hp : s.powered)
include hp

theorem exec_padSwitchDisconnect (hpend : s.isPending Pg.pad 0 = true) (hidle : s.ctl.lsio.switching = [])
    (hchanges : s.funcChanges .pending ≠ []) : exec .padSwitchDisconnect s = .next ((doAll [
      modLsio fun x => { x with switching := s.funcChanges .pending }, wrB PAD.PAD_STATUS 0 true, showPads]).run s) := by
  refine (board_next _ hp).trans (congrArg _ ?_)
  rw [run_look]
  dsimp only
  rw [hpend, hidle, List.isEmpty_nil, List.isEmpty_eq_false_iff.mpr hchanges, Bool.not_false, Bool.and_self, Bool.and_self, when_true]

theorem exec_padSwitchConnect (hbusy : s.ctl.lsio.switching ≠ []) (levels : DWord) : exec (.padSwitchConnect levels) s =
    .next ((doAll [endCommit Pg.pad 0,
      modLsio fun x => { x with
        switching := []
        levels := levels.toNat },
      wrB PAD.PAD_STATUS 0 false, showPads, int Pg.pad 0 0]).run s) := by
  refine (board_next _ hp).trans (congrArg _ ?_)
  rw [run_look, List.isEmpty_eq_false_iff.mpr hbusy, Bool.not_false, when_true]

theorem exec_gpioEdge {p : Fin 64} (hidle : p.val ∉ s.ctl.lsio.switching) : exec (.gpioEdge p) s = .next ((doAll [
    modLsio fun x => { x with levels := setField x.levels p.val p.val (b2n (!tbit s.ctl.lsio.levels p.val)) }, showPads,
    Prog.when (decide (s.padFunc p.val = 0) &&
        s.bit ⟨4, (if !tbit s.ctl.lsio.levels p.val then 0x528 else 0x530) + 4 * (p.val / 32), 0⟩ (p.val % 32))
      (doAll [wrB ⟨4, 0x538 + 4 * (p.val / 32), 0⟩ (p.val % 32) true, int Pg.lsio 0 14])]).run s) := by
  refine (board_next _ hp).trans (congrArg _ ?_)
  rw [run_look]
  dsimp only
  rw [decide_eq_false hidle, Bool.not_false, when_true]

end Pads

section Gpio

variable {s : State} {a : Accessor} (h : Fin 2) (v : Word) (hs : s.serves a Pg.lsio)

/-- GPIO_OUT of a half. -/
def gpioOut (h : Fin 2) : Reg := ⟨4, 0x500 + 4 * h.val, 0⟩

/-- GPIO_OUT implements every bit. -/
theorem bit_wr_gpioOut (s : State) (x : Nat) {i : Nat} (hi : i < 32) : ((wr (gpioOut h) x).run s).bit (gpioOut h) i = tbit x i := by
  have hmask : maskAt .live (gpioOut h).page (gpioOut h).off = 2 ^ 32 - 1 := by
    revert h
    decide +kernel
  rw [State.bit, tbit_rd_wr _ _ _ hi, hmask, tbit_eq (2 ^ 32 - 1), Nat.testBit_two_pow_sub_one, decide_eq_true hi, Bool.and_true]

include hs

theorem exec_gpioSet : exec (.gpioSet a h v) s = .next ((wr (gpioOut h) (s.rd (gpioOut h) ||| v.toNat)).run s) :=
  byWriter_next _ _ hs

theorem exec_gpioClr : exec (.gpioClr a h v) s = .next ((wr (gpioOut h) (s.rd (gpioOut h) &&& notN 32 v.toNat)).run s) :=
  byWriter_next _ _ hs

end Gpio

theorem says_padsAndGpio : Says.PadsAndGpio := by
  unfold Says.PadsAndGpio
  intro s
  refine ⟨exec_padSwitchDisconnect, exec_padSwitchConnect, fun hp p hidle => exec_gpioEdge hp hidle, fun a h v hs => ⟨?_, ?_⟩⟩
  · refine ⟨_, exec_gpioSet h v hs, fun i hi => ?_, fun b q hne => copy_wr_other s _ hne, rfl, rfl⟩
    exact (bit_wr_gpioOut h s _ hi).trans (tbit_or ..)
  · refine ⟨_, exec_gpioClr h v hs, fun i hi => ?_, fun b q hne => copy_wr_other s _ hne, rfl, rfl⟩
    refine (bit_wr_gpioOut h s _ hi).trans ?_
    rw [tbit_and, tbit_notN hi]
    rfl

/-! ## I2C (R518, R519) -/

section I2c

variable {s : State} {n : Fin 4}

section Cmd

variable {a : Accessor} {v : Word} (hs : s.serves a Pg.lsio)

theorem i2c_cmd (s : State) (n : Fin 4) (x : Nat) : ((wr (LSIO.I2C_CMD n.val) x).run s).i2c n.val = s.i2c n.val := by
  have hne : LSIO.I2C_STATUS n.val ≠ LSIO.I2C_CMD n.val := fun e => by
    have := congrArg Reg.off e
    simp only [LSIO.I2C_STATUS, LSIO.I2C_CMD] at this
    omega
  rw [State.i2c, State.fd, rd_wr_other _ _ hne, State.i2c, State.fd]

include hs

/-- A write of I2Cn_CMD with GO alone acts by the controller's state. -/
theorem exec_i2cGo (hgo : tbit v.toNat 31 = true) (hno : tbit v.toNat 30 = false) : exec (.i2cGo a n v) s =
    .next ((goI2c n.val).run ((wr (LSIO.I2C_CMD n.val) (v.toNat % 2 ^ 30)).run s)) := by
  refine (byWriter_next _ _ hs).trans (congrArg _ ?_)
  rw [run_all_cons, run_all_cons, run_all_cons, run_all_nil, run_look, hno, hgo, Bool.false_and, when_false, when_true, run_skip]

theorem exec_i2cGo_idle (hgo : tbit v.toNat 31 = true) (hno : tbit v.toNat 30 = false) (hst : s.i2c n.val = 0) :
    exec (.i2cGo a n v) s = .next ((doAll [wr (LSIO.I2C_CMD n.val) (v.toNat % 2 ^ 30), startI2c n.val]).run s) := by
  rw [exec_i2cGo hs hgo hno, goI2c, run_look, i2c_cmd, hst, if_pos rfl, run_all_cons, run_all_cons, run_all_nil]

theorem exec_i2cGo_recovering (hgo : tbit v.toNat 31 = true) (hno : tbit v.toNat 30 = false) (hst : s.i2c n.val = 2) :
    exec (.i2cGo a n v) s = .next ((doAll [wr (LSIO.I2C_CMD n.val) (v.toNat % 2 ^ 30),
      modLsio fun x => { x with i2cGo := fset x.i2cGo n.val true }]).run s) := by
  rw [exec_i2cGo hs hgo hno, goI2c, run_look, i2c_cmd, hst, if_neg (by decide), if_pos rfl, run_all_cons, run_all_cons, run_all_nil]

theorem exec_i2cGo_stuck (hgo : tbit v.toNat 31 = true) (hno : tbit v.toNat 30 = false) (hst : s.i2c n.val = 3) :
    exec (.i2cGo a n v) s = .next ((doAll [wr (LSIO.I2C_CMD n.val) (v.toNat % 2 ^ 30), endI2c n.val 3 7]).run s) := by
  rw [exec_i2cGo hs hgo hno, goI2c, run_look, i2c_cmd, hst, if_neg (by decide), if_neg (by decide), if_pos rfl, run_all_cons, run_all_cons,
    run_all_nil]

theorem exec_recover (hrec : tbit v.toNat 30 = true) (hno : tbit v.toNat 31 = false) (hst : s.i2c n.val ≠ 4) : exec (.recover a n v) s =
    .next ((doAll [wr (LSIO.I2C_CMD n.val) (v.toNat % 2 ^ 30), wrF (LSIO.I2C_STATUS n.val) 2 0 2]).run s) := by
  refine (byWriter_next _ _ hs).trans (congrArg _ ?_)
  rw [run_all_cons, run_all_cons, run_all_cons, run_all_nil, run_look, i2c_cmd, hrec, hno, decide_eq_true hst, Bool.and_self, when_true,
    when_false, run_skip, run_all_cons, run_all_cons, run_all_nil, recoverI2c]

end Cmd

section Bus

variable (hp : s.powered)
include hp

theorem exec_i2cTransferDone (r : Fin 6) (data : List Byte) (hst : s.i2c n.val = 1) : exec (.i2cTransferDone n r data) s = .next ((doAll [
    Prog.when (s.bit (LSIO.I2C_CMD n.val) 7)
      (modLsio fun x => { x with i2cRx := nmod [] x.i2cRx n.val (· ++ data.take (s.fd (LSIO.I2C_CMD n.val) 13 8)) }),
    endI2c n.val 0 r.val]).run s) := by
  refine (board_next _ hp).trans (congrArg _ ?_)
  rw [run_look, decide_eq_true hst, when_true]

theorem exec_i2cSclTimeout (hst : s.i2c n.val = 1) (hsmbus : s.cbit (LSIO.I2C_CTL n.val) 3 = true) :
    exec (.i2cSclTimeout n) s = .next ((endI2c n.val 0 4).run s) := by
  refine (board_next _ hp).trans (congrArg _ ?_)
  rw [run_look, decide_eq_true hst, hsmbus, Bool.and_self, when_true]

theorem exec_sdaStuckLow (hst : s.i2c n.val = 0) : exec (.sdaStuckLow n) s = .next ((wrF (LSIO.I2C_STATUS n.val) 2 0 2).run s) := by
  refine (board_next _ hp).trans (congrArg _ ?_)
  rw [run_look, decide_eq_true hst, when_true, recoverI2c]

section Recovery

variable (hst : s.i2c n.val = 2) (hgo : tget false s.ctl.lsio.i2cGo n.val = false) (pulses : Fin 10)
include hst hgo

theorem exec_recoveryEnd_good : exec (.recoveryEnd n pulses true) s = .next ((doAll [
    modLsio fun x => { x with i2cGo := fset x.i2cGo n.val false }, wrF (LSIO.I2C_STATUS n.val) 15 12 pulses.val,
    inc (LSIO.I2C_RECOV_CNT n.val), wrF (LSIO.I2C_STATUS n.val) 2 0 0]).run s) := by
  refine (board_next _ hp).trans (congrArg _ ?_)
  rw [run_look]
  dsimp only
  rw [decide_eq_true hst, when_true, if_pos rfl, hgo, when_false]
  simp only [run_all_cons, run_all_nil, run_skip]

theorem exec_recoveryEnd_stuck : exec (.recoveryEnd n pulses false) s = .next ((doAll [
    modLsio fun x => { x with i2cGo := fset x.i2cGo n.val false }, wrF (LSIO.I2C_STATUS n.val) 2 0 3,
    wrF (LSIO.I2C_STATUS n.val) 11 8 7, int Pg.lsio 0 (4 + n.val), err Pg.lsio 0 EC.OTHER (4 + n.val) 0]).run s) := by
  refine (board_next _ hp).trans (congrArg _ ?_)
  rw [run_look]
  dsimp only
  rw [decide_eq_true hst, when_true, if_neg Bool.false_ne_true, hgo, when_false]
  simp only [run_all_cons, run_all_nil, run_skip]

end Recovery

end Bus

/-- A read takes the oldest byte received, which a port without management leaves. -/
theorem exec_i2cDataRead {a : Accessor} (ho : s.open a Pg.lsio = true) {b : Byte} {l : List Byte}
    (hrx : tget [] s.ctl.lsio.i2cRx n.val = b :: l) : exec (.i2cDataRead a n) s = .next ((answer b.toNat).run
      ((Prog.when (s.owner a) (modLsio fun x => { x with i2cRx := nmod [] x.i2cRx n.val List.tail })).run s)) := by
  refine (byReader_next _ ho).trans (congrArg _ ?_)
  rw [run_look, takeByte, run_look, hrx]
  dsimp only
  rw [run_all_cons, run_all_cons, run_all_nil]

end I2c

theorem says_i2cTransfers : Says.I2cTransfers := by
  unfold Says.I2cTransfers
  intro s n
  refine ⟨fun a v hs => ⟨fun hgo hno => ⟨exec_i2cGo_idle hs hgo hno, exec_i2cGo_recovering hs hgo hno, exec_i2cGo_stuck hs hgo hno⟩,
    exec_recover hs⟩, fun hp => ⟨exec_i2cTransferDone hp, exec_i2cSclTimeout hp, exec_sdaStuckLow hp,
      fun hst hgo pulses => ⟨exec_recoveryEnd_good hp hst hgo pulses, exec_recoveryEnd_stuck hp hst hgo pulses⟩⟩, fun a ho b l hrx => ?_⟩
  refine ⟨_, exec_i2cDataRead ho hrx, rfl, ?_⟩
  cases s.owner a with
  | false => exact ⟨rfl, rfl, hrx⟩
  | true =>
    refine ⟨rfl, rfl, ?_⟩
    refine (tget_nmod_same [] s.ctl.lsio.i2cRx n.val List.tail).trans ?_
    rw [hrx]
    rfl

/-! ## UARTs (R520) -/

section Uart

variable {s : State} {u : Fin 2}

/-- A change of a FIFO is a write of what it becomes, where it holds what it held. -/
theorem run_uartRx_push (s t : State) (u : Nat) (b : Byte) (h : t.ctl.lsio = s.ctl.lsio) :
    (modLsio fun x => { x with uartRx := nmod [] x.uartRx u (· ++ [b]) }).run t =
      (modLsio fun x => { x with uartRx := nset [] x.uartRx u (tget [] s.ctl.lsio.uartRx u ++ [b]) }).run t := by
  rw [← h]
  rfl

theorem exec_uartRxChar (hp : s.powered) (hen : s.cbit (LSIO.UART_CTL u.val) 0 = true) (b : Byte) (frame parity brk : Bool) :
    exec (.uartRxChar u b frame parity brk) s = .next ((doAll [
      wrB (LSIO.UART_STATUS u.val) 16 brk, Prog.when frame (wrB (LSIO.UART_STATUS u.val) 17 true),
      Prog.when (parity && s.cbit (LSIO.UART_CTL u.val) 1) (wrB (LSIO.UART_STATUS u.val) 18 true),
      if (tget [] s.ctl.lsio.uartRx u.val).length < 64 then doAll [
        modLsio fun x => { x with uartRx := nset [] x.uartRx u.val (tget [] s.ctl.lsio.uartRx u.val ++ [b]) },
        showUart u.val, int Pg.lsio 0 (8 + u.val)]
      else inc (LSIO.UART_RX_OVR_CNT u.val)]).run s) := by
  have c : Composes fun s t : State => t.ctl.lsio = s.ctl.lsio := composes_keep (·.ctl.lsio)
  have hwr : ∀ i x, (wrB (LSIO.UART_STATUS u.val) i x).within fun s t => t.ctl.lsio = s.ctl.lsio := fun i x =>
    within_look fun _ s => congrArg Ctl.lsio (ctl_wr s _ _)
  have hkeeps := c.trans (c.trans (hwr 16 brk s) (c.when (b := frame) (hwr 17 true) _))
    (c.when (b := parity && s.cbit (LSIO.UART_CTL u.val) 1) (hwr 18 true) _)
  refine (board_next _ hp).trans (congrArg _ ?_)
  rw [run_look, hen, when_true]
  simp only [run_all_cons, run_all_nil]
  split_ifs
  · rw [run_all_cons, run_uartRx_push s _ _ _ hkeeps, run_all_cons (modLsio _)]
  · rfl

theorem exec_uartTxChar (hp : s.powered) (hen : s.cbit (LSIO.UART_CTL u.val) 0 = true) {b : Byte} {l : List Byte}
    (htx : tget [] s.ctl.lsio.uartTx u.val = b :: l) : exec (.uartTxChar u) s = .next ((doAll [
      emit (.ctrlBus 17 u.val [b]), modLsio fun x => { x with uartTx := nset [] x.uartTx u.val l }, showUart u.val]).run s) := by
  refine (board_next _ hp).trans (congrArg _ ?_)
  rw [run_look, htx]
  dsimp only
  rw [hen, when_true, bus]

/-- What a UART's STATUS shows changes that register alone. -/
theorem showUart_frame (u : Nat) (s : State) : ((showUart u).run s).mem = s.mem ∧ ((showUart u).run s).ctl = s.ctl ∧
    ∀ b r, (b, r) ≠ (.live, LSIO.UART_STATUS u) → ((showUart u).run s).copy b r = s.copy b r := by
  refine ⟨rfl, rfl, fun b r hne => ?_⟩
  rw [showUart, run_look, run_all_cons, run_all_cons, run_all_nil]
  exact (copy_wr_other _ _ hne).trans (copy_wr_other _ _ hne)

/-- STATUS shows how many characters wait to be sent. -/
theorem fd_showUart_tx (u : Fin 2) (s : State) : ((showUart u.val).run s).fd (LSIO.UART_STATUS u.val) 14 8 =
    (tget [] s.ctl.lsio.uartTx u.val).length % 2 ^ 7 := by
  have hholds : (LSIO.UART_STATUS u.val).holds 14 8 := by
    revert u
    decide +kernel
  rw [showUart, run_look, run_all_cons, run_all_cons, run_all_nil, fd_wrF_same _ _ _ (by omega) hholds]

theorem exec_uartDataWrite {a : Accessor} (v : Word) (hs : s.serves a Pg.lsio) (hroom : (tget [] s.ctl.lsio.uartTx u.val).length < 64) :
    exec (.uartDataWrite a u v) s = .next ((showUart u.val).run
      ((modLsio fun x => { x with uartTx := nmod [] x.uartTx u.val (· ++ [BitVec.ofNat 8 v.toNat]) }).run s)) := by
  refine (byWriter_next _ _ hs).trans (congrArg _ ?_)
  rw [run_look, decide_eq_true hroom, when_true, run_all_cons, run_all_cons, run_all_nil]

theorem exec_uartDataRead {a : Accessor} (ho : s.open a Pg.lsio = true) {b : Byte} {l : List Byte}
    (hrx : tget [] s.ctl.lsio.uartRx u.val = b :: l) : exec (.uartDataRead a u) s = .next ((answer (b.toNat + 2 ^ 31)).run
      ((Prog.when (s.owner a) (doAll [modLsio fun x => { x with uartRx := nmod [] x.uartRx u.val List.tail }, showUart u.val])).run s)) := by
  refine (byReader_next _ ho).trans (congrArg _ ?_)
  rw [run_look, takeByte, run_look, hrx]
  dsimp only
  rw [run_all_cons, run_all_cons, run_all_nil, b2n, if_pos rfl, Nat.one_mul]

end Uart

theorem says_uartFifos : Says.UartFifos := by
  unfold Says.UartFifos
  intro s u
  refine ⟨exec_uartRxChar, fun a v hs hroom => ?_, fun hp hen b l => exec_uartTxChar hp hen, fun a ho b l hrx => ?_⟩
  · obtain ⟨hmem, hctl, hcopy⟩ := showUart_frame u.val
      ((modLsio fun x => { x with uartTx := nmod [] x.uartTx u.val (· ++ [BitVec.ofNat 8 v.toNat]) }).run s)
    have htx : tget [] ((modLsio fun x => { x with uartTx := nmod [] x.uartTx u.val (· ++ [BitVec.ofNat 8 v.toNat]) }).run
        s).ctl.lsio.uartTx u.val = tget [] s.ctl.lsio.uartTx u.val ++ [v.setWidth 8] :=
      (tget_nmod_same [] s.ctl.lsio.uartTx u.val (· ++ [BitVec.ofNat 8 v.toNat])).trans (by rw [BitVec.ofNat_toNat])
    refine ⟨_, exec_uartDataWrite v hs hroom, hctl ▸ htx, ?_, hcopy, hmem⟩
    rw [fd_showUart_tx, htx, List.length_append, List.length_singleton]
    omega
  · refine ⟨_, exec_uartDataRead ho hrx, rfl, ?_⟩
    cases s.owner a with
    | false => exact ⟨rfl, hrx.symm ▸ rfl⟩
    | true =>
      refine ⟨rfl, ?_⟩
      refine (tget_nmod_same [] s.ctl.lsio.uartRx u.val List.tail).trans ?_
      rw [hrx]
      rfl

/-! ## Octal SPI and MDIO (R402, R521, R522) -/

section Ospi

variable {s : State} {a : Accessor} {v : Word}

/-- What a GO of an octal-SPI controller does before its command goes on. -/
def ospiTakes (s : State) (a : Accessor) (i : Nat) (v : Word) : Prog := doAll [
  wr (LSIO.OSPI_CMD i) (v.toNat % 2 ^ 31), wrB (LSIO.OSPI_STATUS i) 0 true,
  modLsio fun x => { x with
    ospiHost := fset x.ospiHost i a.isPort
    ospiOp := nset OspiOp.none x.ospiOp i ⟨v.toNat % 2 ^ 31, s.rd (LSIO.OSPI_ADDR i), s.ospiLen i,
      if field v.toNat 23 22 = 0 then [] else s.ospiBytes i (s.ospiLen i)⟩ }]

/-- The power-fail state and the guard are as they were. -/
def sameSupply (s t : State) : Prop := (t.rd SUPPLY.PF_STATE, t.rd SUPPLY.GUARD_STATUS) = (s.rd SUPPLY.PF_STATE, s.rd SUPPLY.GUARD_STATUS)

theorem composes_sameSupply : Composes sameSupply := composes_keep fun s => (s.rd SUPPLY.PF_STATE, s.rd SUPPLY.GUARD_STATUS)

theorem sameSupply_wr {r : Reg} (hr : r.page = 4) (v : Nat) : (wr r v).within sameSupply := fun s =>
  have hne : ∀ q : Reg, q.page = 40 → q ≠ r := fun q hq e => by rw [e, hr] at hq; exact absurd hq (by decide)
  Prod.ext (rd_wr_other s v (hne _ rfl)) (rd_wr_other s v (hne _ rfl))

theorem sameSupply_wrB {r : Reg} (hr : r.page = 4) (i : Nat) (b : Bool) : (wrB r i b).within sameSupply :=
  within_look fun _ => sameSupply_wr hr _

theorem sameSupply_ospiTakes (s : State) (a : Accessor) (i : Nat) (v : Word) : (ospiTakes s a i v).within sameSupply :=
  composes_sameSupply.cons (sameSupply_wr rfl _) (composes_sameSupply.cons (sameSupply_wrB rfl _ _)
    (composes_sameSupply.cons (fun _ => rfl) composes_sameSupply.nil))

theorem pf_of_sameSupply {s t : State} (h : sameSupply s t) : t.pf = s.pf := congrArg (fun v => field v 1 0) (congrArg Prod.fst h)

theorem guarded_of_sameSupply {s t : State} (h : sameSupply s t) : t.guarded = s.guarded :=
  congrArg (fun v => tbit v 0) (congrArg Prod.snd h)

/-- What a program or erase does once it was taken: it is ABORTED, waits under the guard, or goes out (R402). -/
theorem run_programOrErase {s t : State} (h : sameSupply s t) (i : Nat) :
    (if t.pf ≠ 0 then modLsio fun x => { x with ospiSt := nset none x.ospiSt i (some ST.ABORTED) }
      else doAll [Prog.when t.guarded (wrB (LSIO.OSPI_STATUS i) 1 true), nvStart (.ospi i) (sendOspi i)]).run t = (
    if s.pf ≠ 0 then modLsio fun x => { x with ospiSt := nset none x.ospiSt i (some ST.ABORTED) }
      else if s.guarded then doAll [wrB (LSIO.OSPI_STATUS i) 1 true, inc SUPPLY.NV_BLOCK_CNT,
        modLsio fun x => { x with nvWait := x.nvWait ++ [.ospi i] }]
      else sendOspi i).run t := by
  have hshown := composes_sameSupply.trans h (sameSupply_wrB (r := LSIO.OSPI_STATUS i) rfl 1 true t)
  rw [pf_of_sameSupply h, guarded_of_sameSupply h]
  by_cases hfail : s.pf = 0
  · rw [if_neg (not_not_intro hfail), if_neg (not_not_intro hfail), run_all_cons, run_all_cons, run_all_nil, nvStart, run_look]
    cases hg : s.guarded with
    | true =>
      rw [when_true, pf_of_sameSupply hshown, guarded_of_sameSupply hshown, hg, if_neg (not_not_intro hfail), if_pos rfl, if_pos rfl,
        run_all_cons (wrB _ _ _)]
      rfl
    | false =>
      rw [when_false, run_skip, pf_of_sameSupply h, guarded_of_sameSupply h, hg, if_neg (not_not_intro hfail),
        if_neg Bool.false_ne_true, if_neg Bool.false_ne_true]
  · rw [if_pos hfail, if_pos hfail]

variable {i : Fin 2} (hs : s.serves a Pg.lsio) (hgo : tbit v.toNat 31 = true) (hen : s.cbit (LSIO.OSPI_CTL i.val) 0 = true)
  (hidle : s.bit (LSIO.OSPI_STATUS i.val) 0 = false)
include hs hgo hen hidle

/-- A GO of its KIND on an enabled and idle controller takes the command. -/
theorem exec_ospiCmd {kind : Nat} (p : Prog) (hkind : field v.toNat 23 22 = kind) :
    done (ospiCmd a i.val kind v p) s = .next ((doAll [ospiTakes s a i.val v, p]).run s) := by
  subst hkind
  refine (byWriter_next _ _ hs).trans (congrArg _ ?_)
  rw [run_look, hgo, hen, hidle, decide_eq_true rfl, Bool.not_false, Bool.and_self, Bool.and_self, Bool.and_self, when_true, ospiTakes]
  simp only [run_all_cons, run_all_nil]

theorem exec_programOrErase (hkind : field v.toNat 23 22 = 2) : exec (.programOrErase a i v) s =
    .next ((doAll [ospiTakes s a i.val v, get fun t =>
      if a.isPort && t.ospiProtected i.val then modLsio fun x => { x with ospiSt := nset none x.ospiSt i.val (some ST.ACCESS_DENIED) }
      else if s.pf ≠ 0 then modLsio fun x => { x with ospiSt := nset none x.ospiSt i.val (some ST.ABORTED) }
      else if s.guarded then doAll [wrB (LSIO.OSPI_STATUS i.val) 1 true, inc SUPPLY.NV_BLOCK_CNT,
        modLsio fun x => { x with nvWait := x.nvWait ++ [.ospi i.val] }]
      else sendOspi i.val]).run s) := by
  refine (exec_ospiCmd hs hgo hen hidle _ hkind).trans (congrArg _ ?_)
  rw [run_all_cons, run_all_cons, run_all_nil, run_look, run_all_cons, run_all_cons, run_all_nil, run_look, run_ite,
    run_programOrErase (sameSupply_ospiTakes s a i.val v s), ← run_ite]

end Ospi

section Mdio

/-- A GO of its OP on an enabled and idle MDIO master sends its frame. -/
theorem exec_mdioCmd {s : State} {a : Accessor} {v : Word} {m : Fin 2} (op : Nat) (hs : s.serves a Pg.lsio) (hgo : tbit v.toNat 31 = true)
    (hen : s.cbit (LSIO.MDIO_CTL m.val) 0 = true) (hidle : s.bit (LSIO.MDIO_STATUS m.val) 0 = false) (hop : field v.toNat 12 10 = op) :
    done (mdioCmd a m.val op v) s = .next ((doAll [
      wr (LSIO.MDIO_CMD m.val) (v.toNat % 2 ^ 31), wrB (LSIO.MDIO_STATUS m.val) 0 true,
      modLsio fun x => { x with mdioOp := nset 0 x.mdioOp m.val op },
      emit (.ctrlBus 19 m.val (leBytes 2 (field v.toNat 12 0) ++ leBytes 2 (s.fd (LSIO.MDIO_DATA m.val) 15 0)))]).run s) := by
  refine (byWriter_next _ _ hs).trans (congrArg _ ?_)
  rw [run_look, hgo, hen, hidle, decide_eq_true hop, Bool.not_false, Bool.and_self, Bool.and_self, Bool.and_self, when_true, run_all_last, bus]

theorem exec_mdioDone {s : State} {m : Fin 2} (hp : s.powered) (hbusy : s.bit (LSIO.MDIO_STATUS m.val) 0 = true) (data : BitVec 16)
    (driven : Bool) : exec (.mdioDone m data driven) s = .next ((doAll [wrB (LSIO.MDIO_STATUS m.val) 0 false,
      Prog.when (decide (tget 0 s.ctl.lsio.mdioOp m.val ∈ [1, 4, 5])) (wr (LSIO.MDIO_DATA m.val) data.toNat),
      wrB (LSIO.MDIO_STATUS m.val) 1 (decide (tget 0 s.ctl.lsio.mdioOp m.val = 1) && !driven), int Pg.lsio 0 (12 + m.val)]).run s) := by
  refine (board_next _ hp).trans (congrArg _ ?_)
  rw [run_look]
  dsimp only
  rw [hbusy, when_true]

end Mdio

theorem says_flashAndMdioCommands : Says.FlashAndMdioCommands := by
  unfold Says.FlashAndMdioCommands
  intro s a v
  exact ⟨fun i hs hgo hen hidle => ⟨exec_ospiCmd hs hgo hen hidle _, exec_ospiCmd hs hgo hen hidle _, exec_programOrErase hs hgo hen hidle⟩,
    fun m hs hgo hen hidle => ⟨exec_mdioCmd 0 hs hgo hen hidle, exec_mdioCmd 1 hs hgo hen hidle, exec_mdioCmd 2 hs hgo hen hidle,
      exec_mdioCmd 3 hs hgo hen hidle, exec_mdioCmd 4 hs hgo hen hidle, exec_mdioCmd 5 hs hgo hen hidle⟩,
    fun m hp hbusy data driven => exec_mdioDone hp hbusy data driven⟩

/-- Settles O59: pads switch, and the serial controllers run their commands. -/
theorem padsAndSerialControllers : Obligations.PadsAndSerialControllers :=
  ⟨says_padsAndGpio, says_i2cTransfers, says_uartFifos, says_flashAndMdioCommands⟩

end Sys2Proof.Machine
end
